-- ==== Sys2Proof/Word.lean ====
section
/-! DEFINITION. The word types of the DL-880 (R5, R20, R21, R25, R40) and their plainest constants. -/

namespace Sys2Proof

/-- A byte of storage. -/
abbrev Byte := BitVec 8
/-- A 64-bit word: a scalar register, a CSR, an address while it is computed (R20, R30, R55). -/
abbrev Word := BitVec 64
/-- A slot word of a bundle (R40). -/
abbrev SlotWord := BitVec 32
/-- A bundle of four slots (R39). -/
abbrev Bundle := BitVec 128
/-- A 512-byte vector value (R21, R180). Byte j of the value is bits [8j+7:8j]. -/
abbrev Vec := BitVec 4096
/-- A mask register, or 512 byte enables (R25, R410). -/
abbrev Mask := BitVec 512
/-- A core's number, CORE_ID (R33, R317). -/
abbrev CoreId := Fin 256
/-- A compute die or base die (R3). -/
abbrev DieId := Fin 8

end Sys2Proof
end

