-- ==== Sys2Proof/Syntax.lean ====
section
/-! DEFINITION. The operations and events of the DL-880: one constructor per row of spec/opcode_table.json.
The 192 rows with an encoding are the operations of a bundle's slots (R40, R56-R60); their arguments are the
fields of the slot word, under the table's names. The 150 rows without one are the steps of the sequencer, the
engines, the distributor, the Belfry, the controllers and the outside world; such a row has no operand fields in
the table: which unit moves, and what an outside party supplies, stands in the state's `arg`, the operands of the
event in progress. -/

namespace Sys2Proof

/-- The instructions: every row of the opcode table, the rows with operand fields first. -/
inductive Instr where
  /-- ADD (R134). -/
  | add (p : BitVec 3) (n : BitVec 1) (d : BitVec 6) (a : BitVec 6) (b : BitVec 6)
  /-- SUB (R134). -/
  | sub (p : BitVec 3) (n : BitVec 1) (d : BitVec 6) (a : BitVec 6) (b : BitVec 6)
  /-- MUL (R134). -/
  | mul (p : BitVec 3) (n : BitVec 1) (d : BitVec 6) (a : BitVec 6) (b : BitVec 6)
  /-- MULH (R134). -/
  | mulh (p : BitVec 3) (n : BitVec 1) (d : BitVec 6) (a : BitVec 6) (b : BitVec 6)
  /-- MULHN (R134). -/
  | mulhn (p : BitVec 3) (n : BitVec 1) (d : BitVec 6) (a : BitVec 6) (b : BitVec 6)
  /-- DIV (R135). -/
  | div (p : BitVec 3) (n : BitVec 1) (d : BitVec 6) (a : BitVec 6) (b : BitVec 6)
  /-- DIVN (R135). -/
  | divn (p : BitVec 3) (n : BitVec 1) (d : BitVec 6) (a : BitVec 6) (b : BitVec 6)
  /-- REM (R135). -/
  | rem (p : BitVec 3) (n : BitVec 1) (d : BitVec 6) (a : BitVec 6) (b : BitVec 6)
  /-- REMN (R135). -/
  | remn (p : BitVec 3) (n : BitVec 1) (d : BitVec 6) (a : BitVec 6) (b : BitVec 6)
  /-- AND (R134). -/
  | andR (p : BitVec 3) (n : BitVec 1) (d : BitVec 6) (a : BitVec 6) (b : BitVec 6)
  /-- OR (R134). -/
  | orR (p : BitVec 3) (n : BitVec 1) (d : BitVec 6) (a : BitVec 6) (b : BitVec 6)
  /-- XOR (R134). -/
  | xor (p : BitVec 3) (n : BitVec 1) (d : BitVec 6) (a : BitVec 6) (b : BitVec 6)
  /-- ANDN (R134). -/
  | andn (p : BitVec 3) (n : BitVec 1) (d : BitVec 6) (a : BitVec 6) (b : BitVec 6)
  /-- SHL (R134). -/
  | shl (p : BitVec 3) (n : BitVec 1) (d : BitVec 6) (a : BitVec 6) (b : BitVec 6)
  /-- SHR (R134). -/
  | shr (p : BitVec 3) (n : BitVec 1) (d : BitVec 6) (a : BitVec 6) (b : BitVec 6)
  /-- SAR (R134). -/
  | sar (p : BitVec 3) (n : BitVec 1) (d : BitVec 6) (a : BitVec 6) (b : BitVec 6)
  /-- ROTR (R134). -/
  | rotr (p : BitVec 3) (n : BitVec 1) (d : BitVec 6) (a : BitVec 6) (b : BitVec 6)
  /-- MIN (R134). -/
  | min (p : BitVec 3) (n : BitVec 1) (d : BitVec 6) (a : BitVec 6) (b : BitVec 6)
  /-- MAX (R134). -/
  | max (p : BitVec 3) (n : BitVec 1) (d : BitVec 6) (a : BitVec 6) (b : BitVec 6)
  /-- MINN (R134). -/
  | minn (p : BitVec 3) (n : BitVec 1) (d : BitVec 6) (a : BitVec 6) (b : BitVec 6)
  /-- MAXN (R134). -/
  | maxn (p : BitVec 3) (n : BitVec 1) (d : BitVec 6) (a : BitVec 6) (b : BitVec 6)
  /-- CLZ (R134). -/
  | clz (p : BitVec 3) (n : BitVec 1) (d : BitVec 6) (a : BitVec 6)
  /-- POPC (R134). -/
  | popc (p : BitVec 3) (n : BitVec 1) (d : BitVec 6) (a : BitVec 6)
  /-- ABS (R134). -/
  | abs (p : BitVec 3) (n : BitVec 1) (d : BitVec 6) (a : BitVec 6)
  /-- EXT (R136). -/
  | ext (p : BitVec 3) (n : BitVec 1) (d : BitVec 6) (a : BitVec 6) (b : BitVec 6)
  /-- INS (R136). -/
  | ins (p : BitVec 3) (n : BitVec 1) (d : BitVec 6) (a : BitVec 6) (b : BitVec 6)
  /-- LEA1 (R134). -/
  | lea1 (p : BitVec 3) (n : BitVec 1) (d : BitVec 6) (a : BitVec 6) (b : BitVec 6)
  /-- LEA2 (R134). -/
  | lea2 (p : BitVec 3) (n : BitVec 1) (d : BitVec 6) (a : BitVec 6) (b : BitVec 6)
  /-- LEA4 (R134). -/
  | lea4 (p : BitVec 3) (n : BitVec 1) (d : BitVec 6) (a : BitVec 6) (b : BitVec 6)
  /-- LEA8 (R134). -/
  | lea8 (p : BitVec 3) (n : BitVec 1) (d : BitVec 6) (a : BitVec 6) (b : BitVec 6)
  /-- MOV (R134). -/
  | mov (p : BitVec 3) (n : BitVec 1) (d : BitVec 6) (a : BitVec 6)
  /-- CMP (R139). -/
  | cmp (p : BitVec 3) (c : BitVec 4) (d : BitVec 3) (a : BitVec 6) (b : BitVec 6)
  /-- ADDI (R137). -/
  | addi (p : BitVec 3) (n : BitVec 1) (d : BitVec 6) (a : BitVec 6) (i : BitVec 6)
  /-- MULI (R137). -/
  | muli (p : BitVec 3) (n : BitVec 1) (d : BitVec 6) (a : BitVec 6) (i : BitVec 6)
  /-- ANDI (R137). -/
  | andi (p : BitVec 3) (n : BitVec 1) (d : BitVec 6) (a : BitVec 6) (i : BitVec 6)
  /-- ORI (R137). -/
  | ori (p : BitVec 3) (n : BitVec 1) (d : BitVec 6) (a : BitVec 6) (i : BitVec 6)
  /-- XORI (R137). -/
  | xori (p : BitVec 3) (n : BitVec 1) (d : BitVec 6) (a : BitVec 6) (i : BitVec 6)
  /-- SHLI (R137). -/
  | shli (p : BitVec 3) (n : BitVec 1) (d : BitVec 6) (a : BitVec 6) (i : BitVec 6)
  /-- SHRI (R137). -/
  | shri (p : BitVec 3) (n : BitVec 1) (d : BitVec 6) (a : BitVec 6) (i : BitVec 6)
  /-- SARI (R137). -/
  | sari (p : BitVec 3) (n : BitVec 1) (d : BitVec 6) (a : BitVec 6) (i : BitVec 6)
  /-- MOVI (R138). -/
  | movi (p : BitVec 3) (n : BitVec 1) (d : BitVec 6) (i : BitVec 6)
  /-- MOVHI (R138). -/
  | movhi (p : BitVec 3) (n : BitVec 1) (d : BitVec 6) (a : BitVec 6) (i : BitVec 6)
  /-- CMPI (R139). -/
  | cmpi (p : BitVec 3) (c : BitVec 4) (d : BitVec 3) (a : BitVec 6) (i : BitVec 6)
  /-- LDS (R140). -/
  | lds (p : BitVec 3) (w : BitVec 3) (n : BitVec 1) (d : BitVec 6) (a : BitVec 6) (o : BitVec 4) (m : BitVec 2)
  /-- STS (R140). -/
  | sts (p : BitVec 3) (w : BitVec 2) (d : BitVec 6) (a : BitVec 6) (o : BitVec 4) (m : BitVec 2)
  /-- VSET (R144). -/
  | vset (p : BitVec 3) (v : BitVec 3) (a : BitVec 6)
  /-- VGET (R145). -/
  | vget (p : BitVec 3) (n : BitVec 1) (d : BitVec 6) (v : BitVec 3)
  /-- CSRR (R259). -/
  | csrr (p : BitVec 3) (n : BitVec 1) (d : BitVec 6) (c : BitVec 12)
  /-- CSRW (R259). -/
  | csrw (p : BitVec 3) (h : BitVec 6) (a : BitVec 6) (l : BitVec 6)
  /-- TRAP (R271). -/
  | trap (p : BitVec 3) (t : BitVec 6)
  /-- TRET (R274). -/
  | tret (p : BitVec 3)
  /-- DCHK (R268). -/
  | dchk (p : BitVec 3) (a : BitVec 6) (b : BitVec 6)
  /-- DCHK_V (R268). -/
  | dchkV (p : BitVec 3) (a : BitVec 6) (b : BitVec 6)
  /-- DCHK_A (R268). -/
  | dchkA (p : BitVec 3) (a : BitVec 6) (b : BitVec 6)
  /-- JOIN (R262). -/
  | join (p : BitVec 3) (n : BitVec 1) (d : BitVec 6) (a : BitVec 6)
  /-- LEAVE (R263). -/
  | leave (p : BitVec 3) (a : BitVec 6)
  /-- YIELD (R265). -/
  | yield (p : BitVec 3)
  /-- YIELD_EV (R265). -/
  | yieldEv (p : BitVec 3)
  /-- STEP (R266). -/
  | step (p : BitVec 3) (a : BitVec 6)
  /-- MIRROR (R267). -/
  | mirror (p : BitVec 3) (e : BitVec 3) (a : BitVec 6)
  /-- PREP (R147). -/
  | prep (p : BitVec 3) (t : BitVec 3) (i : BitVec 12)
  /-- XFER (R149). -/
  | xfer (p : BitVec 3) (t : BitVec 3)
  /-- XFERE (R149). -/
  | xfere (p : BitVec 3) (t : BitVec 3) (w : BitVec 6)
  /-- XFERA (R149). -/
  | xfera (p : BitVec 3) (t : BitVec 3) (w : BitVec 6)
  /-- CALL (R152). -/
  | call (p : BitVec 3) (t : BitVec 3) (l : BitVec 6)
  /-- RET (R153). -/
  | ret (p : BitVec 3) (a : BitVec 6)
  /-- HALT (R154). -/
  | halt (p : BitVec 3)
  /-- LOOP (R158). -/
  | loop (p : BitVec 3) (c : BitVec 6) (o : BitVec 12)
  /-- LOOPS (R158). -/
  | loops (p : BitVec 3) (c : BitVec 6) (s : BitVec 2) (o : BitVec 10)
  /-- LBRK (R166). -/
  | lbrk (p : BitVec 3)
  /-- LBRK_D (R166). -/
  | lbrkD (p : BitVec 3)
  /-- PAND (R155). -/
  | pand (p : BitVec 3) (d : BitVec 3) (a : BitVec 3) (b : BitVec 3)
  /-- POR (R155). -/
  | por (p : BitVec 3) (d : BitVec 3) (a : BitVec 3) (b : BitVec 3)
  /-- PXOR (R155). -/
  | pxor (p : BitVec 3) (d : BitVec 3) (a : BitVec 3) (b : BitVec 3)
  /-- PNOT (R155). -/
  | pnot (p : BitVec 3) (d : BitVec 3) (a : BitVec 3)
  /-- PMOV (R155). -/
  | pmov (p : BitVec 3) (d : BitVec 3) (a : BitVec 3)
  /-- PALL (R156). -/
  | pall (p : BitVec 3) (d : BitVec 3) (a : BitVec 3) (w : BitVec 6)
  /-- PANY (R156). -/
  | pany (p : BitVec 3) (d : BitVec 3) (a : BitVec 3) (w : BitVec 6)
  /-- MPUSH (R175). -/
  | mpush (p : BitVec 3) (a : BitVec 3)
  /-- MPUSH_IN (R175). -/
  | mpushIn (p : BitVec 3) (a : BitVec 3)
  /-- MINV (R175). -/
  | minv (p : BitVec 3)
  /-- MPOP (R175). -/
  | mpop (p : BitVec 3)
  /-- MGET (R175). -/
  | mget (p : BitVec 3) (d : BitVec 3)
  /-- VADD (R183). -/
  | vadd (p : BitVec 3) (t : BitVec 3) (n : BitVec 1) (d : BitVec 6) (a : BitVec 6) (b : BitVec 6)
  /-- VSUB (R183). -/
  | vsub (p : BitVec 3) (t : BitVec 3) (n : BitVec 1) (d : BitVec 6) (a : BitVec 6) (b : BitVec 6)
  /-- VMUL (R183). -/
  | vmul (p : BitVec 3) (t : BitVec 3) (n : BitVec 1) (d : BitVec 6) (a : BitVec 6) (b : BitVec 6)
  /-- VFMA (R183). -/
  | vfma (p : BitVec 3) (t : BitVec 3) (n : BitVec 1) (d : BitVec 6) (a : BitVec 6) (b : BitVec 6)
  /-- VMIN (R183). -/
  | vmin (p : BitVec 3) (t : BitVec 3) (n : BitVec 1) (d : BitVec 6) (a : BitVec 6) (b : BitVec 6)
  /-- VMAX (R183). -/
  | vmax (p : BitVec 3) (t : BitVec 3) (n : BitVec 1) (d : BitVec 6) (a : BitVec 6) (b : BitVec 6)
  /-- VNEG (R183). -/
  | vneg (p : BitVec 3) (t : BitVec 3) (n : BitVec 1) (d : BitVec 6) (a : BitVec 6)
  /-- VABS (R183). -/
  | vabs (p : BitVec 3) (t : BitVec 3) (n : BitVec 1) (d : BitVec 6) (a : BitVec 6)
  /-- VCMP (R184). -/
  | vcmp (p : BitVec 3) (c : BitVec 3) (t : BitVec 2) (d : BitVec 3) (a : BitVec 6) (b : BitVec 6)
  /-- VSEL (R185). -/
  | vsel (p : BitVec 3) (n : BitVec 1) (d : BitVec 6) (a : BitVec 6) (b : BitVec 6)
  /-- VAND (R185). -/
  | vand (p : BitVec 3) (n : BitVec 1) (d : BitVec 6) (a : BitVec 6) (b : BitVec 6)
  /-- VOR (R185). -/
  | vor (p : BitVec 3) (n : BitVec 1) (d : BitVec 6) (a : BitVec 6) (b : BitVec 6)
  /-- VXOR (R185). -/
  | vxor (p : BitVec 3) (n : BitVec 1) (d : BitVec 6) (a : BitVec 6) (b : BitVec 6)
  /-- VSHL (R185). -/
  | vshl (p : BitVec 3) (n : BitVec 1) (d : BitVec 6) (a : BitVec 6) (b : BitVec 6)
  /-- VSHR (R185). -/
  | vshr (p : BitVec 3) (n : BitVec 1) (d : BitVec 6) (a : BitVec 6) (b : BitVec 6)
  /-- VSAR (R185). -/
  | vsar (p : BitVec 3) (n : BitVec 1) (d : BitVec 6) (a : BitVec 6) (b : BitVec 6)
  /-- VMOV (R185). -/
  | vmov (p : BitVec 3) (n : BitVec 1) (d : BitVec 6) (a : BitVec 6)
  /-- VCVT (R186). -/
  | vcvt (p : BitVec 3) (n : BitVec 1) (d : BitVec 6) (a : BitVec 6) (k : BitVec 4) (h : BitVec 1)
  /-- VCVTZ (R186). -/
  | vcvtz (p : BitVec 3) (n : BitVec 1) (d : BitVec 6) (a : BitVec 6) (k : BitVec 4) (h : BitVec 1)
  /-- VPACK8 (R187). -/
  | vpack8 (p : BitVec 3) (n : BitVec 1) (d : BitVec 6) (a : BitVec 6) (z : BitVec 1) (t : BitVec 2) (q : BitVec 2)
  /-- VUNPK8 (R187). -/
  | vunpk8 (p : BitVec 3) (n : BitVec 1) (d : BitVec 6) (a : BitVec 6) (t : BitVec 2) (q : BitVec 2)
  /-- VQNT4 (R188). -/
  | vqnt4 (p : BitVec 3) (n : BitVec 1) (d : BitVec 6) (a : BitVec 6) (t : BitVec 2)
  /-- VDQ4 (R189). -/
  | vdq4 (p : BitVec 3) (n : BitVec 1) (d : BitVec 6) (a : BitVec 6) (h : BitVec 1) (f : BitVec 1)
  /-- VRCP (R190). -/
  | vrcp (p : BitVec 3) (n : BitVec 1) (d : BitVec 6) (a : BitVec 6)
  /-- VRSQ (R190). -/
  | vrsq (p : BitVec 3) (n : BitVec 1) (d : BitVec 6) (a : BitVec 6)
  /-- VEXP2 (R190). -/
  | vexp2 (p : BitVec 3) (n : BitVec 1) (d : BitVec 6) (a : BitVec 6)
  /-- VLOG2 (R190). -/
  | vlog2 (p : BitVec 3) (n : BitVec 1) (d : BitVec 6) (a : BitVec 6)
  /-- VTANH (R190). -/
  | vtanh (p : BitVec 3) (n : BitVec 1) (d : BitVec 6) (a : BitVec 6)
  /-- VSIGM (R190). -/
  | vsigm (p : BitVec 3) (n : BitVec 1) (d : BitVec 6) (a : BitVec 6)
  /-- VSIN (R190). -/
  | vsin (p : BitVec 3) (n : BitVec 1) (d : BitVec 6) (a : BitVec 6)
  /-- VCOS (R190). -/
  | vcos (p : BitVec 3) (n : BitVec 1) (d : BitVec 6) (a : BitVec 6)
  /-- VRED_ADD (R191). -/
  | vredAdd (p : BitVec 3) (n : BitVec 1) (d : BitVec 6) (a : BitVec 6) (t : BitVec 3)
  /-- VRED_MAX (R191). -/
  | vredMax (p : BitVec 3) (n : BitVec 1) (d : BitVec 6) (a : BitVec 6) (t : BitVec 3)
  /-- VRED_MIN (R191). -/
  | vredMin (p : BitVec 3) (n : BitVec 1) (d : BitVec 6) (a : BitVec 6) (t : BitVec 3)
  /-- VSCAN_ADD (R192). -/
  | vscanAdd (p : BitVec 3) (n : BitVec 1) (d : BitVec 6) (a : BitVec 6) (t : BitVec 3)
  /-- VTOPK (R194). -/
  | vtopk (p : BitVec 3) (n : BitVec 1) (d : BitVec 6) (a : BitVec 6) (k : BitVec 3)
  /-- VGMAX (R193). -/
  | vgmax (p : BitVec 3) (n : BitVec 1) (d : BitVec 6) (a : BitVec 6) (g : BitVec 3)
  /-- VPERM (R197). -/
  | vperm (p : BitVec 3) (n : BitVec 1) (d : BitVec 6) (a : BitVec 6) (b : BitVec 6)
  /-- VIOTA (R198). -/
  | viota (p : BitVec 3) (n : BitVec 1) (d : BitVec 6) (a : BitVec 6)
  /-- VBCAST (R196). -/
  | vbcast (p : BitVec 3) (n : BitVec 1) (d : BitVec 6) (a : BitVec 6) (b : BitVec 6)
  /-- VEXTR (R199). -/
  | vextr (p : BitVec 3) (n : BitVec 1) (d : BitVec 6) (a : BitVec 6) (b : BitVec 6)
  /-- VMKC (R200). -/
  | vmkc (p : BitVec 3) (d : BitVec 3) (a : BitVec 6) (w : BitVec 2)
  /-- MMA_ACC (R208). -/
  | mmaAcc (p : BitVec 3) (f : BitVec 3) (d : BitVec 6) (a : BitVec 6) (b : BitVec 6)
  /-- MMA_OVW (R208). -/
  | mmaOvw (p : BitVec 3) (f : BitVec 3) (d : BitVec 6) (a : BitVec 6) (b : BitVec 6)
  /-- MMA_DEC (R208). -/
  | mmaDec (p : BitVec 3) (f : BitVec 3) (d : BitVec 6) (a : BitVec 6) (b : BitVec 6)
  /-- MDECAY (R209). -/
  | mdecay (p : BitVec 3) (a : BitVec 6)
  /-- MZERO (R210). -/
  | mzero (p : BitVec 3) (d : BitVec 6)
  /-- MCVT (R212). -/
  | mcvt (p : BitVec 3) (d : BitVec 6) (a : BitVec 6) (z : BitVec 1) (t : BitVec 2)
  /-- MTRN (R213). -/
  | mtrn (p : BitVec 3) (d : BitVec 6) (a : BitVec 6)
  /-- MLDT (R217). -/
  | mldt (p : BitVec 3) (d : BitVec 6) (a : BitVec 6) (b : BitVec 6)
  /-- MREL (R218). -/
  | mrel (p : BitVec 3) (t : BitVec 4)
  /-- MSTT (R219). -/
  | mstt (p : BitVec 3) (d : BitVec 6) (a : BitVec 6) (b : BitVec 6)
  /-- MNEST (R221). -/
  | mnest (p : BitVec 3) (l : BitVec 3)
  /-- MNWAIT_N (R225). -/
  | mnwaitN (p : BitVec 3)
  /-- MNWAIT_T (R225). -/
  | mnwaitT (p : BitVec 3)
  /-- MNWAIT_NT (R225). -/
  | mnwaitNt (p : BitVec 3)
  /-- MRAG (R215). -/
  | mrag (p : BitVec 3) (a : BitVec 6)
  /-- MSCALE (R211). -/
  | mscale (p : BitVec 3) (d : BitVec 6) (a : BitVec 6) (b : BitVec 6)
  /-- LDV (R230). -/
  | ldv (p : BitVec 3) (d : BitVec 6) (a : BitVec 6) (o : BitVec 4) (m : BitVec 2)
  /-- STV (R230). -/
  | stv (p : BitVec 3) (d : BitVec 6) (a : BitVec 6) (o : BitVec 4) (m : BitVec 2)
  /-- LDVG (R231). -/
  | ldvg (p : BitVec 3) (d : BitVec 6) (a : BitVec 6) (b : BitVec 6)
  /-- STVS (R231). -/
  | stvs (p : BitVec 3) (d : BitVec 6) (a : BitVec 6) (b : BitVec 6)
  /-- LDVB (R230). -/
  | ldvb (p : BitVec 3) (d : BitVec 6) (a : BitVec 6) (o : BitVec 4) (m : BitVec 2)
  /-- AADD (R232). -/
  | aadd (p : BitVec 3) (d : BitVec 6) (a : BitVec 6) (o : BitVec 4) (m : BitVec 2)
  /-- AMIN (R232). -/
  | amin (p : BitVec 3) (d : BitVec 6) (a : BitVec 6) (o : BitVec 4) (m : BitVec 2)
  /-- AMAX (R232). -/
  | amax (p : BitVec 3) (d : BitVec 6) (a : BitVec 6) (o : BitVec 4) (m : BitVec 2)
  /-- AAND (R232). -/
  | aand (p : BitVec 3) (d : BitVec 6) (a : BitVec 6) (o : BitVec 4) (m : BitVec 2)
  /-- AOR (R232). -/
  | aor (p : BitVec 3) (d : BitVec 6) (a : BitVec 6) (o : BitVec 4) (m : BitVec 2)
  /-- AXCH (R232). -/
  | axch (p : BitVec 3) (d : BitVec 6) (a : BitVec 6) (o : BitVec 4) (m : BitVec 2)
  /-- ACAS (R232). -/
  | acas (p : BitVec 3) (d : BitVec 6) (a : BitVec 6) (o : BitVec 4) (m : BitVec 2)
  /-- AADDF (R232). -/
  | aaddf (p : BitVec 3) (d : BitVec 6) (a : BitVec 6) (o : BitVec 4) (m : BitVec 2)
  /-- VAADD (R231). -/
  | vaadd (p : BitVec 3) (d : BitVec 6) (a : BitVec 6) (b : BitVec 6)
  /-- FENCE (R233). -/
  | fence (p : BitVec 3) (k : BitVec 16)
  /-- ACQ (R234). -/
  | acq (p : BitVec 3) (s : BitVec 3)
  /-- REL (R234). -/
  | rel (p : BitVec 3) (s : BitVec 3)
  /-- FLUSH (R235). -/
  | flush (p : BitVec 3) (s : BitVec 3) (a : BitVec 6) (b : BitVec 6)
  /-- INVL (R235). -/
  | invl (p : BitVec 3) (a : BitVec 6) (b : BitVec 6)
  /-- CPY (R241). -/
  | cpy (p : BitVec 3) (d : BitVec 6) (a : BitVec 6) (b : BitVec 6)
  /-- CPYM (R243). -/
  | cpym (p : BitVec 3) (d : BitVec 6) (a : BitVec 6) (b : BitVec 6)
  /-- CPYW (R242). -/
  | cpyw (p : BitVec 3) (d : BitVec 6) (a : BitVec 6) (b : BitVec 6)
  /-- SBIND (R245). -/
  | sbind (p : BitVec 3) (d : BitVec 6) (a : BitVec 6) (m : BitVec 2) (q : BitVec 4)
  /-- SUNB (R247). -/
  | sunb (p : BitVec 3) (d : BitVec 6)
  /-- SDRN (R247). -/
  | sdrn (p : BitVec 3) (d : BitVec 6)
  /-- OWNT_CORE (R248). -/
  | owntCore (p : BitVec 3) (a : BitVec 6) (b : BitVec 6)
  /-- OWNT_ENG (R248). -/
  | owntEng (p : BitVec 3) (a : BitVec 6) (b : BitVec 6)
  /-- OWNT_F (R248). -/
  | owntF (p : BitVec 3) (a : BitVec 6) (b : BitVec 6)
  /-- OWNW (R248). -/
  | ownw (p : BitVec 3) (a : BitVec 6) (b : BitVec 6)
  /-- EVPOP (R250). -/
  | evpop (p : BitVec 3) (d : BitVec 6)
  /-- EVPOST (R250). -/
  | evpost (p : BitVec 3) (a : BitVec 6) (b : BitVec 6)
  /-- BARA (R249). -/
  | bara (p : BitVec 3) (b : BitVec 4)
  /-- BARW (R249). -/
  | barw (p : BitVec 3) (b : BitVec 4)
  /-- BARX (R249). -/
  | barx (p : BitVec 3) (d : BitVec 6) (a : BitVec 6) (b : BitVec 4)
  /-- WHPRE (R251). -/
  | whpre (p : BitVec 3) (a : BitVec 6)
  /-- WHWAIT (R251). -/
  | whwait (p : BitVec 3) (d : BitVec 6) (a : BitVec 6)
  /-- WHPIN (R251). -/
  | whpin (p : BitVec 3) (d : BitVec 6) (a : BitVec 6)
  /-- WHUNP (R251). -/
  | whunp (p : BitVec 3) (a : BitVec 6)
  /-- WHQRY (R251). -/
  | whqry (p : BitVec 3) (d : BitVec 6) (a : BitVec 6)
  /-- WHMAP (R251). -/
  | whmap (p : BitVec 3) (d : BitVec 6) (a : BitVec 6)
  /-- SNLOOK (R348). -/
  | snlook (p : BitVec 3) (d : BitVec 6) (a : BitVec 6)
  /-- SNSAVE (R253). -/
  | snsave (p : BitVec 3) (a : BitVec 6) (b : BitVec 6)
  /-- SNLOAD (R253). -/
  | snload (p : BitVec 3) (a : BitVec 6) (b : BitVec 6)
  /-- SNREL (R350). -/
  | snrel (p : BitVec 3) (a : BitVec 6)
  /-- SNHASH (R252). -/
  | snhash (p : BitVec 3) (d : BitVec 6) (a : BitVec 6) (b : BitVec 6)
  /-- RTPRED (R254). -/
  | rtpred (p : BitVec 3) (a : BitVec 6) (b : BitVec 6)
  /-- RTDISP (R341). -/
  | rtdisp (p : BitVec 3) (a : BitVec 6) (b : BitVec 6)
  /-- TINVR (R256). -/
  | tinvr (p : BitVec 3) (d : BitVec 6) (a : BitVec 6) (b : BitVec 6)
  /-- TINVA (R256). -/
  | tinva (p : BitVec 3) (a : BitVec 6)
  /-- PRFL (R236). -/
  | prfl (p : BitVec 3) (l : BitVec 1) (a : BitVec 6) (o : BitVec 4) (m : BitVec 2)
  /-- BUNDLE_ISSUE (R62). -/
  | bundleIssue
  /-- RESULT_COMPLETE (R133). -/
  | resultComplete
  /-- LOAD_COMPLETE (R141). -/
  | loadComplete
  /-- PREP_FETCH_COMPLETE (R147). -/
  | prepFetchComplete
  /-- LOOP_BUFFER_FILL (R159). -/
  | loopBufferFill
  /-- TRAP_ENTRY (R272). -/
  | trapEntry
  /-- MATRIX_OP_START (R203). -/
  | matrixOpStart
  /-- MATRIX_OP_COMPLETE (R203). -/
  | matrixOpComplete
  /-- TILE_FETCH_LAND (R217). -/
  | tileFetchLand
  /-- TILE_FETCH_FAULT (R226). -/
  | tileFetchFault
  /-- TILE_STORE_PERFORMED (R219). -/
  | tileStorePerformed
  /-- NEST_BUNDLE_ISSUE (R223). -/
  | nestBundleIssue
  /-- NEST_END (R224). -/
  | nestEnd
  /-- COPY_PIECE_PERFORMED (R238). -/
  | copyPiecePerformed
  /-- COPY_COMPLETE (R239). -/
  | copyComplete
  /-- ENGINE_FAULT (R257). -/
  | engineFault
  /-- MULTICAST_PIECE_LAND (R244). -/
  | multicastPieceLand
  /-- STREAM_FILL_ARRIVE (R281). -/
  | streamFillArrive
  /-- STREAM_DRAIN_WRITE (R123). -/
  | streamDrainWrite
  /-- BARRIER_ARRIVAL (R249). -/
  | barrierArrival
  /-- EVENT_RECORD_POST (R250). -/
  | eventRecordPost
  /-- WINDOW_ACCESS_ARRIVE (R126). -/
  | windowAccessArrive
  /-- TABLE_WALK (R413). -/
  | tableWalk
  /-- TASK_PLACE (R289). -/
  | taskPlace
  /-- LENT_WINDOW_ZEROED (R304). -/
  | lentWindowZeroed
  /-- SWTHR_EXPIRY (R290). -/
  | swthrExpiry
  /-- SLICE_EXPIRY (R290). -/
  | sliceExpiry
  /-- TASK_COMPLETE (R288). -/
  | taskComplete
  /-- COMPLETION_RECORD_WRITE (R397). -/
  | completionRecordWrite
  /-- ERROR_TOKEN (R294). -/
  | errorToken
  /-- DEADLINE_EXPIRY (R292). -/
  | deadlineExpiry
  /-- PRIORITY_AGING (R312). -/
  | priorityAging
  /-- H3WAIT_EXPIRY (R299). -/
  | h3waitExpiry
  /-- STEAL_REQUEST (R310). -/
  | stealRequest
  /-- STEAL_BACKOFF_EXPIRY (R310). -/
  | stealBackoffExpiry
  /-- GANG_START (R306). -/
  | gangStart
  /-- SCHEDULE_SELECT (R311). -/
  | scheduleSelect
  /-- TRANSFER_WINDOW_OPEN (R308). -/
  | transferWindowOpen
  /-- TRANSFER_WINDOW_CLOSE (R308). -/
  | transferWindowClose
  /-- GANG_CUT (R401). -/
  | gangCut
  /-- GANG_GRACE_EXPIRY (R401). -/
  | gangGraceExpiry
  /-- GSLICE_EXPIRY (R401). -/
  | gsliceExpiry
  /-- GANG_RESUME (R402). -/
  | gangResume
  /-- PREEMPT_TASK (R408). -/
  | preemptTask
  /-- CONTEXT_SAVE (R411). -/
  | contextSave
  /-- CONTEXT_RESTORE (R412). -/
  | contextRestore
  /-- HUNG_EXPIRY (R398). -/
  | hungExpiry
  /-- HANDLE_FILL_ALLOCATION (R328). -/
  | handleFillAllocation
  /-- EVICTOR_VICTIM (R328). -/
  | evictorVictim
  /-- HANDLE_FILL_COMPLETE (R330). -/
  | handleFillComplete
  /-- HANDLE_FILL_FAULT (R330). -/
  | handleFillFault
  /-- EVICTION_DRAIN_COMPLETE (R330). -/
  | evictionDrainComplete
  /-- HANDLE_FLIP (R330). -/
  | handleFlip
  /-- PIN_WAIT_RETRY (R334). -/
  | pinWaitRetry
  /-- HWAIT_EXPIRY (R333). -/
  | hwaitExpiry
  /-- RGRACE_EXPIRY (R333). -/
  | rgraceExpiry
  /-- PINWAIT_EXPIRY (R335). -/
  | pinwaitExpiry
  /-- LANTERN_SUBMISSION (R337). -/
  | lanternSubmission
  /-- LANTERN_PREFETCH_SEND (R338). -/
  | lanternPrefetchSend
  /-- LANTERN_AGE_EXPIRY (R338). -/
  | lanternAgeExpiry
  /-- INGRESS_APPEND (R341). -/
  | ingressAppend
  /-- DISPATCH_COMPLETE (R341). -/
  | dispatchComplete
  /-- SNSAVE_COMPLETE (R349). -/
  | snsaveComplete
  /-- SNLOAD_COMPLETE (R350). -/
  | snloadComplete
  /-- SNAPSHOT_ENGINE_FAULT (R253). -/
  | snapshotEngineFault
  /-- SNAPSHOT_EVICT (R352). -/
  | snapshotEvict
  /-- PXCTL_CLR (R352). -/
  | pxctlClr
  /-- QUEUE_DOORBELL (R388). -/
  | queueDoorbell
  /-- SUBMISSION_ENTRY_START (R387). -/
  | submissionEntryStart
  /-- NOPC (R393). -/
  | nopc
  /-- LAUNCH (R393). -/
  | launch
  /-- LAUNCHI (R393). -/
  | launchi
  /-- GANG (R400). -/
  | gang
  /-- WAIT (R393). -/
  | wait
  /-- LOOPC (R393). -/
  | loopc
  /-- IFC (R393). -/
  | ifc
  /-- WRITE (R393). -/
  | write
  /-- SIGNAL (R393). -/
  | signal
  /-- CHAIN (R393). -/
  | chain
  /-- END (R393). -/
  | endC
  /-- QACK_RESUME (R399). -/
  | qackResume
  /-- QACK_DISCARD (R399). -/
  | qackDiscard
  /-- PREEMPT_GO (R407). -/
  | preemptGo
  /-- REGISTER_WRITE (R480). -/
  | registerWrite
  /-- HOST_WINDOW_ACCESS (R425). -/
  | hostWindowAccess
  /-- HWMAP_WRITE (R425). -/
  | hwmapWrite
  /-- HCTL_QUIESCE (R378). -/
  | hctlQuiesce
  /-- HCTL_QUIESCE_COMPLETE (R378). -/
  | hctlQuiesceComplete
  /-- HCTL_UNQUIESCE (R378). -/
  | hctlUnquiesce
  /-- HCTL_REMAP (R378). -/
  | hctlRemap
  /-- HCTL_REMAP_COMPLETE (R378). -/
  | hctlRemapComplete
  /-- HCTL_CLRSTAT (R378). -/
  | hctlClrstat
  /-- HBM_ACTIVATION (R428). -/
  | hbmActivation
  /-- TRACKER_RESET (R428). -/
  | trackerReset
  /-- HBM_UNCORRECTABLE (R427). -/
  | hbmUncorrectable
  /-- LLCPART_WRITE (R426). -/
  | llcpartWrite
  /-- FORMAT_WINDOW_WRITE (R431). -/
  | formatWindowWrite
  /-- HSET_GO (R433). -/
  | hsetGo
  /-- NOLNUS_READ (R436). -/
  | nolnusRead
  /-- NOLNUS_WRITE (R436). -/
  | nolnusWrite
  /-- NOLNUS_ALLOC (R436). -/
  | nolnusAlloc
  /-- NOLNUS_FREE (R436). -/
  | nolnusFree
  /-- NOLNUS_DIGEST (R436). -/
  | nolnusDigest
  /-- NOLNUS_RELOC (R436). -/
  | nolnusReloc
  /-- READ_DISTURB_RELOCATION (R437). -/
  | readDisturbRelocation
  /-- WEAR_LEVEL_MOVE (R438). -/
  | wearLevelMove
  /-- FLASH_PROGRAM_FAILURE (R439). -/
  | flashProgramFailure
  /-- FLASH_UNCORRECTABLE (R439). -/
  | flashUncorrectable
  /-- LOADER_GO (R443). -/
  | loaderGo
  /-- LOADER_ABORT (R441). -/
  | loaderAbort
  /-- STAGET_EXPIRY (R443). -/
  | stagetExpiry
  /-- LOADER_FLIP (R444). -/
  | loaderFlip
  /-- DRAINT_EXPIRY (R444). -/
  | draintExpiry
  /-- MAPNEXT_INSTALL (R446). -/
  | mapnextInstall
  /-- MIGRATION_FILL (R446). -/
  | migrationFill
  /-- MAP_RETIRE (R446). -/
  | mapRetire
  /-- BOOST_BOUNDARY (R371). -/
  | boostBoundary
  /-- SENSOR_SAMPLE (R456). -/
  | sensorSample
  /-- THROTTLE_RECOVER (R457). -/
  | throttleRecover
  /-- CURRENT_LIMIT_RECOVER (R457). -/
  | currentLimitRecover
  /-- PWCMD_SAVE (R453). -/
  | pwcmdSave
  /-- EMERGENCY_SAVE_COMPLETE (R458). -/
  | emergencySaveComplete
  /-- HARD_TRIP (R459). -/
  | hardTrip
  /-- MODULE_RESET (R459). -/
  | moduleReset
  /-- PSREQ_WRITE (R461). -/
  | psreqWrite
  /-- POWER_UP (R462). -/
  | powerUp
  /-- CLRHOLD (R454). -/
  | clrhold
  /-- CLRSUSP (R454). -/
  | clrsusp
  /-- ATTEST (R468). -/
  | attest
  /-- KEYADD (R467). -/
  | keyadd
  /-- KEYREVOKE (R467). -/
  | keyrevoke
  /-- DEBUG (R467). -/
  | debugAuth
  /-- SECURE (R467). -/
  | secure
  /-- DECOMMISSION (R467). -/
  | decommission
  /-- OWNERSHIP_CLAIM (R470). -/
  | ownershipClaim
  /-- ATTESTATION_REQUEST (R470). -/
  | attestationRequest
  /-- OWNLEASE_RENEW (R471). -/
  | ownleaseRenew
  /-- OWNHAND (R471). -/
  | ownhand
  /-- LEASE_EXPIRY (R471). -/
  | leaseExpiry
  /-- HANDOVER_LAPSE (R471). -/
  | handoverLapse
  /-- NET_WRITE (R475). -/
  | netWrite
  /-- NET_READ (R475). -/
  | netRead
  /-- NET_SEND (R475). -/
  | netSend
  /-- FLIT_CRC_FAIL (R418). -/
  | flitCrcFail
  /-- NOP (R40). -/
  | nop
  /-- L1_WRITE_BACK (R105). -/
  | l1WriteBack
  /-- ATOMIC_COMPLETE (R232). -/
  | atomicComplete
  /-- VECTOR_LOAD_LAND (R229). -/
  | vectorLoadLand
  /-- SRAM_UNCORRECTABLE (R418). -/
  | sramUncorrectable
  /-- NOLNUS_COMMAND_DONE (R436). -/
  | nolnusCommandDone
  /-- BUNDLE_FETCH (R153). -/
  | bundleFetch
  deriving DecidableEq, Repr, Inhabited

end Sys2Proof
end

