-- ==== Sys2Proof/Decode.lean ====
section
/-! DEFINITION. The decoder of slot words, total and rejecting by name, and the encoder (R40, R56-R60).
Both are written from the opcode table: its match, mask and fields. -/

namespace Sys2Proof

/-- Why a slot word is no operation. The first two and `headerSlot` raise the illegal-bundle trap (R42), the other
two the illegal-instruction trap (R56-R61). -/
inductive DecodeError where
  | reservedClass | nopBits | headerSlot | reservedOpcode | reservedBits
  deriving DecidableEq, Repr, Inhabited

/-- The fields of a slot (R40). -/
structure SlotW where
  cls : BitVec 3
  p   : BitVec 3
  opc : BitVec 7
  nw  : BitVec 1
  d   : BitVec 6
  a   : BitVec 6
  b   : BitVec 6
  deriving DecidableEq, Repr, Inhabited

/-- A slot word's fields (R40). -/
def SlotW.unpack (w : SlotWord) : SlotW :=
  { cls := w.extractLsb' 29 3, p := w.extractLsb' 26 3, opc := w.extractLsb' 19 7, nw := w.extractLsb' 18 1,
    d := w.extractLsb' 12 6, a := w.extractLsb' 6 6, b := w.extractLsb' 0 6 }

/-- The slot word of the fields (R40). -/
def SlotW.pack (x : SlotW) : SlotWord := x.cls ++ x.p ++ x.opc ++ x.nw ++ x.d ++ x.a ++ x.b

/-- Operations of class S by opcode (R56). -/
def decodeS (x : SlotW) : Except DecodeError Instr :=
  if x.opc.extractLsb' 4 3 = 2#3 then if 9 < (x.opc.extractLsb' 0 4).toNat then .error .reservedOpcode else if x.nw = 0#1 ∧ x.d.extractLsb' 3 3 = 0#3 then .ok (.cmp x.p (x.opc.extractLsb' 0 4) (x.d.extractLsb' 0 3) x.a x.b) else .error .reservedBits else
  if x.opc.extractLsb' 4 3 = 4#3 then if 9 < (x.opc.extractLsb' 0 4).toNat then .error .reservedOpcode else if x.nw = 0#1 ∧ x.d.extractLsb' 3 3 = 0#3 then .ok (.cmpi x.p (x.opc.extractLsb' 0 4) (x.d.extractLsb' 0 3) x.a x.b) else .error .reservedBits else
  if x.opc.extractLsb' 3 4 = 10#4 then if x.opc.extractLsb' 0 3 = 7#3 then .error .reservedOpcode else .ok (.lds x.p (x.opc.extractLsb' 0 3) x.nw x.d x.a (x.b.extractLsb' 2 4) (x.b.extractLsb' 0 2)) else
  if x.opc.extractLsb' 2 5 = 22#5 then if x.nw = 0#1 then .ok (.sts x.p (x.opc.extractLsb' 0 2) x.d x.a (x.b.extractLsb' 2 4) (x.b.extractLsb' 0 2)) else .error .reservedBits else
  match x.opc.toNat with
  | 0x00 => .ok (.add x.p x.nw x.d x.a x.b)
  | 0x01 => .ok (.sub x.p x.nw x.d x.a x.b)
  | 0x02 => .ok (.mul x.p x.nw x.d x.a x.b)
  | 0x03 => .ok (.mulh x.p x.nw x.d x.a x.b)
  | 0x04 => .ok (.mulhn x.p x.nw x.d x.a x.b)
  | 0x05 => .ok (.div x.p x.nw x.d x.a x.b)
  | 0x06 => .ok (.divn x.p x.nw x.d x.a x.b)
  | 0x07 => .ok (.rem x.p x.nw x.d x.a x.b)
  | 0x08 => .ok (.remn x.p x.nw x.d x.a x.b)
  | 0x09 => .ok (.andR x.p x.nw x.d x.a x.b)
  | 0x0a => .ok (.orR x.p x.nw x.d x.a x.b)
  | 0x0b => .ok (.xor x.p x.nw x.d x.a x.b)
  | 0x0c => .ok (.andn x.p x.nw x.d x.a x.b)
  | 0x0d => .ok (.shl x.p x.nw x.d x.a x.b)
  | 0x0e => .ok (.shr x.p x.nw x.d x.a x.b)
  | 0x0f => .ok (.sar x.p x.nw x.d x.a x.b)
  | 0x10 => .ok (.rotr x.p x.nw x.d x.a x.b)
  | 0x11 => .ok (.min x.p x.nw x.d x.a x.b)
  | 0x12 => .ok (.max x.p x.nw x.d x.a x.b)
  | 0x13 => .ok (.minn x.p x.nw x.d x.a x.b)
  | 0x14 => .ok (.maxn x.p x.nw x.d x.a x.b)
  | 0x15 => if x.b = 0#6 then .ok (.clz x.p x.nw x.d x.a) else .error .reservedBits
  | 0x16 => if x.b = 0#6 then .ok (.popc x.p x.nw x.d x.a) else .error .reservedBits
  | 0x17 => if x.b = 0#6 then .ok (.abs x.p x.nw x.d x.a) else .error .reservedBits
  | 0x18 => .ok (.ext x.p x.nw x.d x.a x.b)
  | 0x19 => .ok (.ins x.p x.nw x.d x.a x.b)
  | 0x1a => .ok (.lea1 x.p x.nw x.d x.a x.b)
  | 0x1b => .ok (.lea2 x.p x.nw x.d x.a x.b)
  | 0x1c => .ok (.lea4 x.p x.nw x.d x.a x.b)
  | 0x1d => .ok (.lea8 x.p x.nw x.d x.a x.b)
  | 0x1e => if x.b = 0#6 then .ok (.mov x.p x.nw x.d x.a) else .error .reservedBits
  | 0x30 => .ok (.addi x.p x.nw x.d x.a x.b)
  | 0x31 => .ok (.muli x.p x.nw x.d x.a x.b)
  | 0x32 => .ok (.andi x.p x.nw x.d x.a x.b)
  | 0x33 => .ok (.ori x.p x.nw x.d x.a x.b)
  | 0x34 => .ok (.xori x.p x.nw x.d x.a x.b)
  | 0x35 => .ok (.shli x.p x.nw x.d x.a x.b)
  | 0x36 => .ok (.shri x.p x.nw x.d x.a x.b)
  | 0x37 => .ok (.sari x.p x.nw x.d x.a x.b)
  | 0x38 => if x.a = 0#6 then .ok (.movi x.p x.nw x.d x.b) else .error .reservedBits
  | 0x39 => .ok (.movhi x.p x.nw x.d x.a x.b)
  | 0x60 => if x.nw = 0#1 ∧ x.d.extractLsb' 3 3 = 0#3 ∧ x.b = 0#6 then .ok (.vset x.p (x.d.extractLsb' 0 3) x.a) else .error .reservedBits
  | 0x61 => if x.a.extractLsb' 3 3 = 0#3 ∧ x.b = 0#6 then .ok (.vget x.p x.nw x.d (x.a.extractLsb' 0 3)) else .error .reservedBits
  | 0x62 => .ok (.csrr x.p x.nw x.d (x.a ++ x.b))
  | 0x63 => if x.nw = 0#1 then .ok (.csrw x.p x.d x.a x.b) else .error .reservedBits
  | 0x64 => if x.nw = 0#1 ∧ x.d = 0#6 ∧ x.a = 0#6 then .ok (.trap x.p x.b) else .error .reservedBits
  | 0x65 => if x.nw = 0#1 ∧ x.d = 0#6 ∧ x.a = 0#6 ∧ x.b = 0#6 then .ok (.tret x.p) else .error .reservedBits
  | 0x66 => if x.nw = 0#1 ∧ x.d = 0#6 then .ok (.dchk x.p x.a x.b) else if x.nw = 0#1 ∧ x.d = 1#6 then .ok (.dchkV x.p x.a x.b) else if x.nw = 0#1 ∧ x.d = 2#6 then .ok (.dchkA x.p x.a x.b) else .error .reservedBits
  | 0x67 => if x.b = 0#6 then .ok (.join x.p x.nw x.d x.a) else .error .reservedBits
  | 0x68 => if x.nw = 0#1 ∧ x.d = 0#6 ∧ x.b = 0#6 then .ok (.leave x.p x.a) else .error .reservedBits
  | 0x69 => if x.nw = 0#1 ∧ x.d = 0#6 ∧ x.a = 0#6 ∧ x.b = 0#6 then .ok (.yield x.p) else if x.nw = 0#1 ∧ x.d = 0#6 ∧ x.a = 0#6 ∧ x.b = 1#6 then .ok (.yieldEv x.p) else .error .reservedBits
  | 0x6a => if x.nw = 0#1 ∧ x.d = 0#6 ∧ x.b = 0#6 then .ok (.step x.p x.a) else .error .reservedBits
  | 0x6b => if x.nw = 0#1 ∧ x.d.extractLsb' 3 3 = 0#3 ∧ x.b = 0#6 then .ok (.mirror x.p (x.d.extractLsb' 0 3) x.a) else .error .reservedBits
  | _ => .error .reservedOpcode

/-- Operations of class L by opcode (R57). -/
def decodeL (x : SlotW) : Except DecodeError Instr :=
  match x.opc.toNat with
  | 0x00 => if x.nw = 0#1 ∧ x.d.extractLsb' 3 3 = 0#3 then .ok (.prep x.p (x.d.extractLsb' 0 3) (x.a ++ x.b)) else .error .reservedBits
  | 0x01 => if x.nw = 0#1 ∧ x.d.extractLsb' 3 3 = 0#3 ∧ x.a = 0#6 ∧ x.b = 0#6 then .ok (.xfer x.p (x.d.extractLsb' 0 3)) else .error .reservedBits
  | 0x02 => if x.nw = 0#1 ∧ x.d.extractLsb' 3 3 = 0#3 ∧ x.b = 0#6 then .ok (.xfere x.p (x.d.extractLsb' 0 3) x.a) else .error .reservedBits
  | 0x03 => if x.nw = 0#1 ∧ x.d.extractLsb' 3 3 = 0#3 ∧ x.b = 0#6 then .ok (.xfera x.p (x.d.extractLsb' 0 3) x.a) else .error .reservedBits
  | 0x04 => if x.nw = 0#1 ∧ x.d.extractLsb' 3 3 = 0#3 ∧ x.b = 0#6 then .ok (.call x.p (x.d.extractLsb' 0 3) x.a) else .error .reservedBits
  | 0x05 => if x.nw = 0#1 ∧ x.d = 0#6 ∧ x.b = 0#6 then .ok (.ret x.p x.a) else .error .reservedBits
  | 0x06 => if x.nw = 0#1 ∧ x.d = 0#6 ∧ x.a = 0#6 ∧ x.b = 0#6 then .ok (.halt x.p) else .error .reservedBits
  | 0x07 => if x.nw = 0#1 then .ok (.loop x.p x.d (x.a ++ x.b)) else .error .reservedBits
  | 0x08 => if x.nw = 0#1 then .ok (.loops x.p x.d (x.a.extractLsb' 4 2) ((x.a.extractLsb' 0 4) ++ x.b)) else .error .reservedBits
  | 0x09 => if x.nw = 0#1 ∧ x.d = 0#6 ∧ x.a = 0#6 ∧ x.b = 0#6 then .ok (.lbrk x.p) else if x.nw = 0#1 ∧ x.d = 1#6 ∧ x.a = 0#6 ∧ x.b = 0#6 then .ok (.lbrkD x.p) else .error .reservedBits
  | 0x10 => if x.nw = 0#1 ∧ x.d.extractLsb' 3 3 = 0#3 ∧ x.a.extractLsb' 3 3 = 0#3 ∧ x.b.extractLsb' 3 3 = 0#3 then .ok (.pand x.p (x.d.extractLsb' 0 3) (x.a.extractLsb' 0 3) (x.b.extractLsb' 0 3)) else .error .reservedBits
  | 0x11 => if x.nw = 0#1 ∧ x.d.extractLsb' 3 3 = 0#3 ∧ x.a.extractLsb' 3 3 = 0#3 ∧ x.b.extractLsb' 3 3 = 0#3 then .ok (.por x.p (x.d.extractLsb' 0 3) (x.a.extractLsb' 0 3) (x.b.extractLsb' 0 3)) else .error .reservedBits
  | 0x12 => if x.nw = 0#1 ∧ x.d.extractLsb' 3 3 = 0#3 ∧ x.a.extractLsb' 3 3 = 0#3 ∧ x.b.extractLsb' 3 3 = 0#3 then .ok (.pxor x.p (x.d.extractLsb' 0 3) (x.a.extractLsb' 0 3) (x.b.extractLsb' 0 3)) else .error .reservedBits
  | 0x13 => if x.nw = 0#1 ∧ x.d.extractLsb' 3 3 = 0#3 ∧ x.a.extractLsb' 3 3 = 0#3 ∧ x.b = 0#6 then .ok (.pnot x.p (x.d.extractLsb' 0 3) (x.a.extractLsb' 0 3)) else .error .reservedBits
  | 0x14 => if x.nw = 0#1 ∧ x.d.extractLsb' 3 3 = 0#3 ∧ x.a.extractLsb' 3 3 = 0#3 ∧ x.b = 0#6 then .ok (.pmov x.p (x.d.extractLsb' 0 3) (x.a.extractLsb' 0 3)) else .error .reservedBits
  | 0x15 => if x.nw = 0#1 ∧ x.d.extractLsb' 3 3 = 0#3 ∧ x.a.extractLsb' 3 3 = 0#3 then .ok (.pall x.p (x.d.extractLsb' 0 3) (x.a.extractLsb' 0 3) x.b) else .error .reservedBits
  | 0x16 => if x.nw = 0#1 ∧ x.d.extractLsb' 3 3 = 0#3 ∧ x.a.extractLsb' 3 3 = 0#3 then .ok (.pany x.p (x.d.extractLsb' 0 3) (x.a.extractLsb' 0 3) x.b) else .error .reservedBits
  | 0x18 => if x.nw = 0#1 ∧ x.d = 0#6 ∧ x.a.extractLsb' 3 3 = 0#3 ∧ x.b = 0#6 then .ok (.mpush x.p (x.a.extractLsb' 0 3)) else if x.nw = 0#1 ∧ x.d = 0#6 ∧ x.a.extractLsb' 3 3 = 0#3 ∧ x.b = 1#6 then .ok (.mpushIn x.p (x.a.extractLsb' 0 3)) else .error .reservedBits
  | 0x19 => if x.nw = 0#1 ∧ x.d = 0#6 ∧ x.a = 0#6 ∧ x.b = 0#6 then .ok (.minv x.p) else .error .reservedBits
  | 0x1a => if x.nw = 0#1 ∧ x.d = 0#6 ∧ x.a = 0#6 ∧ x.b = 0#6 then .ok (.mpop x.p) else .error .reservedBits
  | 0x1b => if x.nw = 0#1 ∧ x.d.extractLsb' 3 3 = 0#3 ∧ x.a = 0#6 ∧ x.b = 0#6 then .ok (.mget x.p (x.d.extractLsb' 0 3)) else .error .reservedBits
  | _ => .error .reservedOpcode

/-- Operations of class V by opcode (R58). -/
def decodeV (x : SlotW) : Except DecodeError Instr :=
  if x.opc.extractLsb' 3 4 = 0#4 then .ok (.vadd x.p (x.opc.extractLsb' 0 3) x.nw x.d x.a x.b) else
  if x.opc.extractLsb' 3 4 = 1#4 then .ok (.vsub x.p (x.opc.extractLsb' 0 3) x.nw x.d x.a x.b) else
  if x.opc.extractLsb' 3 4 = 2#4 then .ok (.vmul x.p (x.opc.extractLsb' 0 3) x.nw x.d x.a x.b) else
  if x.opc.extractLsb' 3 4 = 3#4 then .ok (.vfma x.p (x.opc.extractLsb' 0 3) x.nw x.d x.a x.b) else
  if x.opc.extractLsb' 3 4 = 4#4 then .ok (.vmin x.p (x.opc.extractLsb' 0 3) x.nw x.d x.a x.b) else
  if x.opc.extractLsb' 3 4 = 5#4 then .ok (.vmax x.p (x.opc.extractLsb' 0 3) x.nw x.d x.a x.b) else
  if x.opc.extractLsb' 3 4 = 6#4 then if x.b = 0#6 then .ok (.vneg x.p (x.opc.extractLsb' 0 3) x.nw x.d x.a) else .error .reservedBits else
  if x.opc.extractLsb' 3 4 = 7#4 then if x.b = 0#6 then .ok (.vabs x.p (x.opc.extractLsb' 0 3) x.nw x.d x.a) else .error .reservedBits else
  if x.opc.extractLsb' 5 2 = 2#2 ∧ (x.opc.extractLsb' 2 3).toNat ≤ 5 then if x.nw = 0#1 ∧ x.d.extractLsb' 3 3 = 0#3 then .ok (.vcmp x.p (x.opc.extractLsb' 2 3) (x.opc.extractLsb' 0 2) (x.d.extractLsb' 0 3) x.a x.b) else .error .reservedBits else
  match x.opc.toNat with
  | 0x58 => .ok (.vsel x.p x.nw x.d x.a x.b)
  | 0x59 => .ok (.vand x.p x.nw x.d x.a x.b)
  | 0x5a => .ok (.vor x.p x.nw x.d x.a x.b)
  | 0x5b => .ok (.vxor x.p x.nw x.d x.a x.b)
  | 0x5c => .ok (.vshl x.p x.nw x.d x.a x.b)
  | 0x5d => .ok (.vshr x.p x.nw x.d x.a x.b)
  | 0x5e => .ok (.vsar x.p x.nw x.d x.a x.b)
  | 0x5f => if x.b = 0#6 then .ok (.vmov x.p x.nw x.d x.a) else .error .reservedBits
  | 0x60 => if x.b.extractLsb' 1 1 = 0#1 then .ok (.vcvt x.p x.nw x.d x.a (x.b.extractLsb' 2 4) (x.b.extractLsb' 0 1)) else .error .reservedBits
  | 0x61 => if x.b.extractLsb' 1 1 = 0#1 then .ok (.vcvtz x.p x.nw x.d x.a (x.b.extractLsb' 2 4) (x.b.extractLsb' 0 1)) else .error .reservedBits
  | 0x62 => if x.b.extractLsb' 5 1 = 0#1 then .ok (.vpack8 x.p x.nw x.d x.a (x.b.extractLsb' 4 1) (x.b.extractLsb' 2 2) (x.b.extractLsb' 0 2)) else .error .reservedBits
  | 0x63 => if x.b.extractLsb' 4 2 = 0#2 then .ok (.vunpk8 x.p x.nw x.d x.a (x.b.extractLsb' 2 2) (x.b.extractLsb' 0 2)) else .error .reservedBits
  | 0x64 => if x.b.extractLsb' 2 4 = 0#4 then .ok (.vqnt4 x.p x.nw x.d x.a (x.b.extractLsb' 0 2)) else .error .reservedBits
  | 0x65 => if x.b.extractLsb' 2 4 = 0#4 then .ok (.vdq4 x.p x.nw x.d x.a (x.b.extractLsb' 1 1) (x.b.extractLsb' 0 1)) else .error .reservedBits
  | 0x68 => if x.b = 0#6 then .ok (.vrcp x.p x.nw x.d x.a) else .error .reservedBits
  | 0x69 => if x.b = 0#6 then .ok (.vrsq x.p x.nw x.d x.a) else .error .reservedBits
  | 0x6a => if x.b = 0#6 then .ok (.vexp2 x.p x.nw x.d x.a) else .error .reservedBits
  | 0x6b => if x.b = 0#6 then .ok (.vlog2 x.p x.nw x.d x.a) else .error .reservedBits
  | 0x6c => if x.b = 0#6 then .ok (.vtanh x.p x.nw x.d x.a) else .error .reservedBits
  | 0x6d => if x.b = 0#6 then .ok (.vsigm x.p x.nw x.d x.a) else .error .reservedBits
  | 0x6e => if x.b = 0#6 then .ok (.vsin x.p x.nw x.d x.a) else .error .reservedBits
  | 0x6f => if x.b = 0#6 then .ok (.vcos x.p x.nw x.d x.a) else .error .reservedBits
  | 0x70 => if x.b.extractLsb' 3 3 = 0#3 then .ok (.vredAdd x.p x.nw x.d x.a (x.b.extractLsb' 0 3)) else .error .reservedBits
  | 0x71 => if x.b.extractLsb' 3 3 = 0#3 then .ok (.vredMax x.p x.nw x.d x.a (x.b.extractLsb' 0 3)) else .error .reservedBits
  | 0x72 => if x.b.extractLsb' 3 3 = 0#3 then .ok (.vredMin x.p x.nw x.d x.a (x.b.extractLsb' 0 3)) else .error .reservedBits
  | 0x73 => if x.b.extractLsb' 3 3 = 0#3 then .ok (.vscanAdd x.p x.nw x.d x.a (x.b.extractLsb' 0 3)) else .error .reservedBits
  | 0x74 => if x.b.extractLsb' 3 3 = 0#3 then .ok (.vtopk x.p x.nw x.d x.a (x.b.extractLsb' 0 3)) else .error .reservedBits
  | 0x75 => if x.b.extractLsb' 3 3 = 0#3 then .ok (.vgmax x.p x.nw x.d x.a (x.b.extractLsb' 0 3)) else .error .reservedBits
  | 0x76 => .ok (.vperm x.p x.nw x.d x.a x.b)
  | 0x77 => if x.b = 0#6 then .ok (.viota x.p x.nw x.d x.a) else .error .reservedBits
  | 0x78 => .ok (.vbcast x.p x.nw x.d x.a x.b)
  | 0x79 => .ok (.vextr x.p x.nw x.d x.a x.b)
  | 0x7a => if x.nw = 0#1 ∧ x.d.extractLsb' 3 3 = 0#3 ∧ x.b.extractLsb' 2 4 = 0#4 then .ok (.vmkc x.p (x.d.extractLsb' 0 3) x.a (x.b.extractLsb' 0 2)) else .error .reservedBits
  | _ => .error .reservedOpcode

/-- Operations of class M by opcode (R59). -/
def decodeM (x : SlotW) : Except DecodeError Instr :=
  if x.opc.extractLsb' 3 4 = 0#4 then if x.nw = 0#1 then .ok (.mmaAcc x.p (x.opc.extractLsb' 0 3) x.d x.a x.b) else .error .reservedBits else
  if x.opc.extractLsb' 3 4 = 1#4 then if x.nw = 0#1 then .ok (.mmaOvw x.p (x.opc.extractLsb' 0 3) x.d x.a x.b) else .error .reservedBits else
  if x.opc.extractLsb' 3 4 = 2#4 then if x.nw = 0#1 then .ok (.mmaDec x.p (x.opc.extractLsb' 0 3) x.d x.a x.b) else .error .reservedBits else
  match x.opc.toNat with
  | 0x20 => if x.nw = 0#1 ∧ x.d = 0#6 ∧ x.b = 0#6 then .ok (.mdecay x.p x.a) else .error .reservedBits
  | 0x21 => if x.nw = 0#1 ∧ x.a = 0#6 ∧ x.b = 0#6 then .ok (.mzero x.p x.d) else .error .reservedBits
  | 0x22 => if x.nw = 0#1 ∧ x.b.extractLsb' 3 3 = 0#3 then .ok (.mcvt x.p x.d x.a (x.b.extractLsb' 2 1) (x.b.extractLsb' 0 2)) else .error .reservedBits
  | 0x23 => if x.nw = 0#1 ∧ x.b = 0#6 then .ok (.mtrn x.p x.d x.a) else .error .reservedBits
  | 0x24 => if x.nw = 0#1 then .ok (.mldt x.p x.d x.a x.b) else .error .reservedBits
  | 0x25 => if x.nw = 0#1 ∧ x.d = 0#6 ∧ x.a = 0#6 ∧ x.b.extractLsb' 4 2 = 0#2 then .ok (.mrel x.p (x.b.extractLsb' 0 4)) else .error .reservedBits
  | 0x26 => if x.nw = 0#1 then .ok (.mstt x.p x.d x.a x.b) else .error .reservedBits
  | 0x27 => if x.nw = 0#1 ∧ x.d = 0#6 ∧ x.a = 0#6 ∧ x.b.extractLsb' 3 3 = 0#3 then .ok (.mnest x.p (x.b.extractLsb' 0 3)) else .error .reservedBits
  | 0x28 => if x.nw = 0#1 ∧ x.d = 0#6 ∧ x.a = 0#6 ∧ x.b = 1#6 then .ok (.mnwaitN x.p) else if x.nw = 0#1 ∧ x.d = 0#6 ∧ x.a = 0#6 ∧ x.b = 2#6 then .ok (.mnwaitT x.p) else if x.nw = 0#1 ∧ x.d = 0#6 ∧ x.a = 0#6 ∧ x.b = 3#6 then .ok (.mnwaitNt x.p) else .error .reservedBits
  | 0x29 => if x.nw = 0#1 ∧ x.d = 0#6 ∧ x.b = 0#6 then .ok (.mrag x.p x.a) else .error .reservedBits
  | 0x2a => if x.nw = 0#1 then .ok (.mscale x.p x.d x.a x.b) else .error .reservedBits
  | _ => .error .reservedOpcode

/-- Operations of class C by opcode (R60). -/
def decodeC (x : SlotW) : Except DecodeError Instr :=
  match x.opc.toNat with
  | 0x00 => if x.nw = 0#1 then .ok (.ldv x.p x.d x.a (x.b.extractLsb' 2 4) (x.b.extractLsb' 0 2)) else .error .reservedBits
  | 0x01 => if x.nw = 0#1 then .ok (.stv x.p x.d x.a (x.b.extractLsb' 2 4) (x.b.extractLsb' 0 2)) else .error .reservedBits
  | 0x02 => if x.nw = 0#1 then .ok (.ldvg x.p x.d x.a x.b) else .error .reservedBits
  | 0x03 => if x.nw = 0#1 then .ok (.stvs x.p x.d x.a x.b) else .error .reservedBits
  | 0x04 => if x.nw = 0#1 then .ok (.ldvb x.p x.d x.a (x.b.extractLsb' 2 4) (x.b.extractLsb' 0 2)) else .error .reservedBits
  | 0x08 => if x.nw = 0#1 then .ok (.aadd x.p x.d x.a (x.b.extractLsb' 2 4) (x.b.extractLsb' 0 2)) else .error .reservedBits
  | 0x09 => if x.nw = 0#1 then .ok (.amin x.p x.d x.a (x.b.extractLsb' 2 4) (x.b.extractLsb' 0 2)) else .error .reservedBits
  | 0x0a => if x.nw = 0#1 then .ok (.amax x.p x.d x.a (x.b.extractLsb' 2 4) (x.b.extractLsb' 0 2)) else .error .reservedBits
  | 0x0b => if x.nw = 0#1 then .ok (.aand x.p x.d x.a (x.b.extractLsb' 2 4) (x.b.extractLsb' 0 2)) else .error .reservedBits
  | 0x0c => if x.nw = 0#1 then .ok (.aor x.p x.d x.a (x.b.extractLsb' 2 4) (x.b.extractLsb' 0 2)) else .error .reservedBits
  | 0x0d => if x.nw = 0#1 then .ok (.axch x.p x.d x.a (x.b.extractLsb' 2 4) (x.b.extractLsb' 0 2)) else .error .reservedBits
  | 0x0e => if x.nw = 0#1 then .ok (.acas x.p x.d x.a (x.b.extractLsb' 2 4) (x.b.extractLsb' 0 2)) else .error .reservedBits
  | 0x0f => if x.nw = 0#1 then .ok (.aaddf x.p x.d x.a (x.b.extractLsb' 2 4) (x.b.extractLsb' 0 2)) else .error .reservedBits
  | 0x10 => if x.nw = 0#1 then .ok (.vaadd x.p x.d x.a x.b) else .error .reservedBits
  | 0x18 => if x.nw = 0#1 ∧ x.d.extractLsb' 4 2 = 0#2 then .ok (.fence x.p ((x.d.extractLsb' 0 4) ++ x.a ++ x.b)) else .error .reservedBits
  | 0x19 => if x.nw = 0#1 ∧ x.d = 0#6 ∧ x.a = 0#6 ∧ x.b.extractLsb' 3 3 = 0#3 then .ok (.acq x.p (x.b.extractLsb' 0 3)) else .error .reservedBits
  | 0x1a => if x.nw = 0#1 ∧ x.d = 0#6 ∧ x.a = 0#6 ∧ x.b.extractLsb' 3 3 = 0#3 then .ok (.rel x.p (x.b.extractLsb' 0 3)) else .error .reservedBits
  | 0x1b => if x.nw = 0#1 ∧ x.d.extractLsb' 3 3 = 0#3 then .ok (.flush x.p (x.d.extractLsb' 0 3) x.a x.b) else .error .reservedBits
  | 0x1c => if x.nw = 0#1 ∧ x.d = 0#6 then .ok (.invl x.p x.a x.b) else .error .reservedBits
  | 0x20 => if x.nw = 0#1 then .ok (.cpy x.p x.d x.a x.b) else .error .reservedBits
  | 0x21 => if x.nw = 0#1 then .ok (.cpym x.p x.d x.a x.b) else .error .reservedBits
  | 0x22 => if x.nw = 0#1 then .ok (.cpyw x.p x.d x.a x.b) else .error .reservedBits
  | 0x23 => if x.nw = 0#1 then .ok (.sbind x.p x.d x.a (x.b.extractLsb' 4 2) (x.b.extractLsb' 0 4)) else .error .reservedBits
  | 0x24 => if x.nw = 0#1 ∧ x.a = 0#6 ∧ x.b = 0#6 then .ok (.sunb x.p x.d) else .error .reservedBits
  | 0x25 => if x.nw = 0#1 ∧ x.a = 0#6 ∧ x.b = 0#6 then .ok (.sdrn x.p x.d) else .error .reservedBits
  | 0x28 => if x.nw = 0#1 ∧ x.d = 0#6 then .ok (.owntCore x.p x.a x.b) else if x.nw = 0#1 ∧ x.d = 1#6 then .ok (.owntEng x.p x.a x.b) else if x.nw = 0#1 ∧ x.d = 2#6 then .ok (.owntF x.p x.a x.b) else .error .reservedBits
  | 0x29 => if x.nw = 0#1 ∧ x.d = 0#6 then .ok (.ownw x.p x.a x.b) else .error .reservedBits
  | 0x2a => if x.nw = 0#1 ∧ x.a = 0#6 ∧ x.b = 0#6 then .ok (.evpop x.p x.d) else .error .reservedBits
  | 0x2b => if x.nw = 0#1 ∧ x.d = 0#6 then .ok (.evpost x.p x.a x.b) else .error .reservedBits
  | 0x2c => if x.nw = 0#1 ∧ x.d = 0#6 ∧ x.a = 0#6 ∧ x.b.extractLsb' 4 2 = 0#2 then .ok (.bara x.p (x.b.extractLsb' 0 4)) else .error .reservedBits
  | 0x2d => if x.nw = 0#1 ∧ x.d = 0#6 ∧ x.a = 0#6 ∧ x.b.extractLsb' 4 2 = 0#2 then .ok (.barw x.p (x.b.extractLsb' 0 4)) else .error .reservedBits
  | 0x2e => if x.nw = 0#1 ∧ x.b.extractLsb' 4 2 = 0#2 then .ok (.barx x.p x.d x.a (x.b.extractLsb' 0 4)) else .error .reservedBits
  | 0x30 => if x.nw = 0#1 ∧ x.d = 0#6 ∧ x.b = 0#6 then .ok (.whpre x.p x.a) else .error .reservedBits
  | 0x31 => if x.nw = 0#1 ∧ x.b = 0#6 then .ok (.whwait x.p x.d x.a) else .error .reservedBits
  | 0x32 => if x.nw = 0#1 ∧ x.b = 0#6 then .ok (.whpin x.p x.d x.a) else .error .reservedBits
  | 0x33 => if x.nw = 0#1 ∧ x.d = 0#6 ∧ x.b = 0#6 then .ok (.whunp x.p x.a) else .error .reservedBits
  | 0x34 => if x.nw = 0#1 ∧ x.b = 0#6 then .ok (.whqry x.p x.d x.a) else .error .reservedBits
  | 0x35 => if x.nw = 0#1 ∧ x.b = 0#6 then .ok (.whmap x.p x.d x.a) else .error .reservedBits
  | 0x38 => if x.nw = 0#1 ∧ x.b = 0#6 then .ok (.snlook x.p x.d x.a) else .error .reservedBits
  | 0x39 => if x.nw = 0#1 ∧ x.d = 0#6 then .ok (.snsave x.p x.a x.b) else .error .reservedBits
  | 0x3a => if x.nw = 0#1 ∧ x.d = 0#6 then .ok (.snload x.p x.a x.b) else .error .reservedBits
  | 0x3b => if x.nw = 0#1 ∧ x.d = 0#6 ∧ x.b = 0#6 then .ok (.snrel x.p x.a) else .error .reservedBits
  | 0x3c => if x.nw = 0#1 then .ok (.snhash x.p x.d x.a x.b) else .error .reservedBits
  | 0x40 => if x.nw = 0#1 ∧ x.d = 0#6 then .ok (.rtpred x.p x.a x.b) else .error .reservedBits
  | 0x41 => if x.nw = 0#1 ∧ x.d = 0#6 then .ok (.rtdisp x.p x.a x.b) else .error .reservedBits
  | 0x48 => if x.nw = 0#1 then .ok (.tinvr x.p x.d x.a x.b) else .error .reservedBits
  | 0x49 => if x.nw = 0#1 ∧ x.d = 0#6 ∧ x.b = 0#6 then .ok (.tinva x.p x.a) else .error .reservedBits
  | 0x50 => if x.nw = 0#1 ∧ x.d.extractLsb' 1 5 = 0#5 then .ok (.prfl x.p (x.d.extractLsb' 0 1) x.a (x.b.extractLsb' 2 4) (x.b.extractLsb' 0 2)) else .error .reservedBits
  | _ => .error .reservedOpcode

/-- The operation of a slot word, by class (R40). -/
def decodeSlot (w : SlotWord) : Except DecodeError Instr :=
  let x := SlotW.unpack w
  match x.cls.toNat with
  | 0 => decodeS x
  | 1 => decodeV x
  | 2 => decodeM x
  | 3 => decodeC x
  | 4 => .error .headerSlot
  | 5 => decodeL x
  | 6 => .error .reservedClass
  | _ => if w = 0xE0000000#32 then .ok .nop else .error .nopBits

/-- A slot word from its four bytes, lowest address first (R5, R39). -/
def slotOfBytes (b0 b1 b2 b3 : Byte) : SlotWord := b3 ++ b2 ++ b1 ++ b0

/-- The decoder on bytes: the operation of the first four, and the rest. -/
def decodeBytes : List Byte → Except DecodeError (Instr × List Byte)
  | b0 :: b1 :: b2 :: b3 :: rest => (decodeSlot (slotOfBytes b0 b1 b2 b3)).map (·, rest)
  | _ => .error .reservedBits

/-- The words of an operation; an event has none. -/
def encode : Instr → Option SlotWord
  | .nop => some 0xE0000000#32
  | .add p n d a b => some (SlotW.mk 0#3 p 0x0#7 n d a b).pack
  | .sub p n d a b => some (SlotW.mk 0#3 p 0x1#7 n d a b).pack
  | .mul p n d a b => some (SlotW.mk 0#3 p 0x2#7 n d a b).pack
  | .mulh p n d a b => some (SlotW.mk 0#3 p 0x3#7 n d a b).pack
  | .mulhn p n d a b => some (SlotW.mk 0#3 p 0x4#7 n d a b).pack
  | .div p n d a b => some (SlotW.mk 0#3 p 0x5#7 n d a b).pack
  | .divn p n d a b => some (SlotW.mk 0#3 p 0x6#7 n d a b).pack
  | .rem p n d a b => some (SlotW.mk 0#3 p 0x7#7 n d a b).pack
  | .remn p n d a b => some (SlotW.mk 0#3 p 0x8#7 n d a b).pack
  | .andR p n d a b => some (SlotW.mk 0#3 p 0x9#7 n d a b).pack
  | .orR p n d a b => some (SlotW.mk 0#3 p 0xa#7 n d a b).pack
  | .xor p n d a b => some (SlotW.mk 0#3 p 0xb#7 n d a b).pack
  | .andn p n d a b => some (SlotW.mk 0#3 p 0xc#7 n d a b).pack
  | .shl p n d a b => some (SlotW.mk 0#3 p 0xd#7 n d a b).pack
  | .shr p n d a b => some (SlotW.mk 0#3 p 0xe#7 n d a b).pack
  | .sar p n d a b => some (SlotW.mk 0#3 p 0xf#7 n d a b).pack
  | .rotr p n d a b => some (SlotW.mk 0#3 p 0x10#7 n d a b).pack
  | .min p n d a b => some (SlotW.mk 0#3 p 0x11#7 n d a b).pack
  | .max p n d a b => some (SlotW.mk 0#3 p 0x12#7 n d a b).pack
  | .minn p n d a b => some (SlotW.mk 0#3 p 0x13#7 n d a b).pack
  | .maxn p n d a b => some (SlotW.mk 0#3 p 0x14#7 n d a b).pack
  | .clz p n d a => some (SlotW.mk 0#3 p 0x15#7 n d a 0x0#6).pack
  | .popc p n d a => some (SlotW.mk 0#3 p 0x16#7 n d a 0x0#6).pack
  | .abs p n d a => some (SlotW.mk 0#3 p 0x17#7 n d a 0x0#6).pack
  | .ext p n d a b => some (SlotW.mk 0#3 p 0x18#7 n d a b).pack
  | .ins p n d a b => some (SlotW.mk 0#3 p 0x19#7 n d a b).pack
  | .lea1 p n d a b => some (SlotW.mk 0#3 p 0x1a#7 n d a b).pack
  | .lea2 p n d a b => some (SlotW.mk 0#3 p 0x1b#7 n d a b).pack
  | .lea4 p n d a b => some (SlotW.mk 0#3 p 0x1c#7 n d a b).pack
  | .lea8 p n d a b => some (SlotW.mk 0#3 p 0x1d#7 n d a b).pack
  | .mov p n d a => some (SlotW.mk 0#3 p 0x1e#7 n d a 0x0#6).pack
  | .cmp p c d a b => some (SlotW.mk 0#3 p (0x2#3 ++ c) 0x0#1 (0x0#3 ++ d) a b).pack
  | .addi p n d a i => some (SlotW.mk 0#3 p 0x30#7 n d a i).pack
  | .muli p n d a i => some (SlotW.mk 0#3 p 0x31#7 n d a i).pack
  | .andi p n d a i => some (SlotW.mk 0#3 p 0x32#7 n d a i).pack
  | .ori p n d a i => some (SlotW.mk 0#3 p 0x33#7 n d a i).pack
  | .xori p n d a i => some (SlotW.mk 0#3 p 0x34#7 n d a i).pack
  | .shli p n d a i => some (SlotW.mk 0#3 p 0x35#7 n d a i).pack
  | .shri p n d a i => some (SlotW.mk 0#3 p 0x36#7 n d a i).pack
  | .sari p n d a i => some (SlotW.mk 0#3 p 0x37#7 n d a i).pack
  | .movi p n d i => some (SlotW.mk 0#3 p 0x38#7 n d 0x0#6 i).pack
  | .movhi p n d a i => some (SlotW.mk 0#3 p 0x39#7 n d a i).pack
  | .cmpi p c d a i => some (SlotW.mk 0#3 p (0x4#3 ++ c) 0x0#1 (0x0#3 ++ d) a i).pack
  | .lds p w n d a o m => some (SlotW.mk 0#3 p (0xa#4 ++ w) n d a (o ++ m)).pack
  | .sts p w d a o m => some (SlotW.mk 0#3 p (0x16#5 ++ w) 0x0#1 d a (o ++ m)).pack
  | .vset p v a => some (SlotW.mk 0#3 p 0x60#7 0x0#1 (0x0#3 ++ v) a 0x0#6).pack
  | .vget p n d v => some (SlotW.mk 0#3 p 0x61#7 n d (0x0#3 ++ v) 0x0#6).pack
  | .csrr p n d c => some (SlotW.mk 0#3 p 0x62#7 n d (c.extractLsb' 6 6) (c.extractLsb' 0 6)).pack
  | .csrw p h a l => some (SlotW.mk 0#3 p 0x63#7 0x0#1 h a l).pack
  | .trap p t => some (SlotW.mk 0#3 p 0x64#7 0x0#1 0x0#6 0x0#6 t).pack
  | .tret p => some (SlotW.mk 0#3 p 0x65#7 0x0#1 0x0#6 0x0#6 0x0#6).pack
  | .dchk p a b => some (SlotW.mk 0#3 p 0x66#7 0x0#1 0x0#6 a b).pack
  | .dchkV p a b => some (SlotW.mk 0#3 p 0x66#7 0x0#1 0x1#6 a b).pack
  | .dchkA p a b => some (SlotW.mk 0#3 p 0x66#7 0x0#1 0x2#6 a b).pack
  | .join p n d a => some (SlotW.mk 0#3 p 0x67#7 n d a 0x0#6).pack
  | .leave p a => some (SlotW.mk 0#3 p 0x68#7 0x0#1 0x0#6 a 0x0#6).pack
  | .yield p => some (SlotW.mk 0#3 p 0x69#7 0x0#1 0x0#6 0x0#6 0x0#6).pack
  | .yieldEv p => some (SlotW.mk 0#3 p 0x69#7 0x0#1 0x0#6 0x0#6 0x1#6).pack
  | .step p a => some (SlotW.mk 0#3 p 0x6a#7 0x0#1 0x0#6 a 0x0#6).pack
  | .mirror p e a => some (SlotW.mk 0#3 p 0x6b#7 0x0#1 (0x0#3 ++ e) a 0x0#6).pack
  | .prep p t i => some (SlotW.mk 5#3 p 0x0#7 0x0#1 (0x0#3 ++ t) (i.extractLsb' 6 6) (i.extractLsb' 0 6)).pack
  | .xfer p t => some (SlotW.mk 5#3 p 0x1#7 0x0#1 (0x0#3 ++ t) 0x0#6 0x0#6).pack
  | .xfere p t w => some (SlotW.mk 5#3 p 0x2#7 0x0#1 (0x0#3 ++ t) w 0x0#6).pack
  | .xfera p t w => some (SlotW.mk 5#3 p 0x3#7 0x0#1 (0x0#3 ++ t) w 0x0#6).pack
  | .call p t l => some (SlotW.mk 5#3 p 0x4#7 0x0#1 (0x0#3 ++ t) l 0x0#6).pack
  | .ret p a => some (SlotW.mk 5#3 p 0x5#7 0x0#1 0x0#6 a 0x0#6).pack
  | .halt p => some (SlotW.mk 5#3 p 0x6#7 0x0#1 0x0#6 0x0#6 0x0#6).pack
  | .loop p c o => some (SlotW.mk 5#3 p 0x7#7 0x0#1 c (o.extractLsb' 6 6) (o.extractLsb' 0 6)).pack
  | .loops p c s o => some (SlotW.mk 5#3 p 0x8#7 0x0#1 c (s ++ (o.extractLsb' 6 4)) (o.extractLsb' 0 6)).pack
  | .lbrk p => some (SlotW.mk 5#3 p 0x9#7 0x0#1 0x0#6 0x0#6 0x0#6).pack
  | .lbrkD p => some (SlotW.mk 5#3 p 0x9#7 0x0#1 0x1#6 0x0#6 0x0#6).pack
  | .pand p d a b => some (SlotW.mk 5#3 p 0x10#7 0x0#1 (0x0#3 ++ d) (0x0#3 ++ a) (0x0#3 ++ b)).pack
  | .por p d a b => some (SlotW.mk 5#3 p 0x11#7 0x0#1 (0x0#3 ++ d) (0x0#3 ++ a) (0x0#3 ++ b)).pack
  | .pxor p d a b => some (SlotW.mk 5#3 p 0x12#7 0x0#1 (0x0#3 ++ d) (0x0#3 ++ a) (0x0#3 ++ b)).pack
  | .pnot p d a => some (SlotW.mk 5#3 p 0x13#7 0x0#1 (0x0#3 ++ d) (0x0#3 ++ a) 0x0#6).pack
  | .pmov p d a => some (SlotW.mk 5#3 p 0x14#7 0x0#1 (0x0#3 ++ d) (0x0#3 ++ a) 0x0#6).pack
  | .pall p d a w => some (SlotW.mk 5#3 p 0x15#7 0x0#1 (0x0#3 ++ d) (0x0#3 ++ a) w).pack
  | .pany p d a w => some (SlotW.mk 5#3 p 0x16#7 0x0#1 (0x0#3 ++ d) (0x0#3 ++ a) w).pack
  | .mpush p a => some (SlotW.mk 5#3 p 0x18#7 0x0#1 0x0#6 (0x0#3 ++ a) 0x0#6).pack
  | .mpushIn p a => some (SlotW.mk 5#3 p 0x18#7 0x0#1 0x0#6 (0x0#3 ++ a) 0x1#6).pack
  | .minv p => some (SlotW.mk 5#3 p 0x19#7 0x0#1 0x0#6 0x0#6 0x0#6).pack
  | .mpop p => some (SlotW.mk 5#3 p 0x1a#7 0x0#1 0x0#6 0x0#6 0x0#6).pack
  | .mget p d => some (SlotW.mk 5#3 p 0x1b#7 0x0#1 (0x0#3 ++ d) 0x0#6 0x0#6).pack
  | .vadd p t n d a b => some (SlotW.mk 1#3 p (0x0#4 ++ t) n d a b).pack
  | .vsub p t n d a b => some (SlotW.mk 1#3 p (0x1#4 ++ t) n d a b).pack
  | .vmul p t n d a b => some (SlotW.mk 1#3 p (0x2#4 ++ t) n d a b).pack
  | .vfma p t n d a b => some (SlotW.mk 1#3 p (0x3#4 ++ t) n d a b).pack
  | .vmin p t n d a b => some (SlotW.mk 1#3 p (0x4#4 ++ t) n d a b).pack
  | .vmax p t n d a b => some (SlotW.mk 1#3 p (0x5#4 ++ t) n d a b).pack
  | .vneg p t n d a => some (SlotW.mk 1#3 p (0x6#4 ++ t) n d a 0x0#6).pack
  | .vabs p t n d a => some (SlotW.mk 1#3 p (0x7#4 ++ t) n d a 0x0#6).pack
  | .vcmp p c t d a b => some (SlotW.mk 1#3 p (0x2#2 ++ c ++ t) 0x0#1 (0x0#3 ++ d) a b).pack
  | .vsel p n d a b => some (SlotW.mk 1#3 p 0x58#7 n d a b).pack
  | .vand p n d a b => some (SlotW.mk 1#3 p 0x59#7 n d a b).pack
  | .vor p n d a b => some (SlotW.mk 1#3 p 0x5a#7 n d a b).pack
  | .vxor p n d a b => some (SlotW.mk 1#3 p 0x5b#7 n d a b).pack
  | .vshl p n d a b => some (SlotW.mk 1#3 p 0x5c#7 n d a b).pack
  | .vshr p n d a b => some (SlotW.mk 1#3 p 0x5d#7 n d a b).pack
  | .vsar p n d a b => some (SlotW.mk 1#3 p 0x5e#7 n d a b).pack
  | .vmov p n d a => some (SlotW.mk 1#3 p 0x5f#7 n d a 0x0#6).pack
  | .vcvt p n d a k h => some (SlotW.mk 1#3 p 0x60#7 n d a (k ++ 0x0#1 ++ h)).pack
  | .vcvtz p n d a k h => some (SlotW.mk 1#3 p 0x61#7 n d a (k ++ 0x0#1 ++ h)).pack
  | .vpack8 p n d a z t q => some (SlotW.mk 1#3 p 0x62#7 n d a (0x0#1 ++ z ++ t ++ q)).pack
  | .vunpk8 p n d a t q => some (SlotW.mk 1#3 p 0x63#7 n d a (0x0#2 ++ t ++ q)).pack
  | .vqnt4 p n d a t => some (SlotW.mk 1#3 p 0x64#7 n d a (0x0#4 ++ t)).pack
  | .vdq4 p n d a h f => some (SlotW.mk 1#3 p 0x65#7 n d a (0x0#4 ++ h ++ f)).pack
  | .vrcp p n d a => some (SlotW.mk 1#3 p 0x68#7 n d a 0x0#6).pack
  | .vrsq p n d a => some (SlotW.mk 1#3 p 0x69#7 n d a 0x0#6).pack
  | .vexp2 p n d a => some (SlotW.mk 1#3 p 0x6a#7 n d a 0x0#6).pack
  | .vlog2 p n d a => some (SlotW.mk 1#3 p 0x6b#7 n d a 0x0#6).pack
  | .vtanh p n d a => some (SlotW.mk 1#3 p 0x6c#7 n d a 0x0#6).pack
  | .vsigm p n d a => some (SlotW.mk 1#3 p 0x6d#7 n d a 0x0#6).pack
  | .vsin p n d a => some (SlotW.mk 1#3 p 0x6e#7 n d a 0x0#6).pack
  | .vcos p n d a => some (SlotW.mk 1#3 p 0x6f#7 n d a 0x0#6).pack
  | .vredAdd p n d a t => some (SlotW.mk 1#3 p 0x70#7 n d a (0x0#3 ++ t)).pack
  | .vredMax p n d a t => some (SlotW.mk 1#3 p 0x71#7 n d a (0x0#3 ++ t)).pack
  | .vredMin p n d a t => some (SlotW.mk 1#3 p 0x72#7 n d a (0x0#3 ++ t)).pack
  | .vscanAdd p n d a t => some (SlotW.mk 1#3 p 0x73#7 n d a (0x0#3 ++ t)).pack
  | .vtopk p n d a k => some (SlotW.mk 1#3 p 0x74#7 n d a (0x0#3 ++ k)).pack
  | .vgmax p n d a g => some (SlotW.mk 1#3 p 0x75#7 n d a (0x0#3 ++ g)).pack
  | .vperm p n d a b => some (SlotW.mk 1#3 p 0x76#7 n d a b).pack
  | .viota p n d a => some (SlotW.mk 1#3 p 0x77#7 n d a 0x0#6).pack
  | .vbcast p n d a b => some (SlotW.mk 1#3 p 0x78#7 n d a b).pack
  | .vextr p n d a b => some (SlotW.mk 1#3 p 0x79#7 n d a b).pack
  | .vmkc p d a w => some (SlotW.mk 1#3 p 0x7a#7 0x0#1 (0x0#3 ++ d) a (0x0#4 ++ w)).pack
  | .mmaAcc p f d a b => some (SlotW.mk 2#3 p (0x0#4 ++ f) 0x0#1 d a b).pack
  | .mmaOvw p f d a b => some (SlotW.mk 2#3 p (0x1#4 ++ f) 0x0#1 d a b).pack
  | .mmaDec p f d a b => some (SlotW.mk 2#3 p (0x2#4 ++ f) 0x0#1 d a b).pack
  | .mdecay p a => some (SlotW.mk 2#3 p 0x20#7 0x0#1 0x0#6 a 0x0#6).pack
  | .mzero p d => some (SlotW.mk 2#3 p 0x21#7 0x0#1 d 0x0#6 0x0#6).pack
  | .mcvt p d a z t => some (SlotW.mk 2#3 p 0x22#7 0x0#1 d a (0x0#3 ++ z ++ t)).pack
  | .mtrn p d a => some (SlotW.mk 2#3 p 0x23#7 0x0#1 d a 0x0#6).pack
  | .mldt p d a b => some (SlotW.mk 2#3 p 0x24#7 0x0#1 d a b).pack
  | .mrel p t => some (SlotW.mk 2#3 p 0x25#7 0x0#1 0x0#6 0x0#6 (0x0#2 ++ t)).pack
  | .mstt p d a b => some (SlotW.mk 2#3 p 0x26#7 0x0#1 d a b).pack
  | .mnest p l => some (SlotW.mk 2#3 p 0x27#7 0x0#1 0x0#6 0x0#6 (0x0#3 ++ l)).pack
  | .mnwaitN p => some (SlotW.mk 2#3 p 0x28#7 0x0#1 0x0#6 0x0#6 0x1#6).pack
  | .mnwaitT p => some (SlotW.mk 2#3 p 0x28#7 0x0#1 0x0#6 0x0#6 0x2#6).pack
  | .mnwaitNt p => some (SlotW.mk 2#3 p 0x28#7 0x0#1 0x0#6 0x0#6 0x3#6).pack
  | .mrag p a => some (SlotW.mk 2#3 p 0x29#7 0x0#1 0x0#6 a 0x0#6).pack
  | .mscale p d a b => some (SlotW.mk 2#3 p 0x2a#7 0x0#1 d a b).pack
  | .ldv p d a o m => some (SlotW.mk 3#3 p 0x0#7 0x0#1 d a (o ++ m)).pack
  | .stv p d a o m => some (SlotW.mk 3#3 p 0x1#7 0x0#1 d a (o ++ m)).pack
  | .ldvg p d a b => some (SlotW.mk 3#3 p 0x2#7 0x0#1 d a b).pack
  | .stvs p d a b => some (SlotW.mk 3#3 p 0x3#7 0x0#1 d a b).pack
  | .ldvb p d a o m => some (SlotW.mk 3#3 p 0x4#7 0x0#1 d a (o ++ m)).pack
  | .aadd p d a o m => some (SlotW.mk 3#3 p 0x8#7 0x0#1 d a (o ++ m)).pack
  | .amin p d a o m => some (SlotW.mk 3#3 p 0x9#7 0x0#1 d a (o ++ m)).pack
  | .amax p d a o m => some (SlotW.mk 3#3 p 0xa#7 0x0#1 d a (o ++ m)).pack
  | .aand p d a o m => some (SlotW.mk 3#3 p 0xb#7 0x0#1 d a (o ++ m)).pack
  | .aor p d a o m => some (SlotW.mk 3#3 p 0xc#7 0x0#1 d a (o ++ m)).pack
  | .axch p d a o m => some (SlotW.mk 3#3 p 0xd#7 0x0#1 d a (o ++ m)).pack
  | .acas p d a o m => some (SlotW.mk 3#3 p 0xe#7 0x0#1 d a (o ++ m)).pack
  | .aaddf p d a o m => some (SlotW.mk 3#3 p 0xf#7 0x0#1 d a (o ++ m)).pack
  | .vaadd p d a b => some (SlotW.mk 3#3 p 0x10#7 0x0#1 d a b).pack
  | .fence p k => some (SlotW.mk 3#3 p 0x18#7 0x0#1 (0x0#2 ++ (k.extractLsb' 12 4)) (k.extractLsb' 6 6) (k.extractLsb' 0 6)).pack
  | .acq p s => some (SlotW.mk 3#3 p 0x19#7 0x0#1 0x0#6 0x0#6 (0x0#3 ++ s)).pack
  | .rel p s => some (SlotW.mk 3#3 p 0x1a#7 0x0#1 0x0#6 0x0#6 (0x0#3 ++ s)).pack
  | .flush p s a b => some (SlotW.mk 3#3 p 0x1b#7 0x0#1 (0x0#3 ++ s) a b).pack
  | .invl p a b => some (SlotW.mk 3#3 p 0x1c#7 0x0#1 0x0#6 a b).pack
  | .cpy p d a b => some (SlotW.mk 3#3 p 0x20#7 0x0#1 d a b).pack
  | .cpym p d a b => some (SlotW.mk 3#3 p 0x21#7 0x0#1 d a b).pack
  | .cpyw p d a b => some (SlotW.mk 3#3 p 0x22#7 0x0#1 d a b).pack
  | .sbind p d a m q => some (SlotW.mk 3#3 p 0x23#7 0x0#1 d a (m ++ q)).pack
  | .sunb p d => some (SlotW.mk 3#3 p 0x24#7 0x0#1 d 0x0#6 0x0#6).pack
  | .sdrn p d => some (SlotW.mk 3#3 p 0x25#7 0x0#1 d 0x0#6 0x0#6).pack
  | .owntCore p a b => some (SlotW.mk 3#3 p 0x28#7 0x0#1 0x0#6 a b).pack
  | .owntEng p a b => some (SlotW.mk 3#3 p 0x28#7 0x0#1 0x1#6 a b).pack
  | .owntF p a b => some (SlotW.mk 3#3 p 0x28#7 0x0#1 0x2#6 a b).pack
  | .ownw p a b => some (SlotW.mk 3#3 p 0x29#7 0x0#1 0x0#6 a b).pack
  | .evpop p d => some (SlotW.mk 3#3 p 0x2a#7 0x0#1 d 0x0#6 0x0#6).pack
  | .evpost p a b => some (SlotW.mk 3#3 p 0x2b#7 0x0#1 0x0#6 a b).pack
  | .bara p b => some (SlotW.mk 3#3 p 0x2c#7 0x0#1 0x0#6 0x0#6 (0x0#2 ++ b)).pack
  | .barw p b => some (SlotW.mk 3#3 p 0x2d#7 0x0#1 0x0#6 0x0#6 (0x0#2 ++ b)).pack
  | .barx p d a b => some (SlotW.mk 3#3 p 0x2e#7 0x0#1 d a (0x0#2 ++ b)).pack
  | .whpre p a => some (SlotW.mk 3#3 p 0x30#7 0x0#1 0x0#6 a 0x0#6).pack
  | .whwait p d a => some (SlotW.mk 3#3 p 0x31#7 0x0#1 d a 0x0#6).pack
  | .whpin p d a => some (SlotW.mk 3#3 p 0x32#7 0x0#1 d a 0x0#6).pack
  | .whunp p a => some (SlotW.mk 3#3 p 0x33#7 0x0#1 0x0#6 a 0x0#6).pack
  | .whqry p d a => some (SlotW.mk 3#3 p 0x34#7 0x0#1 d a 0x0#6).pack
  | .whmap p d a => some (SlotW.mk 3#3 p 0x35#7 0x0#1 d a 0x0#6).pack
  | .snlook p d a => some (SlotW.mk 3#3 p 0x38#7 0x0#1 d a 0x0#6).pack
  | .snsave p a b => some (SlotW.mk 3#3 p 0x39#7 0x0#1 0x0#6 a b).pack
  | .snload p a b => some (SlotW.mk 3#3 p 0x3a#7 0x0#1 0x0#6 a b).pack
  | .snrel p a => some (SlotW.mk 3#3 p 0x3b#7 0x0#1 0x0#6 a 0x0#6).pack
  | .snhash p d a b => some (SlotW.mk 3#3 p 0x3c#7 0x0#1 d a b).pack
  | .rtpred p a b => some (SlotW.mk 3#3 p 0x40#7 0x0#1 0x0#6 a b).pack
  | .rtdisp p a b => some (SlotW.mk 3#3 p 0x41#7 0x0#1 0x0#6 a b).pack
  | .tinvr p d a b => some (SlotW.mk 3#3 p 0x48#7 0x0#1 d a b).pack
  | .tinva p a => some (SlotW.mk 3#3 p 0x49#7 0x0#1 0x0#6 a 0x0#6).pack
  | .prfl p l a o m => some (SlotW.mk 3#3 p 0x50#7 0x0#1 (0x0#5 ++ l) a (o ++ m)).pack
  | .bundleIssue => none
  | .resultComplete => none
  | .loadComplete => none
  | .prepFetchComplete => none
  | .loopBufferFill => none
  | .trapEntry => none
  | .matrixOpStart => none
  | .matrixOpComplete => none
  | .tileFetchLand => none
  | .tileFetchFault => none
  | .tileStorePerformed => none
  | .nestBundleIssue => none
  | .nestEnd => none
  | .copyPiecePerformed => none
  | .copyComplete => none
  | .engineFault => none
  | .multicastPieceLand => none
  | .streamFillArrive => none
  | .streamDrainWrite => none
  | .barrierArrival => none
  | .eventRecordPost => none
  | .windowAccessArrive => none
  | .tableWalk => none
  | .taskPlace => none
  | .lentWindowZeroed => none
  | .swthrExpiry => none
  | .sliceExpiry => none
  | .taskComplete => none
  | .completionRecordWrite => none
  | .errorToken => none
  | .deadlineExpiry => none
  | .priorityAging => none
  | .h3waitExpiry => none
  | .stealRequest => none
  | .stealBackoffExpiry => none
  | .gangStart => none
  | .scheduleSelect => none
  | .transferWindowOpen => none
  | .transferWindowClose => none
  | .gangCut => none
  | .gangGraceExpiry => none
  | .gsliceExpiry => none
  | .gangResume => none
  | .preemptTask => none
  | .contextSave => none
  | .contextRestore => none
  | .hungExpiry => none
  | .handleFillAllocation => none
  | .evictorVictim => none
  | .handleFillComplete => none
  | .handleFillFault => none
  | .evictionDrainComplete => none
  | .handleFlip => none
  | .pinWaitRetry => none
  | .hwaitExpiry => none
  | .rgraceExpiry => none
  | .pinwaitExpiry => none
  | .lanternSubmission => none
  | .lanternPrefetchSend => none
  | .lanternAgeExpiry => none
  | .ingressAppend => none
  | .dispatchComplete => none
  | .snsaveComplete => none
  | .snloadComplete => none
  | .snapshotEngineFault => none
  | .snapshotEvict => none
  | .pxctlClr => none
  | .queueDoorbell => none
  | .submissionEntryStart => none
  | .nopc => none
  | .launch => none
  | .launchi => none
  | .gang => none
  | .wait => none
  | .loopc => none
  | .ifc => none
  | .write => none
  | .signal => none
  | .chain => none
  | .endC => none
  | .qackResume => none
  | .qackDiscard => none
  | .preemptGo => none
  | .registerWrite => none
  | .hostWindowAccess => none
  | .hwmapWrite => none
  | .hctlQuiesce => none
  | .hctlQuiesceComplete => none
  | .hctlUnquiesce => none
  | .hctlRemap => none
  | .hctlRemapComplete => none
  | .hctlClrstat => none
  | .hbmActivation => none
  | .trackerReset => none
  | .hbmUncorrectable => none
  | .llcpartWrite => none
  | .formatWindowWrite => none
  | .hsetGo => none
  | .nolnusRead => none
  | .nolnusWrite => none
  | .nolnusAlloc => none
  | .nolnusFree => none
  | .nolnusDigest => none
  | .nolnusReloc => none
  | .readDisturbRelocation => none
  | .wearLevelMove => none
  | .flashProgramFailure => none
  | .flashUncorrectable => none
  | .loaderGo => none
  | .loaderAbort => none
  | .stagetExpiry => none
  | .loaderFlip => none
  | .draintExpiry => none
  | .mapnextInstall => none
  | .migrationFill => none
  | .mapRetire => none
  | .boostBoundary => none
  | .sensorSample => none
  | .throttleRecover => none
  | .currentLimitRecover => none
  | .pwcmdSave => none
  | .emergencySaveComplete => none
  | .hardTrip => none
  | .moduleReset => none
  | .psreqWrite => none
  | .powerUp => none
  | .clrhold => none
  | .clrsusp => none
  | .attest => none
  | .keyadd => none
  | .keyrevoke => none
  | .debugAuth => none
  | .secure => none
  | .decommission => none
  | .ownershipClaim => none
  | .attestationRequest => none
  | .ownleaseRenew => none
  | .ownhand => none
  | .leaseExpiry => none
  | .handoverLapse => none
  | .netWrite => none
  | .netRead => none
  | .netSend => none
  | .flitCrcFail => none
  | .l1WriteBack => none
  | .atomicComplete => none
  | .vectorLoadLand => none
  | .sramUncorrectable => none
  | .nolnusCommandDone => none
  | .bundleFetch => none

/-- The table's word for a row, laid out as the sequencer fetches it (R39) and decoded. -/
def decodeTableWord (nbits w : Nat) : Option Instr :=
  if nbits ≠ 32 then none else
    let v := BitVec.ofNat 32 w
    match decodeBytes [v.extractLsb' 0 8, v.extractLsb' 8 8, v.extractLsb' 16 8, v.extractLsb' 24 8] with
    | .ok (i, _) => some i
    | .error _ => none

end Sys2Proof
end

