-- ==== Sys2Proof/Machine/Fields.lean ====
section
/-! DEFINITION. Legality of the fields of a slot by its bits alone (R20, R24, R50-R53, R61, R146, R179, R202, R228,
R258). A field that breaks these raises the illegal-instruction trap at step 3 of R62. -/

namespace Sys2Proof.Machine

open Sys2Proof

/-! ## Kinds of field -/

/-- A scalar source field (R51). -/
def sSrc (f : BitVec 6) : Bool := decide (f.toNat ≤ 60)
/-- A scalar destination field (R20). -/
def sDst (f : BitVec 6) : Bool := decide (f.toNat ≤ 47)
/-- NW = 1 requires DST = 0 (R53). -/
def nwOk (n : BitVec 1) (d : BitVec 6) : Bool := n == 0 || d == 0
/-- An even scalar register pair (R228, R232, R250). -/
def sPair (f : BitVec 6) : Bool := decide (f.toNat ≤ 46) && f.toNat % 2 == 0
/-- A V source: views, OF entries, BL0-BL11, BP, ZR, HI (R50). -/
def vSrc (f : BitVec 6) : Bool := f.toNat != 63
/-- A V destination: a view or an OF entry (R50). -/
def vDst (f : BitVec 6) : Bool := decide (f.toNat < 48)
/-- An M tile field (R202). -/
def tileF (f : BitVec 6) : Bool := decide (f.toNat < 32)
/-- A C data field: a view or an OF entry (R228). -/
def xData (f : BitVec 6) : Bool := decide (f.toNat < 48)
/-- A C field that names an OF entry only (R228). -/
def ofOnly (f : BitVec 6) : Bool := f.toNat / 16 == 2
/-- A predicate destination (R24). -/
def pDst (d : BitVec 3) : Bool := d != 0
/-- A width code of b8, b16 or b32 (R146). -/
def widthOk (w : BitVec 6) : Bool := decide (w.toNat ≤ 2)
/-- A scope code (R107). -/
def scopeOk (s : BitVec 3) : Bool := decide (s.toNat ≤ 4)
/-- An address mode that exists (R55). -/
def modeExists (m : BitVec 2) : Bool := m != 3

/-! ## CSR numbers (R32) -/

/-- The numbers that the index lists. -/
def csrListed (c : Nat) : Bool :=
  c ≤ 0x007 || c == 0x009 || c == 0x00A || c == 0x00C || c == 0x00D || (0x010 ≤ c && c ≤ 0x017)
    || c == 0x100 || (0x110 ≤ c && c ≤ 0x117) || (0x200 ≤ c && c ≤ 0x202) || (0x210 ≤ c && c ≤ 0x213)
    || c == 0x220 || c == 0x221 || (0x300 ≤ c && c < 0x360 && c % 16 ≤ 5) || c == 0x360
    || (0x400 ≤ c && c ≤ 0x406) || (0x500 ≤ c && c ≤ 0x51F) || (0x600 ≤ c && c ≤ 0x61F) || c == 0x700
    || (0x800 ≤ c && c ≤ 0x804)

/-! ## Shapes of operation -/

/-- Sd, Sa, Sb (R132). -/
def okS3 (n : BitVec 1) (d a b : BitVec 6) : Bool := nwOk n d && sDst d && sSrc a && sSrc b
/-- Sd, Sa, with or without an immediate (R132). -/
def okS2 (n : BitVec 1) (d a : BitVec 6) : Bool := nwOk n d && sDst d && sSrc a
/-- Sd alone (R132). -/
def okS1 (n : BitVec 1) (d : BitVec 6) : Bool := nwOk n d && sDst d
/-- A compare (R139). -/
def okCmp (c : BitVec 4) (d : BitVec 3) (a b : BitVec 6) : Bool := decide (c.toNat ≤ 9) && pDst d && sSrc a && sSrc b
/-- A compare with an immediate (R139). -/
def okCmpI (c : BitVec 4) (d : BitVec 3) (a : BitVec 6) : Bool := decide (c.toNat ≤ 9) && pDst d && sSrc a
/-- A scalar load (R140). -/
def okLds (w : BitVec 3) (n : BitVec 1) (d a : BitVec 6) (m : BitVec 2) : Bool :=
  w != 7 && nwOk n d && sDst d && sSrc a && modeExists m
/-- A memory form whose DST is a scalar source (R140). -/
def okSts (d a : BitVec 6) (m : BitVec 2) : Bool := sSrc d && sSrc a && modeExists m
/-- Two scalar sources (R228, R258). -/
def okSS (a b : BitVec 6) : Bool := sSrc a && sSrc b
/-- A CSR read (R258). -/
def okCsrr (n : BitVec 1) (d : BitVec 6) (c : BitVec 12) : Bool := nwOk n d && sDst d && csrListed c.toNat
/-- A CSR write (R258). -/
def okCsrw (h a l : BitVec 6) : Bool := sSrc a && csrListed (h.toNat * 64 + l.toNat)
/-- A typed V operation with two sources (R179). -/
def okV3 (n : BitVec 1) (d a b : BitVec 6) : Bool := nwOk n d && vDst d && vSrc a && vSrc b
/-- A V operation with one source (R179). -/
def okV2 (n : BitVec 1) (d a : BitVec 6) : Bool := nwOk n d && vDst d && vSrc a
/-- A conversion: a "same" conversion has h = 0 (R186). -/
def okCvt (n : BitVec 1) (d a : BitVec 6) (k : BitVec 4) (h : BitVec 1) : Bool :=
  okV2 n d a && (h == 0 || !([4, 5, 6, 7, 8, 9].contains k.toNat))
/-- VDQ4: with F = 0 the half is zero (R189). -/
def okDq4 (n : BitVec 1) (d a : BitVec 6) (h f : BitVec 1) : Bool := okV2 n d a && (f == 1 || h == 0)
/-- VSCAN: f32, i32 or n32 (R192). -/
def okScan (n : BitVec 1) (d a : BitVec 6) (t : BitVec 3) : Bool := okV2 n d a && [0, 3, 6].contains t.toNat
/-- VGMAX: g from 1 (R193). -/
def okGmax (n : BitVec 1) (d a : BitVec 6) (g : BitVec 3) : Bool := okV2 n d a && g != 0
/-- VBCAST: a data destination or BP (R196). -/
def okBcast (n : BitVec 1) (d a b : BitVec 6) : Bool := nwOk n d && (vDst d || d == 0x3C#6) && vSrc a && vSrc b
/-- VEXTR: a scalar destination (R199). -/
def okExtr (n : BitVec 1) (d a b : BitVec 6) : Bool := nwOk n d && sDst d && vSrc a && vSrc b
/-- VMKC: width codes 0 to 2 (R200). -/
def okMkc (a : BitVec 6) (w : BitVec 2) : Bool := vSrc a && w != 3
/-- Three tiles (R202). -/
def okMma (d a b : BitVec 6) : Bool := tileF d && tileF a && tileF b
/-- MDECAY's source: OF, BL0-BL3 or HI (R202). -/
def okMdecay (a : BitVec 6) : Bool := ofOnly a || (48 ≤ a.toNat && a.toNat ≤ 51) || a == 0x3E#6
/-- MRAG's source: OF, a tile or ZR (R202). -/
def okMrag (a : BitVec 6) : Bool := decide (a.toNat < 48) || a == 0x3D#6
/-- A factor of MSCALE: OF, BL4-BL11, HI or a tile (R202). -/
def okFactor (a : BitVec 6) : Bool := decide (a.toNat < 48) || (52 ≤ a.toNat && a.toNat ≤ 59) || a == 0x3E#6
/-- A tile and two scalars (R202). -/
def okTss (t a b : BitVec 6) : Bool := tileF t && sSrc a && sSrc b
/-- A vector load or atomic operand with a memory form (R228). -/
def okVmem (d a : BitVec 6) (m : BitVec 2) : Bool := xData d && sSrc a && modeExists m
/-- STV's source may also be ZR (R228). -/
def okStv (d a : BitVec 6) (m : BitVec 2) : Bool := (xData d || d == 0x3D#6) && sSrc a && modeExists m
/-- A gather or scatter (R228). -/
def okGather (d a b : BitVec 6) : Bool := xData d && sSrc a && xData b
/-- An atomic (R232). -/
def okAtom (d a : BitVec 6) (m : BitVec 2) : Bool := sDst d && sSrc a && modeExists m
/-- ACAS: an even register pair (R232). -/
def okAcas (d a : BitVec 6) (m : BitVec 2) : Bool := sPair d && sSrc a && modeExists m
/-- A scalar result and scalar sources (R228). -/
def okDS (d a : BitVec 6) : Bool := sDst d && sSrc a
/-- Three scalar sources (R228). -/
def okSSS (d a b : BitVec 6) : Bool := sSrc d && sSrc a && sSrc b
/-- SBIND: mode 01 or 10, depth from 2 (R245). -/
def okSbind (d a : BitVec 6) (m : BitVec 2) (q : BitVec 4) : Bool :=
  ofOnly d && sSrc a && (m == 1 || m == 2) && decide (2 ≤ q.toNat)

end Sys2Proof.Machine
end

