-- ==== Sys2Proof/Config.lean ====
section
/-! DEFINITION. What an implementation fixes or the manual leaves open. An opaque constant has no body: no proof can
see its value, so a statement that holds, holds whatever the device does there. Each is named in the assumption log. -/

namespace Sys2Proof.Config

/-- Cycles an access takes beyond its least latency, applied to the free-value counter (R133, R229, R323: "as the
memory supplies"). Free value, log 4. -/
opaque extraLatency : Nat → Nat

/-- A free choice among allowed behaviours, applied to the free-value counter (log 4). -/
opaque choice : Nat → Nat

/-- The set, among the 8,192 of its slice, in which an L2 holds a line (R321): the manual gives the slice of an address and not its set;
applied to the line's number. Free value, log 4. -/
opaque l2Set : Nat → Nat

/-- Where in a task's address space the resident copies of handles stand, in units of 2^40 bytes (R251, R325): the
manual gives the address no value. Free value, log 4. -/
opaque residentWindow : Nat

/-- Verification of an ML-DSA-87 signature: public key or key digest, message digest, signature (R74, R463-R470).
The manual names the algorithm and does not define it. Free value, log 4. -/
opaque mldsaVerify : Nat → Nat → Nat → Bool

/-- Signature of the device identity key over a digest (R468). Free value, log 4. -/
opaque mldsaSign : Nat → Nat

/-- SHA3-512 digest of the device identity public key (R467, R468). Free value, log 4. -/
opaque identityDigest : Nat

/-- The random nonce CLNONCE, renewed after each judged request (R466, R470), applied to the free-value counter.
Free value, log 4. -/
opaque nonce : Nat → Word

/-- What a flash page that is allocated and not written reads as, as a number of 32 KiB, applied to the free-value counter (R434, R436).
Free value, log 4. -/
opaque blankPage : Nat → Nat

/-- What an island's sensor reads: sensors 0-3 T0-T3 in hundredths of a degree, 4-5 C0 and C1 in hundredths of an ampere, 6 the trip
diode (R455, R459), applied to the free-value counter, the island and the sensor. Free value, log 4. -/
opaque sensor : Nat → Nat → Nat → Int

/-- The digest of the owner key table in a report (R468): the manual does not say over which bytes; applied to the table's
digests, usages and revoked bits packed in order. Free value, log 4. -/
opaque keyTableDigest : Nat → Nat

/-- Vendor root digests, key entries 0-3 (R464). Free value, log 4. -/
opaque vendorRoot : Nat → Nat

/-- The lowest firmware version accepted (R466 SECSTAT.MINVER, fused). Free value, log 4. -/
opaque minFirmware : BitVec 16

/-- What the management master's mailbox holds of a recovery image (R463), whose form there the manual does not give: of the mailbox's bytes as
a number, 0 the vendor root's index, 1 the version, 2 the length, 3 the image's bytes, 4 the signature. Free value, log 4. -/
opaque recoveryImage : Nat → Nat → Nat

end Sys2Proof.Config
end

