-- ==== Sys2Proof/Machine/Bits.lean ====
section
/-! DEFINITION. Bit, byte and lane helpers over natural numbers and bit vectors (R67). -/

namespace Sys2Proof.Machine

open Sys2Proof

/-- Byte `i` of a little-endian number (R5). -/
def getByte (v i : Nat) : Nat := (v >>> (8 * i)) % 256

/-- The number with byte `i` replaced. -/
def setByte (v i b : Nat) : Nat := v - (getByte v i <<< (8 * i)) + (b <<< (8 * i))

/-- The low `w` bits of `x` from bit `lo`. -/
def field (x lo w : Nat) : Nat := (x >>> lo) % 2 ^ w

/-- Bits [lo+w-1:lo] of a word. -/
def bits (x : Word) (lo w : Nat) : Nat := field x.toNat lo w

/-- One bit of a word. -/
def bit (x : Word) (i : Nat) : Bool := x.getLsbD i

/-- A number of `n` lanes of `w` bits, lane e being `f e`. -/
def buildNat (w : Nat) (f : Nat → Nat) : Nat → Nat
  | 0 => 0
  | n + 1 => buildNat w f n + (f n % 2 ^ w) <<< (w * n)

/-- A 512-byte value from its lanes of `w` bits (R180). -/
def vecOf (w : Nat) (f : Nat → Nat) : Vec := BitVec.ofNat 4096 (buildNat w f (4096 / w))

/-- Lane `e` of `w` bits (R180). -/
def lane (v : Vec) (w e : Nat) : Nat := field v.toNat (w * e) w

/-- The two's complement value of the low `w` bits. -/
def toInt (w x : Nat) : Int := let y := x % 2 ^ w; if 2 * y < 2 ^ w then (y : Int) else (y : Int) - (2 : Int) ^ w

/-- The low `w` bits of an integer (R75). -/
def ofInt (w : Nat) (x : Int) : Nat := (x % (2 : Int) ^ w).toNat

/-- The low `n` bits of `x`, sign-extended to 64 bits (R67 sext). -/
def sext (x n : Nat) : Word := BitVec.ofInt 64 (toInt n x)

/-- The low `n` bits of `x`, zero-extended to 64 bits (R67 zext). -/
def zext (x n : Nat) : Word := BitVec.ofNat 64 (x % 2 ^ n)

/-- One bits among the low `n` bits. -/
def popCount (x : Nat) : Nat → Nat
  | 0 => 0
  | n + 1 => popCount x n + (x >>> n) % 2

/-- Zero bits above the highest one bit, of the low `n` bits. -/
def leadZeros (x : Nat) : Nat → Nat
  | 0 => 0
  | n + 1 => if x.testBit n then 0 else leadZeros x n + 1

/-- All ones in the low `n` bits. -/
def ones (n : Nat) : Nat := 2 ^ n - 1

/-- Byte enables of 512 bytes from one enable per element of `b` bytes (R25). -/
def byteEnables (m : Mask) (b : Nat) : Mask :=
  BitVec.ofNat 512 (buildNat b (fun e => if m.getLsbD e then ones b else 0) (512 / b))

/-- Bits of a 512-byte value under byte enables. -/
def enableBits (ben : Mask) (n : Nat) : Nat := buildNat 8 (fun i => if ben.getLsbD i then 255 else 0) n

/-- `old` with the enabled bytes of `new`. -/
def mergeBytes (old new : Vec) (ben : Mask) : Vec :=
  let e : Vec := BitVec.ofNat 4096 (enableBits ben 512)
  (old &&& ~~~e) ||| (new &&& e)

/-- All 512 byte enables. -/
def allBytes : Mask := BitVec.allOnes 512

/-- The first `n` byte enables. -/
def firstBytes (n : Nat) : Mask := BitVec.ofNat 512 (ones n)

/-- Ceiling division. -/
def ceilDiv (a b : Nat) : Nat := (a + b - 1) / b

/-- `n` copies of a bit compared with a field: an address is canonical when bits 63 to 57 all equal bit 56 (R55). -/
def canonical (a : Word) : Bool := let t := bits a 56 8; t == 0 || t == 255

/-- A 57-bit address field of a register (R31, R33-R38): bits above it read as zero. -/
def low57 (a : Word) : Word := a &&& 0x01FFFFFFFFFFFFFF#64

/-- The canonical address that a 57-bit field names (R55). -/
def canon57 (a : Word) : Word := if a.getLsbD 56 then a ||| 0xFE00000000000000#64 else low57 a

/-- Bytes of a number, lowest first. -/
def bytesOf (v : Nat) : Nat → List Byte
  | 0 => []
  | n + 1 => BitVec.ofNat 8 v :: bytesOf (v / 256) n

/-- The little-endian number of a list of bytes. -/
def natOf : List Byte → Nat
  | [] => 0
  | b :: bs => b.toNat + 256 * natOf bs

/-- Element `i` of a list of words, zero beyond its end. -/
def nth (l : List Word) (i : Nat) : Word := l.getD i 0

/-- The list with element `i` changed. -/
def updNth {α : Type} (l : List α) (i : Nat) (f : α → α) : List α :=
  match l, i with
  | [], _ => []
  | x :: xs, 0 => f x :: xs
  | x :: xs, i + 1 => x :: updNth xs i f

/-- The list without its first element that satisfies the test. -/
def dropFirst {α : Type} (p : α → Bool) : List α → List α
  | [] => []
  | x :: xs => if p x then xs else x :: dropFirst p xs

/-- The list with the function applied where the test holds. -/
def updWhere {α : Type} (p : α → Bool) (f : α → α) (l : List α) : List α := l.map fun x => if p x then f x else x

/-- The least value of a function over a list. -/
def minOf {α : Type} (f : α → Nat) : List α → Option Nat
  | [] => none
  | x :: xs => match minOf f xs with
    | none => some (f x)
    | some m => some (min (f x) m)

/-- A Boolean as a bit. -/
def bitOf (b : Bool) : Nat := if b then 1 else 0

end Sys2Proof.Machine
end

