-- ==== Sys2Proof/Machine/State.lean ====
section
/-! DEFINITION. The state of one DL-880 package as plain data, its reasons to stop, and the state after reset.
Every structure's fields carry their reset or launch value as a default (R12, R30, and the reset columns of the
register tables); where the manual gives none the value is named in log 3. -/

namespace Sys2Proof.Machine

open Sys2Proof

/-- Who writes a control register (R469, R480). -/
inductive Master where
  | host | peer | mgmt | core
  deriving DecidableEq, Repr, Inhabited

/-- One sample of an island's six sensors (R455) and of its trip diode (R459): temperatures in hundredths of a degree, currents
in hundredths of an ampere. -/
structure Sample where
  t0 : Int := 0
  t1 : Int := 0
  t2 : Int := 0
  t3 : Int := 0
  c0 : Int := 0
  c1 : Int := 0
  diode : Int := 0
  deriving DecidableEq, Repr, Inhabited

/-- The operands of an event: which unit moves and what an outside party supplies. `c` core, `k` resident slot,
`u` entry, level, unit or key number, `id` a command's number, `tid` task, `h` handle or group, `d` die, `q` queue
or peer, `isl` island, `m` the party, `w0`-`w3` words, `bytes` data, `n` a length or count, `v` a 512-byte
operand, `bad` its poisoned parts by offset and length with the source. -/
structure Arg where
  c     : CoreId := 0
  k     : Fin 4 := 0
  u     : Nat := 0
  id    : Nat := 0
  tid   : BitVec 32 := 0
  h     : BitVec 16 := 0
  d     : DieId := 0
  q     : Fin 64 := 0
  isl   : Fin 128 := 0
  m     : Master := .host
  w0    : Word := 0
  w1    : Word := 0
  w2    : Word := 0
  w3    : Word := 0
  bytes : List Byte := []
  n     : Nat := 0
  v     : Vec := 0
  bad   : List (Nat × Nat × Nat) := []
  smp   : Sample := {}
  deriving DecidableEq, Repr, Inhabited

/-- An event to come: when, in master-clock ticks on the package's agenda and in island cycles on a core's list,
which row, and its operands. -/
structure Event where
  at_ : Nat := 0
  row : Instr := .nop
  arg : Arg := {}
  deriving DecidableEq, Repr, Inhabited

/-! ## Order between parties (R102, R113, R114, R129) -/

/-- What happened before: of a party, by its writer identifier (R102), how many of its releases (R113); and of a party and an ordering class,
16 for none, the number of the last of its writes of that class, which its earlier ones of the class precede (R109, R111). -/
structure Known where
  rels   : List (Nat × Nat) := []
  writes : List (Nat × Nat × Nat) := []
  deriving DecidableEq, Repr, Inhabited

/-- A write: its writer, how many releases the writer had completed, how often it had learned of others' accesses (R129's acquire epoch), its
number among the writer's writes, and its ordering class, 16 for none. -/
structure Write where
  w   : Nat := 0
  rel : Nat := 0
  acq : Nat := 0
  n   : Nat := 0
  oc  : Nat := 16
  deriving DecidableEq, Repr, Inhabited

/-- What a party has published and learned (R111-R115): `learned` what happened before its accesses after each time it learned of something,
newest first; `rels` its own releases, newest first, each with its scope and what was known then; `seen` by party the last release that its
reads have met, `told` those that records and barriers stand for (R121, R125), `read` the writes whose values its reads have returned; `n` its
writes so far and `fences` its FENCEs with the number of the write before each (R109). -/
structure Clock where
  learned : List Known := []
  rels    : List (Nat × Known) := []
  seen    : List (Nat × Nat) := []
  told    : List (Nat × Nat) := []
  read    : List (Nat × Nat × Nat) := []
  n       : Nat := 0
  fences  : List (Nat × BitVec 16) := []
  deriving DecidableEq, Repr, Inhabited

/-- The writes of a byte (R113, R129): `by_` the one whose value it holds and then those that it continues, an atomic's predecessors in
coherence order; `past` the earlier ones, which an atomic would continue; `rmw` whether the held one is an atomic. -/
structure Marks where
  by_  : List Write := []
  past : List Write := []
  rmw  : Bool := false
  deriving DecidableEq, Repr, Inhabited

/-- The writes of the bytes [pa, pa+len). -/
structure Tag where
  pa  : Nat := 0
  len : Nat := 0
  m   : Marks := {}
  deriving DecidableEq, Repr, Inhabited

/-! ## Context frame (R11, R12) -/

/-- A destination of a fixed-latency result (R410, KIND). Offsets of register space are task-relative. -/
inductive Dest where
  | s (r : Nat) | rs (off : Nat) | lent (off : Nat) | pred (p : Nat) | mask (m : Nat) | ofe (n : Nat)
  | ofHead (n : Nat) (tag : Nat) | bp | none
  deriving DecidableEq, Repr, Inhabited

/-- A fixed-latency result in flight (R133, R182, R410). `due` is its completion cycle, `ben` its byte enables
(bit enables for predicate and mask destinations), `lat` the unit whose latch also records it (R22), `unit` the unit that computes it; `seq` is
four times its issue cycle plus its slot, the order of issue. -/
structure Result where
  seq  : Nat := 0
  due  : Nat := 0
  dest : Dest := .none
  ben  : Mask := 0
  data : Vec := 0
  lat  : Option (Fin 3) := none
  unit : Nat := 0
  deriving DecidableEq, Repr, Inhabited

/-- A pending load (R141, R229): its destination and the value it bound; `id` is its order of issue, as `seq` of a
result. `poison` marks poisoned data with the source of its poison (R420). `form` 0 zero-extends `n` bytes, 1 sign-extends them, 2 is a vector,
3 broadcasts four bytes; `parts` counts window accesses whose bytes have not arrived. -/
structure Pending where
  id     : Nat := 0
  dest   : Dest := .none
  ben    : Mask := 0
  data   : Vec := 0
  lat    : Option (Fin 3) := none
  poison : Option Nat := none
  form   : Nat := 2
  n      : Nat := 512
  parts  : Nat := 0
  deriving DecidableEq, Repr, Inhabited

/-- An atomic under way (R116, R232): opcode 0-7 in the order AADD, AMIN, AMAX, AAND, AOR, AXCH, ACAS, AADDF; `oc`
is its ordering class, `asid` the address space at its issue, `seq` its place in the order of issue; a `dead` one's destination is written by a higher slot of its bundle (R65). -/
structure Atomic where
  id   : Nat := 0
  seq  : Nat := 0
  dead : Bool := false
  op   : Nat := 0
  pa   : Nat := 0
  va   : Nat := 0
  oc   : Nat := 0
  asid : BitVec 16 := 0
  x    : Word := 0
  new  : Word := 0
  dest : Nat := 0
  deriving DecidableEq, Repr, Inhabited

/-- A trap to be taken (R271); `src` and `padr` are the poison's source and its memory line (R406). -/
structure Trap where
  cause  : BitVec 8 := 0
  slot   : Nat := 0
  async  : Bool := false
  evaddr : Word := 0
  eeng   : Word := 0
  src    : Nat := 0
  padr   : Word := 0
  deriving DecidableEq, Repr, Inhabited

/-- An element of a stream queue (R21, R246): its bytes, the fault it carries, the cycle
from which it is readable, a tag that names it for a later completion, and the table and address space of the bundle that pushed it (R260). -/
structure StreamElem where
  data  : Vec := 0
  ben   : Mask := 0
  fault : Option Trap := none
  ready : Nat := 0
  tag   : Nat := 0
  root  : Word := 0
  asid  : BitVec 16 := 0
  deriving DecidableEq, Repr, Inhabited

/-- Stream state of an operand-file entry (R37, R245): mode 0 unbound, 1 read, 2 write; `gen` names the binding; the pattern; `next` is the
index of the next element to fill or drain; LEFT counts elements not yet filled or pushed, SCOUNT elements filled
or drained; `fills` counts fill reads under way; `bank` holds the queue; `root` and `asid` are those of its binding (R260). -/
structure Stream where
  mode    : Nat := 0
  gen     : Nat := 0
  depth   : Nat := 0
  left    : Nat := 0
  scount  : Nat := 0
  base    : Word := 0
  counts  : List Nat := []
  strides : List Word := []
  next    : Nat := 0
  fills   : Nat := 0
  queue   : List StreamElem := []
  bank    : Nat := 0
  stopped : Bool := false
  root    : Word := 0
  asid    : BitVec 16 := 0
  deriving DecidableEq, Repr, Inhabited

/-- A target-buffer entry (R27, R147, R148). -/
structure Target where
  valid    : Bool := false
  addr     : Word := 0
  outRange : Bool := false
  filled   : Bool := false
  code     : List (Nat × Bundle) := []
  deriving DecidableEq, Repr, Inhabited

/-- A loop level (R28, R35, R159). -/
structure Level where
  lcnt   : Nat := 0
  lidx   : Nat := 0
  lrotc  : Word := 0
  lstart : Word := 0
  lstop  : Word := 0
  stages : Nat := 0
  savedp : BitVec 4 := 0
  isOpen : Bool := false
  nest   : Bool := false
  pipe   : Bool := false
  filled : Bool := false
  buf    : List (Nat × Bundle) := []
  deriving DecidableEq, Repr, Inhabited

/-- A barrier object (R37, R249). `pendingAt` is the member's own mark that it has arrived and not completed;
`reached` lists the members whose latest arrival has reached it, `seen` those whose arrival came after its last
completion (R263); `by_` the releases that its arrivals and finished commands stand for (R121, R124), `phase` the completions of a gang barrier
that its member has passed (R307). -/
structure Barrier where
  armed     : Bool := false
  group     : BitVec 16 := 0
  target    : Nat := 0
  arrived   : Nat := 0
  pend      : Word := 0
  pendingAt : Bool := false
  seen      : List (BitVec 32) := []
  reached   : List (BitVec 32) := []
  by_       : List Write := []
  phase     : Nat := 0
  deriving DecidableEq, Repr, Inhabited

/-- The latches and their pointers (R22): BL0-BL3, BL4-BL11, three pointers. -/
structure Latches where
  bs  : Vector Word 4 := Vector.replicate 4 0
  bv  : Vector Vec 8 := Vector.replicate 8 0
  ptr : Vector (Fin 4) 3 := Vector.replicate 3 0
  deriving DecidableEq, Repr, Inhabited

/-- The trap shadow (R270, R272). -/
structure Shadow where
  lat    : Latches := {}
  depth  : Nat := 0
  floor  : Nat := 0
  mfloor : Nat := 0
  lidx   : List Nat := []
  lrotc  : List Word := []
  tgs    : List (Word × Bool × Bool) := []
  deriving DecidableEq, Repr, Inhabited

/-- The trap CSRs (R36), CSTAT.INTRAP and what stands with them (R270-R275). -/
structure TrapState where
  estatus : Word := 0
  ecause  : Word := 0
  epc     : Word := 0
  evaddr  : Word := 0
  eslot   : Word := 0
  eeng    : Word := 0
  handler : Word := 0
  intrap  : Bool := false
  shadow  : Shadow := {}
  due     : List Trap := []
  held    : List Trap := []
  deriving DecidableEq, Repr, Inhabited

/-- The nest table (R222, R224): the bound levels are `first` to `last - 1`, their copies stand in `lv` under their
own numbers and the counts at the binding in `lcnt0`; `gen` names the nest; `depth` is the first level that is closed now. -/
structure Nest where
  gen      : Nat := 0
  running  : Bool := false
  ended    : Bool := false
  first    : Nat := 0
  last     : Nat := 0
  depth    : Nat := 0
  lv       : Vector Level 6 := Vector.replicate 6 {}
  lcnt0    : Vector Nat 6 := Vector.replicate 6 0
  program  : List (Nat × Bundle) := []
  views    : List Word := []
  sregs    : List (Nat × Word) := []
  bls      : List Word := []
  cycle    : Word := 0
  pos      : Word := 0
  deriving DecidableEq, Repr, Inhabited

/-- Matrix-unit state of a frame (R206); `pins` lists the lines pinned in the L2 under their tags (R218). -/
structure MatState where
  lambda : BitVec 32 := 0x3F800000#32
  live   : Option (BitVec 128) := none
  pins   : List (Nat × Nat) := []
  nest   : Nest := {}
  deriving DecidableEq, Repr, Inhabited

/-- The registers a program computes in (R12, R20-R25, R195); the three poison fields list the poisoned registers and
entries with the source of the poison (R420). -/
structure Regs where
  s       : Vector Word 48 := Vector.replicate 48 0
  vw      : Vector Word 8 := Vector.replicate 8 0
  ofe     : Vector Vec 16 := Vector.replicate 16 0
  streams : Vector Stream 16 := Vector.replicate 16 {}
  lat     : Latches := {}
  bp      : Vec := 0
  p       : BitVec 8 := 1
  mks     : Vector Mask 8 := Vector.replicate 8 0
  mstack  : List Mask := []
  sPoison : List (Nat × Nat) := []
  oPoison : List (Nat × Nat) := []
  bpPoison : Option Nat := none
  deriving DecidableEq, Repr, Inhabited

/-- Control state of the sequencer's context (R27, R28, R150-R163). `pc` is the bundle that issues next; `cycleAs` is
what CYCLE reads as inside a nest (R222); `orderFrom` is the cycle in which a release or acquire of the head bundle began to wait, `inval` names the invalidation that it waits for, `draining` one of the bundle that issued last, whose own accesses must perform first; `swLim` is the SWTHR with which a hold that counts began (R403); `rebind` the bindings that the bundle in issue changes and `csrw` the control register that it writes (R64); `stopped` keeps a placed task from issuing (R306, R408); `replay` tells that results of its saved context are in flight again (R275). -/
structure Ctl where
  pc       : Word := 0
  tg       : Vector Target 8 := Vector.replicate 8 {}
  lv       : Vector Level 6 := Vector.replicate 6 {}
  depth    : Nat := 0
  floor    : Nat := 0
  fetched  : List (Nat × Bundle) := []
  notBefore : Nat := 0
  refetch  : Bool := false
  heldFor  : Nat := 0
  halted   : Bool := false
  waitEv   : Bool := false
  orderFrom : Option Nat := none
  inval    : Option Nat := none
  draining : Option Nat := none
  bankHold : Nat := 0
  taken    : Option Word := none
  rebind   : List (Fin 16 × Stream) := []
  csrw     : Option (Nat × Word) := none
  clearLat : Bool := false
  trapReq  : Option Trap := none
  retReq   : Bool := false
  swHeld   : Nat := 0
  swLim    : Nat := 2048
  loopWait : Option (Fin 6) := none
  ended    : Bool := false
  yieldReq : Bool := false
  stopped  : Bool := false
  replay   : Bool := false
  cycleAs  : Option Word := none
  deriving DecidableEq, Repr, Inhabited

/-- The task's identity and limits on its core (R13, R33, R72, R266). -/
structure Ident where
  task     : BitVec 32 := 0
  valid    : Bool := false
  codebase : Word := 0
  codelim  : Word := 0
  foot     : Nat := 0
  base     : Nat := 0
  deadline : Word := 0
  tokgrp   : BitVec 32 := 0
  duplvl   : BitVec 2 := 0
  stepn    : BitVec 32 := 0
  steps    : BitVec 32 := 0
  heat     : BitVec 2 := 0
  mode     : Bool := false
  lent     : List CoreId := []
  lendn    : BitVec 4 := 0
  prio     : Nat := 0
  ewtab    : BitVec 32 := 0
  stallcnt : BitVec 32 := 0
  deriving DecidableEq, Repr, Inhabited

/-- System registers and local-store roles of a frame (R34, R38, R479). -/
structure SysRegs where
  bankrole : Word := 0
  own      : Vector Word 8 := Vector.replicate 8 0
  touched  : Mask := 0
  mirtab   : Vector Word 8 := Vector.replicate 8 0
  ptroot   : Word := 0
  asid     : BitVec 16 := 0
  ctxsave  : Word := 0
  evspill  : Word := 0
  evquota  : BitVec 32 := 0
  deriving DecidableEq, Repr, Inhabited

/-- A wait of the task's head bundle on a handle (R330, R333, R335): for a pin or not; `granted` a pin taken on its
behalf, `zero` a release by deferral, `cause` the failure it raises when it issues again. -/
structure HWait where
  h       : BitVec 16 := 0
  pin     : Bool := false
  granted : Bool := false
  zero    : Bool := false
  cause   : Option (BitVec 8 × Word) := none
  deriving DecidableEq, Repr, Inhabited

/-- A record in the spill ring (R326): its slot, and the ring with the table and address space under which it was written (R260). -/
structure Spilled where
  slot : Nat := 0
  ring : Word := 0
  root : Word := 0
  asid : BitVec 16 := 0
  deriving DecidableEq, Repr, Inhabited

/-- Messages: barriers, the event queue and its spill ring, snapshot holds, weight pins (R37, R239, R251,
R326, R333, R347). `waitFrom` numbers the HWAIT timer of the wait under way, `gateWait` marks a wait for admission
(R444). `evBy` gives for each record of the queue and its ring, oldest first, the release that it stands for and the source of its
poison, when it has some (R121, R125, R420). `spill` lists the
records in the ring, oldest first, `spillPos` the next slot; `fences` the
FENCEs issued while accesses were outstanding (R109). -/
structure Msgs where
  bars     : Vector Barrier 16 := Vector.replicate 16 {}
  evq      : List (BitVec 128) := []
  evBy     : List (Write × Option Nat) := []
  spill    : List Spilled := []
  spillPos : Nat := 0
  fences   : List (Nat × BitVec 16) := []
  holds    : List (BitVec 32) := []
  pins     : List (BitVec 16) := []
  waits    : List HWait := []
  waitFrom : Option Nat := none
  gateWait : Bool := false
  cmdCount : Vector (BitVec 16) 2 := Vector.replicate 2 0
  deriving DecidableEq, Repr, Inhabited

/-- A context frame (R11). -/
structure Frame where
  id    : Ident := {}
  r     : Regs := {}
  ctl   : Ctl := {}
  tr    : TrapState := {}
  mat   : MatState := {}
  sys   : SysRegs := {}
  msg   : Msgs := {}
  infl  : List Result := []
  loads : List Pending := []
  atoms : List Atomic := []
  deriving DecidableEq, Repr, Inhabited

/-! ## Core -/

/-- Conditions of a core (R298). -/
inductive CoreCond where
  | dark | idle | active
  deriving DecidableEq, Repr, Inhabited

/-- An operation of the matrix unit (R203, R207-R213). -/
inductive MKind where
  | mma (mode fmt : Nat) | mzero | mscale | mcvt (fmt : Nat) (rtz : Bool) | mtrn (shape : Nat)
  deriving DecidableEq, Repr, Inhabited

/-- A byte range of physical register space. -/
structure Span where
  pa  : Nat := 0
  len : Nat := 0
  deriving DecidableEq, Repr, Inhabited

/-- A use of a bank's read or write port (R278): by a bundle's reads, by a result's write, or by an engine; `ahead` is an engine's read that
has waited 8 cycles. -/
inductive Port where
  | read | write | engRead | engWrite | ahead
  deriving DecidableEq, Repr, Inhabited

/-- A matrix operation, waiting or running (R203-R208): captured lambda and ragged mask, the row and column
factors of MSCALE, whether its accumulator is forwarded, and its timing: `at_` its cycle of issue, `pos` the cycles of its occupancy `occ` that it
has worked before cycle `upTo`, `waited` those it has lost since to a bank it reads (R278), `ends` its last cycle if it loses no more, `readable`
the cycles from its last one to the first at which its result is readable. -/
structure MOp where
  slot   : Fin 4 := 0
  kind   : MKind := .mzero
  dst    : Span := {}
  a      : Span := {}
  b      : Span := {}
  lambda : BitVec 32 := 0
  live   : Option (BitVec 128) := none
  rvec   : Vec := 0
  cvec   : Vec := 0
  at_    : Nat := 0
  fwd    : Bool := false
  occ    : Nat := 0
  upTo   : Nat := 0
  pos    : Nat := 0
  waited : Nat := 0
  ends   : Nat := 0
  readable : Nat := 0
  nestIx : Option Nat := none
  nestGen : Nat := 0
  opSlot : Fin 4 := 0
  deriving DecidableEq, Repr, Inhabited

/-- An MLDT or MSTT outstanding in the tile fetch unit (R216-R220). `by_` is the write
that a store stands for, `root` and `asid` the table and address space at its issue (R260), `away` the tiles of other local stores that it names, `before` the releases that the core had completed when it separated the store from its later writes (R220); `got` the rows that a fetch has read,
their bytes and scale bytes, `fault` what stopped it and at which row, `lines` the lines that it pins until they are placed (R322), `pos` the granules
that have had their bank, `waited` the cycles for which the next one has waited (R278). -/
structure TileCmd where
  id    : Nat := 0
  slot  : Fin 4 := 0
  store : Bool := false
  elem  : Span := {}
  shape : Nat := 0
  va    : Word := 0
  pitch : Nat := 0
  tag   : Option Nat := none
  nestIx : Option Nat := none
  nestGen : Nat := 0
  opSlot : Fin 4 := 0
  tiles : List Nat := []
  away  : List (CoreId × Nat) := []
  root  : Word := 0
  asid  : BitVec 16 := 0
  by_   : Write := {}
  before : Option Nat := none
  got   : Option (Nat × Nat × Nat) := none
  fault : Option (Trap × Nat) := none
  lines : List Nat := []
  pos   : Nat := 0
  waited : Nat := 0
  deriving DecidableEq, Repr, Inhabited

/-- A command of a copy unit (R240-R244): `rows` rows of `len` bytes; `done` counts bytes performed. A multicast
carries its target cores and their progress; `nest` marks a command of a nest's program by four times its bundle plus its slot (R226); `away` lists the tiles of other local stores
that it names, `root` and `asid` the table and address space at its issue (R260); `ended` is set on a command that has ended and whose record waits:
payload, detail and kind (R326); `stopAt` counts the bytes that a multicast's first failed target received (R244). -/
structure CopyCmd where
  id    : Nat := 0
  slot  : Fin 4 := 0
  task  : BitVec 32 := 0
  index : Nat := 0
  sig   : BitVec 24 := 0
  src   : Word := 0
  dst   : Word := 0
  len   : Nat := 0
  rows  : Nat := 1
  sstr  : Int := 0
  dstr  : Int := 0
  done  : Nat := 0
  multi : Bool := false
  off   : Nat := 0
  targets : List (CoreId × Nat × Bool) := []
  tiles : List Nat := []
  failed : Option Trap := none
  started : Bool := false
  nest  : Option Nat := none
  nestGen : Nat := 0
  away  : List (CoreId × Nat) := []
  root  : Word := 0
  asid  : BitVec 16 := 0
  ended : Option (Word × Nat × Nat) := none
  stopAt : Nat := 0
  by_   : Write := {}
  deriving DecidableEq, Repr, Inhabited

/-- A cached translation (R415): page-aligned virtual page, ASID, page size as a power of two, frame and
permission bits U, X, W, R in [5:2] of the leaf, MT in [7:6]. -/
structure TlbEntry where
  asid  : BitVec 16 := 0
  va    : Nat := 0
  log   : Nat := 16
  pa    : Nat := 0
  flags : BitVec 8 := 0
  deriving DecidableEq, Repr, Inhabited

/-- A walk-cache entry (R415): the node that a level's entry for this address points to. -/
structure WalkEntry where
  asid  : BitVec 16 := 0
  level : Nat := 0
  tag   : Nat := 0
  node  : Nat := 0
  deriving DecidableEq, Repr, Inhabited

/-- A byte of the L1 (R105), with its writes (R129). -/
structure L1Byte where
  pa    : Nat := 0
  val   : Byte := 0
  dirty : Bool := false
  m     : Marks := {}
  deriving DecidableEq, Repr, Inhabited

/-- A permit counter (R34, R282). -/
structure Permit where
  count : Nat := 0
  cap   : Nat := 0
  rate  : Nat := 0
  frac  : Nat := 0
  deriving DecidableEq, Repr, Inhabited

/-- A profile granted to a core (R451): the cycle in which it was, the words of its permits, its MXDIV, and whether a launch has set the counters to
their capacity since (R282). -/
structure Grant where
  at_  : Nat := 0
  p0   : Word := 0
  p1   : Word := 0
  div  : Nat := 4
  fill : Bool := false
  deriving DecidableEq, Repr, Inhabited

/-- The pushed elements of a write stream that SUNB has unbound and that still drain (R123, R247): the slot, task and entry, and the stream
as it stood. -/
structure Outflow where
  k   : Fin 4 := 0
  tid : BitVec 32 := 0
  n   : Fin 16 := 0
  q   : Stream := {}
  deriving DecidableEq, Repr, Inhabited

/-- A core (R3): frames, resident slot that runs, units and caches; `l1Poison` lists the L1's poisoned lines with the source (R420), `written` the translations through which the core's stores have gone (R383), `outq` the
unbound streams that drain (R247), `ewold` the cycle in which EWPROF.LIMIT last changed and the limit until then (R285), `granted` a profile
that applies from the next cycle on (R451), `noLend` the H3 tasks around that keep it from being lent again (R303), `utlb` holds the translations cached by copy
units 0 and 1 and tile fetch (R415), `cuTurn` the cycle after each copy unit's last service and what it served: 0 its commands, n + 1 the
stream of entry n (R281). `ports` lists the latest uses of its banks as cycle and bank (R278); `prioMove` is the cycle in which the cluster's
priority bit moves to the other core, for the next (R285). -/
structure Core where
  frames : Vector Frame 4 := Vector.replicate 4 {}
  run    : Fin 4 := 0
  cond   : CoreCond := .idle
  lentTo : Option (BitVec 32) := none
  zeroing : Bool := false
  noLend : List (BitVec 32) := []
  mx     : Permit := { count := 2, cap := 2, rate := 1 }
  vec    : Permit := { count := 8, cap := 8, rate := 16 }
  sfu    : Permit := { count := 4, cap := 4, rate := 4 }
  memp   : Permit := { count := 64, cap := 64, rate := 128 }
  permAt : Nat := 0
  granted : Option Grant := none
  ewlog  : List (Nat × Nat) := []
  ewlim  : Nat := 256
  ewold  : Nat × Nat := (0, 256)
  ewgrant : Nat := 256
  mxdiv  : Nat := 4
  divFree : Nat := 0
  mrun   : Option MOp := none
  mwait  : Option MOp := none
  mdone  : List (Span × Nat) := []
  tiles  : List TileCmd := []
  cu     : Vector (List CopyCmd) 2 := Vector.replicate 2 []
  cuTurn : Vector (Nat × Nat) 2 := Vector.replicate 2 (0, 0)
  l1     : List L1Byte := []
  l1Poison : List (Nat × Nat) := []
  l1tlb  : List TlbEntry := []
  written : List TlbEntry := []
  outq   : List Outflow := []
  utlb   : Vector (List TlbEntry) 3 := Vector.replicate 3 []
  events : List Event := []
  rng    : BitVec 32 := 0
  tries  : Nat := 0
  backoff : Nat := 1
  stealing : Bool := false
  lastRun : Fin 4 := 0
  sliceAt : Nat := 0
  slice   : Nat := 100
  prioBit : Bool := false
  prioMove : Option Nat := none
  ports  : List (Nat × Nat × Port) := []
  nestAt : Option Nat := none
  issuedAt : Option Nat := none
  stallAt : Option Nat := none
  stallCnt : Option Nat := none
  deriving DecidableEq, Repr, Inhabited

/-- A compute die: bytes performed at die scope and not yet at package scope with their writes, the lines that its L2 holds, its poisoned
lines with the source (R420), the shared translations and the walk cache (R105, R106, R129, R321, R415). -/
structure Die where
  l2     : List Host.Cell := []
  tags   : List Tag := []
  lines  : List Nat := []
  poison : List (Nat × Nat) := []
  l2tlb  : List TlbEntry := []
  walkc  : List WalkEntry := []
  deriving DecidableEq, Repr, Inhabited

/-! ## Base die -/

/-- State of a residency slot (R328). -/
inductive SlotSt where
  | free | filling | resident | evicting
  deriving DecidableEq, Repr, Inhabited

/-- A residency slot (R328, R329, R333): its handle, the fill an eviction is reserved for, its last use, the end of
its resume grace, and the tick in which the evictor chose it. -/
structure ResSlot where
  st       : SlotSt := .free
  chosen   : Option Nat := none
  handle   : BitVec 16 := 0
  reserved : Option (BitVec 16) := none
  lastUse  : Nat := 0
  graceTo  : Nat := 0
  deriving DecidableEq, Repr, Inhabited

/-- A Lantern queue entry (R337, R338). -/
structure LnEntry where
  layer  : Nat := 0
  rank   : Nat := 0
  arr    : Nat := 0
  at_    : Nat := 0
  handle : BitVec 16 := 0
  deriving DecidableEq, Repr, Inhabited

/-- A line of a base die's part of the LLC (R323, R324): its address, its four sectors' valid and dirty bits, and whether its sidecar, the
line's four scale bytes, is attached; what a sidecar delivers is what its scale bytes hold (R87, R91). -/
structure LlcLine where
  pa    : Nat := 0
  valid : Nat := 0
  dirty : Nat := 0
  side  : Bool := false
  deriving DecidableEq, Repr, Inhabited

/-- The HBM controller block of a stack (R376-R379, R426-R429). `tracker` holds, for a bank (pseudo-channel x 32 + bank) with a
counter in use, its sixteen counters as row and count; `captured` the captured rows, oldest first, as bank, row and the
accesses of this window; `llc` lists the lines of the die's LLC part. -/
structure HbmCtl where
  hctl   : Word := 0
  herr   : Word := 0
  herra  : Word := 0
  rhctl  : Word := 0x0000200000000800#64
  rhstat : Word := 0
  llcpart : Word := 0x4010#64
  hmask  : Vector Word 11 := #v[0x04000040#64, 0x00200080#64, 0x00400100#64, 0x00800200#64, 0x01000400#64,
    0x02000800#64, 0x08001000#64, 0x10002000#64, 0x20004000#64, 0x40008000#64, 0x80010000#64]
  inForce : Vector Word 11 := #v[0x04000040#64, 0x00200080#64, 0x00400100#64, 0x00800200#64, 0x01000400#64,
    0x02000800#64, 0x08001000#64, 0x10002000#64, 0x20004000#64, 0x40008000#64, 0x80010000#64]
  pcstat : Vector Word 64 := Vector.replicate 64 0
  tracker : List (Nat × List (Nat × Nat)) := []
  captured : List (Nat × Nat × Nat) := []
  llc     : List LlcLine := []
  deriving DecidableEq, Repr, Inhabited

/-- A page read of a fill that is under way (R332, R437): the logical page, the physical block from which it was issued, and whether it failed
there. -/
structure PageRead where
  lfa    : Nat := 0
  phys   : Nat := 0
  failed : Bool := false
  deriving DecidableEq, Repr, Inhabited

/-- State of an allocated logical flash block (R434, R439): its physical block, the page after the highest one written, the pages
below it that were left out, and the failed ones. -/
structure LogBlock where
  lb      : Nat := 0
  phys    : Nat := 0
  written : Nat := 0
  failed  : List Nat := []
  blank   : List Nat := []
  deriving DecidableEq, Repr, Inhabited

/-- Nolnus of one stack (R434-R439). Counts of physical blocks are listed where they are not zero; `pages` holds
the nonzero bytes of logical pages by flash byte address. `moving` lists the logical blocks under relocation with the physical block that each
goes to, `stale` the physical blocks left behind that are not erased, and whether the erase ends a read-disturb relocation, `open_` the page reads of
fills under way (R437). -/
structure Nolnus where
  nlctl   : Word := 0x000007D000030D40#64
  spare   : BitVec 32 := 26272
  bad     : BitVec 32 := 0
  maxErase : BitVec 32 := 0
  meanErase : BitVec 32 := 0
  allErased : Nat := 0
  wearMove : BitVec 32 := 0
  rdReloc : BitVec 32 := 0
  retry   : BitVec 32 := 0
  uncorr  : BitVec 32 := 0
  nlring  : Word := 6
  nltail  : BitVec 32 := 0
  nlhead  : BitVec 32 := 0
  blocks  : List LogBlock := []
  erases  : List (Nat × Nat) := []
  reads   : List (Nat × Nat) := []
  retired : List Nat := []
  pages   : List Host.Cell := []
  moving  : List (Nat × Nat) := []
  stale   : List (Nat × Bool) := []
  open_   : List PageRead := []
  busy    : Bool := false
  deriving DecidableEq, Repr, Inhabited

/-- An island (R448, R454, R368-R372, R456): registers, the cycles counted up to the tick of its last change of level, the samples
it keeps with the level and energy sum of their time, latest first, the samples since the last one too hot or of too much current,
whether the throttle has cut in this interval, and the level decided for the next boundary. -/
structure Island where
  level   : Nat := 14
  caplvl  : Nat := 16
  hold    : Bool := false
  susp    : BitVec 6 := 0
  tmax    : BitVec 8 := 0
  imax    : BitVec 8 := 0
  budget  : Nat := 0
  issued  : Bool := false
  diode   : Int := 0
  cycBase : Nat := 0
  since   : Nat := 0
  hist    : List (Sample × Nat × Nat) := []
  coolFor : Nat := 0
  calmFor : Nat := 0
  cutThis : Bool := false
  next    : Nat := 14
  deriving DecidableEq, Repr, Inhabited

/-- A base die: handle unit, Lantern, HBM controller, Nolnus, load counters' base (R328-R339, R432). -/
structure BaseDie where
  tlb    : List TlbEntry := []
  hbm    : HbmCtl := {}
  nl     : Nolnus := {}
  hpool  : Word := 0
  hslot  : Word := 0
  hpar0  : Word := 0x0000003200000002#64
  hpar1  : Word := 0x000000C800000002#64
  hcnt   : Word := 0
  slots  : List ResSlot := []
  fills  : List (BitVec 16 × Bool × Nat) := []
  pinq   : List (BitVec 16) := []
  pinTimers : List (BitVec 16 × BitVec 32 × Nat) := []
  lnctl  : Word := 0x80300240#64
  lnage  : BitVec 32 := 100
  lnsub  : Word := 0
  lndisc : Word := 0
  lndrop : Word := 0
  lnpf   : Word := 0
  lnhit  : Word := 0
  lnwaste : Word := 0
  lndem  : Word := 0
  lnq    : List LnEntry := []
  lnout  : List (BitVec 16) := []
  lnarr  : Nat := 0
  deriving DecidableEq, Repr, Inhabited

/-! ## Package -/

/-- A handle entry (R327), listed when any field is not zero. `st` is 0 ABSENT, 1 FILLING, 2 resident, 5 EVICTING, 6
FAULTED; `shape` is the length of the code bytes and whether scale bytes follow, where the loader gave it (R440);
`staged` holds the staged VERSION, LFA and shape (R443). -/
structure HandleEnt where
  version : BitVec 32 := 0
  lfa     : BitVec 32 := 0
  size    : BitVec 16 := 0
  slot    : BitVec 16 := 0
  rdie    : BitVec 3 := 0
  pins    : Nat := 0
  flipp   : Bool := false
  used    : Bool := false
  pref    : Bool := false
  llch    : Bool := false
  cause   : BitVec 8 := 0
  st      : Nat := 0
  shape   : Option (Nat × Bool) := none
  staged  : Option (BitVec 32 × BitVec 32 × Option (Nat × Bool)) := none
  deriving DecidableEq, Repr, Inhabited

/-- States of a task's life (R287). A resident task is RUNNING when its slot runs and PARKED otherwise; a task that
has completed is in no table. -/
inductive TaskSt where
  | waiting | ready | resident | saved
  deriving DecidableEq, Repr, Inhabited

/-- A saved context (R409-R412): the frame with the snapshot buffer (`due` is LEFT), the bytes of the footprint, the
touched tiles and the lent windows by offset, their poisoned granules, the header's REASON, and the release under which what the task wrote
before stands performed (R402). -/
structure Saved where
  frame  : Frame := {}
  foot   : List Host.Cell := []
  tiles  : List (Nat × List Host.Cell) := []
  lents  : List (List Host.Cell) := []
  marks  : List (Nat × Nat × Nat) := []
  reason : Nat := 0
  by_    : Write := {}
  deriving DecidableEq, Repr, Inhabited

/-- A launched task (R287, R395, R397). `header` holds the program header's words and then the pattern descriptors of
its stream bindings; `bound` is the core whose queue holds the READY task, `claim` the core that is cleared for it
(R299), `preempt` the reason of a pre-emption under way, `kept` tells that it has been SAVED (R398), `restoring` that its
context is being restored. -/
structure Task where
  tid     : BitVec 32 := 0
  q       : Fin 64 := 0
  index   : Nat := 0
  ltag    : BitVec 32 := 0
  stag    : BitVec 32 := 0
  bal     : Nat := 0
  code    : Word := 0
  args    : List Word := []
  deadline : Word := 0
  tokgrp  : BitVec 32 := 0
  flags   : BitVec 16 := 0
  handles : List (BitVec 16) := []
  route   : Word := 0
  ragged  : Word := 0
  succ    : List (BitVec 32) := []
  deps    : Nat := 0
  header  : List Word := []
  heat    : BitVec 2 := 0
  foot    : Nat := 0
  st      : TaskSt := .waiting
  place   : Option (CoreId × Fin 4) := none
  bound   : Option CoreId := none
  saved   : Option Saved := none
  msg     : Msgs := {}
  sys     : SysRegs := {}
  epc     : Word := 0
  readyAt : Nat := 0
  aging   : Nat := 0
  firstIssue : Option Nat := none
  gang    : Option (BitVec 16) := none
  member  : Nat := 0
  mixver  : Option (BitVec 32) := none
  stolen  : Bool := false
  unaligned : Bool := false
  stepHold : Option (BitVec 32) := none
  holdsCut : Bool := false
  eng     : Trap := {}
  peer    : Option (Fin 64) := none
  preempt : Option Nat := none
  claim   : Option CoreId := none
  kept    : Bool := false
  restoring : Bool := false
  deriving DecidableEq, Repr, Inhabited

/-- A completion record waiting for the ring, or a task's result for its stream's WAIT (R393, R397); `old` marks one of an
earlier submission entry. -/
structure CRec where
  tid    : BitVec 32 := 0
  bytes  : List Byte := []
  peer   : Option (Fin 64) := none
  old    : Bool := false
  deriving DecidableEq, Repr, Inhabited

/-- The queue context record's values (R389). -/
structure QCtx where
  ptroot  : Word := 0
  asid    : BitVec 16 := 0
  sysok   : Bool := false
  ctxpool : Word := 0
  ctxpages : Nat := 0
  evpool  : Word := 0
  evquota : BitVec 32 := 0
  cring   : Word := 0
  clogn   : Nat := 0
  deriving DecidableEq, Repr, Inhabited

/-- A stream under execution (R391-R394): `loops` is the loop stack as first and last index of a body and the passes left,
innermost first; `mine` the launched tasks whose records are not performed; `turn` counts the commands executed since it
took a Belfry core, when it has one; `cmd` names the command under way, `held` is the command that waits. -/
structure Exec where
  addr   : Word := 0
  len    : Nat := 0
  stag   : BitVec 32 := 0
  idx    : Nat := 0
  loops  : List (Nat × Nat × Nat) := []
  mine   : List (BitVec 32) := []
  fails  : Nat := 0
  turn   : Option Nat := none
  cmd    : Option Nat := none
  held   : Option Event := none
  peer   : Option (Fin 64) := none
  deriving DecidableEq, Repr, Inhabited

/-- A Belfry queue (R387-R399): `stale` tells that the context record is to be read before the next stream, `served` the order
in which queues were served, `areas` and `evAreas` the parts of the pools in use, `peers` who sent the entry at an index. -/
structure Queue where
  qring  : Word := 0
  qctxa  : Word := 0
  qctl   : Word := 0x400#64
  qtail  : BitVec 32 := 0
  qhead  : BitVec 32 := 0
  st     : Nat := 0
  cause  : BitVec 8 := 0
  origin : BitVec 32 := 0
  qchead : BitVec 32 := 0
  ctx    : Option QCtx := none
  run    : Option Exec := none
  served : Nat := 0
  recs   : List CRec := []
  recCount : Nat := 0
  areas  : List (Nat × Nat × BitVec 32) := []
  evAreas : List (Nat × BitVec 32) := []
  peers  : List (Fin 64 × Nat) := []
  stale  : Bool := true
  deriving DecidableEq, Repr, Inhabited

/-- A group of the group table (R261-R263): identifier, address space, members with their index. -/
structure Group where
  gid     : BitVec 16 := 0
  asid    : BitVec 16 := 0
  members : List (BitVec 32 × Nat) := []
  deriving DecidableEq, Repr, Inhabited

/-- A gang (R306-R311, R400-R402). -/
structure Gang where
  gid      : BitVec 16 := 0
  q        : Fin 64 := 0
  members  : List (BitVec 32) := []
  started  : Bool := false
  sched    : List (List Nat) := []
  period   : Nat := 1
  schword  : Word := 0
  cur      : Nat := 0
  phases   : Nat := 0
  opened   : List (Nat × Nat) := []
  arrivals : List (Nat × Nat) := []
  windows  : List (Nat × Nat) := []
  openWin  : List Nat := []
  cutAt    : Option Nat := none
  target   : BitVec 32 := 0
  saved    : Bool := false
  startAt  : Nat := 0
  deriving DecidableEq, Repr, Inhabited

/-- A snapshot-tree node that is not FREE (R346): `parent` is an index; `tokAt` and `dataAt` are the pool granules of
its tokens and payload; `seq` is the order of creation, `builder` the task that saves it, `leafAt` the tick from which it may go again once its last
child has left (R352). -/
structure Node where
  idx    : Nat := 0
  key    : Word := 0
  parent : Nat := 0
  asid   : BitVec 16 := 0
  depth  : Nat := 0
  st     : Nat := 0
  gen    : Nat := 0
  counts : List Nat := []
  refs   : Nat := 0
  kids   : Nat := 0
  last   : Nat := 0
  tokAt  : Nat := 0
  dataAt : Nat := 0
  seq    : Nat := 0
  builder : BitVec 32 := 0
  leafAt : Nat := 0
  deriving DecidableEq, Repr, Inhabited

/-- A snapshot command under way (R253, R349, R350): `desc` the address of its descriptor, which has been read when `words` is not 0; `ok` when
it keeps its limits, `spans` the ranges still pending, `data` the granules that a save has read, or that a load is to write, with their poison,
`pos` the granules that have moved, `waited` the cycles for which the next one has waited for its bank, `built` the node a save has created, `ended` the record of one that is over and waits for room
(R326). -/
structure SnCmd where
  id   : Nat := 0
  save : Bool := false
  c    : CoreId := 0
  k    : Fin 4 := 0
  tid  : BitVec 32 := 0
  node : BitVec 32 := 0
  nodeOk : Bool := true
  desc : Word := 0
  sig  : BitVec 24 := 0
  ok   : Bool := false
  tokens : Word := 0
  hash : Word := 0
  counts : List Nat := []
  spans : List Span := []
  bytes : Nat := 0
  words : Nat := 0
  pos  : Nat := 0
  waited : Nat := 0
  data : List (Vec × Option Nat) := []
  built : Option Nat := none
  ended : Option (BitVec 128) := none
  root : Word := 0
  asid : BitVec 16 := 0
  deriving DecidableEq, Repr, Inhabited

/-- A dispatch under way (R340, R341): `record` the address of its record until that is read, `by_` its release, the groups in rank order and
the counts for DETAIL; `ended` tells that its record waits for room (R326). -/
structure Disp where
  id     : Nat := 0
  c      : CoreId := 0
  k      : Fin 4 := 0
  tid    : BitVec 32 := 0
  record : Word := 0
  hidden : Word := 0
  logits : Word := 0
  route  : Word := 0
  ret    : Word := 0
  token  : BitVec 32 := 0
  layer  : Nat := 0
  ke     : Nat := 0
  tag    : BitVec 16 := 0
  tokgrp : BitVec 32 := 0
  root   : Word := 0
  asid   : BitVec 16 := 0
  by_    : Write := {}
  ended  : Bool := false
  groups : List (Nat × Nat) := []
  counts : List Nat := [0, 0, 0, 0]
  deriving DecidableEq, Repr, Inhabited

/-- What an operation does once the accesses of lower slots of its bundle have performed: a release or acquire of a scope, tiles given to the
engines, or roles of banks (R111, R112, R119, R315). -/
inductive Order where
  | release (scope : Nat) | acquire (scope : Nat) | own (tiles : List Nat) | roles (x : Word)
  deriving DecidableEq, Repr, Inhabited

/-- A classed access of a core under way: to an on-chip window or a control space, or one that waits for such an access (R108, R109, R126,
R319, R480): the bytes it writes under enables, or the load and the byte of it that its bytes go to. `user` tells that a user-mode task made it. With `order` it is the rest of an operation that
follows accesses of its own bundle; `seq` is its place in the order of issue, `then_` what its completion posts (R111, R112, R119). -/
structure WinAcc where
  id    : Nat := 0
  c     : CoreId := 0
  k     : Fin 4 := 0
  pa    : Nat := 0
  va    : Nat := 0
  n     : Nat := 0
  write : Bool := false
  v     : Vec := 0
  ben   : Mask := 0
  load  : Nat := 0
  off   : Nat := 0
  oc    : Nat := 0
  asid  : BitVec 16 := 0
  user  : Bool := false
  order : Option Order := none
  seq   : Nat := 0
  then_ : List Event := []
  deriving DecidableEq, Repr, Inhabited

/-- A shard of a replacement (R440, R443): its entry, the logical address of its staged pages, its rewrites, and the pages that
the old version uses. -/
structure Shard where
  handle  : BitVec 16 := 0
  layer   : Nat := 0
  scaled  : Bool := false
  codelen : Nat := 0
  src     : Nat := 0
  digest  : Nat := 0
  staged  : Option Nat := none
  tries   : Nat := 0
  old     : Nat := 0
  oldLen  : Nat := 0
  deriving DecidableEq, Repr, Inhabited

/-- An expert map version (R445): for each layer, the words of its experts. -/
structure MapVer where
  ver    : BitVec 32 := 0
  layers : List (List (BitVec 32)) := []
  deriving DecidableEq, Repr, Inhabited

/-- An admitted request (R442). -/
structure Admitted where
  tokgrp   : BitVec 32 := 0
  mapver   : BitVec 32 := 0
  firstver : Option (BitVec 32) := none
  deriving DecidableEq, Repr, Inhabited

/-- A format window (R430). -/
structure FmtWin where
  code : Word := 0
  len  : Word := 0
  scl  : Word := 0
  deriving DecidableEq, Repr, Inhabited

/-- The loader block (R430, R433, R441-R446); `roll` is MODE as it stood when the flip began (R444). -/
structure Loader where
  ldctl   : Word := 0
  ldman   : Word := 0
  shardIx : BitVec 16 := 0
  retries : BitVec 8 := 0
  reason  : BitVec 8 := 0
  refused : Bool := false
  phase   : Nat := 0
  ldtime  : Word := 0x0000000A00000384#64
  newver  : BitVec 32 := 0
  cur     : BitVec 32 := 0
  layer   : BitVec 16 := 0
  mixbase : Word := 8
  mixprod : BitVec 32 := 0
  mixcons : BitVec 32 := 0
  hset0   : Word := 0
  hset1   : Word := 0
  hset2   : Word := 0
  mapnext : Word := 0
  mapcur  : BitVec 32 := 0
  manNext : Nat := 0
  shards  : List Shard := []
  manDigest : Nat := 0
  nlayer  : Nat := 0
  maps    : List MapVer := []
  admitted : List Admitted := []
  gate    : Bool := false
  roll    : Bool := false
  gen     : Nat := 0
  windows : Vector FmtWin 64 := Vector.replicate 64 {}
  deriving DecidableEq, Repr, Inhabited

/-- The Belfry's package registers (R403, R407). -/
structure Belfry where
  bfctl    : Word := 0
  refused  : Bool := false
  evdisc   : Word := 0
  gangov   : Word := 0
  cuts     : Word := 0
  unal     : Word := 0
  dpar0    : Word := 0x0000006400000800#64
  dpar1    : Word := 0x0000001400000032#64
  dpar2    : Word := 10000
  dsteal   : Word := 1
  flogbase : Word := 0
  floglost : BitVec 32 := 0
  floglogn : Nat := 6
  flogcons : BitVec 32 := 0
  flogprod : BitVec 32 := 0
  hwmap    : List (Nat × Word) := []
  nextTid  : BitVec 32 := 1
  queues   : Vector Queue 64 := Vector.replicate 64 {}
  deriving DecidableEq, Repr, Inhabited

/-- The snapshot-tree block (R346, R355). -/
structure Tree where
  pxctl   : Word := 6
  pxbase  : Word := 0
  pxnodes : BitVec 24 := 0
  pxpool  : Word := 0
  pxpsize : BitVec 40 := 0
  pxlow   : BitVec 40 := 0
  pxlook  : Word := 0
  pxhit   : Word := 0
  pxmism  : Word := 0
  pxevict : Word := 0
  pxfull  : Word := 0
  nodes   : List Node := []
  gens    : List (Nat × Nat) := []
  seq     : Nat := 0
  cmds    : List SnCmd := []
  deriving DecidableEq, Repr, Inhabited

/-- The power block's package registers (R452, R453) and the islands. `saving` lists the tasks that an emergency save or a way into
retention has yet to save, `reason` the REASON of that save; `waking` tells that a staged start runs, of which `started`
islands have started. -/
structure Power where
  pwctl   : Word := 0x0000400120000501#64
  pwthr   : Word := 0x0000786E5F460060#64
  trips   : BitVec 32 := 0
  tripisl : BitVec 8 := 0
  refused : Bool := false
  save    : Nat := 0
  ready   : Bool := false
  pstate  : Nat := 3
  prof0   : Vector Word 4 := #v[0x0008001000020001#64, 0x0040008000020001#64, 0x0020004000040002#64, 0x0010002000040002#64]
  prof1   : Vector Word 4 := #v[0x0040008000040004#64, 0x0020004000100020#64, 0x0020004000080010#64, 0x0010002000080008#64]
  prof2   : Vector Word 4 := #v[0x20100#64, 0x20180#64, 0x101C0#64, 0x00200#64]
  islands : Vector Island 128 := Vector.replicate 128 {}
  saving  : List (BitVec 32) := []
  reason  : Nat := 0
  waking  : Bool := false
  started : Nat := 0
  deriving DecidableEq, Repr, Inhabited

/-- A key-table entry (R464). -/
structure Key where
  digest  : Nat := 0
  usage   : BitVec 4 := 0
  revoked : Bool := false
  used    : Bool := false
  deriving DecidableEq, Repr, Inhabited

/-- A firmware copy of the boot area (R463): the vendor root that signed it, its version, its bytes as a number with their length, and the
signature. -/
structure Firmware where
  root    : Nat := 0
  version : Nat := 0
  len     : Nat := 0
  image   : Nat := 0
  sig     : Nat := 0
  deriving DecidableEq, Repr, Inhabited

/-- The security block (R463-R471). LIFE 0 manufacturing. Mailboxes hold their nonzero bytes by offset. `copies` are copies A and B of the boot
area of flash stack 0, `fw` is the digest of the firmware that runs, none before it has been verified, and `bootFail` tells that neither copy
verified. -/
structure Security where
  bootb   : Bool := false
  usig    : Bool := false
  dbg     : BitVec 2 := 0
  life    : BitVec 2 := 0
  secarg  : Word := 0
  secres  : Word := 0
  clnonce : Word := Config.nonce 0
  keys    : Vector Key 32 := Vector.replicate 32 {}
  mboxes  : Vector (List Host.Cell) 3 := Vector.replicate 3 []
  owner   : Option Master := none
  leaseTo : Nat := 0
  hand    : Option (Master × Nat) := none
  ownref  : Word := 0
  copies  : Vector Firmware 2 := Vector.replicate 2 {}
  fw      : Option Nat := none
  bootFail : Bool := false
  deriving DecidableEq, Repr, Inhabited

/-- A network peer's entry (R474). -/
structure Peer where
  addrh : Word := 0
  addrl : Word := 0
  npq   : Word := 0
  npctl : Word := 0
  deriving DecidableEq, Repr, Inhabited

/-- The network block (R474). -/
structure Net where
  netctl  : Word := 0
  reject  : BitVec 32 := 0
  recdrop : BitVec 32 := 0
  peers   : Vector Peer 64 := Vector.replicate 64 {}
  deriving DecidableEq, Repr, Inhabited

/-- What the outside world sees (log 7): data and answers of its accesses, interrupts, records sent. -/
inductive Output where
  | data (bytes : List Byte) | poisoned | error | ack | nack | interrupt (vector : Nat)
  | record (p : Fin 64) (bytes : List Byte) | event (code : Nat)
  deriving DecidableEq, Repr, Inhabited

/-- The header bits of the bundle in the sequencer (R43-R47). -/
inductive Header where
  | none
  | ext (bits : BitVec 22)
  | hx (target : BitVec 2) (bits : BitVec 20)
  | hi (bits : BitVec 22)
  deriving DecidableEq, Repr, Inhabited

/-- Where an operation stands in its bundle: its slot, the unit of its class that takes it
(R41), the bundle's header and declared weight (R40, R43), and its place in the program of a nest (R222). -/
structure SlotCtx where
  slot : Fin 4 := 0
  unit : Fin 2 := 0
  hdr  : Header := .none
  ew   : BitVec 5 := 0
  hasHdr : Bool := false
  nest : Option Nat := none
  deriving DecidableEq, Repr, Inhabited

/-- A translation invalidation that waits (R416, R417): the accesses that may have used a removed translation, and the frames that the
removed translations name, whose lines go home at the end. -/
structure Drain where
  id     : Nat := 0
  ids    : List Nat := []
  ranges : List (Nat × Nat) := []
  deriving DecidableEq, Repr, Inhabited

/-- The machine. `time` counts master-clock ticks, `agenda` lists what is to happen and when, `cur` is the core
that moves, `turn` the place among the cores of the next to be served in this tick, `ctx` the slot context of the operation in issue, `arg` the operands of the event in progress, `freeCtr` the counter free values are
applied to (log 4); `closed` tells that an access of the step under way met a quiesced stack; `barred` lists the events whose accesses hold at
such a stack, in order of arrival, with the core on whose list each stood, and `freed` those that go on (R378). -/
structure State where
  cores   : Vector Core 256 := Vector.replicate 256 {}
  cur     : CoreId := 0
  turn    : Nat := 0
  ctx     : SlotCtx := {}
  arg     : Arg := {}
  dies    : Vector Die 8 := Vector.replicate 8 {}
  bases   : Vector BaseDie 8 := Vector.replicate 8 {}
  mem     : List Host.Cell := []
  poison  : List (Nat × Nat) := []
  tags    : List Tag := []
  clocks  : List (Nat × Clock) := []
  handles : List (Nat × HandleEnt) := []
  tasks   : List Task := []
  groups  : List Group := []
  gangs   : List Gang := []
  disps   : List Disp := []
  wins    : List WinAcc := []
  invals  : List Drain := []
  bel     : Belfry := {}
  tree    : Tree := {}
  ld      : Loader := {}
  pw      : Power := {}
  sec     : Security := {}
  net     : Net := {}
  out     : List Output := []
  time    : Nat := 0
  agenda  : List Event := []
  closed  : Bool := false
  barred  : List (Option CoreId × Event) := []
  freed   : List (Option CoreId × Event) := []
  freeCtr : Nat := 0
  nextId  : Nat := 1
  deriving DecidableEq, Repr, Inhabited

/-- Reasons the machine stops with a fault. -/
inductive Fault where
  /-- A step of a core whose power is off (R459, R461) would need an instruction that is not there: raised by no
  meaning of this model; kept so that the type names a reason. Safe. -/
  | noPower
  deriving DecidableEq, Repr, Inhabited

/-- Reasons an instruction has no meaning. -/
inductive Refusal where
  /-- An arm of `exec` whose instruction has no meaning yet, by its mnemonic. Safe. -/
  | notModelled (mnemonic : String)
  deriving DecidableEq, Repr, Inhabited

/-- The outcome of a step. -/
abbrev Out := Host.Outcome State Fault Refusal

/-- A core right after reset: its xorshift state is seeded from its number (R310), and the priority bit of its
cluster stands at the core of even column (R285). -/
def Core.reset (i : Nat) : Core :=
  { rng := 0x9E3779B9#32 ^^^ BitVec.ofNat 32 i, prioBit := i % 2 == 0 }

/-- What the package does by itself after reset: the staged start (R462), the first sensor sample (R455), the first boost boundary,
decided 200 ns before it (R368, R449), and the 32 ms boundary of each stack's tracker (R428). -/
def firstEvents : List Event :=
  [ { at_ := 1, row := .powerUp }, { at_ := 1, row := .sensorSample, arg := { n := 1 } }, { at_ := 23040, row := .boostBoundary } ]
    ++ (List.range 8).map fun d => { at_ := 153600000, row := .trackerReset, arg := { d := Fin.ofNat 8 d } }

/-- The machine right after package reset: every register at its reset column, no task. -/
def State.reset : State :=
  { cores := Vector.mk (((List.range 256).map Core.reset).toArray) (by simp), agenda := firstEvents }

end Sys2Proof.Machine
end

