-- ==== Sys2Proof/Machine/Memory.lean ====
section
/-! DEFINITION. Physical memory: sparse bytes in canonical form, the L1s and L2s in front of it, writers and their races, poison, and
the physical map (R102, R105, R106, R111-R115, R129, R313, R317, R321, R420, R423). -/

namespace Sys2Proof.Machine

open Sys2Proof

/-! ## Sparse bytes -/

/-- The canonical form: addresses strictly rising, and no entry equal to what an unlisted address reads as. -/
def Memory.wf : List Host.Cell → Bool
  | [] => true
  | [c] => c.2 != 0
  | c :: d :: cs => c.2 != 0 && decide (c.1 < d.1) && Memory.wf (d :: cs)

/-- What an address that is not listed reads as (log 2). -/
def Memory.unlisted : Byte := 0

/-- One byte of memory. -/
def Memory.byte (m : List Host.Cell) (a : Nat) : Byte :=
  match m.find? (fun c => c.1 == a) with
  | some c => c.2
  | none => Memory.unlisted

/-- `v`, a number whose byte 0 stands at `a`, with the listed bytes of [a, a+n) laid over it. -/
def overlay (cells : List Host.Cell) (a n v : Nat) : Nat :=
  cells.foldr (fun c acc => if a ≤ c.1 ∧ c.1 < a + n then setByte acc (c.1 - a) c.2.toNat else acc) v

/-- The bytes [a, a+n) as a little-endian number. -/
def Memory.read (m : List Host.Cell) (a n : Nat) : Nat := overlay m a n 0

/-- The nonzero bytes of `v` as cells from `a`. -/
def cellsOf (a v : Nat) : Nat → List Host.Cell
  | 0 => []
  | n + 1 =>
    let b := BitVec.ofNat 8 v
    if b = Memory.unlisted then cellsOf (a + 1) (v / 256) n else (a, b) :: cellsOf (a + 1) (v / 256) n

/-- The cells below `a`. -/
def cellsBelow (a : Nat) (m : List Host.Cell) : List Host.Cell := m.filter (fun c => c.1 < a)

/-- The cells at or above `a`. -/
def cellsFrom (a : Nat) (m : List Host.Cell) : List Host.Cell := m.filter (fun c => a ≤ c.1)

/-- Memory with the bytes of `v` written at [a, a+n). -/
def Memory.write (m : List Host.Cell) (a n v : Nat) : List Host.Cell :=
  cellsBelow a m ++ (cellsOf a v n ++ cellsFrom (a + n) m)

/-- `old` with the bytes of `new` where a bit of `ben` is set, `n` bytes. -/
def mergeNat (old new ben n : Nat) : Nat :=
  buildNat 8 (fun i => if ben.testBit i then getByte new i else getByte old i) n

/-- Memory with the enabled bytes of `v` written. -/
def Memory.writeEn (m : List Host.Cell) (a n v ben : Nat) : List Host.Cell :=
  Memory.write m a n (mergeNat (Memory.read m a n) v ben n)

/-! ## The physical map (R317, R423) -/

/-- Base of the on-chip windows. -/
def winStart : Nat := 0xF000000000
/-- A core's window. -/
def winBase (c : CoreId) : Nat := winStart + c.val * 0x800000
/-- A core's local store. -/
def lsBase (c : CoreId) : Nat := winBase c + 0x400000
/-- Base of the base-die control spaces. -/
def ctlStart : Nat := 0xF800000000
/-- Base of host memory. -/
def hostStart : Nat := 0x100000000000

/-- Parts of the physical map. -/
inductive PClass where
  | hbm (stack : Nat) | window | control | host | nothing
  deriving DecidableEq, Repr, Inhabited

/-- What a physical address reaches (R423). -/
def physClass (pa : Nat) : PClass :=
  if pa < 0x8000000000 then .hbm (pa >>> 36)
  else if winStart ≤ pa ∧ pa < winStart + 0x80000000 then .window
  else if ctlStart ≤ pa ∧ pa < ctlStart + 0x80000000 then .control
  else if hostStart ≤ pa ∧ pa < 0x200000000000 then .host
  else .nothing

/-- Whether a physical range lies in HBM or in host memory: another address of an engine fails with the ADDRESS cause (R423). -/
def inMemory (pa n : Nat) : Bool := decide (pa + n ≤ 0x8000000000) || (decide (hostStart ≤ pa) && decide (pa + n ≤ 0x200000000000))

/-- The core whose window holds the address. -/
def winCore (pa : Nat) : CoreId := Fin.ofNat 256 ((pa - winStart) / 0x800000)
/-- The offset in the window. -/
def winOff (pa : Nat) : Nat := (pa - winStart) % 0x800000

/-! ## Cores, dies, frames -/

/-- A core's die (R33). -/
def dieOf (c : CoreId) : DieId := Fin.ofNat 8 (c.val / 32)
/-- A core's island: die x 16 + cluster (R33, R3). -/
def islandOf (c : CoreId) : Fin 128 := Fin.ofNat 128 (c.val / 32 * 16 + (c.val / 8 % 4) * 4 + c.val % 8 / 2)
/-- The other core of the cluster. -/
def partnerOf (c : CoreId) : CoreId := Fin.ofNat 256 (c.val ^^^ 1)

/-- A core. -/
def State.core (s : State) (c : CoreId) : Core := s.cores.get c
/-- The state with a core replaced. -/
def State.setCore (s : State) (c : CoreId) (x : Core) : State := { s with cores := s.cores.set c.val x c.isLt }
/-- The state with a core changed. -/
def State.updCore (s : State) (c : CoreId) (f : Core → Core) : State := s.setCore c (f (s.core c))
/-- A resident slot's frame. -/
def Core.frame (x : Core) (k : Fin 4) : Frame := x.frames.get k
/-- The core with a frame changed. -/
def Core.updFrame (x : Core) (k : Fin 4) (f : Frame → Frame) : Core :=
  { x with frames := x.frames.set k.val (f (x.frame k)) k.isLt }
/-- A frame of a core. -/
def State.frameAt (s : State) (c : CoreId) (k : Fin 4) : Frame := (s.core c).frame k
/-- The state with a frame changed. -/
def State.updFrameAt (s : State) (c : CoreId) (k : Fin 4) (f : Frame → Frame) : State :=
  s.updCore c (fun x => x.updFrame k f)
/-- The core whose sequencer moves. -/
def State.here (s : State) : Core := s.core s.cur
/-- The running frame of that core. -/
def State.fr (s : State) : Frame := s.here.frame s.here.run
/-- The state with the running frame changed. -/
def State.updFr (s : State) (f : Frame → Frame) : State := s.updFrameAt s.cur s.here.run f
/-- The state with the running frame's registers changed. -/
def State.updRegs (s : State) (f : Regs → Regs) : State := s.updFr fun x => { x with r := f x.r }
/-- The state with the running frame's control state changed. -/
def State.updCtl (s : State) (f : Ctl → Ctl) : State := s.updFr fun x => { x with ctl := f x.ctl }
/-- The state with the running frame's messages changed. -/
def State.updMsg (s : State) (f : Msgs → Msgs) : State := s.updFr fun x => { x with msg := f x.msg }
/-- The state with a compute die changed. -/
def State.updDie (s : State) (d : DieId) (f : Die → Die) : State :=
  { s with dies := s.dies.set d.val (f (s.dies.get d)) d.isLt }
/-- A base die. -/
def State.base (s : State) (d : DieId) : BaseDie := s.bases.get d
/-- The state with a base die changed. -/
def State.updBase (s : State) (d : DieId) (f : BaseDie → BaseDie) : State :=
  { s with bases := s.bases.set d.val (f (s.base d)) d.isLt }

/-- A fresh identifier. -/
def State.fresh (s : State) : Nat := s.nextId
/-- The state with the next identifier used up. -/
def State.bump (s : State) : State := { s with nextId := s.nextId + 1 }
/-- The state with the free-value counter advanced. -/
def State.tick (s : State) : State := { s with freeCtr := s.freeCtr + 1 }
/-- A free number of further cycles (log 4). -/
def State.extra (s : State) : Nat := Config.extraLatency s.freeCtr
/-- A free choice below `n` (log 4). -/
def State.pick (s : State) (n : Nat) : Nat := Config.choice s.freeCtr % n

/-! ## Poison (R420) -/

/-- Size of the poison unit: granules on chip, lines elsewhere. -/
def poisonUnit (pa : Nat) : Nat := if physClass pa = .window then 512 else 64

/-- The first poisoned unit that [pa, pa+n) meets at its home, with the source of its poison. -/
def State.poisonOf (s : State) (pa n : Nat) : Option (Nat × Nat) :=
  let u := poisonUnit pa
  s.poison.find? fun a => decide (a.1 < pa + n) && decide (pa < a.1 + u)

/-- Whether any byte of [pa, pa+n) is poisoned at its home. -/
def State.poisoned (s : State) (pa n : Nat) : Bool := (s.poisonOf pa n).isSome

/-- The values of a DATA_POISON trap for a poisoned unit: the source, and the line when it is a memory line. -/
def trapOfPoison (x : Nat × Nat) : Trap :=
  { cause := 0x21#8, src := x.2, padr := if physClass x.1 = .window then 0 else BitVec.ofNat 64 x.1 }

/-- The values of a DATA_POISON trap for bytes of [pa, pa+n) at their home. -/
def State.poisonTrap (s : State) (pa n : Nat) : Trap := ((s.poisonOf pa n).map trapOfPoison).getD {}

/-- A write of [pa, pa+n) clears the poison of each unit it covers whole. -/
def clearPoison (l : List (Nat × Nat)) (pa n : Nat) : List (Nat × Nat) :=
  let u := poisonUnit pa
  l.filter fun a => !(decide (pa ≤ a.1) && decide (a.1 + u ≤ pa + n))

/-- The units of [pa, pa+n) poisoned, from a source: 0 HBM, 1 flash, 2 fabric, 3 on-chip SRAM (R406). -/
def markPoison (l : List (Nat × Nat)) (pa n src : Nat) : List (Nat × Nat) :=
  let u := poisonUnit pa
  let first := pa / u
  let new := (List.range ((pa + n - 1) / u + 1 - first)).map fun i => (first + i) * u
  l ++ (new.filter fun a => !l.any (·.1 == a)).map (·, src)

/-- The units of [pa, pa+n) poisoned at their home. -/
def State.addPoison (s : State) (pa n src : Nat) : State := { s with poison := markPoison s.poison pa n src }

/-- The poison of a line in a list. -/
def linePoison (l : List (Nat × Nat)) (a : Nat) : Option (Nat × Nat) := l.find? fun x => x.1 == a

/-- The 64-byte lines of a physical range. -/
def linesOf (pa n : Nat) : List Nat :=
  if n = 0 then [] else (List.range ((pa + n - 1) / 64 + 1 - pa / 64)).map fun i => (pa / 64 + i) * 64

/-! ## Reads and writes at each level (R105, R106) -/

/-- Bytes at the home. -/
def State.homeRead (s : State) (pa n : Nat) : Nat := Memory.read s.mem pa n

/-- Cells without the bytes of a range. -/
def dropRange (l : List Host.Cell) (a n : Nat) : List Host.Cell := cellsBelow a l ++ cellsFrom (a + n) l

/-- The eight dies. -/
def allDies : List DieId := [0, 1, 2, 3, 4, 5, 6, 7]

/-- Whether the home slice of an address admits no new access (R378). -/
def State.stackClosed (s : State) (pa : Nat) : Bool :=
  match physClass pa with
  | .hbm k => (s.base (Fin.ofNat 8 k)).hbm.hctl.getLsbD 0
  | _ => false

/-- What a request at a home slice needs of a line it misses (R324): all four sectors, or those it touches. -/
inductive Need where
  | line | touch
  deriving DecidableEq, Repr, Inhabited

/-- The number by which an event carries a need: 0 for a line, 1 for touched sectors; 2 more for a write. -/
def Need.code (n : Need) (write : Bool) : Nat := (if n = .touch then 1 else 0) + if write then 2 else 0

/-- A request for [pa, pa+n) looks in its home's LLC part in the next tick (R324, R379, R428): a line request for whole lines, another for
whole 16-byte sectors. -/
def noteHbm (l : List Event) (t pa n need : Nat) : List Event :=
  match physClass pa with
  | .hbm k =>
    let u := if need % 2 = 0 then 64 else 16
    let a := pa / u * u
    let n := (pa + n + u - 1) / u * u - a
    let x : Event := { at_ := t + 1, row := .hbmActivation, arg := { d := Fin.ofNat 8 k, n := a, u := n, id := need } }
    if l.contains x then l else l ++ [x]
  | _ => l

/-- A request for [pa, pa+n) arrives at its home slice; at a quiesced stack it holds there (R378). -/
def State.arrive (s : State) (pa n : Nat) (need : Need := .line) : State :=
  { s with closed := s.closed || s.stackClosed pa, agenda := noteHbm s.agenda s.time pa n (need.code false) }

/-! ## Writers (R102, R111-R115, R129) -/

/-- Writer identifiers (R102, R405): the host, a core's own instructions, its copy units and tile fetch, the engines of a base die. -/
def hostWriter : Nat := 0
/-- A core's instructions. -/
def coreWriter (c : CoreId) : Nat := 0x100 + 4 * c.val
/-- An engine of a core: copy units 0 and 1, tile fetch 2. -/
def unitWriter (c : CoreId) (e : Fin 3) : Nat := 0x101 + 4 * c.val + e.val
/-- Engine `e` of a base die. -/
def baseWriter (d : DieId) (e : Nat) : Nat := 0x500 + 16 * d.val + e

/-- Where a party stands: a core with its die, a die, or neither. -/
def writerCore (w : Nat) : Option Nat := if 0x100 ≤ w ∧ w < 0x500 then some ((w - 0x100) / 4) else none

/-- The code of the smallest scope that contains two parties (R107): core, cluster (which acts as die), package, or system. -/
def scopeOf (x y : Nat) : Nat :=
  if x = 0 ∨ y = 0 then 4 else
  match writerCore x, writerCore y with
  | some a, some b => if x = y then 0 else if a / 32 = b / 32 then 1 else 3
  | _, _ => 3

/-- Whether a scope code contains two parties. -/
def spans (scope x y : Nat) : Bool := decide (scopeOf x y ≤ scope)

/-- Releases of a party that are known. -/
def Known.of (k : Known) (w : Nat) : Nat := ((k.rels.find? fun e => e.1 == w).map (·.2)).getD 0

/-- One more thing known: the first `n` releases of a party. -/
def Known.add (k : Known) (w n : Nat) : Known :=
  if n ≤ k.of w then k else { k with rels := (w, n) :: k.rels.filter fun e => e.1 != w }

/-- A write noted with those of its class before it: the last number of its class stands for them; one without a class stands alone. -/
def addWrite (l : List (Nat × Nat × Nat)) (w oc n : Nat) : List (Nat × Nat × Nat) :=
  if l.any fun e => e.1 == w && e.2.1 == oc && (if oc < 16 then decide (n ≤ e.2.2) else n == e.2.2) then l
  else (w, oc, n) :: l.filter fun e => !(oc < 16 && e.1 == w && e.2.1 == oc)

/-- Both known. -/
def Known.join (k l : Known) : Known :=
  l.rels.foldl (fun k e => k.add e.1 e.2) { k with writes := l.writes.foldl (fun a e => addWrite a e.1 e.2.1 e.2.2) k.writes }

/-- Whether a write is known to have happened before. -/
def Known.covers (k : Known) (a : Write) : Bool :=
  decide (a.rel < k.of a.w)
    || k.writes.any fun e => e.1 == a.w && e.2.1 == a.oc && (if a.oc < 16 then decide (a.n ≤ e.2.2) else a.n == e.2.2)

/-- A party's clock. -/
def State.clock (s : State) (w : Nat) : Clock := ((s.clocks.find? fun e => e.1 == w).map (·.2)).getD {}

/-- The state with a party's clock changed. -/
def State.updClock (s : State) (w : Nat) (f : Clock → Clock) : State :=
  { s with clocks := (w, f (s.clock w)) :: s.clocks.filter fun e => e.1 != w }

/-- What a party knows before its next access. -/
def Clock.known (k : Clock) : Known := k.learned.headD {}

/-- A party's next write, of an ordering class or none. -/
def State.nextWrite (s : State) (w : Nat) (oc : Nat := 16) : Write :=
  let k := s.clock w
  { w := w, rel := k.rels.length, acq := k.learned.length, n := k.n + 1, oc := oc }

/-- The party has made its next write. -/
def State.wrote (s : State) (w : Nat) : State := s.updClock w fun k => { k with n := k.n + 1 }

/-- Whether a write happens before another party's (R111, R113, R114): its writer released it, or the release by which that party passed
on what it had read covers it, before that party's write. -/
def State.precedes (s : State) (a b : Write) : Bool :=
  let k := s.clock b.w
  ((k.learned.drop (k.learned.length - b.acq)).headD {}).covers a

/-- Who writes: the write, the releases of another party from which on that party's writes stand after it (R220), the writes that it
continues and the earlier ones. An atomic continues what the bytes hold and is never discarded (R113, R116, log 47). -/
structure Stamp where
  by_    : Write := {}
  before : Option (Nat × Nat) := none
  also   : List Write := []
  past   : List Write := []
  atomic : Bool := false
  deriving DecidableEq, Repr, Inhabited

/-- A party's next write, as it performs. -/
def State.stamp (s : State) (w : Nat) : Stamp := { by_ := s.nextWrite w }

/-- The write that a cached byte holds, as it moves on. -/
def Marks.stamp (m : Marks) : Stamp := { by_ := m.by_.headD {}, also := m.by_.drop 1, past := m.past }

/-- The writes of a list that a release precedes, each party's and release's once: what an acquire can learn from (R113). -/
def flagged (l : List Write) : List Write :=
  l.foldl (fun acc e => if e.rel = 0 || acc.any (fun x => x.w == e.w && x.rel == e.rel) then acc else acc ++ [e]) []

/-- Whether a byte's earlier writes tell an acquire nothing. -/
def Marks.plain (m : Marks) : Bool := m.past.isEmpty && m.by_.all (·.rel == 0)

/-- A byte's writes once another stands in it: an atomic continues all of them (R113). -/
def Marks.put (m : Marks) (x : Stamp) : Marks :=
  if x.atomic then { by_ := x.by_ :: flagged (m.by_ ++ m.past), rmw := true }
  else { by_ := x.by_ :: x.also, past := flagged (x.past ++ m.by_ ++ m.past) }

/-- A byte's writes once one has been discarded, just before the held one (R129). -/
def Marks.under (m : Marks) (x : Stamp) : Marks :=
  if m.rmw then { m with by_ := m.by_ ++ flagged (x.by_ :: x.also) } else { m with past := flagged (x.by_ :: x.also ++ m.past) }

/-- Whether a write gives way to the one that a byte holds (R129): they race and it ranks lower, or it happens before that one. -/
def State.yields (s : State) (x : Stamp) (held : Marks) : Bool :=
  match held.by_.head? with
  | none => false
  | some h => !x.atomic && (x.before.any (fun b => b.1 == h.w && decide (b.2 ≤ h.rel))
      || (decide (x.by_.w < h.w) && !s.precedes h x.by_))

/-- The writes of a byte. -/
def tagAt (l : List Tag) (a : Nat) : Marks :=
  ((l.find? fun t => decide (t.pa ≤ a) && decide (a < t.pa + t.len)).map (·.m)).getD {}

/-- Whether two byte ranges meet. -/
def meets (a la b lb : Nat) : Bool := decide (a < b + lb) && decide (b < a + la)

/-- The bytes of [pa, pa+n), as a mask, at which a write yields. -/
def State.yieldsAt (s : State) (x : Stamp) (pa n : Nat) : Nat :=
  if s.tags.any fun t => meets t.pa t.len pa n && s.yields x t.m then
    buildNat 1 (fun i => if s.yields x (tagAt s.tags (pa + i)) then 1 else 0) n
  else 0

/-- The tags once the write stands in the bytes of a mask and has been discarded in those of another. -/
def putTags (l : List Tag) (x : Stamp) (pa n won lost : Nat) : List Tag :=
  let inside (t : Tag) : Bool := decide (pa ≤ t.pa) && decide (t.pa + t.len ≤ pa + n)
  if won = ones n ∧ (l.all fun t => !meets t.pa t.len pa n || t.m.plain) then
    { pa := pa, len := n, m := Marks.put {} x } :: l.filter fun t => !inside t
  else
    let at_ (i : Nat) : Option Tag :=
      let m := tagAt l (pa + i)
      if won.testBit i then some { pa := pa + i, len := 1, m := m.put x }
      else if lost.testBit i then some { pa := pa + i, len := 1, m := m.under x }
      else if m = {} then none else some { pa := pa + i, len := 1, m := m }
    (List.range n).filterMap at_ ++ l.filter fun t => !inside t

/-- The tags of on-chip bytes once they are written: only writes that a release precedes are noted, and none is discarded (R113, R126). -/
def putFlags (l : List Tag) (x : Stamp) (pa n ben : Nat) : List Tag :=
  if x.by_.rel = 0 ∧ (l.all fun t => !meets t.pa t.len pa n) then l else putTags l x pa n (ben % 2 ^ n) 0

/-- The writes that the bytes [pa, pa+n) have at their home. -/
def State.marksAt (s : State) (pa n : Nat) : List Marks :=
  if s.tags.any fun t => meets t.pa t.len pa n then (List.range n).map fun i => tagAt s.tags (pa + i) else []

/-- The last release of a party, by party. -/
def noteRelease (l : List (Nat × Nat)) (w n : Nat) : List (Nat × Nat) :=
  if n = 0 ∨ l.any (fun e => e.1 == w && decide (n ≤ e.2)) then l else (w, n) :: l.filter fun e => e.1 != w

/-- The writes of the FENCEd classes that precede a write of a party (R109). -/
def State.fenced (s : State) (e : Write) : List (Nat × Nat × Nat) :=
  (s.clock e.w).fences.flatMap fun f =>
    if f.1 < e.n ∧ e.oc < 16 ∧ f.2.getLsbD e.oc then
      ((List.range 16).filter f.2.getLsbD).map fun o => (e.w, o, f.1)
    else []

/-- A party has read bytes with these writes (R111, R113): the writes whose values it read, and the releases before them. -/
def State.observe (s : State) (w : Nat) (l : List Marks) : State :=
  let heads := (l.filterMap fun m => m.by_.head?).filter fun e => e.w != w
  let all := (l.flatMap (·.by_)).filter fun e => e.rel != 0 && e.w != w
  if heads.isEmpty && all.isEmpty then s else
  let more := heads.flatMap fun e => (e.w, e.oc, e.n) :: s.fenced e
  s.updClock w fun k => { k with seen := all.foldl (fun acc e => noteRelease acc e.w e.rel) k.seen
                                 read := more.foldl (fun acc e => addWrite acc e.1 e.2.1 e.2.2) k.read }

/-- A party has been told of accesses by a record or a barrier (R121, R125). -/
def State.hear (s : State) (w : Nat) (l : List Write) : State :=
  let l := l.filter fun e => e.rel != 0 && e.w != w
  if l.isEmpty then s else s.updClock w fun k => { k with told := l.foldl (fun acc e => noteRelease acc e.w e.rel) k.told }

/-- A party learns of accesses. -/
def Clock.learn (k : Clock) (l : Known) : Clock := if l = {} then k else { k with learned := k.known.join l :: k.learned }

/-- What a party has read happened before its later writes (R111 step 1). -/
def Clock.order (k : Clock) : Clock := k.learn { writes := k.read.filter fun e => !k.known.covers { w := e.1, oc := e.2.1, n := e.2.2 } }

/-- A party's release of a scope is complete (R111, R113); its later writes are new ones. -/
def State.publish (s : State) (w scope : Nat) : State :=
  s.updClock w fun k => { k with rels := (scope, k.known) :: k.rels, n := k.n + 1 }

/-- The newest of a party's first `n` releases whose scope contains both parties: its number and what was known then. -/
def Clock.released (k : Clock) (n x y : Nat) : Option (Nat × Known) :=
  let l := k.rels.drop (k.rels.length - n)
  ((List.range l.length).zip l).findSome? fun e => if spans e.2.1 x y then some (l.length - e.1, e.2.2) else none

/-- What the release that a party's write stands after makes known. -/
def Known.upTo (w : Nat) (r : Nat × Known) : Known := r.2.add w r.1

/-- What an acquire of a scope learns from the writes seen, and of cluster scope or wider from what it has been told (R113, R121, R125). -/
def State.learnSeen (s : State) (w scope : Nat) : State :=
  let k := s.clock w
  if k.seen.isEmpty && k.told.isEmpty then s else
  let got := k.seen.filterMap fun e =>
    if spans scope e.1 w then ((s.clock e.1).released e.2 e.1 w).map fun r => (e, Known.upTo e.1 r) else none
  let told := if scope = 0 then [] else k.told.map fun e =>
    let x := s.clock e.1
    Known.upTo e.1 (e.2, ((x.rels.drop (x.rels.length - e.2)).head?.map (·.2)).getD {})
  s.updClock w fun k =>
    { k.learn ((got.map (·.2) ++ told).foldl Known.join {}) with
      seen := k.seen.filter fun e => !got.any (·.1 == e), told := if scope = 0 then k.told else [] }

/-- What a core's newest release of die scope or wider makes known to its own engines (R120, R220). -/
def State.forEngines (s : State) (c : CoreId) : Known :=
  let w := coreWriter c
  let k := s.clock w
  match k.released k.rels.length w (w + 1) with
  | some r => Known.upTo w r
  | none => {}

/-- A command is issued to a core's engine: the write that its accesses stand for, and what it knows (R120). -/
def State.engineIssue (s : State) (c : CoreId) (e : Fin 3) : Write × State :=
  let w := unitWriter c e
  let s := s.updClock w fun k => k.learn (s.forEngines c)
  (s.nextWrite w, s)

/-! ## Lines of the L2 (R3, R321, R322) -/

/-- The slice of a physical address: the XOR of its 4-bit groups from bit 6 on, and of bits 50 and 51 (R321). -/
def l2Slice (a : Nat) : Nat := (List.range 11).foldl (fun x i => x ^^^ field a (6 + 4 * i) 4) (field a 50 2)

/-- A line's slice and set (R321). -/
def l2Place (a : Nat) : Nat × Nat := (l2Slice a, Config.l2Set (a / 64) % 8192)

/-- Ways of a set (R321), and those that may be pinned (R322). -/
def l2Ways : Nat := 16
def l2PinWays : Nat := 12

/-- The lines that tile fetch has pinned in a die's L2: kept ones, and those of fetches that are being placed (R218, R322). -/
def State.pinnedLines (s : State) (d : DieId) : List Nat :=
  (List.range 32).flatMap fun i =>
    let x := s.cores.toList.getD (32 * d.val + i) {}
    x.frames.toList.flatMap (fun f => f.mat.pins.map (·.2)) ++ x.tiles.flatMap (·.lines)

/-! ## Writes at the home (R105, R106, R129) -/

/-- The bytes of a mask at which a write takes effect at its home: those whose held write it does not yield to. -/
def State.winsAt (s : State) (x : Stamp) (pa n ben : Nat) : Nat :=
  let lost := if physClass pa matches .hbm _ then s.yieldsAt x pa n else 0
  if lost = 0 then ben % 2 ^ n else (ben % 2 ^ n) &&& (ones n ^^^ lost)

/-- The dies once a write of the enabled bytes has performed at its home: older copies are gone, and dirty bytes to which it yields stay
(R106, R129); the poison of a line that a die no longer holds is gone with it. -/
def State.diesAfter (s : State) (x : Stamp) (pa n ben : Nat) (own : Option DieId) : Vector Die 8 :=
  if s.dies.toList.all (fun d => d.l2.isEmpty && d.lines.isEmpty) then s.dies else
  allDies.foldl (fun ds i =>
    let d := ds.get i
    let l2 := d.l2.filter fun b =>
      !(decide (pa ≤ b.1) && decide (b.1 < pa + n) && ben.testBit (b.1 - pa)) || s.yields x (tagAt d.tags b.1)
    let lines := if own = some i then d.lines else d.lines.filter fun a => !meets a 64 pa n
    let kept (a : Nat) : Bool := lines.contains a || l2.any fun b => b.1 / 64 * 64 == a
    ds.set i.val { d with l2 := l2, lines := lines, poison := d.poison.filter fun p => kept p.1 } i.isLt) s.dies

/-- The tags of a physical range once it is written at its home: the race rules hold where it has a home slice, elsewhere every write stands
and only those that a release precedes are noted (R113, R126, R129). -/
def State.tagsAfter (s : State) (x : Stamp) (pa n ben won : Nat) : List Tag :=
  if physClass pa matches .hbm _ then putTags s.tags x pa n won (ben % 2 ^ n - won) else putFlags s.tags x pa n ben

/-- A write of the enabled bytes performed at its home (R105, R106, R129); `own` is the die whose L2 it comes from. -/
def State.homeWriteEn (s : State) (x : Stamp) (pa n v ben : Nat) (need : Need := .touch) (own : Option DieId := none) : State :=
  let won := s.winsAt x pa n ben
  { s with mem := if won = ones n then Memory.write s.mem pa n v else Memory.writeEn s.mem pa n v won,
           tags := s.tagsAfter x pa n ben won,
           poison := if won = ones n then clearPoison s.poison pa n else s.poison,
           closed := s.closed || s.stackClosed pa,
           agenda := noteHbm s.agenda s.time pa n (need.code true),
           dies := s.diesAfter x pa n ben own }

/-- A write of whole bytes performed at its home. -/
def State.homeWrite (s : State) (x : Stamp) (pa n v : Nat) (need : Need := .touch) : State := s.homeWriteEn x pa n v (ones n) need

/-- A dirty byte of a die's L2 goes home, as the write that it holds. -/
def State.homeByte (s : State) (d : DieId) (b : Host.Cell) : State :=
  s.homeWriteEn (tagAt (s.dies.get d).tags b.1).stamp b.1 1 b.2.toNat 1 .touch (some d)

/-- The lines of a list of addresses, each once. -/
def linesIn (l : List Nat) : List Nat := l.foldl (fun acc a => if acc.contains (a / 64 * 64) then acc else acc ++ [a / 64 * 64]) []

/-- The poison of lines of which bytes have gone to the next level: a poisoned line takes its poison along, a whole one clears what was
there (R420). -/
def movedPoison (from_ onto : List (Nat × Nat)) (addrs : List Nat) : List (Nat × Nat) :=
  (linesIn addrs).foldl (fun onto a => match linePoison from_ a with
    | some p => if onto.any (·.1 == a) then onto else onto ++ [p]
    | none => if 64 ≤ addrs.countP (fun b => b / 64 * 64 == a) then onto.filter (·.1 != a) else onto) onto

/-- The dirty bytes that satisfy the test leave a die's L2 for their home. -/
def State.flushDie (s : State) (d : DieId) (p : Nat → Bool) : State :=
  let out := (s.dies.get d).l2.filter fun b => p b.1
  let bad := (s.dies.get d).poison
  let t := out.foldl (fun s b => s.homeByte d b) s
  if bad.isEmpty && t.poison.isEmpty then t else { t with poison := movedPoison bad t.poison (out.map (·.1)) }

/-- A line comes into a die's L2 from its home unless it is there (R105, R321, R324); a full set gives up a line that tile fetch does
not pin, which one is left open. -/
def State.l2Fill (s : State) (d : DieId) (a : Nat) : State :=
  let ls := (s.dies.get d).lines
  if ls.contains a then s else
  let bad := ((s.poisonOf a 64).map fun p => (a, p.2)).toList
  let s := (s.arrive a 64).updDie d fun x => { x with lines := x.lines ++ [a], poison := if x.poison.any (·.1 == a) then x.poison else x.poison ++ bad }
  if ls.length < l2Ways then s else
  let same := ls.filter fun b => l2Place b == l2Place a
  if same.length < l2Ways then s else
  let pins := s.pinnedLines d
  let out := same.filter fun b => !pins.contains b
  match out[s.pick out.length]? with
  | none => s
  | some victim => (s.tick.flushDie d fun b => b / 64 * 64 == victim).updDie d fun x =>
      { x with lines := x.lines.filter (· != victim), poison := x.poison.filter (·.1 != victim) }

/-- Bytes as a die sees them: its own L2 before the home. -/
def State.dieRead (s : State) (d : DieId) (pa n : Nat) : Nat :=
  overlay (s.dies.get d).l2 pa n (s.homeRead pa n)

/-- The poison of a line as a die sees it: a line that its L2 holds whole has its own (R420). -/
def State.dieLinePoison (s : State) (d : DieId) (a : Nat) : Option (Nat × Nat) :=
  let x := s.dies.get d
  match linePoison x.poison a with
  | some p => some p
  | none => if x.lines.contains a || decide (64 ≤ x.l2.countP fun b => b.1 / 64 * 64 == a) then none else s.poisonOf a 64

/-- The first poisoned unit of a range as a die sees it. -/
def State.diePoison (s : State) (d : DieId) (pa n : Nat) : Option (Nat × Nat) :=
  if s.poison.isEmpty && (s.dies.get d).poison.isEmpty then none
  else if physClass pa = .window then s.poisonOf pa n else (linesOf pa n).findSome? (s.dieLinePoison d)

/-- Cells of the enabled bytes, zero bytes included. -/
def cellsEn (a v ben : Nat) : Nat → List Host.Cell
  | 0 => []
  | n + 1 =>
    let rest := cellsEn (a + 1) (v / 256) (ben / 2) n
    if ben % 2 = 1 then (a, BitVec.ofNat 8 v) :: rest else rest

/-- A byte's writes where a die sees it: in its own L2 before the home. -/
def State.dieTag (s : State) (d : DieId) (a : Nat) : Marks :=
  if (s.dies.get d).l2.any fun b => b.1 == a then tagAt (s.dies.get d).tags a else tagAt s.tags a

/-- One byte performed at die scope, unless it yields to the write that is held (R129). -/
def State.dieWrite (s : State) (d : DieId) (x : Stamp) (pa : Nat) (v : Byte) : State :=
  if s.yields x (s.dieTag d pa) then s.updDie d fun y => { y with tags := putTags y.tags x pa 1 0 1 } else
  s.updDie d fun y => { y with l2 := cellsBelow pa y.l2 ++ (pa, v) :: cellsFrom (pa + 1) y.l2, tags := putTags y.tags x pa 1 1 0 }

/-- A die's bytes performed at package scope. -/
def State.dieFlush (s : State) (d : DieId) : State := s.flushDie d fun _ => true

/-- Bytes as a core reads them: its L1, then its die (R105, R108). -/
def State.coreRead (s : State) (c : CoreId) (pa n : Nat) : Nat :=
  (s.core c).l1.foldr (fun b acc => if pa ≤ b.pa ∧ b.pa < pa + n then setByte acc (b.pa - pa) b.val.toNat else acc)
    (s.dieRead (dieOf c) pa n)

/-- The poison of a line as a core sees it: a line that its L1 holds whole has its own (R420). -/
def State.coreLinePoison (s : State) (c : CoreId) (a : Nat) : Option (Nat × Nat) :=
  let x := s.core c
  match linePoison x.l1Poison a with
  | some p => some p
  | none => if 64 ≤ x.l1.countP (fun b => b.pa / 64 * 64 == a) then none else s.dieLinePoison (dieOf c) a

/-- The first poisoned line of a memory range as a core sees it. -/
def State.corePoison (s : State) (c : CoreId) (pa n : Nat) : Option (Nat × Nat) :=
  if s.poison.isEmpty && (s.core c).l1Poison.isEmpty && (s.dies.get (dieOf c)).poison.isEmpty then none
  else (linesOf pa n).findSome? (s.coreLinePoison c)

/-- The writes of the bytes [pa, pa+n) that a core reads: those of its L1 bytes, elsewhere its die's (R113). -/
def State.writesRead (s : State) (c : CoreId) (pa n : Nat) : List Marks :=
  let l1 := (s.core c).l1.filter fun b => decide (pa ≤ b.pa) && decide (b.pa < pa + n)
  let near (l : List Tag) : Bool := l.any fun t => meets t.pa t.len pa n
  if l1.all (·.m == {}) && !near s.tags && !near (s.dies.get (dieOf c)).tags then [] else
  (List.range n).map fun i => match l1.find? fun b => b.pa == pa + i with
    | some b => b.m
    | none => s.dieTag (dieOf c) (pa + i)

/-- L1 bytes for [a, a+n) of value `v` with their writes: a byte is dirty when `dirty` has its bit or it was dirty. -/
def l1Bytes (old : List L1Byte) (m : Nat → Marks) (a v dirty : Nat) : Nat → List L1Byte
  | 0 => []
  | n + 1 =>
    { pa := a, val := BitVec.ofNat 8 v, dirty := dirty % 2 = 1 || old.any (fun b => b.pa == a && b.dirty), m := m a }
      :: l1Bytes old m (a + 1) (v / 256) (dirty / 2) n

/-- The L1 with [a, a+n) holding `v`. -/
def l1Put (l : List L1Byte) (m : Nat → Marks) (a n v dirty : Nat) : List L1Byte :=
  l.filter (fun b => b.pa < a) ++ l1Bytes (l.filter fun b => a ≤ b.pa && b.pa < a + n) m a v dirty n
    ++ l.filter (fun b => a + n ≤ b.pa)

/-- The L1's poisoned lines that it still holds a byte of. -/
def keptPoison (l : List L1Byte) (bad : List (Nat × Nat)) : List (Nat × Nat) :=
  bad.filter fun p => l.any fun b => b.pa / 64 * 64 == p.1

/-- A read fills a line of the L1 (R105): bytes that it holds keep their writes, the others take their die's, and the line its poison. -/
def State.l1Fill (s : State) (c : CoreId) (pa n v : Nat) : State :=
  let m (a : Nat) : Marks := match (s.core c).l1.find? fun b => b.pa == a with
    | some b => b.m
    | none => s.dieTag (dieOf c) a
  let bad := match s.dieLinePoison (dieOf c) pa with
    | some p => if (s.core c).l1Poison.any (·.1 == pa) then [] else [(pa, p.2)]
    | none => []
  s.updCore c fun x => { x with l1 := l1Put x.l1 m pa n v 0, l1Poison := x.l1Poison ++ bad }

/-- A cached store of the enabled bytes, of an ordering class: performed at core scope (R106). A line that it covers whole loses the poison of
the L1's copy (R420). -/
def State.coreWrite (s : State) (c : CoreId) (oc pa n v ben : Nat) : State :=
  let x : Stamp := { by_ := s.nextWrite (coreWriter c) oc }
  let m (a : Nat) : Marks := ((((s.core c).l1.find? fun b => b.pa == a).map L1Byte.m).getD {}).put x
  (s.updCore c fun x =>
    { x with l1 := if ben % 2 ^ n = ones n then l1Put x.l1 m pa n v (ones n)
                   else (cellsEn pa v ben n).foldl (fun l b => l1Put l m b.1 1 b.2.toNat 1) x.l1,
             l1Poison := if ben % 2 ^ n = ones n then clearPoison x.l1Poison pa n else x.l1Poison }).wrote (coreWriter c)

/-- Dirty L1 bytes that satisfy the test, written back to the level of the scope: die for 1 and 2, home for 3 and 4
(R107, R111), each as the write that it holds. The bytes stay as clean copies. -/
def State.writeBack (s : State) (c : CoreId) (scope : Nat) (p : Nat → Bool) : State :=
  if scope = 0 then s else
  let d := dieOf c
  let dirty := (s.core c).l1.filter fun b => b.dirty && p b.pa
  let bad := (s.core c).l1Poison
  let addrs := dirty.map (·.pa)
  let s := s.updCore c fun x => { x with l1 := x.l1.map fun b => if b.dirty && p b.pa then { b with dirty := false } else b }
  let t := dirty.foldl (fun s b =>
    if scope < 3 then (s.l2Fill d (b.pa / 64 * 64)).dieWrite d b.m.stamp b.pa b.val
    else s.homeWriteEn b.m.stamp b.pa 1 b.val.toNat 1 .touch (some d)) s
  if scope < 3 then t.updDie d fun x => { x with poison := movedPoison bad x.poison addrs }
  else if bad.isEmpty && t.poison.isEmpty then t else { t with poison := movedPoison bad t.poison addrs }

/-- A core's release is complete (R111, R113): what it has read and its own tile stores stand before its later writes (R220). -/
def State.released (s : State) (c : CoreId) (scope : Nat) : State :=
  let w := coreWriter c
  let n := (s.clock w).rels.length + 1
  let s := s.updCore c fun x => { x with tiles := x.tiles.map fun t => if t.store && t.before.isNone then { t with before := some n } else t }
  let stores := (s.clock (unitWriter c 2)).rels.length
  let s := if stores = 0 then s else s.updClock w fun k => k.learn { rels := [(unitWriter c 2, stores)] }
  (s.updClock w Clock.order).publish w scope

/-- REL of a scope (R111): the core's dirty bytes go to the level of the scope, and for package and system scope
the die's bytes as well, those the core has read from other cores among them. -/
def State.release (s : State) (c : CoreId) (scope : Nat) : State :=
  if scope = 0 then s.updClock (coreWriter c) Clock.order else
  let s := s.writeBack c scope fun _ => true
  (if 3 ≤ scope then s.dieFlush (dieOf c) else s).released c scope

/-- The L1's bytes that satisfy the test are gone. -/
def Core.discard (x : Core) (p : L1Byte → Bool) : Core :=
  let l1 := x.l1.filter fun b => !p b
  { x with l1 := l1, l1Poison := keptPoison l1 x.l1Poison }

/-- The L1's clean bytes are gone. -/
def Core.discardClean (x : Core) : Core := x.discard (!·.dirty)

/-- ACQ of a scope (R112, R113): the core's clean L1 bytes are discarded, and what it has seen released is known, unless the scope is core. -/
def State.acquire (s : State) (c : CoreId) (scope : Nat) : State :=
  if scope = 0 then s else (s.updCore c Core.discardClean).learnSeen (coreWriter c) scope

end Sys2Proof.Machine
end

