-- ==== Sys2Proof/Machine/Clock.lean ====
section
/-! DEFINITION. Time: master-clock ticks, island cycles, and the scheduling of events (R8, R292, R368, R448). -/

namespace Sys2Proof.Machine

open Sys2Proof

/-- Pulses that pass in ticks 0 to t - 1 at a level: the pattern passes the low `level` of every 16 (R448). -/
def pulses (level t : Nat) : Nat := t / 16 * level + min (t % 16) level

/-- An island. -/
def State.island (s : State) (i : Fin 128) : Island := s.pw.islands.get i
/-- The state with an island changed. -/
def State.updIsland (s : State) (i : Fin 128) (f : Island → Island) : State :=
  { s with pw := { s.pw with islands := s.pw.islands.set i.val (f (s.island i)) i.isLt } }

/-- Cycles the island has counted before tick `t`. -/
def Island.cycles (x : Island) (t : Nat) : Nat := x.cycBase + (pulses x.level t - pulses x.level x.since)

/-- The cycle a core is in (R8, R33 CYCLE). -/
def State.cyc (s : State) (c : CoreId) : Nat := (s.island (islandOf c)).cycles s.time

/-- Whether the current pulse passes the island's pattern (R8). -/
def State.pulse (s : State) (c : CoreId) : Bool := s.time % 16 < (s.island (islandOf c)).level

/-- An island's level changed now: the count so far is kept. -/
def Island.setLevel (x : Island) (t l : Nat) : Island :=
  { x with cycBase := x.cycles t, since := t, level := l }

/-- PULSE.PATTERN (R34, R448). -/
def patternOf (level : Nat) : Nat := ones level

/-- Package time in ns: 24 ticks of the master clock are 5 ns (R292). -/
def State.ns (s : State) : Nat := s.time * 5 / 24

/-- Ticks of a number of microseconds. -/
def ticksOfUs (n : Nat) : Nat := n * 4800

/-- An event on the package's agenda, `dt` ticks from now. -/
def State.post (s : State) (dt : Nat) (row : Instr) (arg : Arg) : State :=
  { s with agenda := s.agenda ++ [{ at_ := s.time + dt, row := row, arg := arg }] }

/-- An event of a core, at a cycle of its island. -/
def State.postCore (s : State) (c : CoreId) (cycle : Nat) (row : Instr) (arg : Arg) : State :=
  s.updCore c fun x => { x with events := x.events ++ [{ at_ := cycle, row := row, arg := { arg with c := c } }] }

/-- An event of a core after `least` cycles and a free number more. -/
def State.postFree (s : State) (c : CoreId) (least : Nat) (row : Instr) (arg : Arg) : State :=
  (s.postCore c (s.cyc c + least + s.extra) row arg).tick

/-- An event of the package after `least` ticks and a free number more. -/
def State.postLater (s : State) (least : Nat) (row : Instr) (arg : Arg) : State :=
  (s.post (least + s.extra) row arg).tick

end Sys2Proof.Machine
end

