-- ==== Sys2Proof/Machine/Ops.lean ====
section
/-! DEFINITION. The named operations over frames and registers: cause codes, results and latches, the register
space, taking an exception and returning from one, and ending a task (R13, R19-R26, R64-R66, R133, R271-R274,
R404). -/

namespace Sys2Proof.Machine

open Sys2Proof

/-! ## Cause codes (R404) -/

/-- ECAUSE.CAUSE codes. -/
abbrev Cause := BitVec 8
def Cause.illegalBundle : Cause := 0x01#8
def Cause.illegalInstruction : Cause := 0x02#8
def Cause.privilege : Cause := 0x03#8
def Cause.fetchLimit : Cause := 0x04#8
def Cause.targetBuffer : Cause := 0x05#8
def Cause.loopNesting : Cause := 0x06#8
def Cause.loopCount : Cause := 0x07#8
def Cause.maskStack : Cause := 0x08#8
def Cause.regBound : Cause := 0x09#8
def Cause.lendBound : Cause := 0x0A#8
def Cause.address : Cause := 0x0B#8
def Cause.translation : Cause := 0x0C#8
def Cause.permission : Cause := 0x0D#8
def Cause.tableFormat : Cause := 0x0E#8
def Cause.windowLent : Cause := 0x0F#8
def Cause.windowRefused : Cause := 0x10#8
def Cause.owner : Cause := 0x11#8
def Cause.streamUse : Cause := 0x12#8
def Cause.matrixOperand : Cause := 0x13#8
def Cause.raggedRecord : Cause := 0x14#8
def Cause.nestContent : Cause := 0x15#8
def Cause.barrier : Cause := 0x16#8
def Cause.group : Cause := 0x17#8
def Cause.step : Cause := 0x18#8
def Cause.handle : Cause := 0x19#8
def Cause.weightPoison : Cause := 0x20#8
def Cause.dataPoison : Cause := 0x21#8
def Cause.dupMismatch : Cause := 0x22#8
def Cause.illegalReturn : Cause := 0x30#8
def Cause.doubleTrap : Cause := 0x31#8
def Cause.badStatus : Cause := 0x32#8
def Cause.hung : Cause := 0x33#8

/-- Column H of R404: whether the cause may enter the task's handler. -/
def causeEnters (c : Cause) : Bool :=
  !([Cause.weightPoison, Cause.dataPoison, Cause.dupMismatch, Cause.doubleTrap, Cause.badStatus,
    Cause.hung].contains c)

/-- Why a slot does not issue: a trap, the bundle held (with what holding sets going), or the task's end. -/
inductive Stop where
  | trap (t : Trap)
  | hold (f : State → State)
  | fault (c : Cause)

/-- A trap raised at issue, with no address (R271). -/
def trapOf {α : Type} (c : Cause) : Except Stop α := .error (.trap { cause := c })
/-- A trap raised at issue, with a faulting virtual address. -/
def trapAt {α : Type} (c : Cause) (va : Nat) : Except Stop α :=
  .error (.trap { cause := c, evaddr := BitVec.ofNat 64 (va % 2 ^ 57) })
/-- The operands of a fetch for entry `u` of a slot, under the table and address space that stand now (R260). -/
def Frame.fetchArg (f : Frame) (k : Fin 4) (u : Nat) (a : Word) : Arg := { k := k, u := u, w0 := a, w1 := f.sys.ptroot, h := f.sys.asid }

/-- The bundle is held. -/
def holdNow {α : Type} : Except Stop α := .error (.hold id)

/-- The bundle is held in a way that counts toward a switch to another task (R290). -/
def holdSw {α : Type} : Except Stop α := .error (.hold fun s => s.updCtl fun c => { c with swHeld := c.swHeld + 1 })

/-- Raises the cause when the condition fails. -/
def require (b : Bool) (c : Cause) : Except Stop Unit := if b then .ok () else trapOf c
/-- Holds the bundle while the condition is true. -/
def holdWhile (b : Bool) : Except Stop Unit := if b then holdNow else .ok ()

/-! ## Register space (R13, R19) -/

/-- Physical address of a register-space offset of a resident task (R13, R317). -/
def State.rsPa (s : State) (c : CoreId) (k : Fin 4) (off : Nat) : Nat :=
  winBase c + (s.frameAt c k).id.base * 512 + off

/-- Size of a lent window (R19). -/
def lentSize : Nat := 0x600000

/-- Physical address of an offset into a frame's lent windows (R19, R317). -/
def lentPa (f : Frame) (off : Nat) : Nat := winBase (f.id.lent.getD (off / lentSize) 0) + off % lentSize

/-- Register-space, local-store or window bytes under byte enables; a whole granule clears its poison (R420), and a write that a release
precedes is noted (R113). -/
def State.chipWrite (s : State) (x : Stamp) (pa n v ben : Nat) : State :=
  { s with mem := if ben % 2 ^ n = ones n then Memory.write s.mem pa n v else Memory.writeEn s.mem pa n v ben,
           tags := putFlags s.tags x pa n ben,
           poison := if ben % 2 ^ n = ones n then clearPoison s.poison pa n else s.poison }

/-! ## Ports of banks (R14, R29, R278) -/

/-- Uses of a core's banks noted; those of cycles long past are forgotten. -/
def State.usePorts (s : State) (c : CoreId) (l : List (Nat × Nat × Port)) : State :=
  if l.isEmpty then s else
  s.updCore c fun x =>
    let from_ := (x.mrun.map (·.upTo)).getD (s.cyc c)
    { x with ports := (x.ports.filter fun p => decide (min from_ (s.cyc c) ≤ p.1 + 2)) ++ l }

/-- Partner bank of a mirrored granule of a task, by its offset in the footprint (R29, R33). -/
def SysRegs.partner (x : SysRegs) (gran : Nat) : Option Nat :=
  (x.mirtab.toList.find? fun w => bit w 31 && bits w 0 13 == gran).map fun w => bits w 16 4

/-- The banks that a granule of a task's footprint stands in: its own, and its copy's (R14, R29). -/
def Frame.banksOf (f : Frame) (gran : Nat) : List Nat := gran % 16 :: (f.sys.partner gran).toList

/-- A result's write to register space takes its banks' write ports in the cycle in which it completes (R278, R279). -/
def State.portWrite (s : State) (c : CoreId) (k : Fin 4) (r : Result) : State :=
  match r.dest with
  | .rs off => if r.ben = 0 then s else s.usePorts c (((s.frameAt c k).banksOf (off / 512)).map fun b => (r.due, b, .write))
  | _ => s

/-! ## Results and latches (R22, R23, R64, R65, R133) -/

/-- The latch of a unit at its pointer takes a value, and the pointer advances (R22). -/
def Latches.record (l : Latches) (u : Fin 3) (x : Vec) : Latches :=
  let i := l.ptr.get u
  let l := { l with ptr := l.ptr.set u.val (i + 1) u.isLt }
  match u with
  | 0 => { l with bs := l.bs.set i.val (x.setWidth 64) i.isLt }
  | 1 => { l with bv := l.bv.set i.val x (by omega) }
  | 2 => { l with bv := l.bv.set (i.val + 4) x (by omega) }

/-- Scalar register write; S0 discards (R20). Writing clears the register's poison (R420). -/
def Regs.setS (r : Regs) (i : Nat) (v : Word) : Regs :=
  if h : 0 < i ∧ i < 48 then { r with s := r.s.set i v h.2, sPoison := r.sPoison.filter (·.1 != i) } else r

/-- Operand-file entry write under byte enables (R21, R420). -/
def Regs.setOf (r : Regs) (i : Nat) (v : Vec) (ben : Mask) : Regs :=
  if h : i < 16 then
    { r with ofe := r.ofe.set i (mergeBytes (r.ofe.get ⟨i, h⟩) v ben) h,
             oPoison := if ben = allBytes then r.oPoison.filter (·.1 != i) else r.oPoison }
  else r

/-- A stream's queued element of the tag takes the enabled bytes and becomes readable (R66). -/
def Stream.land (q : Stream) (tag : Nat) (v : Vec) (ben : Mask) : Stream :=
  { q with queue := q.queue.map fun e =>
      if e.tag = tag then { e with data := mergeBytes e.data v ben, ready := 0, tag := 0 } else e }

/-- The unbound streams of an entry that still drain, changed (R247). -/
def Core.landOut (x : Core) (k : Fin 4) (n : Nat) (g : Stream → Stream) : Core :=
  { x with outq := updWhere (fun o => o.k == k && o.n.val == n) (fun o => { o with q := g o.q }) x.outq }

/-- A destination written (R64, R410): the enabled bytes, or the enabled bits of a predicate or mask. -/
def State.deliver (s : State) (c : CoreId) (k : Fin 4) (dest : Dest) (ben : Mask) (data : Vec) : State :=
  let onR (f : Regs → Regs) : State := s.updFrameAt c k fun x => { x with r := f x.r }
  match dest with
  | .s r => if ben = 0 then s else onR fun x => x.setS r (data.setWidth 64)
  | .rs off => s.chipWrite (s.stamp (coreWriter c)) (s.rsPa c k off) 512 data.toNat ben.toNat
  | .lent off => s.chipWrite (s.stamp (coreWriter c)) (lentPa (s.frameAt c k) off) 512 data.toNat ben.toNat
  | .pred p => if ben = 0 then s else onR fun x =>
      { x with p := if data.getLsbD 0 then x.p ||| (1#8 <<< p) else x.p &&& ~~~(1#8 <<< p) }
  | .mask m => if h : m < 8 then onR fun x =>
      { x with mks := x.mks.set m ((x.mks.get ⟨m, h⟩ &&& ~~~ben) ||| (data.setWidth 512 &&& ben)) h } else s
  | .ofe n => onR fun x => x.setOf n data ben
  | .ofHead n tag => if h : n < 16 then (onR fun x =>
      { x with streams := x.streams.set n ((x.streams.get ⟨n, h⟩).land tag data ben) h }).updCore c (·.landOut k n fun q => q.land tag data ben) else s
  | .bp => onR fun x => { x with bp := mergeBytes x.bp data ben, bpPoison := if ben = allBytes then none else x.bpPoison }
  | .none => s

/-- A result completes: its destination is written, and its unit's latch records the whole value (R22). -/
def State.complete (s : State) (c : CoreId) (k : Fin 4) (r : Result) : State :=
  let s := (s.portWrite c k r).deliver c k r.dest r.ben r.data
  match r.lat with
  | some u => s.updFrameAt c k fun x => { x with r := { x.r with lat := x.r.lat.record u r.data } }
  | none => s

/-- Whether a result completes before another: earlier cycle, then order of issue (R22, R65). -/
def Result.before (a b : Result) : Bool := a.due < b.due || (a.due == b.due && a.seq < b.seq)

/-- The result in flight that completes first. -/
def firstResult : List Result → Option Result
  | [] => none
  | r :: rs => match firstResult rs with
    | none => some r
    | some q => if q.before r then some q else some r

/-- Results in order of completion. -/
def insertResult (r : Result) : List Result → List Result
  | [] => [r]
  | q :: qs => if r.before q then r :: q :: qs else q :: insertResult r qs
/-- Results in order of completion. -/
def sortResults (l : List Result) : List Result := l.foldr insertResult []

/-- The last completion cycle of a task's results in flight. -/
def State.lastDue (s : State) (c : CoreId) (k : Fin 4) : Nat := ((s.frameAt c k).infl.map (·.due)).foldl max 0

/-- Every result in flight reaches its destination; one that completes in the cycle of the bundle that clears the latches, `ago` cycles before
this one, takes its latch too, a later one does not (R23, R272). Pending loads are not results in flight: they land later, without a latch,
and nothing waits for them, which is the model's choice (log 19). -/
def State.drain (s : State) (c : CoreId) (k : Fin 4) (ago : Nat := 0) : State :=
  let rs := sortResults (s.frameAt c k).infl
  let s := s.updFrameAt c k fun x => { x with infl := [] }
  rs.foldl (fun s r => s.complete c k (if r.due + ago ≤ s.cyc c then r else { r with lat := none })) s

/-- The latches and pointers cleared; nothing issued before reaches a latch later (R23). -/
def Frame.clearLatches (f : Frame) : Frame :=
  { f with r := { f.r with lat := {} }, infl := f.infl.map fun r => { r with lat := none },
           loads := f.loads.map fun l => { l with lat := none } }

/-- The order of issue of a slot in a cycle. -/
def seqOf (cycle : Nat) (slot : Fin 4) : Nat := 4 * cycle + slot.val

/-- A lower slot's write of the same bundle to the same bytes does not take place (R65). -/
def cancelSame (seq : Nat) (dest : Dest) (ben : Mask) (f : Frame) : Frame :=
  { f with infl := f.infl.map (fun r => if r.seq / 4 = seq / 4 ∧ r.dest = dest then { r with ben := r.ben &&& ~~~ben } else r),
           loads := f.loads.map (fun l => if l.id / 4 = seq / 4 ∧ l.dest = dest then { l with ben := l.ben &&& ~~~ben } else l),
           atoms := f.atoms.map (fun a => if a.seq / 4 = seq / 4 ∧ dest = .s a.dest ∧ ben ≠ 0 then { a with dead := true } else a) }

/-- A result of latency `lat` enters flight (R65, R133); `by_` is the unit that computes it (R410). -/
def State.result (w : State) (slot : Fin 4) (lat : Nat) (dest : Dest) (ben : Mask) (data : Vec)
    (unit : Option (Fin 3)) (by_ : Nat := (unit.map (·.val)).getD 0) : State :=
  let cycle := w.cyc w.cur
  let seq := seqOf cycle slot
  w.updFr fun f =>
    let f := cancelSame seq dest ben f
    { f with infl := f.infl ++ [{ seq := seq, due := cycle + lat - 1, dest := dest, ben := ben, data := data, lat := unit, unit := by_ }] }

/-! ## Loop levels (R24, R28, R161, R163) -/

/-- The innermost open level, at or below index `n - 1`, opened by LOOPS. -/
def pipeLevel (lv : Vector Level 6) : Nat → Option (Fin 6)
  | 0 => none
  | n + 1 => if h : n < 6 then
      let x := lv.get ⟨n, h⟩
      if x.isOpen ∧ x.pipe then some ⟨n, h⟩ else pipeLevel lv n
    else pipeLevel lv n

/-- The level that drives P4-P7, when one does (R24, R161, R168). -/
def Ctl.driver (x : Ctl) : Option (Fin 6) := pipeLevel x.lv x.depth

/-- Driven value of P(4+i) (R24, R163). -/
def Level.stageOn (x : Level) (i : Nat) : Bool :=
  let n : Int := x.lidx + x.lcnt - x.stages + 1
  let j : Int := (x.lidx : Int) - i
  decide (i < x.stages) && decide (0 ≤ j) && decide (j < n)

/-- The value of predicate `i` (R24). -/
def Frame.pval (f : Frame) (i : Nat) : Bool :=
  if i = 0 then true
  else if i < 4 then f.r.p.getLsbD i
  else match f.ctl.driver with
    | some v => (f.ctl.lv.get v).stageOn (i - 4)
    | none => f.r.p.getLsbD i

/-- The predicates as one byte, P0 at bit 0. -/
def Frame.preds (f : Frame) : BitVec 8 :=
  BitVec.ofNat 8 (buildNat 1 (fun i => if f.pval i then 1 else 0) 8)

/-- close(v) (R161). -/
def Frame.closeLevel (f : Frame) (v : Fin 6) : Frame :=
  let x := f.ctl.lv.get v
  let ctl := { f.ctl with lv := f.ctl.lv.set v.val { x with lcnt := 0, isOpen := false } v.isLt, depth := v.val }
  let f := { f with ctl := ctl }
  if x.pipe && ctl.driver.isNone then
    { f with r := { f.r with p := (f.r.p &&& 0x0F#8) ||| (x.savedp.setWidth 8 <<< 4) } }
  else f

/-- Levels `n - 1` down to `lo` closed, innermost first. -/
def Frame.closeDown (f : Frame) (lo : Nat) : Nat → Frame
  | 0 => f
  | n + 1 => if lo ≤ n then
      if h : n < 6 then (f.closeLevel ⟨n, h⟩).closeDown lo n else f.closeDown lo n
    else f

/-! ## Ending a task (R272 fault_task, R287) -/

/-- A task of the table. -/
def State.task (s : State) (tid : BitVec 32) : Option Task := s.tasks.find? fun t => t.tid == tid
/-- The state with a task changed. -/
def State.updTask (s : State) (tid : BitVec 32) (f : Task → Task) : State :=
  { s with tasks := updWhere (fun t => t.tid == tid) f s.tasks }

/-- fault_task: the task issues nothing more and is ended to the distributor with the trap's values, and its queue
freezes (R272, R287; the completion does the rest). -/
def State.faultTaskAt (s : State) (c : CoreId) (k : Fin 4) (t : Trap) (epc : Word) : State :=
  let tid := (s.frameAt c k).id.task
  if (s.frameAt c k).ctl.ended then s else
  let s := s.updFrameAt c k fun f => { f with ctl := { f.ctl with halted := true, ended := true, taken := none } }
  let s := s.updTask tid fun x => { x with eng := t, epc := epc }
  s.post 0 .taskComplete { tid := tid, c := c, k := k, u := 1, w0 := t.cause.setWidth 64 }

/-! ## Taking an exception and returning (R270-R274) -/

/-- Mask floor: the depth below which entries are invisible in a handler (R273). -/
def Frame.mfloor (f : Frame) : Nat := if f.tr.intrap then f.tr.shadow.mfloor else 0

/-- ESTATUS at trap entry: P1-P7 at [14:8], mask depth at [7:3], loop depth at [2:0] (R272). -/
def Frame.estatusImage (f : Frame) : Word :=
  BitVec.ofNat 64 (f.preds.toNat / 2 * 256 + f.r.mstack.length * 8 + f.ctl.depth)

/-- The trap shadow taken at entry (R270, R272). -/
def Frame.takeShadow (f : Frame) : Shadow :=
  { lat := f.r.lat, depth := f.ctl.depth, floor := f.ctl.floor, mfloor := f.r.mstack.length,
    lidx := (f.ctl.lv.toList.drop f.ctl.depth).map (·.lidx), lrotc := (f.ctl.lv.toList.drop f.ctl.depth).map (·.lrotc),
    tgs := f.ctl.tg.toList.map fun t => (t.addr, t.valid, t.outRange) }

/-- The frame as its handler starts: saved state, cleared latches, raised floor, the handler's address next, and the
cycle before which nothing issues (R272). -/
def Frame.enterHandler (f : Frame) (t : Trap) (epc : Word) (notBefore : Nat) : Frame :=
  let g := { f with
    tr := { f.tr with shadow := f.takeShadow, estatus := f.estatusImage, epc := epc,
                      ecause := BitVec.ofNat 64 (t.cause.toNat + if t.async then 256 else 0),
                      evaddr := t.evaddr, eslot := BitVec.ofNat 64 t.slot, eeng := t.eeng, intrap := true },
    ctl := { f.ctl with floor := f.ctl.depth, pc := canon57 f.tr.handler, fetched := [], taken := none,
                        notBefore := notBefore, heldFor := 0, bankHold := 0, refetch := true, orderFrom := none, inval := none },
    msg := { f.msg with waits := f.msg.waits.filter (·.granted), waitFrom := none, gateWait := false } }
  g.clearLatches

/-- TRAP ENTRY, the one operation that takes an exception (R271, R272): `epc` is the bundle to resume. A trap in a
handler is held when asynchronous and fewer than eight are held, and ends the task otherwise; a cause that may not
enter a handler, or no handler, ends the task; else the handler is entered after the task's results have landed. The trapped bundle issued
`ago` cycles before this one. -/
def State.takeTrapAt (s : State) (c : CoreId) (k : Fin 4) (t : Trap) (epc : Word) (ago : Nat := 0) : State :=
  let f := s.frameAt c k
  if f.tr.intrap then
    if t.async ∧ f.tr.held.length < 8 then
      s.updFrameAt c k fun f => { f with tr := { f.tr with held := f.tr.held ++ [t] } }
    else s.faultTaskAt c k { t with cause := Cause.doubleTrap } epc
  else if f.tr.handler = 0 ∨ !causeEnters t.cause then s.faultTaskAt c k t epc
  else
    let at_ := max (s.cyc c + 8 - ago) (s.lastDue c k + 1)
    let s := s.drain c k ago
    let s := s.updFrameAt c k fun f => f.enterHandler t epc at_
    s.postFree c (at_ - 1 - s.cyc c) .bundleFetch { k := k, id := at_ }

/-- A trap of the running frame. -/
def State.takeTrap (s : State) (t : Trap) (epc : Word) : State := s.takeTrapAt s.cur s.here.run t epc

/-- An asynchronous trap is due at the frame's next boundary (R271); after a HALT it ends the task (R154). -/
def State.raiseAsync (s : State) (c : CoreId) (k : Fin 4) (t : Trap) : State :=
  if (s.frameAt c k).ctl.halted then s.faultTaskAt c k { t with async := true, slot := 0 } (s.frameAt c k).ctl.pc else
  s.updFrameAt c k fun f => { f with tr := { f.tr with due := f.tr.due ++ [{ t with async := true, slot := 0 }] } }

/-- Levels from `v` on take back their LIDX and LROTC (R274). -/
def restoreLevels (lv : Vector Level 6) (v : Nat) : List Nat → List Word → Vector Level 6
  | i :: is, r :: rs =>
    if h : v < 6 then restoreLevels (lv.set v { lv.get ⟨v, h⟩ with lidx := i, lrotc := r } h) (v + 1) is rs else lv
  | _, _ => lv

/-- Target entries take back address and valid bit; their bundles are fetched again (R274). -/
def restoreTargets (tg : Vector Target 8) (v : Nat) : List (Word × Bool × Bool) → Vector Target 8
  | (a, ok, out) :: r =>
    if h : v < 8 then restoreTargets (tg.set v { addr := a, valid := ok, outRange := out, filled := !ok } h) (v + 1) r else tg
  | [] => tg

/-- RETURN FROM AN EXCEPTION, the frame's part (R274), once the checks have passed and results have landed. -/
def Frame.leaveHandler (f : Frame) (notBefore : Nat) : Frame :=
  let st := f.tr.estatus
  let pdepth := bits st 0 3
  let pmsp := bits st 3 5
  let sh := f.tr.shadow
  let f := f.closeDown sh.depth f.ctl.depth
  let f := { f with ctl := { f.ctl with depth := sh.depth, floor := sh.floor,
                                        lv := restoreLevels f.ctl.lv sh.depth sh.lidx sh.lrotc } }
  let f := f.closeDown pdepth sh.depth
  let f := { f with ctl := { f.ctl with floor := min f.ctl.floor pdepth } }
  let f := f.clearLatches
  let plain := BitVec.ofNat 8 (bits st 8 7 * 2 + 1)
  let p := if f.ctl.driver.isNone then plain else (plain &&& 0x0F#8) ||| (f.r.p &&& 0xF0#8)
  { f with
    r := { f.r with lat := sh.lat, p := p, mstack := f.r.mstack.drop (f.r.mstack.length - pmsp) },
    ctl := { f.ctl with tg := restoreTargets f.ctl.tg 0 sh.tgs, pc := canon57 f.tr.epc, fetched := [], taken := none,
                        notBefore := notBefore, refetch := true },
    tr := { f.tr with intrap := false } }

end Sys2Proof.Machine
end

