-- ==== Sys2Proof/Machine/Translate.lean ====
section
/-! DEFINITION. Address translation and the checks of an access by address (R55, R118, R127, R142, R314, R413-R415,
R480). -/

namespace Sys2Proof.Machine

open Sys2Proof

/-! ## Page tables (R413) -/

/-- What an access asks of a leaf (R414). -/
inductive Access where
  | fetch | read | write | atomic
  deriving DecidableEq, Repr, Inhabited

/-- A level of the table: its number, lowest indexed bit, index width, log2 of the node size one level down. -/
structure TableLevel where
  num   : Nat
  shift : Nat
  width : Nat
  below : Nat
  deriving DecidableEq, Repr, Inhabited

/-- The five levels (R413). -/
def tableLevels : List TableLevel :=
  [⟨0, 45, 12, 15⟩, ⟨1, 33, 12, 7⟩, ⟨2, 29, 4, 11⟩, ⟨3, 21, 8, 8⟩, ⟨4, 16, 5, 0⟩]

/-- MT that the physical map gives a frame of 2^log bytes (R413, R423); none where a range is crossed or empty. -/
def frameMt (pa log : Nat) : Option Nat :=
  let mt (a : Nat) : Option Nat := match physClass a with
    | .hbm _ => some 0
    | .host => some 1
    | .window => some 2
    | .control => some 2
    | .nothing => none
  if mt pa = mt (pa + 2 ^ log - 1) then mt pa else none

/-- A leaf's checks (R413). -/
def leafOk (e : Nat) (l : TableLevel) : Bool :=
  let frame := field e 16 36 <<< 16
  let mt := field e 6 2
  field e 52 12 == 0 && field e 8 8 == 0 && l.num != 0 && frame % 2 ^ l.shift == 0 && mt != 3
    && (!e.testBit 3 || e.testBit 2) && (mt != 2 || !e.testBit 4) && frameMt frame l.shift == some mt

/-- A table pointer's checks (R413). -/
def pointerOk (e : Nat) (l : TableLevel) : Bool :=
  field e 52 12 == 0 && field e 2 4 == 0 && l.num != 4 && (field e 6 46 <<< 6) % 2 ^ l.below == 0
    && physClass (field e 6 46 <<< 6) != .nothing

/-- What a walk finds: the leaf, the walk-cache entries it passed, and the addresses of the entries it read. -/
structure Walked where
  leaf  : TlbEntry := {}
  nodes : List WalkEntry := []
  reads : List Nat := []
  deriving DecidableEq, Repr, Inhabited

/-- The walk from a node (R413, R415): a cached pointer replaces the read of its entry. -/
def walkFrom (s : State) (d : DieId) (asid : BitVec 16) (va : Nat) : List TableLevel → Nat → Except Trap Walked
  | [], _ => .error { cause := Cause.tableFormat }
  | l :: ls, node =>
    match (s.dies.get d).walkc.find? fun w => w.asid == asid && w.level == l.num && w.tag == va >>> l.shift with
    | some w => walkFrom s d asid va ls w.node
    | none =>
      let ea := node + 8 * field va l.shift l.width
      match s.diePoison d ea 8 with
      | some p => .error (trapOfPoison p)
      | none =>
      let e := s.dieRead d ea 8
      if !e.testBit 0 then .error { cause := Cause.translation }
      else if e.testBit 1 then
        if leafOk e l then
          .ok { leaf := { asid := asid, va := va >>> l.shift <<< l.shift, log := l.shift,
                          pa := field e 16 36 <<< 16, flags := BitVec.ofNat 8 e }, reads := [ea] }
        else .error { cause := Cause.tableFormat }
      else if pointerOk e l then
        let next := field e 6 46 <<< 6
        (walkFrom s d asid va ls next).map fun w =>
          { w with reads := ea :: w.reads, nodes := { asid := asid, level := l.num, tag := va >>> l.shift, node := next } :: w.nodes }
      else .error { cause := Cause.tableFormat }

/-- A TLB entry that translates the address (R415). -/
def TlbEntry.hits (e : TlbEntry) (asid : BitVec 16) (va : Nat) : Bool := e.asid == asid && va >>> e.log == e.va >>> e.log

/-- Where the resident copies of handles begin in every address space: the copy at physical address a stands at this
address plus a (R251, R325). -/
def residentBase : Nat := (Config.residentWindow % 32768 + 1) * 2 ^ 40

/-- The 64 KiB pages of a handle's weights (R327). -/
def State.handlePages (s : State) (h : BitVec 16) : Nat := ((s.handles.find? (·.1 == h.toNat)).map (·.2.size.toNat)).getD 0

/-- The mapping of an address among the residency pools: none outside them, and inside a pool the slot's page, or none
while the slot is not resident and past the pages of its handle's weights (R325). -/
def State.residentLeaf (s : State) (asid : BitVec 16) (va : Nat) : Option (Option TlbEntry) :=
  s.bases.toList.findSome? fun b =>
    let size := bits b.hslot 32 16 * 65536
    let pool := residentBase + b.hpool.toNat
    if b.slots.isEmpty || va < pool || pool + b.slots.length * size ≤ va then none
    else match b.slots[(va - pool) / size]? with
      | some x => if x.st = .resident ∧ (va - pool) % size / 65536 < s.handlePages x.handle then
          some (some { asid := asid, va := va / 65536 * 65536, log := 16, pa := va / 65536 * 65536 - residentBase, flags := 0x27#8 })
        else some none
      | none => some none

/-- A cached translation, the mapping of a resident handle, or a walk. The result says what to cache in the die. -/
def lookup (s : State) (d : DieId) (first : List TlbEntry) (asid : BitVec 16) (root : Word) (va : Nat) :
    Except Trap Walked :=
  match first.find? (·.hits asid va) with
  | some e => .ok { leaf := e }
  | none => match (s.dies.get d).l2tlb.find? (·.hits asid va) with
    | some e => .ok { leaf := e }
    | none => match s.residentLeaf asid va with
      | some (some e) => .ok { leaf := e }
      | some none => .error { cause := Cause.translation }
      | none => walkFrom s d asid va tableLevels root.toNat

/-- Whether a leaf grants the access (R414). -/
def grants (e : TlbEntry) (user : Bool) (k : Access) : Bool :=
  let b := fun i => e.flags.getLsbD i
  (!user || b 5) && match k with
    | .fetch => b 4
    | .read => b 2
    | .write => b 3
    | .atomic => b 2 && b 3

/-- Physical address under a translation. -/
def TlbEntry.phys (e : TlbEntry) (va : Nat) : Nat := e.pa + va % 2 ^ e.log

/-- A new entry before the others, within the capacity. -/
def cachePut (l : List TlbEntry) (e : TlbEntry) (cap : Nat) : List TlbEntry :=
  if l.contains e then l else (e :: l).take cap

/-- What a walk found, cached in the die (R415). -/
def Die.learn (x : Die) (w : Walked) : Die :=
  { x with l2tlb := cachePut x.l2tlb w.leaf 32768, walkc := (w.nodes ++ x.walkc).take 512 }

/-- A piece of an access: physical address, offset in the access, length, virtual address. -/
structure Seg where
  pa  : Nat := 0
  off : Nat := 0
  len : Nat := 0
  va  : Nat := 0
  deriving DecidableEq, Repr, Inhabited

/-- Who translates: address space, root, mode (R414). -/
structure Space where
  asid : BitVec 16 := 0
  root : Word := 0
  user : Bool := true
  deriving DecidableEq, Repr, Inhabited

/-- A task's space. -/
def Frame.space (f : Frame) : Space := { asid := f.sys.asid, root := f.sys.ptroot, user := !f.id.mode }

/-- A 57-bit address from a word. -/
def va57 (a : Word) : Nat := a.toNat % 2 ^ 57

/-- Whether the bytes a .. a+n-1 of the 57-bit space stay in one half of it. That an access which runs past the end of the lower or of the upper
half raises the address fault, and does not wrap, is the model's choice: the manual checks the start alone (R142, log 72). -/
def inRange57 (a n : Nat) : Bool :=
  if a < 2 ^ 56 then decide (a + n ≤ 2 ^ 56) else decide (a + n ≤ 2 ^ 57)

/-- The pieces of [va, va+n), one per 64 KiB page touched, each translated and granted; the first failure with its
address (R142, R413, R414). -/
def xlate (s : State) (d : DieId) (first : List TlbEntry) (sp : Space) (k : Access) (off : Nat) :
    Nat → Nat → Nat → Except Trap (List (Seg × Walked))
  | 0, _, _ => .ok []
  | _ + 1, _, 0 => .ok []
  | fuel + 1, va, n =>
    let len := min n (0x10000 - va % 0x10000)
    match lookup s d first sp.asid sp.root va with
    | .error e => .error { e with evaddr := BitVec.ofNat 64 va }
    | .ok w =>
      if grants w.leaf sp.user k then
        (xlate s d first sp k (off + len) fuel (va + len) (n - len)).map fun l =>
          ({ pa := w.leaf.phys va, off := off, len := len, va := va }, w) :: l
      else .error { cause := Cause.permission, evaddr := BitVec.ofNat 64 va }

/-! ## Local-store ownership (R118, R313, R314, R479) -/

/-- The tile of a local-store offset. -/
def tileOf (off : Nat) : Nat := off / 4096
/-- Role of a tile's bank (R314). -/
def SysRegs.role (x : SysRegs) (tile : Nat) : Nat := bits x.bankrole (2 * (tile / 16)) 2
/-- Owner bit of a tile (R34). -/
def SysRegs.ownBit (x : SysRegs) (tile : Nat) : Bool :=
  if h : tile / 64 < 8 then (x.own.get ⟨tile / 64, h⟩).getLsbD (tile % 64) else false
/-- Whether the core's classed accesses may touch the tile. -/
def SysRegs.coreMay (x : SysRegs) (tile : Nat) : Bool := x.role tile == 0 && !x.ownBit tile
/-- Whether engines may touch the tile. -/
def SysRegs.engineMay (x : SysRegs) (tile : Nat) : Bool :=
  x.role tile == 2 || (x.role tile == 0 && x.ownBit tile)
/-- The tiles of a byte range of the local store. -/
def tilesOf (off n : Nat) : List Nat := (List.range (tileOf (off + n - 1) + 1 - tileOf off)).map (tileOf off + ·)
/-- Tiles marked as touched (R412). -/
def SysRegs.touch (x : SysRegs) (l : List Nat) : SysRegs :=
  { x with touched := l.foldl (fun m t => m ||| (1#512 <<< t)) x.touched }

/-- A frame that holds a task resident on the core. -/
def Frame.resident (f : Frame) : Bool := f.id.valid
/-- The resident slots of a core. -/
def allSlots : List (Fin 4) := [0, 1, 2, 3]
/-- The governing task's slot of a tile: the lowest resident slot that has touched it (R479). -/
def Core.governs (x : Core) (tile : Nat) : Option (Fin 4) :=
  allSlots.find? fun k => (x.frame k).resident && (x.frame k).sys.touched.getLsbD tile

/-- Where a piece of an access goes. -/
inductive Place where
  | mem | ownLs (off : Nat) | window (t : CoreId) (off : Nat) | control
  deriving DecidableEq, Repr, Inhabited

/-- The place of a physical address, for a core. -/
def placeOf (c : CoreId) (pa : Nat) : Place :=
  match physClass pa with
  | .window =>
    let t := winCore pa
    let o := winOff pa
    if t = c ∧ 0x400000 ≤ o ∧ o < 0x600000 then .ownLs (o - 0x400000) else .window t o
  | .control => .control
  | _ => .mem

/-! ## Checks of a classed access (R142) -/

/-- The pieces of a classed access of the running task after the address, translation, lent and owner checks, in the
order of R142. `ctl` says whether the form may reach a control space (R480). -/
def checkAccess (s : State) (va n : Nat) (k : Access) (ctl : Bool) : Except Stop (List (Seg × Walked)) :=
  if !inRange57 va n then trapAt Cause.address va else
  match xlate s (dieOf s.cur) s.here.l1tlb s.fr.space k 0 (n / 0x10000 + 2) va n with
  | .error t => .error (.trap t)
  | .ok l =>
    let bad (p : Seg → Bool) : Option Seg := (l.find? fun x => p x.1).map (·.1)
    match bad (fun g => placeOf s.cur g.pa == .control && !ctl) with
    | some g => trapAt Cause.address g.va
    | none =>
    match bad (fun g => match placeOf s.cur g.pa with
        | .ownLs _ => s.here.lentTo.isSome
        | .window t o => decide (o < 0x600000) && (s.core t).lentTo.isSome
        | _ => false) with
    | some g => trapAt Cause.windowLent g.va
    | none =>
    match bad (fun g => match placeOf s.cur g.pa with
        | .ownLs o => (tilesOf o g.len).any fun t => !s.fr.sys.coreMay t
        | _ => false) with
    | some g => trapAt Cause.owner g.va
    | none => .ok l

/-- The tiles of the core's own local store that a piece covers. -/
def ownTiles (c : CoreId) (g : Seg) : List Nat :=
  match placeOf c g.pa with
  | .ownLs o => tilesOf o g.len
  | _ => []

/-- The reads of a walk arrive at their home slices. -/
def State.arriveWalk (s : State) (w : Walked) : State := w.reads.foldl (fun (s : State) a => s.arrive a 8) s
/-- The translations of an access cached, and its local-store tiles marked touched (R412, R415). -/
def State.learn (w : State) (l : List (Seg × Walked)) : State :=
  let w := l.foldl (fun (s : State) x => s.arriveWalk x.2) w
  let w := w.updDie (dieOf w.cur) fun d => l.foldl (fun d x => d.learn x.2) d
  let w := w.updCore w.cur fun x => { x with l1tlb := l.foldl (fun t x => cachePut t x.2.leaf 1024) x.l1tlb }
  w.updFr fun f => { f with sys := l.foldl (fun y x => y.touch (ownTiles w.cur x.1)) f.sys }

end Sys2Proof.Machine
end

