-- ==== Sys2Proof/Machine/Operands.lean ====
section
/-! DEFINITION. Every operand form: scalar fields, view, operand-file and special operands with their header bits,
immediates, effective addresses, streams (R15-R22, R45-R55, R66, R70, R180). -/

namespace Sys2Proof.Machine

open Sys2Proof

/-! ## Header bits (R43-R47, R54) -/

/-- Extension of a field: j = 0 DST, 1 SA, 2 SB (R45). -/
def SlotCtx.ext (c : SlotCtx) (j : Nat) : Nat :=
  match c.hdr with
  | .ext b => if c.slot.val = 0 then 0 else field b.toNat (20 - 6 * (c.slot.val - 1) - 2 * j) 2
  | _ => 0

/-- HX when an HF = 01 header targets the slot (R46). -/
def SlotCtx.hx (c : SlotCtx) : Option Nat :=
  match c.hdr with
  | .hx t b => if t.toNat = c.slot.val then some b.toNat else none
  | _ => none

/-- HI of an HF = 10 header (R47). -/
def SlotCtx.hi (c : SlotCtx) : Option Nat :=
  match c.hdr with
  | .hi b => some b.toNat
  | _ => none

/-- The immediate of an S-class form (R54). -/
def immS (c : SlotCtx) (i : BitVec 6) : Word :=
  match c.hx with
  | some h => sext (h * 64 + i.toNat) 26
  | none => sext i.toNat 6

/-- The immediate of an L-class form, as a signed count (R54). -/
def immL (c : SlotCtx) (i : BitVec 12) : Int :=
  match c.hx with
  | some h => toInt 32 (h * 4096 + i.toNat)
  | none => toInt 12 i.toNat

/-- The program bundle and slot of a nest's operation as one number (R226). -/
def SlotCtx.nestTag (c : SlotCtx) : Option Nat := c.nest.map fun i => 4 * i + c.slot.val

/-! ## Legality that depends on the header -/

/-- Address mode of a memory form: 11 is illegal, and mode 10 needs HX[19:6] zero (R46, R55). Modes 01 and 10 without
their header are judged with the bundle (R42). -/
def modeOk (c : SlotCtx) (m : BitVec 2) : Bool :=
  match m.toNat with
  | 0 => true
  | 1 => c.hi.isSome
  | 2 => match c.hx with
    | some h => h < 64 && decide (h ≤ 60)
    | none => false
  | _ => false

/-! ## Scalar reads (R20, R51) -/

/-- A scalar operand field's value. -/
def State.rdS (s : State) (f : BitVec 6) : Word :=
  let i := f.toNat
  let r := s.fr.r
  if h : i < 48 then (if i = 0 then 0 else r.s.get ⟨i, h⟩)
  else if h : i < 52 then r.lat.bs.get ⟨i - 48, by omega⟩
  else if h : i < 58 then BitVec.ofNat 64 (s.fr.ctl.lv.get ⟨i - 52, by omega⟩).lidx
  else if i = 58 then BitVec.ofNat 64 s.cur.val
  else if i = 59 then s.fr.id.task.setWidth 64
  else if i = 60 then s.fr.ctl.cycleAs.getD (BitVec.ofNat 64 (s.cyc s.cur))
  else 0

/-- A DATA_POISON trap for a poisoned register or entry. -/
def poisonedBy {α : Type} (src : Nat) : Except Stop α := .error (.trap { cause := Cause.dataPoison, src := src })

/-- A scalar source at issue: a poisoned register raises DATA_POISON (R420). -/
def getS (s : State) (f : BitVec 6) : Except Stop Word :=
  match s.fr.r.sPoison.find? (·.1 == f.toNat) with
  | some q => poisonedBy q.2
  | none => .ok (s.rdS f)

/-- Whether a load or atomic still targets a scalar register (R141). One whose write a higher slot of its bundle has cancelled (R65) still
counts until it lands: the manual does not say, and that is the model's choice (log 64). -/
def Frame.pendingS (f : Frame) (i : Nat) : Bool :=
  i != 0 && (f.loads.any (fun l => l.dest == .s i) || f.atoms.any (fun a => a.dest == i))

/-! ## Vector, matrix and copy operands (R48-R50) -/

/-- A decoded operand. -/
inductive Opd where
  | view (v : Fin 8) (i : Nat) | ofe (n : Fin 16) | special (i : Nat)
  deriving DecidableEq, Repr, Inhabited

/-- A field decoded by R48; `v0` and `v1` are the bindings of codes 00 and 01 (R49). -/
def opdOf (v0 v1 : Fin 8) (f : BitVec 6) (ext : Nat) : Opd :=
  match f.toNat / 16 with
  | 0 => .view v0 (ext * 16 + f.toNat % 16)
  | 1 => .view v1 (ext * 16 + f.toNat % 16)
  | 2 => .ofe (Fin.ofNat 16 (f.toNat % 16))
  | _ => .special (f.toNat % 16)

/-- A V field: j = 0 DST, 1 SA, 2 SB. -/
def vOpd (c : SlotCtx) (j : Nat) (f : BitVec 6) : Opd := opdOf 0 1 f (c.ext j)
/-- An M source field. -/
def tOpd (c : SlotCtx) (j : Nat) (f : BitVec 6) : Opd := opdOf 2 3 f (c.ext j)
/-- An M destination field. -/
def mOpd (c : SlotCtx) (j : Nat) (f : BitVec 6) : Opd := opdOf 4 5 f (c.ext j)
/-- A C data field. -/
def xOpd (c : SlotCtx) (j : Nat) (f : BitVec 6) : Opd := opdOf 6 7 f (c.ext j)

/-! ## View registers (R15-R19) -/

def vwBase (v : Word) : Nat := bits v 0 13
def vwStride (v : Word) : Nat := bits v 13 12
def vwShape (v : Word) : Nat := bits v 25 3
def vwEtype (v : Word) : Nat := bits v 28 4
def vwRot (v : Word) : Nat := bits v 32 3
def vwRing (v : Word) : Nat := bits v 35 8
def vwLend (v : Word) : Bool := bit v 43

/-- SHAPE and ETYPE pairs (R16). -/
def shapeEtypeOk (shape etype : Nat) : Bool :=
  match shape with
  | 0 => etype ≤ 10
  | 1 => [5, 8, 9, 10].contains etype
  | 2 => [1, 2, 4, 7].contains etype
  | 3 => [0, 3].contains etype
  | 4 => etype == 11
  | _ => false

/-- A view image that a view register may hold (R16). -/
def viewOk (v : Word) : Bool :=
  bits v 44 20 == 0 && shapeEtypeOk (vwShape v) (vwEtype v) && vwRot v != 7
    && !(vwLend v && (vwRot v != 0 || vwRing v == 0))

/-- Granules of an element by SHAPE (R17). -/
def shapeGranules (shape : Nat) : Nat := [1, 32, 64, 128, 17].getD shape 1

/-- An element of a view: in the task's own space or its lent windows, offset, length, SHAPE and ETYPE. -/
structure Elem where
  lent  : Bool := false
  off   : Nat := 0
  len   : Nat := 512
  shape : Nat := 0
  etype : Nat := 0
  deriving DecidableEq, Repr, Inhabited

/-- Element i of a view image, with the rotation counts of the levels (R17, R19). -/
def elemOf (f : Frame) (vw : Word) (rotc : Nat → Nat) (i : Nat) : Except Cause Elem :=
  let len := shapeGranules (vwShape vw) * 512
  if vwLend vw ∧ vwRing vw ≤ i then
    let off := vwStride vw * (i - vwRing vw) * 512
    if off + len ≤ f.id.lent.length * lentSize ∧ off / lentSize = (off + len - 1) / lentSize then
      .ok { lent := true, off := off, len := len, shape := vwShape vw, etype := vwEtype vw }
    else .error Cause.lendBound
  else
    let j := i + (if vwRot vw = 0 then 0 else rotc (vwRot vw - 1))
    let j := if vwRing vw = 0 then j else j % vwRing vw
    let off := (vwBase vw + vwStride vw * j) * 512
    if off + len ≤ f.id.foot * 512 then .ok { off := off, len := len, shape := vwShape vw, etype := vwEtype vw }
    else .error Cause.regBound

/-- ROTC of a loop level (R18). -/
def Frame.rotc (f : Frame) (v : Nat) : Nat := if h : v < 6 then (f.ctl.lv.get ⟨v, h⟩).lrotc.toNat else 0

/-- Element i of view v now. -/
def Frame.elem (f : Frame) (v : Fin 8) (i : Nat) : Except Cause Elem := elemOf f (f.r.vw.get v) f.rotc i

/-- Physical bytes of an element. -/
def State.elemPa (s : State) (e : Elem) : Nat :=
  if e.lent then lentPa s.fr e.off else s.rsPa s.cur s.here.run e.off

/-- Whether an element's lent window is still being zeroed (R304). -/
def State.lentZeroing (s : State) (e : Elem) : Bool :=
  e.lent && (s.core (s.fr.id.lent.getD (e.off / lentSize) 0)).zeroing

/-- A resolved element, held while its lent window is being zeroed (R304), or its trap. -/
def getElem (s : State) (v : Fin 8) (i : Nat) : Except Stop Elem :=
  match s.fr.elem v i with
  | .ok e => if s.lentZeroing e then holdNow else .ok e
  | .error c => trapOf c

/-- The physical span of a view operand, when it resolves. -/
def State.spanOf (s : State) (o : Opd) : Option Span :=
  match o with
  | .view v i => match s.fr.elem v i with
    | .ok e => some { pa := s.elemPa e, len := e.len }
    | .error _ => none
  | _ => none

/-- Where a result for an element goes. -/
def Elem.dest (e : Elem) : Dest := if e.lent then .lent e.off else .rs e.off

/-! ## Streams (R21, R66, R245, R246) -/

/-- An operand-file entry's stream. -/
def Frame.stream (f : Frame) (n : Fin 16) : Stream := f.r.streams.get n
/-- The state with a stream changed. -/
def State.updStream (w : State) (n : Fin 16) (f : Stream → Stream) : State :=
  w.updRegs fun r => { r with streams := r.streams.set n.val (f (r.streams.get n)) n.isLt }

/-- The fault of a stream element when its slot would consume it (R246). -/
def streamTrap {α : Type} (n : Fin 16) (t : Trap) : Except Stop α :=
  .error (.trap { t with eeng := BitVec.ofNat 64 (n.val * 65536 + 5) })

/-- Fill reads start for the places of a read stream's queue that no element and no fill under way will take (R246): `m` at most. -/
def State.refill (w : State) (n : Fin 16) : Nat → State
  | 0 => w
  | m + 1 =>
    let q := w.fr.stream n
    if q.mode = 1 ∧ !q.stopped ∧ q.fills < q.left ∧ q.queue.length + q.fills < q.depth then
      ((w.updStream n fun q => { q with fills := q.fills + 1 }).postFree w.cur 8 .streamFillArrive
        { k := w.here.run, u := n.val, id := q.gen, tid := w.fr.id.task }).refill n m
    else w

/-- Once a bundle has issued, the elements that it consumed and did not write back are filled again (R66, R246). -/
def State.refillStreams (w : State) : State :=
  if w.fr.r.streams.toList.all (·.mode != 1) then w else
  (List.range 16).foldl (fun w n => w.refill (Fin.ofNat 16 n) 16) w

/-- A read of a read stream consumes its head (R66): empty holds, an exhausted stream, and a head that a lower slot of
this bundle wrote, raise the stream-use fault; a head whose result is in flight holds. -/
def popStream (w : State) (n : Fin 16) : Except Stop (Vec × State) :=
  let q := w.fr.stream n
  match q.queue with
  | [] => if q.left = 0 then trapOf Cause.streamUse
          else holdSw
  | e :: es =>
    match e.fault with
    | some t => streamTrap n t
    | none =>
      if e.tag ≠ 0 then
        if (e.tag - 1) / 4 = w.cyc w.cur then trapOf Cause.streamUse else holdNow
      else if w.cyc w.cur < e.ready then holdNow
      else .ok (e.data, w.updStream n fun q => { q with queue := es })

/-- An entry's binding changes (R247): the pushed elements of a write stream drain on, and a result on its way to the head of a read stream
becomes one of the plain entry. -/
def State.rebindOne (w : State) (n : Fin 16) (q : Stream) : State :=
  let old := w.fr.stream n
  let w := w.updStream n fun _ => q
  match old.mode, old.queue with
  | 1, x :: _ =>
    let aim (d : Dest) : Dest := if x.tag ≠ 0 ∧ d = .ofHead n.val x.tag then .ofe n.val else d
    w.updFr fun f => { f with infl := f.infl.map fun r => { r with dest := aim r.dest }, loads := f.loads.map fun l => { l with dest := aim l.dest } }
  | 2, _ :: _ => if old.stopped then w else
    w.updCore w.cur fun x => { x with outq := x.outq ++ [{ k := w.here.run, tid := w.fr.id.task, n := n, q := old }] }
  | _, _ => w

/-- The bindings that a bundle changes stand from the next bundle on: no slot of it sees them (R64). -/
def State.rebound (w : State) : State :=
  if w.fr.ctl.rebind.isEmpty then w else
  w.fr.ctl.rebind.foldl (fun w x => w.rebindOne x.1 x.2) (w.updCtl fun c => { c with rebind := [] })

/-! ## Reading sources (R50, R66, R180) -/

/-- Entries consumed by the instruction so far, with their elements. -/
abbrev Seen := List (Fin 16 × Vec)

/-- A value's low b bytes in every element of b bytes (R50). -/
def broadcast (b x : Nat) : Vec := vecOf (8 * b) fun _ => x

/-- HI as a source: sign-extended to 32 bits, or the top bits of an f32, cut to the element (R50). -/
def hiValue (hi b : Nat) (isF32 : Bool) : Vec :=
  if isF32 then broadcast 4 (hi * 1024) else broadcast b (sext hi 22).toNat

/-- A V source read for elements of b bytes (R180). The manual orders the faults of one slot by nothing but the slot (R62): that operands are
judged in the order SA, SB, DST, and a view's bound before its shape and its shape before poison, is the model's choice (log 65). -/
def readV (c : SlotCtx) (s0 : State) (o : Opd) (b : Nat) (isF32 : Bool) (x : Seen × State) :
    Except Stop (Vec × Seen × State) :=
  match o with
  | .view v i => do
    let e ← getElem s0 v i
    let _ ← require (e.shape == 0) Cause.illegalInstruction
    let pa := s0.elemPa e
    if s0.poisoned pa 512 then .error (.trap (s0.poisonTrap pa 512))
    else .ok (BitVec.ofNat 4096 (s0.homeRead pa 512), x)
  | .ofe n =>
    let q := s0.fr.stream n
    match q.mode with
    | 0 => match s0.fr.r.oPoison.find? (·.1 == n.val) with
      | some q => poisonedBy q.2
      | none => .ok (s0.fr.r.ofe.get n, x)
    | 1 => match x.1.find? (fun p => p.1 == n) with
      | some p => .ok (p.2, x)
      | none => match popStream x.2 n with
        | .error e => .error e
        | .ok (v, w) => .ok (v, (n, v) :: x.1, w)
    | _ => trapOf Cause.streamUse
  | .special i =>
    if h : i < 4 then .ok (broadcast b (s0.fr.r.lat.bs.get ⟨i, h⟩).toNat, x)
    else if h : i < 12 then .ok (s0.fr.r.lat.bv.get ⟨i - 4, by omega⟩, x)
    else if i = 12 then (match s0.fr.r.bpPoison with
      | some q => poisonedBy q
      | none => .ok (s0.fr.r.bp, x))
    else if i = 13 then .ok (0, x)
    else if i = 14 then .ok (hiValue (c.hi.getD 0) b isF32, x)
    else trapOf Cause.illegalInstruction

/-! ## Writing destinations (R53, R65, R66) -/

/-- The unit tag of a vector slot (R22, R41). -/
def SlotCtx.vUnit (c : SlotCtx) : Fin 3 := if c.unit = 0 then 1 else 2

/-- An instruction that has consumed a read stream's head writes the stream: its result becomes the new head (R66). -/
def newHead (seen : Seen) (n : Fin 16) (tag : Nat) (w : State) : Except Stop State :=
  match seen.find? (fun p => p.1 == n) with
  | none => trapOf Cause.streamUse
  | some p => .ok (w.updStream n fun q => { q with queue := { data := p.2, tag := tag } :: q.queue })

/-- A 512-byte result for a data destination, `none` for NW = 1: view element, plain entry, the new head of a read
stream consumed by this instruction, or a push into a write stream (R66). -/
def writeV (c : SlotCtx) (s0 : State) (o : Option Opd) (seen : Seen) (lat : Nat) (ben : Mask) (data : Vec) (unit : Option (Fin 3))
    (w : State) : Except Stop State :=
  let tag := seqOf (w.cyc w.cur) c.slot + 1
  match o with
  | none => .ok (w.result c.slot lat .none 0 data unit)
  | some (.view v i) => do
    let e ← getElem s0 v i
    let _ ← require (e.shape == 0) Cause.illegalInstruction
    .ok (w.result c.slot lat e.dest ben data unit)
  | some (.ofe n) =>
    let q := w.fr.stream n
    match (s0.fr.stream n).mode with
    | 0 => .ok (w.result c.slot lat (.ofe n.val) ben data unit)
    | 1 => do
      let w ← newHead seen n tag w
      .ok (w.result c.slot lat (.ofHead n.val tag) ben data unit)
    | _ =>
      if q.left = 0 then trapOf Cause.streamUse
      else if q.depth ≤ q.queue.length ∨ q.stopped then
        holdSw
      else
        let w := w.updStream n fun q => { q with queue := q.queue ++ [{ tag := tag, root := s0.fr.sys.ptroot, asid := s0.fr.sys.asid }], left := q.left - 1 }
        let w := w.result c.slot lat (.ofHead n.val tag) ben data unit
        .ok (w.postFree w.cur (lat + 1) .streamDrainWrite { k := w.here.run, u := n.val, id := q.gen, tid := w.fr.id.task })
  | some (.special i) =>
    if i = 12 then .ok (w.result c.slot lat .bp ben data unit) else trapOf Cause.illegalInstruction

/-! ## Effective addresses (R55) -/

/-- ea() of a memory form, or the address fault. -/
def effAddr (c : SlotCtx) (s : State) (a : BitVec 6) (m : BitVec 2) : Except Stop Word := do
  let base ← getS s a
  let ea ← match m.toNat with
    | 0 => pure base
    | 1 => pure (base + sext (c.hi.getD 0) 22)
    | _ => do
      let x ← getS s (BitVec.ofNat 6 ((c.hx.getD 0) % 64))
      pure (base + x)
  if canonical ea then .ok ea else trapAt Cause.address ea.toNat

/-- The scalar fields of a memory form. -/
def memRegs (c : SlotCtx) (a : BitVec 6) (m : BitVec 2) : List (BitVec 6) :=
  if m.toNat = 2 then [a, BitVec.ofNat 6 ((c.hx.getD 0) % 64)] else [a]

end Sys2Proof.Machine
end

