-- ==== Sys2Proof/Machine/Flags.lean ====
section
/-! DEFINITION. Predicates, masks and the compare conditions: every flag the machine computes (R24-R26, R139, R149,
R155, R156, R175, R184, R273). -/

namespace Sys2Proof.Machine

open Sys2Proof

/-- The ten scalar conditions, eq ne lt le gt ge ltn len gtn gen (R56, R139). -/
def condS (cc : Nat) (a b : Word) : Bool :=
  match cc with
  | 0 => a == b
  | 1 => a != b
  | 2 => decide (a.toInt < b.toInt)
  | 3 => decide (a.toInt ≤ b.toInt)
  | 4 => decide (b.toInt < a.toInt)
  | 5 => decide (b.toInt ≤ a.toInt)
  | 6 => decide (a.toNat < b.toNat)
  | 7 => decide (a.toNat ≤ b.toNat)
  | 8 => decide (b.toNat < a.toNat)
  | _ => decide (b.toNat ≤ a.toNat)

/-- A predicate destination: P0 never, P4-P7 not while they are driven (R24). -/
def Frame.predWritable (f : Frame) (d : Nat) : Bool := d != 0 && (d < 4 || f.ctl.driver.isNone)

/-- The mask-stack entries that are visible: those above the handler's floor (R273). -/
def Frame.visible (f : Frame) : List Mask := f.r.mstack.take (f.r.mstack.length - f.mfloor)

/-- The active mask (R25, R273). -/
def Frame.active (f : Frame) : Mask :=
  match f.visible with
  | m :: _ => m
  | [] => allBytes

/-- The low `n` bits of a mask. -/
def lowMask (m : Mask) (n : Nat) : Nat := m.toNat % 2 ^ n

/-- Elements of a width code: 0 b8, 1 b16, 2 b32 (R149, R156). -/
def widthElems (w : Nat) : Nat := 512 >>> w

/-- Byte enables of the active mask for elements of b bytes. -/
def Frame.enables (f : Frame) (b : Nat) : Mask := byteEnables f.active b

/-- A predicate result: latency 1 (R139, R155). -/
def predResult (c : SlotCtx) (d : BitVec 3) (v : Bool) (w : State) : State :=
  w.result c.slot 1 (.pred d.toNat) 1 (if v then 1 else 0) none

/-- A mask result of a unit under bit enables. -/
def maskResult (c : SlotCtx) (lat : Nat) (d : BitVec 3) (en v : Mask) (w : State) (unit : Nat := 0) : State :=
  w.result c.slot lat (.mask d.toNat) en (v.setWidth 4096) none unit

end Sys2Proof.Machine
end

