-- ==== Sys2Proof/Machine/Issue.lean ====
section
/-! DEFINITION. Issuing the operations of a bundle: the order of checks, holds, permits, the energy window, commit,
back edges (R44, R62-R66, R141, R160, R204, R276-R285). -/

namespace Sys2Proof.Machine

open Sys2Proof

/-- Register-space or window bytes that an operation touches (R204, R277): `bank` when a scalar or vector read costs
a bank read, `exempt` for an accumulator that is forwarded (R203). -/
structure Use where
  pa    : Nat := 0
  len   : Nat := 512
  write : Bool := false
  bank  : Bool := false
  exempt : Bool := false
  deriving DecidableEq, Repr, Inhabited

/-- The meaning of an operation within its bundle. `legal` judges the bits (R62 step 3), `priv` asks system mode
(step 4), `sregs`, `ofs`, `uses` name the registers and bytes it touches (R141, R204, R229), the four draws are its
permits (R282), `slow` cycles it holds before issue, and `sem` does the issue-time checks and the effect: sources
from the state before the bundle, effects on the working state (R64). -/
structure Op where
  legal : SlotCtx → Bool := fun _ => true
  priv  : Bool := false
  sregs : SlotCtx → List (BitVec 6) := fun _ => []
  ofs   : List Opd := []
  uses  : SlotCtx → State → List Use := fun _ _ => []
  matrix : Bool := false
  mx    : Nat := 0
  vec   : Nat := 0
  sfu   : Nat := 0
  memp  : Nat := 0
  slow  : Nat := 0
  sem   : SlotCtx → State → State → Except Stop State := fun _ _ w => .ok w

/-- An operation in its slot. -/
structure SlotOp where
  ctx  : SlotCtx
  pred : BitVec 3
  cls  : Nat
  op   : Op

/-- A view operand's bytes as a use. -/
def useOf (s : State) (o : Opd) (write bank : Bool) : List Use :=
  match s.spanOf o with
  | some sp => [{ pa := sp.pa, len := sp.len, write := write, bank := bank }]
  | none => []

/-! ## Pending bytes (R204, R229, R253) -/

/-- Spans of a tile command or matrix operation. -/
def MOp.reads (o : MOp) : List Span := [o.a, o.b].filter (·.len != 0)

/-- The bytes that a core's matrix work, tile fetch, snapshot commands and loads are still to write. -/
def State.pendingWrites (s : State) (c : CoreId) : List Span :=
  let x := s.core c
  let mat := (x.mrun.toList ++ x.mwait.toList).map (·.dst)
  let done := (x.mdone.filter fun d => s.cyc c < d.2).map (·.1)
  let tiles := (x.tiles.filter fun t => !t.store).map (·.elem)
  let snaps := (s.tree.cmds.filter fun q => q.c == c && !q.save).flatMap (·.spans)
  let loads := allSlots.flatMap fun k => (x.frame k).loads.flatMap fun l => match l.dest with
    | .rs off => [{ pa := s.rsPa c k off, len := 512 }]
    | .lent off => [{ pa := lentPa (x.frame k) off, len := 512 }]
    | _ => []
  mat ++ done ++ tiles ++ snaps ++ loads

/-- The bytes that matrix work, tile stores and snapshot saves are still to read. -/
def State.pendingReads (s : State) (c : CoreId) : List Span :=
  let x := s.core c
  (x.mrun.toList ++ x.mwait.toList).flatMap (·.reads) ++ (x.tiles.filter (·.store)).map (·.elem)
    ++ (s.tree.cmds.filter fun q => q.c == c && q.save).flatMap (·.spans)

/-- Whether a use must wait (R204). -/
def Use.waits (u : Use) (pw pr : List Span) : Bool :=
  !u.exempt && (pw.any (fun p => meets u.pa u.len p.pa p.len) || (u.write && pr.any fun p => meets u.pa u.len p.pa p.len))

/-- Whether pending operands hold the bundle (R141, R204, R229), or an M or C slot the matrix work of a task that has
been switched out (R227, R290). -/
def operandsPending (s : State) (live : List SlotOp) : Bool :=
  let f := s.fr
  let pw := s.pendingWrites s.cur
  let pr := s.pendingReads s.cur
  let x := s.here
  let others := (x.mrun.toList ++ x.mwait.toList).any (·.slot != x.run) || x.tiles.any (·.slot != x.run)
  live.any fun o =>
    (others && (o.cls == 2 || o.cls == 3)) || (o.op.sregs o.ctx).any (fun r => f.pendingS r.toNat)
      || o.op.ofs.any (fun d => match d with
          | .ofe n => f.loads.any fun l => l.dest == .ofe n.val
          | _ => false)
      || (o.op.uses o.ctx s).any (fun u => u.waits pw pr)

/-- A bundle that breaks R204 within itself: a slot other than the M slot touches bytes that the M slot writes, or
writes bytes that it reads. -/
def selfConflict (s : State) (live : List SlotOp) : Option SlotOp :=
  live.find? fun m => m.op.matrix && (live.any fun o => !o.op.matrix && (o.op.uses o.ctx s).any fun u =>
    (m.op.uses m.ctx s).any fun v => meets u.pa u.len v.pa v.len && (u.write || v.write))

/-- The slots of a bundle that breaks R204 within itself: its M slot raises the matrix-operand fault, after its own checks of issue and in slot
order (R62). The manual says only "the failing slot"; that it is the M slot, and not the slot that touches its bytes, is the model's choice
(log 21). -/
def judged (s : State) (live : List SlotOp) : List SlotOp :=
  match selfConflict s live with
  | none => live
  | some m => live.map fun o => if o.ctx.slot = m.ctx.slot then
      { o with op := { o.op with sem := fun c s0 w => do
          let _ ← o.op.sem c s0 w
          trapOf Cause.matrixOperand } } else o

/-! ## Bank reads (R14, R29, R277) -/

/-- Distinct elements. -/
def dedup (l : List Nat) : List Nat := l.foldl (fun acc x => if acc.contains x then acc else acc ++ [x]) []

/-- The granules that the bundle's scalar and vector slots read. A granule of a lent window stands in a neighbour's banks; that its read is grouped
with the task's own, in the issuing core's bank of the same number, is the model's choice (R14, R277, log 73). -/
def bankGranules (s : State) (live : List SlotOp) : List Nat :=
  dedup (live.flatMap fun o => ((o.op.uses o.ctx s).filter (·.bank)).map fun u => u.pa / 512)

/-- The banks that may serve a granule's read: its own, or its mirror copy's; one that an aged engine read has taken serves no mirrored granule
whose other copy is free (R14, R29, R276). -/
def bankChoice (s : State) (aged : List Nat) (g : Nat) : Nat × Option Nat :=
  let lo := s.rsPa s.cur s.here.run 0 / 512
  if g < lo ∨ lo + s.fr.id.foot ≤ g then (g % 16, none) else
  match s.fr.sys.partner (g - lo) with
  | none => (g % 16, none)
  | some p => if aged.contains (g % 16) then (p, none) else if aged.contains p then (g % 16, none) else (g % 16, some p)

/-- Reads of the fullest bank. -/
def fullest (l : List Nat) : Nat := (l.map fun b => (l.filter (· == b)).length).foldl max 0

/-- The banks that serve the reads: each mirrored granule is served by the copy whose bank leaves the bundle the fewest cycles (R14, R29). -/
def bankLoads : List (Nat × Option Nat) → List Nat → List Nat
  | [], acc => acc
  | (b, none) :: l, acc => bankLoads l (b :: acc)
  | (b, some p) :: l, acc =>
    let x := bankLoads l (b :: acc)
    let y := bankLoads l (p :: acc)
    if fullest y < fullest x then y else x

/-- The ports that the bundle's reads take in this cycle. -/
def State.takePorts (w : State) (l : List Nat) : State := w.usePorts w.cur (l.map fun b => (w.cyc w.cur, b, .read))

/-! ## The matrix unit's granules (R203, R208, R278, R279) -/

/-- Whether a row is live (R208). -/
def MOp.rowLive (o : MOp) (m : Nat) : Bool :=
  match o.live with
  | some l => l.getLsbD m
  | none => true

/-- Granules of a span. -/
def Span.granules (p : Span) : List Nat := (List.range (p.len / 512)).map (p.pa / 512 + ·)

/-- The live granules of an operand: of an accumulator those of live rows, of a tile those that hold a live row's bytes. -/
def MOp.liveGranules (o : MOp) (p : Span) : List Nat :=
  let row := if p.len = 17 * 512 then 64 else p.len / 128
  (List.range (p.len / 512)).filterMap fun i =>
    if (List.range 128).any fun m => o.rowLive m && decide (i * 512 < row * m + row) && decide (row * m < i * 512 + 512) || i = 16 ∧ p.len = 17 * 512
    then some (p.pa / 512 + i) else none

/-- The granules that an operation reads and those that it writes (R279): dead rows are neither, a forwarded accumulator is not read. -/
def MOp.granules (o : MOp) : List Nat × List Nat :=
  let acc := o.liveGranules o.dst
  match o.kind with
  | .mma mode _ => (o.liveGranules o.a ++ o.b.granules ++ (if mode = 1 ∨ o.fwd then [] else acc), acc)
  | .mzero => ([], o.dst.granules)
  | .mscale => (o.a.granules ++ o.b.granules ++ acc, acc)
  | _ => (o.a.granules, o.dst.granules)

/-- The accesses of cycle `pos` of an occupancy: access i of n falls in cycle i x occ / n (log 50). -/
def spreadAt (l : List Nat) (occ pos : Nat) : List Nat :=
  let n := l.length
  let lo := ceilDiv (pos * n) occ
  (l.drop lo).take (ceilDiv ((pos + 1) * n) occ - lo)

/-- The granules that an operation reads and writes in a cycle of its occupancy; MZERO needs every write port in each of its 8 write cycles
(R279). -/
def MOp.nowReads (o : MOp) : List Nat := spreadAt o.granules.1 o.occ o.pos
/-- See `MOp.nowReads`. -/
def MOp.nowWrites (o : MOp) : List Nat :=
  match o.kind with
  | .mzero => if (spreadAt (List.range 8) o.occ o.pos).isEmpty then [] else List.range 16
  | _ => spreadAt o.granules.2 o.occ o.pos

/-- Whether a use of a port is a write. -/
def Port.writes : Port → Bool
  | .write | .engWrite => true
  | .read | .engRead | .ahead => false

/-- The granules of a core's register space that its resident tasks have mirrored, with the partner bank (R29). -/
def Core.mirrors (x : Core) (c : CoreId) : List (Nat × Nat) :=
  x.frames.toList.flatMap fun f => if !f.id.valid then [] else
    f.sys.mirtab.toList.filterMap fun w => if bit w 31 then some (winBase c / 512 + f.id.base + bits w 0 13, bits w 16 4) else none

/-- The banks in which a granule stands (R29). -/
def granuleBanks (mirrors : List (Nat × Nat)) (g : Nat) : List Nat := g % 16 :: (mirrors.filter (·.1 == g)).map (·.2)

/-- The operation after `n` cycles more: it loses a cycle in which a port that it needs is taken: of every bank that a written granule stands in,
of all banks that a read one stands in (R29, R278). -/
def MOp.run (o : MOp) (mirrors : List (Nat × Nat)) (ports : List (Nat × Nat × Port)) : Nat → MOp
  | 0 => o
  | n + 1 =>
    if o.occ ≤ o.pos then o else
    let now := ports.filter fun p => p.1 == o.upTo
    let taken (w : Bool) (b : Nat) : Bool := now.any fun p => p.2.1 == b && p.2.2.writes == w
    let busyR := o.nowReads.any fun g => (granuleBanks mirrors g).all (taken false)
    let busyW := o.nowWrites.any fun g => (granuleBanks mirrors g).any (taken true)
    let o := if now.isEmpty then { o with pos := o.pos + 1, waited := 0 }
      else if busyR then { o with waited := o.waited + 1 }
      else if busyW then o
      else { o with pos := o.pos + 1, waited := 0 }
    { o with upTo := o.upTo + 1 }.run mirrors ports n

/-- The running operation brought to the cycle the core is in. -/
def State.runUnit (s : State) (c : CoreId) : State :=
  match (s.core c).mrun with
  | none => s
  | some o => if s.cyc c ≤ o.upTo then s else
    s.updCore c fun x => { x with mrun := some (o.run (x.mirrors c) x.ports (s.cyc c - o.upTo)) }

/-- Banks whose read port an aged engine access takes in this cycle: the matrix unit's read after 8 cycles lost, the running operation
brought to this cycle, or another engine's (R278). -/
def State.agedBanks (s : State) (c : CoreId) : List Nat :=
  let x := s.core c
  ((x.ports.filter fun p => p.1 == s.cyc c && p.2.2 == .ahead).map (·.2.1)) ++ match x.mrun with
    | none => []
    | some o =>
      let o := o.run (x.mirrors c) x.ports (s.cyc c - o.upTo)
      if o.waited < 8 then [] else o.nowReads.map (· % 16)

/-- Whether the running matrix operation uses a port of a bank in a cycle, ahead of an engine access that began to wait later than it issued
(R278). -/
def Core.matrixTakes (x : Core) (c : CoreId) (cycle since : Nat) (write : Bool) (b : Nat) : Bool :=
  match x.mrun with
  | none => false
  | some o =>
    let o := o.run (x.mirrors c) x.ports (cycle - o.upTo)
    decide (o.at_ ≤ since) && o.upTo == cycle && decide (o.pos < o.occ)
      && (if write then o.nowWrites else o.nowReads).any fun g => g % 16 == b

/-- An engine's access to register-space bytes of a core (R29, R278): it goes in the cycle before when its ports were free then, of engines the
oldest first; a read that has waited 8 cycles goes ahead of the bundle in this one. A read takes the port of one bank that the granule stands in, a
write those of all. None tells that it waits. -/
def State.engineBank (s : State) (c : CoreId) (pa n : Nat) (write : Bool) (waited : Nat) : Option State :=
  if placeOf c pa matches .ownLs _ then some s else
  let cycle := s.cyc c
  let x := s.core c
  let mirrors := x.mirrors c
  let gs := (List.range ((pa + n - 1) / 512 + 1 - pa / 512)).map (pa / 512 + ·)
  let taken (b : Nat) : Bool := (x.ports.any fun p => p.1 + 1 == cycle && p.2.1 == b && p.2.2.writes == write)
    || (decide (0 < cycle) && x.matrixTakes c (cycle - 1) (cycle - 1 - waited) write b)
  let pick (g : Nat) : Option (List Nat) :=
    let bs := granuleBanks mirrors g
    if write then (if bs.any taken then none else some bs) else (bs.find? fun b => !taken b).map fun b => [b]
  match gs.mapM pick with
  | some bs => some (s.usePorts c ((dedup bs.flatten).map fun b => (cycle - 1, b, if write then .engWrite else .engRead)))
  | none => if !write && 8 ≤ waited then some (s.usePorts c ((dedup (gs.map (· % 16))).map fun b => (cycle, b, .ahead))) else none

/-- The banks that the bundle's reads take. -/
def bankReads (s : State) (live : List SlotOp) : List Nat :=
  bankLoads ((bankGranules s live).map (bankChoice s (s.agedBanks s.cur))) []

/-- Cycles that bank conflicts hold the bundle: the reads beyond the first of each bank, the banks side by side. -/
def bankHold (s : State) (live : List SlotOp) : Nat := fullest (bankReads s live) - 1

/-- The bundle's reads in this cycle: in its n-th cycle of holding for banks, those of banks with more than n reads. -/
def bankNow (s : State) (live : List SlotOp) : List Nat :=
  let l := bankReads s live
  dedup (l.filter fun b => decide (s.fr.ctl.bankHold < (l.filter (· == b)).length))

/-- The granule of the footprint that a result writes. -/
def Result.granule (r : Result) : Option Nat :=
  match r.dest with
  | .rs off => if r.ben = 0 then none else some (off / 512)
  | _ => none

/-- Whether a write of this bundle to a mirrored granule finds one of its two banks' write ports taken by an earlier result in the cycle in
which it completes (R29). -/
def mirrorHold (s w : State) : Bool :=
  let f := s.fr
  w.fr.infl.any fun r => !(f.infl.any fun q => q.seq == r.seq) && match r.granule with
    | none => false
    | some g => (f.sys.partner g).isSome && f.infl.any fun q => q.due == r.due && match q.granule with
        | some h => (f.banksOf h).any (f.banksOf g).contains
        | none => false

/-! ## Permits (R282) -/

/-- The counter after `n` cycles of refill. -/
def Permit.after (p : Permit) (n : Nat) : Permit :=
  let f := p.frac + n * p.rate
  { p with count := min p.cap (p.count + f / 64), frac := f % 64 }

/-- The counter under a new grant: COUNT is cut to the new capacity. -/
def Permit.grant (p : Permit) (rate cap : Nat) : Permit := { p with rate := rate, cap := cap, count := min p.count cap }

/-- The counter at a task's launch. -/
def Permit.fill (p : Permit) : Permit := { p with count := p.cap }

/-- The core's counters brought to a cycle under the grant they have. -/
def Core.refillBy (x : Core) (cycle : Nat) : Core :=
  let n := cycle - x.permAt
  { x with mx := x.mx.after n, vec := x.vec.after n, sfu := x.sfu.after n, memp := x.memp.after n, permAt := max cycle x.permAt }

/-- A task launch sets the counters to their capacity. -/
def Core.fillAll (x : Core) : Core := { x with mx := x.mx.fill, vec := x.vec.fill, sfu := x.sfu.fill, memp := x.memp.fill }

/-- A granted profile applies (R451). -/
def Core.take (x : Core) (g : Grant) : Core :=
  let y := { x with vec := x.vec.grant (bits g.p0 32 16) (bits g.p0 48 16), mx := x.mx.grant (bits g.p0 0 16) (bits g.p0 16 16),
                    memp := x.memp.grant (bits g.p1 32 16) (bits g.p1 48 16), sfu := x.sfu.grant (bits g.p1 0 16) (bits g.p1 16 16),
                    mxdiv := g.div, granted := none }
  if g.fill then y.fillAll else y

/-- The core's counters brought to a cycle: a granted profile applies from the cycle after it (R451). -/
def Core.refillTo (x : Core) (cycle : Nat) : Core :=
  match x.granted with
  | none => x.refillBy cycle
  | some g => if g.at_ < cycle then ((x.refillBy (g.at_ + 1)).take g).refillBy cycle else x.refillBy cycle

/-- MXDIV in a cycle (R451). -/
def Core.divAt (x : Core) (cycle : Nat) : Nat :=
  match x.granted with
  | none => x.mxdiv
  | some g => if g.at_ < cycle then g.div else x.mxdiv

/-- Whether the counters cover a bundle's draws. -/
def Core.covers (x : Core) (mx vec sfu memp : Nat) : Bool :=
  decide (mx ≤ x.mx.count) && decide (vec ≤ x.vec.count) && decide (sfu ≤ x.sfu.count) && decide (memp ≤ x.memp.count)

/-- The draws taken. -/
def Core.draw (x : Core) (mx vec sfu memp : Nat) : Core :=
  { x with mx := { x.mx with count := x.mx.count - mx }, vec := { x.vec with count := x.vec.count - vec },
           sfu := { x.sfu with count := x.sfu.count - sfu }, memp := { x.memp with count := x.memp.count - memp } }

/-- Sum of a draw over a bundle's live slots. -/
def drawSum (live : List SlotOp) (f : Op → Nat) : Nat := (live.map fun o => f o.op).foldl (· + ·) 0

/-! ## The energy window (R44, R284, R285) -/

/-- Energy weight of slot class c (R34). -/
def ewOf (tab : BitVec 32) (c : Nat) : Nat := field tab.toNat (4 * c) 4

/-- Weight of a bundle (R44). -/
def bundleWeight (tab : BitVec 32) (ew : BitVec 5) (hasHdr : Bool) (classes : List Nat) : Nat :=
  if ew ≠ 0 then ew.toNat else
  let used := classes.length + if hasHdr then 1 else 0
  (classes.map (ewOf tab)).foldl (· + ·) 0 + (if hasHdr then ewOf tab 4 else 0) + (4 - used) * ewOf tab 7

/-- Weight that a core has issued in cycles lo to hi. -/
def Core.weighed (x : Core) (lo hi : Nat) : Nat :=
  ((x.ewlog.filter fun e => decide (lo ≤ e.1) && decide (e.1 ≤ hi)).map (·.2)).foldl (· + ·) 0

/-- EWSUM in cycle c (R284): both cores of the cluster, the 64 cycles before. -/
def State.ewsum (s : State) (c : CoreId) (cycle : Nat) : Nat :=
  if cycle = 0 then 0 else
  (s.core c).weighed (cycle - 64) (cycle - 1) + (s.core (partnerOf c)).weighed (cycle - 64) (cycle - 1)

/-- Whether the window has judged a bundle of the core in a cycle. -/
def Core.judgedIn (x : Core) (cycle : Nat) : Bool := x.issuedAt == some cycle || x.stallCnt == some cycle

/-- EWPROF.LIMIT as it stands in a cycle: a change takes effect in the cycle after it (R285). -/
def Core.limitAt (x : Core) (cycle : Nat) : Nat := if cycle ≤ x.ewold.1 then x.ewold.2 else x.ewlim

/-- EWPROF.LIMIT changed in a cycle. -/
def Core.setLimit (x : Core) (cycle lim : Nat) : Core :=
  if lim = x.ewlim then x else { x with ewold := (cycle, x.limitAt cycle), ewlim := lim }

/-- Whether the window admits a weight now: it fits, or the window is empty and the core is the first of its cluster that it judges in this
cycle. -/
def State.admits (s : State) (c : CoreId) (w : Nat) : Bool :=
  let cycle := s.cyc c
  let sum := s.ewsum c cycle
  let other := s.core (partnerOf c)
  decide (sum + other.weighed cycle cycle + (s.core c).weighed cycle cycle + w ≤ (s.core c).limitAt cycle)
    || (sum == 0 && !other.judgedIn cycle)

/-- A weight entered in the window's log. -/
def Core.logWeight (x : Core) (cycle w : Nat) : Core :=
  { x with ewlog := (x.ewlog.filter fun e => decide (cycle ≤ e.1 + 64)) ++ (if w = 0 then [] else [(cycle, w)]) }

/-- Whether the cluster's priority bit names the core in a cycle (R285): a move takes effect after the cycle that causes it. -/
def Core.first (x : Core) (cycle : Nat) : Bool := x.prioBit != (match x.prioMove with
  | some n => decide (n < cycle)
  | none => false)

/-- The cluster's priority bit moves to the other core after this cycle (R285). -/
def State.movePrio (s : State) (c : CoreId) : State :=
  let cycle := s.cyc c
  let move (x : Core) : Core := { x with prioBit := x.first cycle, prioMove := some cycle }
  (s.updCore c move).updCore (partnerOf c) move

/-- STALLCNT counts at most once in a cycle (R284). -/
def State.countStall (s : State) : State :=
  let cycle := s.cyc s.cur
  if s.here.stallCnt = some cycle then s else
  (s.updFr fun f => { f with id := { f.id with stallcnt := f.id.stallcnt + 1 } }).updCore s.cur fun x =>
    { x with stallCnt := some cycle }

/-- The window holds the core's sequencer bundle: STALLCNT counts (R276, R284). -/
def State.stalled (s : State) : State :=
  let cycle := s.cyc s.cur
  let s := s.countStall.updCore s.cur fun x => { x with stallAt := some cycle }
  if (s.core (partnerOf s.cur)).issuedAt = some cycle then s.movePrio s.cur else s

/-- A task's first issue is noted, and its queue's hang limit runs from it (R293, R398). -/
def State.noteFirst (s : State) : State :=
  let tid := s.fr.id.task
  match s.task tid with
  | none => s
  | some t =>
    if t.firstIssue.isSome then s else
    let s := s.updTask tid fun x => { x with firstIssue := some s.time }
    let hang := bits (s.bel.queues.get t.q).qctl 32 32
    if hang = 0 then s else s.post (ticksOfUs hang) .hungExpiry { tid := tid, n := s.time }

/-- The core issued in this cycle (R285, R372). -/
def State.issuedNow (s : State) : State :=
  let cycle := s.cyc s.cur
  let s := s.noteFirst
  let s := s.updCore s.cur fun x => { x with issuedAt := some cycle }
  let s := s.updIsland (islandOf s.cur) fun i => { i with issued := true }
  if (s.core (partnerOf s.cur)).stallAt = some cycle then s.movePrio s.cur else s

/-! ## Back edges (R160) -/

/-- The steps of R160 for a bundle at B, over `fuel` levels: the frame, the next bundle's address, and the level whose
loop buffer supplies it (R159). -/
def Frame.backEdge (f : Frame) (b : Word) : Nat → Frame × Word × Option (Fin 6)
  | 0 => (f, b + 16, none)
  | fuel + 1 =>
    if h : f.ctl.floor < f.ctl.depth ∧ f.ctl.depth ≤ 6 then
      let v : Fin 6 := ⟨f.ctl.depth - 1, by omega⟩
      let x := f.ctl.lv.get v
      if x.lstop = b then
        let y := { x with lidx := x.lidx + 1, lrotc := x.lrotc + 1 }
        let g := { f with ctl := { f.ctl with lv := f.ctl.lv.set v.val y v.isLt } }
        if 1 < x.lcnt then
          ({ g with ctl := { g.ctl with lv := g.ctl.lv.set v.val { y with lcnt := x.lcnt - 1 } v.isLt } }, x.lstart, some v)
        else
          let r := (g.closeLevel v).backEdge b fuel
          (r.1, r.2.1, some (r.2.2.getD v))
      else (f, b + 16, none)
    else (f, b + 16, none)

/-- Whether a level's body holds an address (R151). -/
def Level.holds (x : Level) (t : Word) : Bool := decide (x.lstart.toNat ≤ t.toNat) && decide (t.toNat ≤ x.lstop.toNat)

/-- Every level above the floor whose body does not hold the target closes, innermost first (R151, R170). Where bodies are not nested, a level that
holds the target and stands above one that closes is closed with it, for open levels stand in order (log 51). -/
def Frame.leaveLevels (f : Frame) (t : Word) : Frame :=
  match (List.range 6).find? fun v => decide (f.ctl.floor ≤ v) && decide (v < f.ctl.depth) && !(f.ctl.lv.toList.getD v {}).holds t with
  | some v => f.closeDown v f.ctl.depth
  | none => f

/-! ## Switching between resident tasks (R290) -/

/-- Whether a frame's task may issue. -/
def Frame.ready (f : Frame) : Bool := f.id.valid && !f.ctl.halted && !f.ctl.ended && !f.ctl.waitEv && !f.ctl.stopped

/-- The other resident slots, in rotation after the running one. -/
def Core.others (x : Core) : List (Fin 4) := [x.run + 1, x.run + 2, x.run + 3]

/-- The ready resident task that takes over: highest priority, equals in rotation. -/
def Core.nextReady (x : Core) : Option (Fin 4) :=
  let l := x.others.filter fun j => (x.frame j).ready
  let best := (l.map fun j => (x.frame j).id.prio).foldl max 0
  l.find? fun j => (x.frame j).id.prio == best

/-- A slot's pins in the L2 go, and those that its fetches under way would have set (R218). -/
def Core.unpin (x : Core) (k : Fin 4) : Core :=
  { x.updFrame k fun f => { f with mat := { f.mat with pins := [] } } with
    tiles := x.tiles.map fun t => if t.slot = k then { t with tag := none } else t }

/-- The core turns to another slot: the outgoing task's tile pins go (R218); the incoming one's first bundle issues four
cycles after the boundary. -/
def State.switchTo (s : State) (c : CoreId) (j : Fin 4) : State :=
  let n := s.cyc c + 4
  s.updCore c fun x =>
    let x := (x.updFrame x.run fun f => { f with ctl := { f.ctl with swHeld := 0, bankHold := 0, orderFrom := none } }).unpin x.run
    let x' := x.updFrame j fun f => { f with ctl := { f.ctl with notBefore := max f.ctl.notBefore n } }
    { x' with run := j, lastRun := x.run, sliceAt := s.time, slice := bits s.bel.dpar0 32 32 }

/-- Whether a core's nest issues next. -/
def State.nestDue (s : State) (c : CoreId) : Bool :=
  let x := s.core c
  let f := x.frame x.run
  f.mat.nest.running && !f.mat.nest.ended && f.id.valid && !f.ctl.ended && !f.ctl.stopped && x.nestAt != some (s.cyc c)
/-- Whether the head bundle has been held for SWTHR cycles, by the limit with which the hold began, and another task is ready (R290, R403). -/
def State.swthrDue (s : State) (c : CoreId) : Bool :=
  let x := s.core c
  let q := (x.frame x.run).ctl
  q.swHeld != 0 && decide (q.swLim ≤ q.swHeld) && x.nextReady.isSome
/-- Whether the task has issued for SLICE, by the limit with which its turn began, and one of higher priority is ready (R290, R403). -/
def State.sliceDue (s : State) (c : CoreId) : Bool :=
  let x := s.core c
  decide (x.sliceAt + ticksOfUs x.slice ≤ s.time) && x.nextReady.any fun j => decide ((x.frame x.run).id.prio < (x.frame j).id.prio)
/-- Whether a core's head bundle goes next: nothing else of its sequencer is due, and none has issued in this cycle. -/
def State.bundleDue (s : State) (c : CoreId) : Bool :=
  let x := s.core c
  let f := x.frame x.run
  !s.nestDue c && !(f.id.valid && f.ctl.halted) && f.ready && f.tr.due.isEmpty && !s.swthrDue c && !s.sliceDue c
    && x.issuedAt != some (s.cyc c)

/-- The place in a stack's order of arrival of what the head bundle of a core, or its nest's next operation, accesses there (R378): it goes on as an
event of its core. -/
def State.placeHeld (s : State) (c : CoreId) (row : Instr) : Option CoreId × Event :=
  let f := (s.core c).frame (s.core c).run
  (some c, { row := row, arg := { c := c, u := 1, tid := f.id.task, w0 := if row = .bundleIssue then f.ctl.pc else f.mat.nest.pos } })
/-- Whether that place is held still. -/
def State.placed (s : State) (c : CoreId) (row : Instr) : Bool := (s.barred ++ s.freed).contains (s.placeHeld c row)
/-- Whether a place that is free again is that of what the core would do next. -/
def State.resumes (s : State) (row : Instr) : Bool :=
  (s.placeHeld s.cur row).2.arg == { s.arg with c := s.cur } && (if row = .bundleIssue then s.bundleDue s.cur else s.nestDue s.cur)

/-- The boundary after a YIELD (R265): another ready task, or the next bundle two cycles later. -/
def State.yielded (w : State) : State :=
  let c := w.cur
  let n := w.cyc c + 2
  let w := w.updCtl fun x => { x with yieldReq := false }
  match w.here.nextReady with
  | some j => w.switchTo c j
  | none => w.updCtl fun x => { x with notBefore := max x.notBefore n }

/-! ## Issue -/

/-- A held bundle: nothing of it happens (R63, R276). -/
def State.held (s : State) : State := s.updCtl fun c => { c with heldFor := c.heldFor + 1 }

/-- What running the slots found: the working state, the first trap with its slot, and what holds. -/
structure Ran where
  w     : State
  trap  : Option (Stop × Fin 4) := none
  holds : List (State → State) := []

/-- The working state as a bundle's slots begin: no slot has asked anything of the boundary after it (R63). -/
def State.settled (s : State) : State := s.updCtl fun c =>
  { c with taken := none, rebind := [], csrw := none, clearLat := false, trapReq := none, retReq := false, yieldReq := false }

/-- The slots in order. A slot that stops leaves the working state as it was. -/
def runSlots (s0 : State) : List SlotOp → Ran → Ran
  | [], r => r
  | o :: os, r =>
    match o.op.sem o.ctx s0 r.w with
    | .ok w => runSlots s0 os { r with w := w }
    | .error (.hold f) => runSlots s0 os { r with holds := r.holds ++ [f] }
    | .error e => runSlots s0 os { r with trap := match r.trap with
        | some t => some t
        | none => some (e, o.ctx.slot) }

/-- The system registers with one written (R38). -/
def SysRegs.put (y : SysRegs) (n : Nat) (x : Word) : SysRegs :=
  match n with
  | 0x800 => { y with ptroot := x }
  | 0x801 => { y with asid := x.setWidth 16 }
  | 0x802 => { y with ctxsave := x }
  | 0x803 => { y with evspill := x }
  | 0x804 => { y with evquota := x.setWidth 32 }
  | _ => y

/-- A RW register written (R260). -/
def State.csrWrite (w : State) (n : Nat) (x : Word) : State :=
  w.updFr fun f =>
    match n with
    | 0x400 => { f with tr := { f.tr with estatus := x } }
    | 0x402 => { f with tr := { f.tr with epc := x } }
    | 0x406 => { f with tr := { f.tr with handler := x } }
    | _ => { f with sys := f.sys.put n x }

/-- The control register that a bundle writes stands from the next bundle on (R64, R260). -/
def State.csrWritten (w : State) : State :=
  match w.fr.ctl.csrw with
  | some (n, x) => (w.csrWrite n x).updCtl fun c => { c with csrw := none }
  | none => w

/-- What follows an issued bundle: the next bundle's address by the taken transfer or by R160, consumed stream elements filled again, cleared
latches (R23), a TRAP's trap, which is due at the boundary (R271, R275), and a TRET's return, after which the oldest held trap is due (R274). -/
def State.commit (w : State) : State :=
  let w := w.issuedNow
  let b := w.fr.ctl.pc
  let w := match w.fr.ctl.taken with
    | some t => w.updCtl fun c => { c with pc := t, taken := none }
    | none => w.updFr fun f =>
        let r := f.backEdge b 6
        { r.1 with ctl := { r.1.ctl with pc := r.2.1,
                                         loopWait := if r.2.2.isSome then r.2.2 else r.1.ctl.loopWait } }
  let w := w.csrWritten.rebound.refillStreams.updCtl fun c => { c with heldFor := 0, swHeld := 0, bankHold := 0, orderFrom := none, replay := false }
  let w := if w.fr.ctl.clearLat then w.updFr fun f =>
      let g := f.clearLatches
      { g with ctl := { g.ctl with clearLat := false } } else w
  let w := match w.fr.ctl.trapReq with
    | some t => w.updFr fun f => { f with tr := { f.tr with due := f.tr.due ++ [t] }, ctl := { f.ctl with trapReq := none } }
    | none => w
  if w.fr.ctl.yieldReq then w.yielded
  else if w.fr.ctl.retReq then
    let c := w.cur
    let k := w.here.run
    let at_ := max (w.cyc c + 7) (w.lastDue c k + 1)
    let w := w.drain c k
    let w := w.updFrameAt c k fun f =>
      let g := f.leaveHandler at_
      { g with ctl := { g.ctl with retReq := false } }
    let w := w.postFree c (at_ - 1 - w.cyc c) .bundleFetch { k := k, id := at_ }
    -- every valid entry is fetched again (R274)
    let w := (List.range 8).foldl (fun (w : State) i =>
      let x := w.fr.ctl.tg.toList.getD i {}
      if x.valid && !x.outRange then w.postFree c 3 .prepFetchComplete (w.fr.fetchArg k i x.addr) else w) w
    match w.fr.tr.held with
    | t :: ts => w.updFr fun f => { f with tr := { f.tr with held := ts, due := t :: f.tr.due } }
    | [] => w
  else w

/-- Whether an operation's predicate is true at issue (R24, R64). -/
def SlotOp.live (o : SlotOp) (f : Frame) : Bool := f.pval o.pred.toNat

/-- The first trap of R62 steps 3 and 4. -/
def bitTrap (s : State) (ops : List SlotOp) : Option Trap :=
  match ops.find? (fun o => !o.op.legal o.ctx) with
  | some o => some { cause := Cause.illegalInstruction, slot := o.ctx.slot }
  | none => match ops.find? (fun o => o.op.priv && !s.fr.id.mode) with
    | some o => some { cause := Cause.privilege, slot := o.ctx.slot }
    | none => none

/-- Cycles the bundle holds for banks and for DCHK.a before it may issue. -/
def slowHold (s : State) (live : List SlotOp) : Nat :=
  bankHold s live + (live.map fun o => o.op.slow).foldl max 0

/-- The trap values of a stop in a slot, and the stopped task's next state. -/
def State.stop (s : State) (e : Stop) (slot : Fin 4) : State :=
  match e with
  | .trap t => s.takeTrap { t with slot := slot } s.fr.ctl.pc
  | .fault c => s.faultTaskAt s.cur s.here.run { cause := c, slot := slot } s.fr.ctl.pc
  | .hold f => (f s).held

/-- What the operations of a bundle read of on-chip bytes at issue: the core has then read those writes (R111, R113). -/
def State.observeUses (w : State) (s : State) (live : List SlotOp) : State :=
  if s.tags.isEmpty then w else
  w.observe (coreWriter s.cur) (live.flatMap fun o => if o.op.matrix then [] else
    (o.op.uses o.ctx s).flatMap fun u => if u.write then [] else s.marksAt u.pa u.len)

/-- ISSUE, the one operation behind every slot operation: the operations of a bundle issue together or not at all
(R62, R63, R276). -/
def issue (s : State) (ops : List SlotOp) (ew : BitVec 5) (hasHdr : Bool) : State :=
  match bitTrap s ops with
  | some t => s.takeTrap t s.fr.ctl.pc
  | none =>
    let live := ops.filter fun o => o.live s.fr
    if operandsPending s live then s.held else
    let reads := bankNow s live
    if reads.any (s.agedBanks s.cur).contains then s.held else
    if s.fr.ctl.bankHold < slowHold s live then ((s.takePorts reads).updCtl fun c => { c with bankHold := c.bankHold + 1 }).held else
    let r := runSlots s (judged s live) { w := s.settled }
    match r.holds with
    | f :: fs =>
      -- a cycle counts once toward a switch, whichever slots hold, and a hold keeps the limit with which it began (R290, R403)
      ((fs.foldl (fun s g => g s) (f s)).updCtl fun c =>
        { c with swHeld := min c.swHeld (s.fr.ctl.swHeld + 1), swLim := if s.fr.ctl.swHeld = 0 ∧ c.swHeld ≠ 0 then bits s.bel.dpar0 0 32 else c.swLim }).held
    | [] =>
    let x := s.here.refillTo (s.cyc s.cur)
    let mx := drawSum live (·.mx)
    let vec := drawSum live (·.vec)
    let sfu := drawSum live (·.sfu)
    let memp := drawSum live (·.memp)
    let weight := bundleWeight s.fr.id.ewtab ew hasHdr (ops.map (·.cls))
    if !x.covers mx vec sfu memp then s.held
    else match r.trap with
    | some (e, slot) => s.stop e slot
    | none =>
      if mirrorHold s r.w then s.held else
      if !s.admits s.cur weight then s.stalled else
      -- an access that meets a quiesced stack takes the bundle's place in the order of arrival there (R378)
      if r.w.closed then { s with closed := true } else
        (((r.w.observeUses s live).takePorts reads).updCore s.cur fun y =>
          ((y.refillTo (s.cyc s.cur)).draw mx vec sfu memp).logWeight (s.cyc s.cur) weight).commit

/-- One operation alone in its bundle, in the slot and under the header of the context. -/
def issueOne (s : State) (p : BitVec 3) (cls : Nat) (op : Op) : Out :=
  .next (issue s [{ ctx := s.ctx, pred := p, cls := cls, op := op }] s.ctx.ew s.ctx.hasHdr)

end Sys2Proof.Machine
end

