-- ==== Sys2Proof/Machine/Fetch.lean ====
section
/-! DEFINITION. Bundles by their bits: fields, header, the illegal-bundle checks, and the fetch of a bundle (R39-R47,
R143, R148). -/

namespace Sys2Proof.Machine

open Sys2Proof

/-! ## Kinds of field, by class and opcode (R42, R45, R46, R56-R60) -/

/-- The word of a slot (R39). -/
def slotWord (b : Bundle) (k : Fin 4) : SlotWord := b.extractLsb' (32 * k.val) 32
/-- CLS of a slot word (R40). -/
def wordCls (w : SlotWord) : Nat := (w.extractLsb' 29 3).toNat
/-- OPC of a slot word (R40). -/
def wordOpc (w : SlotWord) : Nat := (w.extractLsb' 19 7).toNat
/-- Field j of a slot word: 0 DST, 1 SA, 2 SB. -/
def wordField (w : SlotWord) (j : Nat) : BitVec 6 := w.extractLsb' (12 - 6 * j) 6

/-- Whether a V, M or C opcode is assigned (R58-R60). -/
def opcAssigned (cls opc : Nat) : Bool :=
  match cls with
  | 1 => opc != 0x66 && opc != 0x67 && decide (opc ≤ 0x7A)
  | 2 => decide (opc ≤ 0x17) || (decide (0x20 ≤ opc) && decide (opc ≤ 0x2A))
  | 3 => decide (opc ≤ 0x04) || (decide (0x08 ≤ opc) && decide (opc ≤ 0x10)) || (decide (0x18 ≤ opc) && decide (opc ≤ 0x1C))
      || (decide (0x20 ≤ opc) && decide (opc ≤ 0x25)) || (decide (0x28 ≤ opc) && decide (opc ≤ 0x2E))
      || (decide (0x30 ≤ opc) && decide (opc ≤ 0x35)) || (decide (0x38 ≤ opc) && decide (opc ≤ 0x3C))
      || opc == 0x40 || opc == 0x41 || opc == 0x48 || opc == 0x49 || opc == 0x50
  | _ => false

/-- Whether field j of a V, M or C operation is an operand of R48. -/
def operandField (cls opc j : Nat) : Bool :=
  match cls with
  | 1 => opcAssigned 1 opc && match j with
    | 0 => !(decide (0x40 ≤ opc) && decide (opc ≤ 0x57)) && opc != 0x79 && opc != 0x7A
    | 1 => true
    | _ => decide (opc < 0x30) || (decide (0x40 ≤ opc) && decide (opc ≤ 0x5E)) || opc == 0x76 || opc == 0x78 || opc == 0x79
  | 2 => match j with
    | 0 => decide (opc ≤ 0x17) || [0x21, 0x22, 0x23, 0x26, 0x2A].contains opc
    | 1 => decide (opc ≤ 0x17) || [0x20, 0x22, 0x23, 0x24, 0x29, 0x2A].contains opc
    | _ => decide (opc ≤ 0x17) || opc == 0x2A
  | 3 => match j with
    | 0 => decide (opc ≤ 0x04) || [0x10, 0x23, 0x24, 0x25].contains opc
    | 1 => opc == 0x40 || opc == 0x41
    | _ => [0x02, 0x03, 0x10].contains opc
  | _ => false

/-- Whether an operation has a memory form (R55). -/
def memForm (cls opc : Nat) : Bool :=
  match cls with
  | 0 => (decide (0x50 ≤ opc) && decide (opc ≤ 0x56)) || (decide (0x58 ≤ opc) && decide (opc ≤ 0x5B))
  | 3 => [0x00, 0x01, 0x04, 0x50].contains opc || (decide (0x08 ≤ opc) && decide (opc ≤ 0x0F))
  | _ => false

/-- Whether an operation has an immediate that a header extends (R46). -/
def immForm (cls opc : Nat) : Bool :=
  match cls with
  | 0 => (decide (0x30 ≤ opc) && decide (opc ≤ 0x39)) || (decide (0x40 ≤ opc) && decide (opc ≤ 0x49))
  | 5 => opc == 0x00 || opc == 0x07 || opc == 0x08
  | _ => false

/-- Whether the opcode names an operation of its class (R56-R60). -/
def opcListed (cls opc : Nat) : Bool :=
  match cls with
  | 0 => decide (opc ≤ 0x1E) || (decide (0x20 ≤ opc) && decide (opc ≤ 0x29)) || (decide (0x30 ≤ opc) && decide (opc ≤ 0x39))
      || (decide (0x40 ≤ opc) && decide (opc ≤ 0x49)) || memForm 0 opc || (decide (0x60 ≤ opc) && decide (opc ≤ 0x6B))
  | 5 => decide (opc ≤ 0x09) || (decide (0x10 ≤ opc) && decide (opc ≤ 0x16)) || (decide (0x18 ≤ opc) && decide (opc ≤ 0x1B))
  | c => opcAssigned c opc

/-! ## The header (R43-R47) -/

/-- Whether slot 0 holds a header. -/
def hasHeader (b : Bundle) : Bool := wordCls (slotWord b 0) == 4

/-- HF of the header, 3 where there is none. -/
def headerFormat (b : Bundle) : Nat := ((slotWord b 0).extractLsb' 22 2).toNat

/-- EW of the header, zero where there is none (R43). -/
def headerWeight (b : Bundle) : BitVec 5 := if hasHeader b then (slotWord b 0).extractLsb' 24 5 else 0

/-- The header's bits (R45-R47). -/
def headerOf (b : Bundle) : Header :=
  if !hasHeader b then .none else
  match headerFormat b with
  | 0 => .ext ((slotWord b 0).extractLsb' 0 22)
  | 1 => .hx ((slotWord b 0).extractLsb' 20 2) ((slotWord b 0).extractLsb' 0 20)
  | _ => .hi ((slotWord b 0).extractLsb' 0 22)

/-- Operations of a class among the slots before slot k. -/
def classBefore (b : Bundle) (k : Fin 4) (cls : Nat) : Nat :=
  (allSlots.filter fun j => decide (j.val < k.val) && wordCls (slotWord b j) == cls).length

/-- The context of a slot (R41). -/
def slotCtx (b : Bundle) (k : Fin 4) : SlotCtx :=
  { slot := k, unit := if classBefore b k (wordCls (slotWord b k)) = 0 then 0 else 1, hdr := headerOf b,
    ew := headerWeight b, hasHdr := hasHeader b }

/-! ## Illegal bundles (R42) -/

/-- At most this many operations of a class (R41). -/
def classLimit (cls : Nat) : Nat := if cls = 1 ∨ cls = 3 then 2 else 1

/-- Whether the slot that an HF = 01 header names takes its bits (R46); a slot that names no operation is not judged. -/
def takesHeader (b : Bundle) (k : Fin 4) : Bool :=
  let w := slotWord b k
  let cls := wordCls w
  let opc := wordOpc w
  k != 0 && [0, 1, 2, 3, 5].contains cls
    && (!opcListed cls opc || immForm cls opc || (memForm cls opc && w.extractLsb' 0 2 == 2#2))

/-- Whether a field's extension or its naming of HI fails R42. -/
def fieldFails (b : Bundle) (k : Fin 4) (j : Nat) : Bool :=
  let w := slotWord b k
  let cls := wordCls w
  let opc := wordOpc w
  let f := wordField w j
  let free := [1, 2, 3].contains cls && !opcAssigned cls opc
  let e := (slotCtx b k).ext j
  (e != 0 && !free && !(operandField cls opc j && decide (f.toNat < 32)))
    || (f == 0x3E#6 && !free && operandField cls opc j && !(hasHeader b && headerFormat b == 2))

/-- Whether R42 fails at a slot. -/
def slotFails (b : Bundle) (k : Fin 4) : Bool :=
  let w := slotWord b k
  let cls := wordCls w
  let hdr := hasHeader b
  let hf := headerFormat b
  cls == 6
    || (cls == 7 && w.extractLsb' 0 29 != 0)
    || (cls == 4 && k != 0)
    || ([0, 1, 2, 3, 5].contains cls && classBefore b k cls == classLimit cls)
    || (k == 0 && hdr && (hf == 3 || (hf == 0 && (slotWord b 0).extractLsb' 0 4 != 0)
         || (hf == 1 && !takesHeader b ⟨((slotWord b 0).extractLsb' 20 2).toNat, by omega⟩)))
    || (k != 0 && (fieldFails b k 0 || fieldFails b k 1 || fieldFails b k 2))
    || (k == 0 && [1, 2, 3].contains cls && (fieldFails b k 0 || fieldFails b k 1 || fieldFails b k 2))
    || (memForm cls (wordOpc w)
         && ((w.extractLsb' 0 2 == 1#2 && !(hdr && hf == 2))
              || (w.extractLsb' 0 2 == 2#2 && !(hdr && hf == 1 && ((slotWord b 0).extractLsb' 20 2).toNat == k.val))))

/-- The lowest slot at which the bundle is illegal (R42, R62). -/
def illegalSlot (b : Bundle) : Option (Fin 4) := allSlots.find? (slotFails b)

/-! ## Fetch (R39, R143) -/

/-- Whether a bundle address lies in the code range (R148). -/
def Ident.codeOk (x : Ident) (t : Word) : Bool := decide (x.codebase.toNat ≤ t.toNat) && decide (t.toNat < x.codelim.toNat)

/-- Sixteen bytes of code at a bundle address under a table and address space, with the translation to cache; or the fetch's trap. -/
def fetchUnder (s : State) (c : CoreId) (k : Fin 4) (root : Word) (asid : BitVec 16) (a : Word) : Except Trap (Bundle × Walked) :=
  let f := s.frameAt c k
  let va := va57 a
  if !f.id.codeOk a then .error { cause := Cause.fetchLimit, evaddr := a } else
  match lookup s (dieOf c) (s.core c).l1tlb asid root va with
  | .error t => .error { t with evaddr := a }
  | .ok w =>
    if !grants w.leaf (!f.id.mode) .fetch then .error { cause := Cause.permission, evaddr := a } else
    let pa := w.leaf.phys va
    match s.diePoison (dieOf c) pa 16 with
    | some p => .error { trapOfPoison p with evaddr := a }
    | none => .ok (BitVec.ofNat 128 (s.dieRead (dieOf c) pa 16), { w with reads := w.reads ++ [pa] })

/-- A fetch of the frame, under the table and address space that stand now. -/
def fetchAt (s : State) (c : CoreId) (k : Fin 4) (a : Word) : Except Trap (Bundle × Walked) :=
  fetchUnder s c k (s.frameAt c k).sys.ptroot (s.frameAt c k).sys.asid a

/-- The translation of a fetch cached (R415). -/
def State.learnFetch (w : State) (c : CoreId) (x : Walked) : State :=
  ((w.arriveWalk x).updDie (dieOf c) fun d => d.learn x).updCore c fun y => { y with l1tlb := cachePut y.l1tlb x.leaf 1024 }

end Sys2Proof.Machine
end

