-- ==== Sys2Proof/Machine/Csr.lean ====
section
/-! DEFINITION. The core's control registers as they read (R30-R38). -/

namespace Sys2Proof.Machine

open Sys2Proof

/-- A word from a natural number. -/
def wd (x : Nat) : Word := BitVec.ofNat 64 x

/-- LSTG of a level (R35). -/
def Level.lstg (x : Level) : Word :=
  wd ((if x.pipe then 1024 else 0) + (if x.nest then 512 else 0) + (if x.isOpen then 256 else 0) + x.savedp.toNat * 16 + x.stages)

/-- Field f of a loop level (R35); the addresses are 57-bit fields. -/
def Level.csr (x : Level) (f : Nat) : Word :=
  match f with
  | 0 => wd x.lcnt
  | 1 => wd x.lidx
  | 2 => low57 x.lstart
  | 3 => low57 x.lstop
  | 4 => x.lstg
  | 5 => x.lrotc
  | _ => 0

/-- LDEPTH (R35). -/
def Ctl.ldepth (x : Ctl) : Word := wd (x.floor * 16 + x.depth)

/-- SSTAT of a stream (R37). -/
def Stream.sstat (q : Stream) : Word :=
  if q.mode = 0 then 0 else wd (q.left * 2 ^ 32 + q.queue.length % 256 * 256 + q.depth * 16 + q.mode)

/-- BARCNT of a barrier object (R37). -/
def Barrier.cnt (b : Barrier) : Word :=
  wd ((if b.armed then 2 ^ 48 else 0) + b.group.toNat * 2 ^ 32 + b.target % 65536 * 65536 + b.arrived % 65536)

/-- EVQSTAT (R37). -/
def Msgs.evqstat (m : Msgs) : Word :=
  wd (m.spill.length * 2 ^ 32 + (if m.spill.isEmpty then 0 else 512) + m.evq.length)

/-- CSTAT (R33). -/
def Frame.cstat (f : Frame) (k : Fin 4) : Word :=
  wd (f.r.mstack.length * 1024 + (if f.tr.intrap then 512 else 0) + k.val * 128 + f.id.lendn.toNat * 8
    + f.id.heat.toNat * 2 + (if f.id.mode then 1 else 0))

/-- PMT of a permit counter (R34). -/
def Permit.csr (p : Permit) : Word := wd (p.rate * 2 ^ 32 + p.cap * 65536 + p.count)

/-- The trap registers (R36). -/
def TrapState.csr (t : TrapState) (n : Nat) : Word :=
  match n with
  | 0 => t.estatus
  | 1 => t.ecause
  | 2 => low57 t.epc
  | 3 => low57 t.evaddr
  | 4 => t.eslot
  | 5 => t.eeng
  | 6 => low57 t.handler
  | _ => 0

/-- The system registers (R38). -/
def SysRegs.csr (x : SysRegs) (n : Nat) : Word :=
  match n with
  | 0 => x.ptroot
  | 1 => x.asid.setWidth 64
  | 2 => low57 x.ctxsave &&& ~~~0x3FF#64
  | 3 => low57 x.evspill &&& ~~~0xFFF#64
  | 4 => x.evquota.setWidth 64
  | _ => 0

/-- The energy and permit registers, numbers from 0x200 (R34). -/
def State.energyCsr (s : State) (c : CoreId) (k : Fin 4) (n : Nat) : Word :=
  let x := (s.core c).refillTo (s.cyc c)
  let isl := s.island (islandOf c)
  match n with
  | 0x00 => (x.frame k).id.ewtab.setWidth 64
  | 0x01 => wd (s.ewsum c (s.cyc c) % 65536)
  | 0x02 => wd x.ewlim
  | 0x10 => x.mx.csr
  | 0x11 => x.vec.csr
  | 0x12 => x.sfu.csr
  | 0x13 => x.memp.csr
  | 0x20 => wd (isl.budget % 256 * 65536 + patternOf isl.level)
  | 0x21 => (x.frame k).id.stallcnt.setWidth 64
  | _ => 0

/-- The value of CSR `n` of the task in slot `k` of core `c` (R32-R38); numbers that are not listed read zero. -/
def State.csrRead (s : State) (c : CoreId) (k : Fin 4) (n : Nat) : Word :=
  let f := s.frameAt c k
  if n < 0x010 then
    match n with
    | 0x0 => wd c.val
    | 0x1 => f.id.task.setWidth 64
    | 0x2 => f.cstat k
    | 0x3 => wd (s.cyc c)
    | 0x4 => wd (s.cyc c / 2 ^ 64 % 2 ^ 16)
    | 0x5 => low57 f.id.codebase
    | 0x6 => low57 f.id.codelim
    | 0x7 => wd f.id.foot
    | 0x9 => f.id.deadline
    | 0xA => f.id.tokgrp.setWidth 64
    | 0xC => f.id.duplvl.setWidth 64
    | 0xD => f.id.stepn.setWidth 64
    | _ => 0
  else if h : 0x010 ≤ n ∧ n < 0x018 then f.sys.mirtab.get ⟨n - 0x010, by omega⟩
  else if n = 0x100 then f.sys.bankrole
  else if h : 0x110 ≤ n ∧ n < 0x118 then f.sys.own.get ⟨n - 0x110, by omega⟩
  else if 0x200 ≤ n ∧ n < 0x300 then s.energyCsr c k (n - 0x200)
  else if h : 0x300 ≤ n ∧ n < 0x360 then (f.ctl.lv.get ⟨(n - 0x300) / 16, by omega⟩).csr (n % 16)
  else if n = 0x360 then f.ctl.ldepth
  else if 0x400 ≤ n ∧ n < 0x407 then f.tr.csr (n - 0x400)
  else if h : 0x500 ≤ n ∧ n < 0x510 then (f.r.streams.get ⟨n - 0x500, by omega⟩).sstat
  else if h : 0x510 ≤ n ∧ n < 0x520 then wd (f.r.streams.get ⟨n - 0x510, by omega⟩).scount
  else if h : 0x600 ≤ n ∧ n < 0x620 then
    let b := f.msg.bars.get ⟨(n - 0x600) / 2, by omega⟩
    if n % 2 = 0 then b.cnt else b.pend
  else if n = 0x700 then f.msg.evqstat
  else if 0x800 ≤ n ∧ n < 0x805 then f.sys.csr (n - 0x800)
  else 0

end Sys2Proof.Machine
end

