-- ==== Sys2Proof/Machine/Access.lean ====
section
/-! DEFINITION. Accesses by address: line fills, the on-chip windows, engine accesses, and the order of a core's
outstanding accesses (R103-R110, R118-R121, R126, R127, R313-R320, R324, R414, R415, R479, R480). -/

namespace Sys2Proof.Machine

open Sys2Proof

/-! ## On-chip windows (R317-R319) -/

/-- The slot word of a resident slot, and its ASID word (R318). -/
def Frame.slotWord (f : Frame) : Word :=
  wd (f.id.task.toNat * 2 ^ 32 + (if f.resident then 65536 else 0) + f.id.base)

/-- Eight bytes of a core's control part (R318): the CSRs of the running task, and the slot words. -/
def State.ctlPartWord (s : State) (t : CoreId) (off : Nat) : Word :=
  let x := s.core t
  if off < 0x4000 then
    if (x.frame x.run).resident ∧ off / 8 < 0x800 then s.csrRead t x.run (off / 8) else 0
  else if h : off < 0x4040 then
    let f := x.frame ⟨(off - 0x4000) / 16, by omega⟩
    if off % 16 < 8 then f.slotWord else f.sys.asid.setWidth 64
  else 0

/-- `n` bytes of a core's control part. -/
def State.ctlPartRead (s : State) (t : CoreId) (off n : Nat) : Nat :=
  buildNat 8 (fun i => getByte (s.ctlPartWord t ((off + i) / 8 * 8)).toNat ((off + i) % 8)) n

/-- Whether the local store of a core lets an engine or another party touch a tile (R314, R479). -/
def Core.tileOpen (x : Core) (tile : Nat) : Bool :=
  match x.governs tile with
  | some k => (x.frame k).sys.engineMay tile
  | none => false

/-- The target's refusal of a window access (R127, R319). `asid` is none for a base-die engine. -/
def State.windowRefuses (s : State) (t : CoreId) (off n : Nat) (write : Bool) (asid : Option (BitVec 16)) : Option Cause :=
  let x := s.core t
  if x.lentTo.isSome ∧ off < 0x600000 then some Cause.windowLent
  else if x.cond = .dark ∧ x.lentTo.isNone then some Cause.windowRefused
  else if off < 0x400000 then
    let inside (f : Frame) : Bool := f.resident && decide (f.id.base * 512 ≤ off) && decide (off + n ≤ (f.id.base + f.id.foot) * 512)
    match allSlots.find? fun k => inside (x.frame k) with
    | none => some Cause.windowRefused
    | some k => match asid with
      | some a => if (x.frame k).sys.asid = a then none else some Cause.windowRefused
      | none => none
  else if off < 0x600000 then
    if (tilesOf (off - 0x400000) n).all x.tileOpen then none else some Cause.windowRefused
  else if write then some Cause.windowRefused
  else none

/-- The bytes a window read returns. -/
def State.windowRead (s : State) (t : CoreId) (off n : Nat) : Nat :=
  if off < 0x600000 then s.homeRead (winBase t + off) n else s.ctlPartRead t (off - 0x600000) n

/-! ## Engine accesses (R118, R120, R121, R241, R414) -/

/-- The engine translation caches of a core: copy units 0 and 1, tile fetch (R415). -/
def Core.engTlb (x : Core) (e : Fin 3) : List TlbEntry := x.utlb.get e

/-- What an engine command of a task may not touch (R118, R127, R319, R480). -/
def State.engineRefuses (s : State) (c : CoreId) (f : Frame) (pa n : Nat) (write : Bool) : Option Cause :=
  match placeOf c pa with
  | .mem => none
  | .control => some Cause.address
  | .ownLs o =>
    if (s.core c).lentTo.isSome then some Cause.windowLent
    else if (tilesOf o n).all f.sys.engineMay then none else some Cause.owner
  | .window t off => s.windowRefuses t off n write (some f.sys.asid)

/-- The pieces of an engine access after translation and refusals; the first failure with its address. -/
def engineSegs (s : State) (c : CoreId) (f : Frame) (e : Fin 3) (acc : Access) (va n : Nat) :
    Except Trap (List (Seg × Walked)) :=
  match xlate s (dieOf c) ((s.core c).engTlb e) f.space acc 0 (n / 0x10000 + 2) va n with
  | .error t => .error t
  | .ok l =>
    match l.findSome? fun x => (s.engineRefuses c f x.1.pa x.1.len (acc == .write)).map fun q => (q, x.1.va) with
    | some (q, va) => .error { cause := q, evaddr := wd va }
    | none => .ok l

/-- The translations of an engine access cached (R415); the walks that found them read memory. -/
def State.engineLearn (w : State) (c : CoreId) (e : Fin 3) (l : List (Seg × Walked)) : State :=
  ((l.foldl (fun (s : State) x => s.arriveWalk x.2) w).updDie (dieOf c) fun d => l.foldl (fun d x => d.learn x.2) d).updCore c fun x =>
    { x with utlb := x.utlb.set e.val (l.foldl (fun t y => cachePut t y.2.leaf 64) (x.utlb.get e)) e.isLt }

/-- The lines that an engine reads come into its die's L2 (R120, R281, R324, log 53). -/
def State.engineTake (s : State) (c : CoreId) (l : List (Seg × Walked)) : State :=
  l.foldl (fun s x => match placeOf c x.1.pa with
    | .mem => (linesOf x.1.pa x.1.len).foldl (fun s a => s.l2Fill (dieOf c) a) s
    | _ => s) s

/-- Bytes of one piece as an engine of the die reads them. -/
def State.engineReadSeg (s : State) (c : CoreId) (g : Seg) : Nat :=
  match placeOf c g.pa with
  | .mem => s.dieRead (dieOf c) g.pa g.len
  | .ownLs o => s.homeRead (lsBase c + o) g.len
  | .window t off => s.windowRead t off g.len
  | .control => 0

/-- The bytes of an engine read. -/
def State.engineRead (s : State) (c : CoreId) (l : List (Seg × Walked)) : Nat :=
  l.foldl (fun acc x => acc + s.engineReadSeg c x.1 <<< (8 * x.1.off)) 0

/-- The poisoned parts of a piece as an engine of the die reads it (R420): where they stand in the access, their length, the unit and the source. -/
def State.segBad (s : State) (c : CoreId) (g : Seg) : List (Nat × Nat × Nat × Nat) :=
  if s.poison.isEmpty && (s.dies.get (dieOf c)).poison.isEmpty || g.len = 0 then [] else
  let u := poisonUnit g.pa
  ((List.range ((g.pa + g.len - 1) / u + 1 - g.pa / u)).map fun i => (g.pa / u + i) * u).filterMap fun a =>
    (if physClass g.pa = .window then s.poisonOf a u else s.dieLinePoison (dieOf c) a).map fun p =>
      let lo := max a g.pa
      (g.off + (lo - g.pa), min (a + u) (g.pa + g.len) - lo, p)

/-- The poisoned parts of an engine's read: where they stand in it, their length, their source. -/
def State.segsBad (s : State) (c : CoreId) (l : List (Seg × Walked)) : List (Nat × Nat × Nat) :=
  (l.flatMap fun x => s.segBad c x.1).map fun b => (b.1, b.2.1, b.2.2.2)

/-- The trap values of poison in the pieces as a die's engines read them, when there is some. -/
def State.segsPoison (s : State) (d : DieId) (l : List (Seg × Walked)) : Option Trap :=
  l.findSome? fun x => (s.diePoison d x.1.pa x.1.len).map fun p => { trapOfPoison p with evaddr := wd x.1.va }

/-- The trap values of poison in the pieces at their home, when there is some. -/
def State.homePoison (s : State) (l : List (Seg × Walked)) : Option Trap :=
  l.findSome? fun x => (s.poisonOf x.1.pa x.1.len).map fun p => { trapOfPoison p with evaddr := wd x.1.va }

/-- A write at its home or target, under byte enables (R113, R126). -/
def State.placeWrite (s : State) (x : Stamp) (pa n v ben : Nat) (need : Need := .touch) : State :=
  if physClass pa = .window then s.chipWrite x pa n v ben else s.homeWriteEn x pa n v ben need

/-- A write of an engine's command (R120, R129): it knows what stood released at the command's issue. -/
def State.unitStamp (s : State) (by_ : Write) : Stamp :=
  let k := s.clock by_.w
  { by_ := { by_ with rel := k.rels.length, n := k.n + 1 } }

/-- Poisoned parts of the bytes that an access wrote (R420): every unit that one of them meets. -/
def State.spreadPoison (s : State) (g : Seg) (bad : List (Nat × Nat × Nat)) : State :=
  bad.foldl (fun s b =>
    let lo := max b.1 g.off
    let hi := min (b.1 + b.2.1) (g.off + g.len)
    if lo < hi then s.addPoison (g.pa + (lo - g.off)) (hi - lo) b.2.2 else s) s

/-- An engine write of every piece, performed at package scope (R121); the poisoned parts of what it writes spread (R420). -/
def State.engineWrite (s : State) (y : Stamp) (l : List (Seg × Walked)) (v : Nat) (bad : List (Nat × Nat × Nat)) (need : Need := .line) : State :=
  l.foldl (fun s x =>
    (s.placeWrite y x.1.pa x.1.len (field v (8 * x.1.off) (8 * x.1.len)) (ones x.1.len) need).spreadPoison x.1 bad) s

/-- The physical pieces that a virtual range of a task reaches now, one per 64 KiB page; parts that do not translate
reach none. -/
def State.rangePhys (s : State) (c : CoreId) (f : Frame) (va n : Nat) : List (Nat × Nat) :=
  (List.range (n / 0x10000 + 2)).flatMap fun i =>
    let a := if i = 0 then va else (va / 0x10000 + i) * 0x10000
    let e := min (va + n) ((va / 0x10000 + i + 1) * 0x10000)
    if a < e then
      match lookup s (dieOf c) (s.core c).l1tlb f.sys.asid f.sys.ptroot a with
      | .ok w => [(w.leaf.phys a, e - a)]
      | .error _ => []
    else []

/-- The tiles of a core's own local store among physical pieces (R118, R412). -/
def lsTiles (c : CoreId) (l : List (Nat × Nat)) : List Nat :=
  l.flatMap fun x => match placeOf c x.1 with
    | .ownLs o => tilesOf o x.2
    | _ => []

/-- A task's touched-tile mask extended (R412). -/
def State.touchTiles (w : State) (c : CoreId) (k : Fin 4) (l : List Nat) : State :=
  w.updFrameAt c k fun f => { f with sys := f.sys.touch l }

/-! ## The order of outstanding accesses (R108, R109) -/

/-- The FENCEs that a core has noted. -/
def Core.fences (x : Core) : List (Nat × BitVec 16) := allSlots.flatMap fun k => (x.frame k).msg.fences

/-- A core's atomics under way. -/
def Core.atomics (x : Core) : List Atomic := allSlots.flatMap fun k => (x.frame k).atoms

/-- Whether an outstanding access of number `id` and class `e` performs before a later one of number `now` and class `oc`: they share
a class, or a FENCE whose mask has both stands between. -/
def Core.orders (x : Core) (id e now oc : Nat) : Bool :=
  e == oc || x.fences.any fun f => decide (id < f.1) && decide (f.1 < now) && f.2.getLsbD e && f.2.getLsbD oc

/-- Whether a classed access of a core, of number `now`, of class `oc` and to [pa, pa+n), must wait for one that is outstanding: by class
or FENCE, for a byte they share, or for a release or acquire. -/
def State.mustWait (s : State) (c : CoreId) (now oc pa n : Nat) : Bool :=
  let x := s.core c
  (s.wins.any fun a => a.c == c && decide (a.id < now) && (a.order.isSome || x.orders a.id a.oc now oc || meets pa n a.pa a.n))
    || x.atomics.any fun a => decide (a.id < now) && (x.orders a.id a.oc now oc || meets pa n a.pa 8)

/-- Whether a core has outstanding accesses: `reads` asks for reads alone too. -/
def State.coreBusy (s : State) (c : CoreId) (writes reads : Bool) : Bool :=
  (s.wins.any fun a => a.c == c && (a.order.isSome || (writes && a.write) || (reads && !a.write)))
    || !(s.core c).atomics.isEmpty

/-- A release or acquire of a core that follows accesses of its own bundle is not complete: no later bundle issues (R111, R112). -/
def State.ordering (s : State) (c : CoreId) : Bool := s.wins.any fun a => a.c == c && a.order.isSome

/-! ## Line fills (R105, R324) -/

/-- Whether the L1 holds every byte of [pa, pa+n). -/
def Core.l1Holds (x : Core) (pa n : Nat) : Bool := decide ((x.l1.filter fun b => pa ≤ b.pa && b.pa < pa + n).length = n)

/-- The L1's line may be written back, and leave it, at any time (R105): a fill or a store asks for it once, some free number of cycles later. -/
def State.askWriteBack (s : State) (c : CoreId) (a : Nat) : State := s.postFree c 1 .l1WriteBack { n := a }

/-- A miss fills whole lines through the die's L2; bytes that the L1 holds stay as they are (R105, R324). -/
def State.fillLines (s : State) (c : CoreId) (pa n : Nat) : State :=
  (linesOf pa n).foldl (fun s a =>
    if (s.core c).l1Holds a 64 then s
    else
      let s := s.l2Fill (dieOf c) a
      (s.l1Fill c a 64 (s.coreRead c a 64)).askWriteBack c a) s

end Sys2Proof.Machine
end

