-- ==== Sys2Proof/Machine/Numbers.lean ====
section
/-! DEFINITION. Number formats and exact arithmetic: floats as exact dyadic numbers, one rounding at the end, the 4-bit
family, the special functions, the order of block sums, the partial-sum code (R75-R101, R190). -/

namespace Sys2Proof.Machine

open Sys2Proof

/-! ## Formats (R76, R79) -/

/-- A binary float format: exponent and fraction widths; `sat` for the 8-bit formats, whose conversions saturate;
`noInf` for e4m3. -/
structure FFmt where
  ebits : Nat
  mbits : Nat
  sat   : Bool := false
  noInf : Bool := false
  deriving DecidableEq, Repr, Inhabited

def f32 : FFmt := { ebits := 8, mbits := 23 }
def bf16 : FFmt := { ebits := 8, mbits := 7 }
def f16 : FFmt := { ebits := 5, mbits := 10 }
def e4m3 : FFmt := { ebits := 4, mbits := 3, sat := true, noInf := true }
def e5m2 : FFmt := { ebits := 5, mbits := 2, sat := true }

/-- Width in bits. -/
def FFmt.width (t : FFmt) : Nat := 1 + t.ebits + t.mbits
/-- Exponent bias. -/
def FFmt.bias (t : FFmt) : Nat := 2 ^ (t.ebits - 1) - 1
/-- The code of +infinity, or of NaN's neighbourhood in e4m3. -/
def FFmt.expOnes (t : FFmt) : Nat := (2 ^ t.ebits - 1) * 2 ^ t.mbits
/-- The largest finite magnitude's code. -/
def FFmt.maxCode (t : FFmt) : Nat := if t.noInf then 2 ^ (t.ebits + t.mbits) - 2 else t.expOnes - 1
/-- The canonical NaN. -/
def FFmt.qnan (t : FFmt) : Nat := if t.noInf then 2 ^ (t.ebits + t.mbits) - 1 else t.expOnes + 2 ^ (t.mbits - 1)

/-! ## Values -/

/-- A float's value: NaN, an infinity, or (-1)^neg * m * 2^e. -/
inductive FVal where
  | nan
  | inf (neg : Bool)
  | fin (neg : Bool) (m : Nat) (e : Int)
  deriving DecidableEq, Repr, Inhabited

/-- The value of a code (R76, R77, R79). -/
def FFmt.decode (t : FFmt) (x : Nat) : FVal :=
  let neg := x.testBit (t.width - 1)
  let mag := x % 2 ^ (t.ebits + t.mbits)
  let frac := mag % 2 ^ t.mbits
  let ex := mag / 2 ^ t.mbits
  let emin : Int := 1 - (t.bias : Int) - t.mbits
  if t.noInf then
    if mag = t.qnan then .nan
    else if ex = 0 then .fin neg frac emin else .fin neg (frac + 2 ^ t.mbits) (emin + ex - 1)
  else if t.expOnes ≤ mag then (if frac = 0 then .inf neg else .nan)
  else if ex = 0 then .fin neg frac emin
  else .fin neg (frac + 2 ^ t.mbits) (emin + ex - 1)

/-- The magnitude m * 2^sh for a shift of either sign, rounded toward zero or to nearest even; `sticky` says that the
exact magnitude lies above m by less than one unit. -/
def roundShift (rz : Bool) (m : Nat) (sh : Int) (sticky : Bool) : Nat :=
  if 0 ≤ sh then m <<< sh.toNat
  else
    let k := (-sh).toNat
    let q := m >>> k
    let r := m % 2 ^ k
    let half := 2 ^ (k - 1)
    if !rz && (half < r || (r == half && (sticky || q % 2 == 1))) then q + 1 else q

/-- The code of a rounded finite value (R78): rne or rtz into a float type. -/
def FFmt.roundFin (t : FFmt) (rz neg : Bool) (m : Nat) (e : Int) (sticky : Bool) : Nat :=
  let sign := if neg then 2 ^ (t.width - 1) else 0
  if m = 0 then sign else
  let lead : Int := Nat.log2 m + e
  let emin : Int := 1 - (t.bias : Int)
  let q : Int := max lead emin - t.mbits
  let n := roundShift rz m (e - q) sticky
  let code := (q - (emin - t.mbits)).toNat * 2 ^ t.mbits + n
  let lim := if t.sat || rz then t.maxCode else t.expOnes
  sign + (if t.maxCode < code then lim else code)

/-- The code of a value after one rounding (R77, R78). -/
def FFmt.round (t : FFmt) (rz : Bool) (x : FVal) : Nat :=
  match x with
  | .nan => t.qnan
  | .inf neg => (if neg then 2 ^ (t.width - 1) else 0) + (if t.sat then t.maxCode else t.expOnes)
  | .fin neg m e => t.roundFin rz neg m e false

/-- rne(x, t). -/
def FFmt.rne (t : FFmt) (x : FVal) : Nat := t.round false x

/-! ## Exact arithmetic (R78, R80) -/

/-- The magnitude as an integer of units 2^lo, with its sign. -/
def signedAt (neg : Bool) (m : Nat) (e lo : Int) : Int :=
  let v : Int := ((m <<< (e - lo).toNat : Nat) : Int)
  if neg then -v else v

/-- Exact sum; a zero sum is -0 only when both are negative. -/
def FVal.add : FVal → FVal → FVal
  | .nan, _ => .nan
  | _, .nan => .nan
  | .inf a, .inf b => if a = b then .inf a else .nan
  | .inf a, _ => .inf a
  | _, .inf b => .inf b
  | .fin na ma ea, .fin nb mb eb =>
    if ma = 0 then (if mb = 0 then .fin (na && nb) 0 0 else .fin nb mb eb)
    else if mb = 0 then .fin na ma ea
    else
      let lo := min ea eb
      let v := signedAt na ma ea lo + signedAt nb mb eb lo
      if v = 0 then .fin (na && nb) 0 0 else .fin (decide (v < 0)) v.natAbs lo

/-- Negation. -/
def FVal.neg : FVal → FVal
  | .nan => .nan
  | .inf a => .inf !a
  | .fin a m e => .fin (!a) m e

/-- Magnitude. -/
def FVal.abs : FVal → FVal
  | .nan => .nan
  | .inf _ => .inf false
  | .fin _ m e => .fin false m e

/-- Exact product. -/
def FVal.mul : FVal → FVal → FVal
  | .nan, _ => .nan
  | _, .nan => .nan
  | .inf a, .inf b => .inf (a != b)
  | .inf a, .fin b m _ => if m = 0 then .nan else .inf (a != b)
  | .fin b m _, .inf a => if m = 0 then .nan else .inf (a != b)
  | .fin a m e, .fin b n f => .fin (a != b) (m * n) (e + f)

/-- Whether one number is below another; false with a NaN; the zeros are equal. -/
def FVal.lt : FVal → FVal → Bool
  | .nan, _ => false
  | _, .nan => false
  | .inf a, .inf b => a && !b
  | .inf a, .fin _ _ _ => a
  | .fin _ _ _, .inf b => !b
  | .fin na ma ea, .fin nb mb eb =>
    let lo := min ea eb
    decide (signedAt na ma ea lo < signedAt nb mb eb lo)

/-- Whether a value is a NaN. -/
def FVal.isNan : FVal → Bool
  | .nan => true
  | _ => false

/-- The sign of a number. -/
def FVal.isNeg : FVal → Bool
  | .nan => false
  | .inf n => n
  | .fin n _ _ => n

/-- MIN of R80: a NaN gives the other operand, and -0 orders below +0. -/
def FVal.min (x y : FVal) : FVal :=
  if x.isNan then y else if y.isNan then x
  else if x.lt y then x else if y.lt x then y else if x.isNeg then x else y
/-- MAX of R80. -/
def FVal.max (x y : FVal) : FVal :=
  if x.isNan then y else if y.isNan then x
  else if x.lt y then y else if y.lt x then x else if x.isNeg then y else x

/-- Equality as numbers: the zeros are equal, a NaN equals nothing. -/
def FVal.eq (x y : FVal) : Bool := !x.isNan && !y.isNan && !x.lt y && !y.lt x

/-! ## Integers (R75, R78, R92) -/

/-- An integer type: width and sign. -/
structure IFmt where
  w : Nat
  signed : Bool
  deriving DecidableEq, Repr, Inhabited

/-- The value of a code. -/
def IFmt.decode (t : IFmt) (x : Nat) : Int := if t.signed then toInt t.w x else ((x % 2 ^ t.w : Nat) : Int)
/-- Smallest and largest value. -/
def IFmt.lo (t : IFmt) : Int := if t.signed then -((2 : Int) ^ (t.w - 1)) else 0
def IFmt.hi (t : IFmt) : Int := if t.signed then (2 : Int) ^ (t.w - 1) - 1 else (2 : Int) ^ t.w - 1
/-- sat(x, t) as a code. -/
def IFmt.sat (t : IFmt) (x : Int) : Nat := ofInt t.w (if x < t.lo then t.lo else if t.hi < x then t.hi else x)

/-- A float into an integer type (R92). -/
def IFmt.ofFloat (t : IFmt) (rz : Bool) (x : FVal) : Nat :=
  match x with
  | .nan => 0
  | .inf neg => t.sat (if neg then t.lo else t.hi)
  | .fin neg m e =>
    -- a magnitude of 2^64 and more saturates whatever its low bits
    let n : Int := if m ≠ 0 ∧ 64 < (Nat.log2 m : Int) + e then 2 ^ 65 else (roundShift rz m e false : Nat)
    t.sat (if neg then -n else n)

/-- An exact integer as a value; zero is +0. -/
def FVal.ofInt (x : Int) : FVal := .fin (decide (x < 0)) x.natAbs 0

/-! ## The 4-bit family (R81-R86) -/

/-- Magnitude of index i in sixty-fourths (R83): E2M1, power of two, hybrid. -/
def q4Magnitude (ty i : Nat) : Nat :=
  match ty with
  | 1 => [0, 32, 64, 96, 128, 192, 256, 384].getD i 0
  | 2 => [0, 1, 2, 4, 8, 16, 32, 64].getD i 0
  | _ => [0, 64, 128, 192, 256, 384, 512, 768].getD i 0

/-- The value of a code under its scale byte (R82-R84). -/
def q4Decode (scale code : Nat) : FVal :=
  if scale = 0x3F then .nan else
  let ty := scale / 64
  let e : Int := (scale % 64 : Nat) - 40
  if ty = 0 then
    let v := toInt 4 code
    .fin (decide (v < 0)) v.natAbs e
  else .fin (code.testBit 3) (q4Magnitude ty (code % 8)) (e - 6)

/-- Mmax of R86. -/
def q4Max (ty : Nat) : Nat := [7, 6, 1, 12].getD ty 0
/-- Emax of R86. -/
def q4Emax (ty : Nat) : Nat := if ty = 0 then 62 else 63

/-- Whether amax <= Mmax * 2^(e-40). -/
def q4Fits (ty : Nat) (amax : FVal) (e : Nat) : Bool := !(FVal.fin false (q4Max ty) ((e : Int) - 40)).lt amax

/-- The exponent of R86: the smallest that fits, else Emax. -/
def q4Exponent (ty : Nat) (amax : FVal) : Nat :=
  ((List.range (q4Emax ty + 1)).find? (q4Fits ty amax)).getD (q4Emax ty)

/-- The magnitude of a value in units of 2^-k of the scale, with what lies below marked, saturated at 2^20 units. -/
def q4Units (x : FVal) (e : Int) : Nat × Bool :=
  match x with
  | .nan => (0, false)
  | .inf _ => (2 ^ 20, false)
  | .fin _ m f =>
    let sh := f - e
    if m ≠ 0 ∧ 20 < (Nat.log2 m : Int) + sh then (2 ^ 20, false)
    else if 0 ≤ sh then (m <<< sh.toNat, false)
    else (m >>> (-sh).toNat, decide (m % 2 ^ (-sh).toNat ≠ 0))

/-- The index whose magnitude is nearest, a tie to the even index (R86). `y` is in units of 1/128. -/
def q4Index (ty : Nat) (y : Nat) (more : Bool) : Nat :=
  -- the number of boundaries below y; a boundary between i and i+1 in 1/128 is the sum of the two magnitudes in 1/64
  ((List.range 7).filter fun i =>
    let b := q4Magnitude ty i + q4Magnitude ty (i + 1)
    decide (b < y) || (b == y && (more || i % 2 == 1))).length

/-- The code of one value under the block's exponent (R86). -/
def q4Code (ty e : Nat) (x : FVal) : Nat :=
  let lo : Int := (e : Int) - 40
  if ty = 0 then
    let (y, more) := q4Units x (lo - 2)
    -- quarters, rounded to nearest even with the bits below
    let n := roundShift false y (-2) more
    let v : Int := if x.isNeg then -(n : Int) else (n : Int)
    ofInt 4 (if v < -8 then -8 else if 7 < v then 7 else v)
  else
    let (y, more) := q4Units x (lo - 7)
    let i := q4Index ty y more
    if i = 0 then 0 else (if x.isNeg then 8 else 0) + i

/-- The largest magnitude of a list of numbers. -/
def amaxOf (l : List FVal) : FVal := l.foldl (fun a x => a.max x.abs) (.fin false 0 0)

/-- A block of 32 values quantised: scale byte and codes (R86). -/
def q4Quantise (ty : Nat) (xs : List FVal) : Nat × List Nat :=
  if xs.any (·.isNan) then (0x3F, xs.map fun _ => 0)
  else
    let e := q4Exponent ty (amaxOf xs)
    (ty * 64 + e, xs.map (q4Code ty e))

/-! ## Element types of vector operations (R179, R183) -/

/-- Type codes: 0 f32, 1 bf16, 2 f16, 3 i32, 4 i16, 5 i8, 6 n32, 7 n16. -/
def typeBytes (t : Nat) : Nat := [4, 2, 2, 4, 2, 1, 4, 2].getD t 4
/-- The float format of a type code. -/
def typeFloat (t : Nat) : Option FFmt :=
  match t with
  | 0 => some f32
  | 1 => some bf16
  | 2 => some f16
  | _ => none
/-- The integer format of a type code. -/
def typeInt (t : Nat) : IFmt := { w := 8 * typeBytes t, signed := decide (t < 6) }

/-! ## Special functions (R190): fixed point of 400 fraction bits -/

/-- Fraction bits. -/
def fxBits : Nat := 400
/-- One. -/
def fxOne : Nat := 2 ^ fxBits
/-- floor(pi * 2^400). -/
def fxPi : Nat := 0x3243f6a8885a308d313198a2e03707344a4093822299f31d0082efa98ec4e6c89452821e638d01377be5466cf34e90c6cc0ac
/-- floor(ln 2 * 2^400). -/
def fxLn2 : Nat := 0xb17217f7d1cf79abc9e3b39803f2f6af40f343267298b62d8a0d175b8baafa2be7b876206debac98559552fb4afa1b10ed2e
/-- floor(1/ln 2 * 2^400). -/
def fxLog2e : Nat := 0x171547652b82fe1777d0ffda0d23a7d11d6aef551bad2b4b1164a2cd9a342648fbc3887eeaa2ed9ac49b25eeb82d7c167d521

/-- A magnitude as fixed point; exact for every f32 of magnitude below 2^400. -/
def toFx (m : Nat) (e : Int) : Nat :=
  let sh : Int := e + fxBits
  if 0 ≤ sh then m <<< sh.toNat else m >>> (-sh).toNat

/-- Sum of terms term, term * x/(n+1), ... of the exponential series. -/
def expSeries (x : Nat) : Nat → Nat → Nat → Nat
  | 0, _, _ => 0
  | fuel + 1, n, term => term + expSeries x fuel (n + 1) (term * x / fxOne / (n + 1))

/-- e^x for fixed point x below 1. -/
def fxExp (x : Nat) : Nat := expSeries x 100 0 fxOne

/-- 2^x of a fixed-point magnitude: integer part and fraction's power. -/
def fxExp2 (x : Nat) : Nat × Nat := (x / fxOne, fxExp (x % fxOne * fxLn2 / fxOne))

/-- Alternating series of sine or cosine: terms term, -term*x2/((n+1)(n+2)), ... as positive and negative sums. -/
def trigSeries (x2 : Nat) : Nat → Nat → Nat → Int
  | 0, _, _ => 0
  | fuel + 1, n, term => (term : Int) - trigSeries x2 fuel (n + 2) (term * x2 / fxOne / ((n + 1) * (n + 2)))

/-- sin x for fixed point x up to pi/2. -/
def fxSin (x : Nat) : Int := trigSeries (x * x / fxOne) 60 1 x
/-- cos x for fixed point x up to pi/2. -/
def fxCos (x : Nat) : Int := trigSeries (x * x / fxOne) 60 0 fxOne

/-- atanh series: z + z^3/3 + ... -/
def atanhSeries (z2 : Nat) : Nat → Nat → Nat → Nat
  | 0, _, _ => 0
  | fuel + 1, n, p => p / n + atanhSeries z2 fuel (n + 2) (p * z2 / fxOne)

/-- log2 of a fixed-point number in [1, 2). -/
def fxLog2 (x : Nat) : Nat :=
  let z := (x - fxOne) * fxOne / (x + fxOne)
  2 * atanhSeries (z * z / fxOne) 140 1 z * fxLog2e / fxOne

/-- Integer square root by bits from 2^n down. -/
def isqrt (v : Nat) : Nat → Nat → Nat
  | 0, r => r
  | n + 1, r => let c := r + 2 ^ n; isqrt v n (if c * c ≤ v then c else r)

/-- The f32 nearest to an irrational fixed-point magnitude, scaled by 2^k. -/
def fxRound (neg : Bool) (x : Nat) (k : Int) : Nat := f32.roundFin false neg x (k - fxBits) true

/-- rne(1/x, f32). -/
def sfRcp (x : FVal) : Nat :=
  match x with
  | .nan => f32.qnan
  | .inf n => f32.rne (.fin n 0 0)
  | .fin n m e =>
    if m = 0 then f32.rne (.inf n) else
    f32.roundFin false n (2 ^ 200 / m) (-200 - e) (decide (2 ^ 200 % m ≠ 0))

/-- rne(1/sqrt x, f32). -/
def sfRsq (x : FVal) : Nat :=
  match x with
  | .nan => f32.qnan
  | .inf n => if n then f32.qnan else f32.rne (.fin false 0 0)
  | .fin n m e =>
    if m = 0 then f32.rne (.inf n)
    else if n then f32.qnan
    else
      let (m, e) := if e % 2 = 0 then (m, e) else (2 * m, e - 1)
      let v := 2 ^ 240 / m
      let r := isqrt v 121 0
      f32.roundFin false false r (-120 - e / 2) (decide (r * r * m ≠ 2 ^ 240))

/-- rne(2^x, f32). -/
def sfExp2 (x : FVal) : Nat :=
  match x with
  | .nan => f32.qnan
  | .inf n => if n then 0 else f32.rne (.inf false)
  | .fin n m e =>
    if m = 0 then f32.rne (.fin false 1 0)
    else if 9 ≤ (Nat.log2 m : Int) + e then (if n then 0 else f32.rne (.inf false))
    else
      let y := toFx m e
      if y % fxOne = 0 then f32.rne (.fin false 1 (if n then -((y / fxOne : Nat) : Int) else ((y / fxOne : Nat) : Int)))
      else if n then
        -- x = -(q + f) = -(q + 1) + (1 - f)
        let z := (y / fxOne + 1) * fxOne - y
        fxRound false (fxExp2 z).2 (-((y / fxOne + 1 : Nat) : Int))
      else fxRound false (fxExp2 y).2 ((fxExp2 y).1 : Nat)

/-- rne(log2 x, f32). -/
def sfLog2 (x : FVal) : Nat :=
  match x with
  | .nan => f32.qnan
  | .inf n => if n then f32.qnan else f32.rne (.inf false)
  | .fin n m e =>
    if m = 0 then f32.rne (.inf true)
    else if n then f32.qnan
    else
      let k := Nat.log2 m
      let q : Int := k + e
      if m = 2 ^ k then f32.rne (FVal.ofInt q)
      else
        let l : Int := q * fxOne + (fxLog2 (m <<< (fxBits - k)) : Nat)
        fxRound (decide (l < 0)) l.natAbs 0

/-- e^y of a fixed-point magnitude, as 2^k times a fixed-point number in [1, 2). -/
def fxExpE (y : Nat) : Nat × Nat := fxExp2 (y * fxLog2e / fxOne)

/-- rne(tanh x, f32). -/
def sfTanh (x : FVal) : Nat :=
  match x with
  | .nan => f32.qnan
  | .inf n => f32.rne (.fin n 1 0)
  | .fin n m e =>
    if m = 0 then f32.rne (.fin n 0 0)
    else if 5 ≤ (Nat.log2 m : Int) + e then f32.rne (.fin n 1 0)
    else
      let (k, f) := fxExpE (2 * toFx m e)
      let u := f <<< k
      fxRound n ((u - fxOne) * fxOne / (u + fxOne)) 0

/-- rne(1/(1 + e^-x), f32). -/
def sfSigm (x : FVal) : Nat :=
  match x with
  | .nan => f32.qnan
  | .inf n => if n then 0 else f32.rne (.fin false 1 0)
  | .fin n m e =>
    if m = 0 then f32.rne (.fin false 1 (-1))
    else if 8 ≤ (Nat.log2 m : Int) + e then (if n then 0 else f32.rne (.fin false 1 0))
    else
      let (k, f) := fxExpE (toFx m e)
      let u := f <<< k
      -- 1/(1+1/u) = u/(u+1) for x > 0, 1/(1+u) for x < 0
      if n then fxRound false (2 ^ 400 * fxOne * fxOne / (u + fxOne)) (-400)
      else fxRound false (u * fxOne / (u + fxOne)) 0

/-- Whether a magnitude lies above 2^20 * pi. -/
def trigTooBig (m : Nat) (e : Int) : Bool :=
  decide (22 ≤ (Nat.log2 m : Int) + e) || decide (fxPi * 2 ^ 20 < toFx m e)

/-- rne of the sine (`quarter` 0) or cosine (1) of x. -/
def sfTrig (quarter : Nat) (x : FVal) : Nat :=
  match x with
  | .nan => f32.qnan
  | .inf _ => f32.qnan
  | .fin n m e =>
    if m = 0 then (if quarter = 0 then f32.rne (.fin n 0 0) else f32.rne (.fin false 1 0))
    else if trigTooBig m e then f32.qnan
    else
      let y := toFx m e
      let q := 2 * y / fxPi
      let r := (2 * y - q * fxPi) / 2
      let k := (q + quarter) % 4
      let v := if k % 2 = 0 then fxSin r else fxCos r
      let neg := decide (2 ≤ k) != (quarter == 0 && n)
      fxRound (neg != decide (v < 0)) v.natAbs 0

/-! ## Reductions and scans (R96, R97) -/

/-- One level of the pairwise tree. -/
def treeLevel {α : Type} (op : α → α → α) : List α → List α
  | a :: b :: l => op a b :: treeLevel op l
  | l => l

/-- The pairwise tree of R96 over 2^n elements. -/
def treeReduce {α : Type} (op : α → α → α) : Nat → List α → List α
  | 0, l => l
  | n + 1, l => treeReduce op n (treeLevel op l)

/-- The inclusive scan of R97. -/
def scanList {α : Type} (op : α → α → α) (acc : α) : List α → List α
  | [] => []
  | x :: xs => let y := op acc x; y :: scanList op y xs

/-- rne(x + y, f32) of two f32 codes. -/
def addF32 (x y : Nat) : Nat := f32.rne ((f32.decode x).add (f32.decode y))

/-! ## Block sums (R93-R95) -/

/-- The exact sum of products of one K-block: -0 when every product is -0. -/
def blockSum (a b : List FVal) : FVal := (List.zipWith FVal.mul a b).foldl FVal.add (.fin true 0 0)

/-- One output of a floating MMA: its four K-blocks in ascending order, one rounding each. -/
def mmaSum (c : Nat) : List (List FVal × List FVal) → Nat
  | [] => c
  | (a, b) :: l => mmaSum (f32.rne ((f32.decode c).add (blockSum a b))) l

/-! ## The partial-sum code of the fabric (R99, R100) -/

/-- W of R100 for a group's values. -/
def psWidth (l : List Nat) : Nat :=
  let e0 := (l.map fun x => field x 23 8).foldl max 0
  if l.all fun x => field x 23 8 == e0 then 0
  else ((List.range' 1 8).find? fun w => l.all fun x => let e := field x 23 8; e == 0 || decide (e0 - e ≤ 2 ^ w - 2)).getD 8

/-- A group of up to 16 f32 codes as its bit string (R99, R100): a short one is padded with +0. -/
def psEncode (l : List Nat) : Nat :=
  let l := l ++ List.replicate (16 - l.length) 0
  let e0 := (l.map fun x => field x 23 8).foldl max 0
  let w := psWidth l
  let val (x : Nat) : Nat :=
    let e := field x 23 8
    let delta := if w = 0 then 0 else if e = 0 then 2 ^ w - 1 else e0 - e
    x % 2 ^ 23 + delta * 2 ^ 23 + (x / 2 ^ 31) * 2 ^ (23 + w)
  e0 + w * 256 + (l.foldr (fun x acc => val x + acc * 2 ^ (24 + w)) 0) * 65536

/-- The 16 values of a group, or none for a malformed one (R99, R100). -/
def psDecode (g : Nat) : Option (List Nat) :=
  let w := field g 8 4
  if 8 < w ∨ field g 12 4 ≠ 0 then none
  else
    let e0 := g % 256
    some ((List.range 16).map fun i =>
      let v := field g (16 + (24 + w) * i) (24 + w)
      let delta := field v 23 w
      let e := if 0 < w ∧ delta = 2 ^ w - 1 then 0 else e0 - delta
      v % 2 ^ 23 + (e % 256) * 2 ^ 23 + (v / 2 ^ (23 + w)) * 2 ^ 31)

/-- Bytes of a group (R99). -/
def psSize (g : Nat) : Nat := 2 + 2 * (24 + field g 8 4)

/-- A payload of f32 partial sums, its groups end to end, as a number of so many bytes (R99, R309). -/
def psPack : Nat → List Nat → Nat × Nat
  | 0, _ => (0, 0)
  | fuel + 1, l =>
    if l.isEmpty then (0, 0) else
    let g := psEncode (l.take 16)
    let (rest, n) := psPack fuel (l.drop 16)
    (g + rest * 256 ^ psSize g, psSize g + n)

/-- The `n` values of a payload as the receiver takes them, the padding discarded; none for a link error (R99). -/
def psUnpack : Nat → Nat → Nat → Option (List Nat)
  | 0, _, _ => some []
  | fuel + 1, n, x =>
    if n = 0 then some [] else do
    let l ← psDecode x
    let rest ← psUnpack fuel (n - 16) (x / 256 ^ psSize x)
    some (l.take n ++ rest)

/-- Flits of a payload of so many bytes (R309). -/
def flitsOf (n : Nat) : Nat := ceilDiv n 64

/-- One level of the tree of a gang's reduction: neighbours combine (R101, R309). Which sum stands alone where their number is odd the manual does
not say: the model carries the last one up unchanged (log 74). -/
def pairSums : List Nat → List Nat
  | a :: b :: l => addF32 a b :: pairSums l
  | l => l

/-- The tree of a gang's reduction over the die sums, in ascending die number. -/
def treeSum : Nat → List Nat → Nat
  | 0, l => l.headD 0
  | fuel + 1, l => treeSum fuel (pairSums l)

/-- A gang's reduction of f32 partial sums (R101, R309): `l` gives each member's die and value in ascending member index. The members of a die combine in
that order, then the die sums pairwise in ascending die number; a die's sum crosses the fabric coded, which changes no bit. -/
def gangSum (l : List (Nat × Nat)) : Nat :=
  let sums := (List.range 8).filterMap fun d => match (l.filter (·.1 == d)).map (·.2) with
    | [] => none
    | x :: xs => some (xs.foldl addF32 x)
  treeSum 3 (sums.map fun x => ((psUnpack 1 1 (psPack 1 [x]).1).bind List.head?).getD x)

end Sys2Proof.Machine
end

