-- ==== Sys2Proof/Machine/MemOps.lean ====
section
/-! DEFINITION. Memory operations: scalar and vector loads and stores, gathers and scatters, atomics, ordering,
flushing, prefetching and translation invalidation (R104-R117, R140-R142, R228-R236, R256, R416). -/

namespace Sys2Proof.Machine

open Sys2Proof

/-! ## Classed accesses (R103, R108, R109, R126, R142) -/

/-- The pieces of a classed access after its checks; it waits for the outstanding accesses it must follow. -/
def classed (s0 : State) (va n : Nat) (k : Access) (ctl : Bool) (oc : Nat) : Except Stop (List (Seg × Walked)) := do
  let l ← checkAccess s0 va n k ctl
  let _ ← holdWhile (l.any fun x => s0.mustWait s0.cur s0.nextId oc x.1.pa x.1.len)
  .ok l

/-- Whether a piece performs elsewhere: in a window or a control space. -/
def Seg.far (g : Seg) (c : CoreId) : Bool :=
  match placeOf c g.pa with
  | .window _ _ => true
  | .control => true
  | _ => false

/-- An access travels: to its target core, to a control space, or about its own core. -/
def State.carry (w : State) (a : WinAcc) : State :=
  match placeOf a.c a.pa with
  | .window t _ => w.postFree (if a.order.isSome then a.c else t) 1 .windowAccessArrive { id := a.id }
  | .control => w.postLater 1 .windowAccessArrive { id := a.id }
  | _ => w.postFree a.c 1 .windowAccessArrive { id := a.id }

/-- An access sent on its way: to its target core, to a control space, or to its own core's memory once what it follows has performed
(R109, R126, R480). -/
def State.sendAccess (w : State) (a : WinAcc) : State :=
  let id := w.fresh
  { w.bump with wins := w.wins ++ [{ a with id := id }] }.carry { a with id := id }

/-- A piece of the running task's access. -/
def State.pieceAccess (w : State) (g : Seg) (oc : Nat) : WinAcc :=
  { c := w.cur, k := w.here.run, pa := g.pa, va := g.va, n := g.len, oc := oc, off := g.off, asid := w.fr.sys.asid, user := !w.fr.id.mode }

/-- Whether a piece misses the core's L1 and its die's L2 in a line of a quiesced stack, at whose home slice it then holds (R378). -/
def State.missesClosed (w : State) (g : Seg) : Bool :=
  placeOf w.cur g.pa == .mem && (linesOf g.pa g.len).any fun a =>
    w.stackClosed a && !w.here.l1Holds a 64 && !(w.dies.get (dieOf w.cur)).lines.contains a

/-- Whether a piece performs later: elsewhere, at a quiesced stack, or after an access of an earlier slot or lane that it follows (R108,
R109, R378). -/
def State.sends (w : State) (g : Seg) (oc : Nat) : Bool :=
  g.far w.cur || w.mustWait w.cur w.nextId oc g.pa g.len || w.missesClosed g

/-- A read at the core: missing lines are filled, the writes read are noted; its bytes and the source of their poison. -/
def State.nearRead (s : State) (c : CoreId) (pa n : Nat) : State × Nat × Option Nat :=
  match placeOf c pa with
  | .mem =>
    let s := s.fillLines c pa n
    (s.observe (coreWriter c) (s.writesRead c pa n), s.coreRead c pa n, (s.corePoison c pa n).map (·.2))
  | .ownLs o =>
    (s.observe (coreWriter c) (s.marksAt (lsBase c + o) n), s.homeRead (lsBase c + o) n, (s.poisonOf (lsBase c + o) n).map (·.2))
  | _ => (s, 0, none)

/-- A write of an ordering class at the core: performed at core scope in the L1, or applied in the own local store (R105, R106). -/
def State.nearWrite (s : State) (c : CoreId) (oc pa n v ben : Nat) : State :=
  match placeOf c pa with
  | .mem => (linesOf pa n).foldl (fun s a => s.askWriteBack c a) ((s.coreWrite c oc pa n v ben).fillLines c pa n)
  | .ownLs o => (s.chipWrite { by_ := s.nextWrite (coreWriter c) oc } (lsBase c + o) n v ben).wrote (coreWriter c)
  | _ => s

/-- A load enters flight; one whose bytes are all bound has its landing scheduled, after the least latency when it hit the L1 (R133, R141,
R229). -/
def State.pendData (w : State) (c : SlotCtx) (p : Pending) (hit : Bool) (least : Nat) (row : Instr) : State :=
  let id := seqOf (w.cyc w.cur) c.slot
  let k := w.here.run
  let w := w.updFr fun f =>
    let f := cancelSame id p.dest p.ben f
    { f with loads := f.loads ++ [{ p with id := id }] }
  if p.parts ≠ 0 then w
  else if hit then w.postCore w.cur (w.cyc w.cur + (least - 1)) row { k := k, id := id }
  else w.postFree w.cur (least - 1) row { k := k, id := id }

/-! ## Invalidation of translations (R416, R417) -/

/-- Whether one of the ranges holds an address. -/
def inParts (l : List (Nat × Nat)) (pa : Nat) : Bool := l.any fun r => decide (r.1 ≤ pa) && decide (pa < r.1 + r.2)

/-- Entries that an invalidation removes: every ASID or one, all addresses or a range. -/
structure Inval where
  every : Bool := false
  asid  : BitVec 16 := 0
  range : Option (Nat × Nat) := none
  deriving DecidableEq, Repr, Inhabited

/-- Whether an ASID is named. -/
def Inval.names (v : Inval) (asid : BitVec 16) : Bool := v.every || v.asid == asid

/-- Whether an entry is removed: a page that overlaps the range goes whole. -/
def Inval.removes (v : Inval) (e : TlbEntry) : Bool :=
  v.names e.asid && match v.range with
    | some (a, n) => meets a n e.va (2 ^ e.log)
    | none => true

/-- The accesses still under way that may have used a removed translation. -/
def State.invalIds (s : State) (v : Inval) : List Nat :=
  (s.wins.filter fun a => a.order.isNone && v.names a.asid).map (·.id)
    ++ s.cores.toList.flatMap fun x => allSlots.flatMap fun k =>
      if v.names (x.frame k).sys.asid then (x.frame k).atoms.map (·.id) else []

/-- Whether an access or atomic is still under way. -/
def State.underWay (s : State) (id : Nat) : Bool :=
  s.wins.any (·.id == id) || s.cores.toList.any fun x => allSlots.any fun k => (x.frame k).atoms.any (·.id == id)

/-- All 256 cores. -/
def allCores : List CoreId := (List.range 256).map (Fin.ofNat 256)

/-- The frames of the removed translations through which stores have gone, as physical ranges (R383). -/
def State.invalRanges (s : State) (v : Inval) : List (Nat × Nat) :=
  (s.cores.toList.flatMap fun x => x.written.filter v.removes).foldl
    (fun acc e => if acc.contains (e.pa, 2 ^ e.log) then acc else acc ++ [(e.pa, 2 ^ e.log)]) []

/-- Every cached translation that an invalidation names goes (R416, steps 1 to 3). -/
def State.dropEntries (s : State) (v : Inval) : State :=
  let s := allCores.foldl (fun s c =>
    let x := s.core c
    if x.l1tlb.isEmpty && x.written.isEmpty && x.utlb.toList.all (·.isEmpty) then s else
    s.updCore c fun x => { x with l1tlb := x.l1tlb.filter (fun e => !v.removes e), written := x.written.filter fun e => !v.removes e,
                                  utlb := ([0, 1, 2] : List (Fin 3)).foldl (fun u i =>
                                    u.set i.val ((u.get i).filter fun e => !v.removes e) i.isLt) x.utlb }) s
  let s := allDies.foldl (fun s d => s.updDie d fun x =>
    { x with l2tlb := x.l2tlb.filter (fun e => !v.removes e), walkc := x.walkc.filter fun e => !v.names e.asid }) s
  allDies.foldl (fun s d => s.updBase d fun x => { x with tlb := x.tlb.filter fun e => !v.removes e }) s

/-- The lines of the ranges are written back at package scope from every L1 and L2, and leave the L1s (R383). -/
def State.drainLines (s : State) (l : List (Nat × Nat)) : State :=
  if l.isEmpty then s else
  let s := allCores.foldl (fun s c =>
    if (s.core c).l1.isEmpty then s else
    (s.writeBack c 3 (inParts l)).updCore c (·.discard fun b => inParts l b.pa)) s
  allDies.foldl (fun s d => s.flushDie d (inParts l)) s

/-- The whole protocol, when no access waits (R416). -/
def State.invalidate (s : State) (v : Inval) : State := (s.dropEntries v).drainLines (s.invalRanges v)

/-- The request of an invalidation that must wait: the translations go, and the accesses that may have used them are noted (R416). -/
def State.requestInval (s : State) (v : Inval) : State :=
  { (s.dropEntries v).bump with
    invals := s.invals ++ [{ id := s.fresh, ids := s.invalIds v, ranges := s.invalRanges v }] }

/-- Invalidations whose accesses have all performed write their lines back and end (R416, R417). -/
def State.settleDrains (s : State) : State :=
  let due := s.invals.filter fun q => !q.ids.any s.underWay
  if due.isEmpty then s else
  due.foldl (fun s q => s.drainLines q.ranges) { s with invals := s.invals.filter fun q => q.ids.any s.underWay }

/-! ## Atomics at their home (R116, R232) -/

/-- New value of the word, none where ACAS fails: opcodes 0-7 in the order of R232. -/
def atomNew (op old : Nat) (x new : Word) : Option Nat :=
  let o := wd old
  match op with
  | 0 => some (o + x).toNat
  | 1 => some (if o.toInt ≤ x.toInt then o else x).toNat
  | 2 => some (if x.toInt ≤ o.toInt then o else x).toNat
  | 3 => some (o &&& x).toNat
  | 4 => some (o ||| x).toNat
  | 5 => some x.toNat
  | 6 => if o = x then some new.toNat else none
  | _ => some (addF32 (old % 2 ^ 32) (x.toNat % 2 ^ 32))

/-- Bytes of an atomic's word. -/
def atomSize (op : Nat) : Nat := if op = 7 then 4 else 8

/-- Every die's newer copy of the bytes goes home, so that the home holds the word's latest write (R105, R116). -/
def State.flushBytes (s : State) (pa n : Nat) : State :=
  allDies.foldl (fun s d => s.flushDie d fun a => decide (pa ≤ a) && decide (a < pa + n)) s

/-- The core's own copy of the bytes goes home where it is dirty, and is discarded (R116). -/
def State.evictWord (s : State) (c : CoreId) (pa n : Nat) : State :=
  let inWord (a : Nat) : Bool := decide (pa ≤ a) && decide (a < pa + n)
  match placeOf c pa with
  | .mem => (s.writeBack c 3 inWord).updCore c (·.discard fun b => inWord b.pa)
  | _ => s

/-- The indivisible read and write at the home (R116, R232); what the core wrote or filled since the atomic issued goes first. -/
def State.performAtomic (s : State) (c : CoreId) (k : Fin 4) (at_ : Atomic) : State :=
  let n := atomSize at_.op
  let s := s.evictWord c at_.pa n
  let put (s : State) (old : Nat) : State := match atomNew at_.op old at_.x at_.new with
    | some v => (s.placeWrite { by_ := s.nextWrite (coreWriter c) at_.oc, atomic := true } at_.pa n v (ones n)).wrote (coreWriter c)
    | none => s
  let dest (s : State) (old : Nat) (poison : Option (Nat × Nat)) : State :=
    if at_.dest = 0 ∨ at_.dead then s else
    let s := s.updFrameAt c k fun f => { f with r := f.r.setS at_.dest (wd old) }
    match poison with
    | some q => s.updFrameAt c k fun f => { f with r := { f.r with sPoison := f.r.sPoison ++ [(at_.dest, q.2)] } }
    | none => s
  let go (s : State) : State :=
    let s := s.observe (coreWriter c) (s.marksAt at_.pa n)
    let old := s.homeRead at_.pa n
    dest (put s old) old (s.poisonOf at_.pa n)
  match placeOf c at_.pa with
  | .window t off => match s.windowRefuses t off n true (some at_.asid) with
    | some q => dest (s.raiseAsync c k { cause := q, evaddr := wd at_.va }) 0 none
    | none => go s
  | _ => go ((s.arrive at_.pa n .touch).flushBytes at_.pa n)

/-! ## Loads and stores of pieces -/

/-- A load as its pieces are taken in order: the bytes bound now, their poison, the pieces sent, and whether all hit the L1. -/
structure Bound where
  w      : State
  data   : Nat := 0
  poison : Option Nat := none
  parts  : Nat := 0
  hit    : Bool := true

/-- A piece of the load with number `id`: bound now, or sent. -/
def Bound.seg (b : Bound) (oc id : Nat) (g : Seg) : Bound :=
  let w := b.w
  if w.sends g oc then { b with w := w.sendAccess { w.pieceAccess g oc with load := id }, parts := b.parts + 1 }
  else
    let (s, v, q) := w.nearRead w.cur g.pa g.len
    { b with w := s, data := b.data + v <<< (8 * g.off), poison := b.poison.or q,
             hit := b.hit && placeOf w.cur g.pa == .mem && w.here.l1Holds g.pa g.len }

/-- A load of the pieces: translations cached, then each piece in order (R108: classed accesses perform in program order). -/
def bindLoad (c : SlotCtx) (w : State) (l : List (Seg × Walked)) (oc : Nat) (p : Pending) (least : Nat) (row : Instr) :
    State :=
  let b := l.foldl (fun (b : Bound) x => b.seg oc (seqOf (w.cyc w.cur) c.slot) x.1) { w := w.learn l }
  b.w.pendData c { p with data := BitVec.ofNat 4096 b.data, poison := b.poison, parts := b.parts } b.hit least row

/-- A piece of a store: performed at the core, or sent (R105, R106, R109, R126). -/
def State.storeSeg (w : State) (g : Seg) (oc v ben : Nat) : State :=
  if ben = 0 then w
  else if w.sends g oc then
    w.sendAccess { w.pieceAccess g oc with write := true, v := BitVec.ofNat 4096 v, ben := BitVec.ofNat 512 ben }
  else w.nearWrite w.cur oc g.pa g.len v ben

/-- The translations through which stores to memory go are noted (R383). -/
def Core.noteWritten (x : Core) (c : CoreId) (l : List (Seg × Walked)) : Core :=
  { x with written := l.foldl (fun t y => if placeOf c y.1.pa == .mem && !t.contains y.2.leaf then t ++ [y.2.leaf] else t) x.written }

/-- A store of the enabled bytes of a value to the pieces. -/
def storeAt (w : State) (l : List (Seg × Walked)) (oc v ben : Nat) : State :=
  l.foldl (fun w x => w.storeSeg x.1 oc (field v (8 * x.1.off) (8 * x.1.len)) (field ben x.1.off x.1.len))
    ((w.learn l).updCore w.cur fun x => x.noteWritten w.cur l)

/-- Where a vector load lands: a view element of SHAPE 0, a plain entry, the new head of a read stream that the instruction consumed, or a
push into a write stream (R66, R230). -/
def loadDest (c : SlotCtx) (s0 : State) (o : Opd) (seen : Seen) (w : State) : Except Stop (Dest × State) :=
  match o with
  | .view v i => do
    let e ← getElem s0 v i
    let _ ← require (e.shape == 0) Cause.illegalInstruction
    .ok (e.dest, w)
  | .ofe n =>
    let q := w.fr.stream n
    let tag := seqOf (w.cyc w.cur) c.slot + 1
    match q.mode with
    | 0 => .ok (.ofe n.val, w)
    | 1 => do
      let w ← newHead seen n tag w
      .ok (.ofHead n.val tag, w)
    | _ =>
      if q.left = 0 then trapOf Cause.streamUse
      else if q.depth ≤ q.queue.length ∨ q.stopped then
        holdSw
      else
        let w := w.updStream n fun q => { q with queue := q.queue ++ [{ tag := tag, root := s0.fr.sys.ptroot, asid := s0.fr.sys.asid }], left := q.left - 1 }
        .ok (.ofHead n.val tag, w.postFree w.cur 7 .streamDrainWrite { k := w.here.run, u := n.val, id := q.gen, tid := w.fr.id.task })
  | .special _ => trapOf Cause.illegalInstruction

/-! ## Scalar loads and stores (R140) -/

def opLds (w : BitVec 3) (n : BitVec 1) (d : BitVec 6) (a : BitVec 6) (o : BitVec 4) (m : BitVec 2) : Op where
  legal c := okLds w n d a m && modeOk c m
  sregs c := d :: memRegs c a m
  sem c s0 st := do
    let ea ← effAddr c s0 a m
    let size := 2 ^ (w.toNat % 4)
    let l ← classed s0 (va57 ea) size .read (va57 ea % size == 0) o.toNat
    .ok (bindLoad c st l o.toNat
      { dest := .s d.toNat, ben := firstBytes 8, lat := some 0, form := if w.toNat < 4 then 0 else 1, n := size } 5 .loadComplete)

def opSts (w : BitVec 2) (d : BitVec 6) (a : BitVec 6) (o : BitVec 4) (m : BitVec 2) : Op where
  legal c := okSts d a m && modeOk c m
  sregs c := d :: memRegs c a m
  sem c s0 st := do
    let x ← getS s0 d
    let ea ← effAddr c s0 a m
    let size := 2 ^ w.toNat
    let l ← classed s0 (va57 ea) size .write (size == 8 && va57 ea % 8 == 0) o.toNat
    .ok (storeAt st l o.toNat x.toNat (ones size))

/-! ## Vector loads and stores (R230) -/

/-- A vector load of `n` bytes at ea. -/
def vloadOp (n form : Nat) (d a : BitVec 6) (o : BitVec 4) (m : BitVec 2) : Op where
  legal c := okVmem d a m && modeOk c m
  sregs c := memRegs c a m
  ofs := [xOpd {} 0 d]
  uses c s := useOf s (xOpd c 0 d) true false
  memp := 1
  sem c s0 w := do
    let (dest, w) ← loadDest c s0 (xOpd c 0 d) [] w
    let ea ← effAddr c s0 a m
    let l ← classed s0 (va57 ea) n .read false o.toNat
    .ok (bindLoad c w l o.toNat { dest := dest, ben := s0.fr.enables 4, form := form, n := n } 6 .vectorLoadLand)

def opLdv (d : BitVec 6) (a : BitVec 6) (o : BitVec 4) (m : BitVec 2) : Op := vloadOp 512 2 d a o m
def opLdvb (d : BitVec 6) (a : BitVec 6) (o : BitVec 4) (m : BitVec 2) : Op := vloadOp 4 3 d a o m

def opStv (d : BitVec 6) (a : BitVec 6) (o : BitVec 4) (m : BitVec 2) : Op where
  legal c := okStv d a m && modeOk c m
  sregs c := memRegs c a m
  ofs := [xOpd {} 0 d]
  uses c s := useOf s (xOpd c 0 d) false true
  memp := 1
  sem c s0 w := do
    let (x, _, w) ← readV c s0 (xOpd c 0 d) 4 false ([], w)
    let ea ← effAddr c s0 a m
    let l ← classed s0 (va57 ea) 512 .write false o.toNat
    .ok (storeAt w l o.toNat x.toNat (s0.fr.enables 4).toNat)

/-! ## Gathers and scatters (R231) -/

/-- Address of lane e. -/
def laneAddr (base : Word) (idx : Vec) (e : Nat) : Word := base + wd (lane idx 32 e)

/-- The pieces of the active lanes among the first `n`, checked lowest lane first; a piece stands at its lane's bytes. -/
def laneSegs (s0 : State) (k : Access) (aligned : Bool) (base : Word) (idx : Vec) : Nat → Except Stop (List (Seg × Walked))
  | 0 => .ok []
  | n + 1 => do
    let l ← laneSegs s0 k aligned base idx n
    if s0.fr.active.getLsbD n then
      let ea := laneAddr base idx n
      if !canonical ea || (aligned && va57 ea % 4 != 0) then trapAt Cause.address (va57 ea)
      else match checkAccess s0 (va57 ea) 4 k false with
        | .error (.trap t) => .error (.trap { t with evaddr := wd (va57 ea) })
        | .error e => .error e
        | .ok q => .ok (l ++ q.map fun x => ({ x.1 with off := 4 * n + x.1.off }, x.2))
    else .ok l

/-- The lanes' pieces once earlier accesses of class 0 allow them. -/
def lanes (s0 : State) (k : Access) (aligned : Bool) (a : BitVec 6) (idx : Vec) : Except Stop (List (Seg × Walked)) := do
  let base ← getS s0 a
  let l ← laneSegs s0 k aligned base idx 128
  let _ ← holdWhile (l.any fun x => s0.mustWait s0.cur s0.nextId 0 x.1.pa x.1.len)
  .ok l

def opLdvg (d : BitVec 6) (a : BitVec 6) (b : BitVec 6) : Op where
  legal _ := okGather d a b
  sregs _ := [a]
  ofs := [xOpd {} 0 d, xOpd {} 2 b]
  uses c s := useOf s (xOpd c 0 d) true false ++ useOf s (xOpd c 2 b) false true
  memp := 1
  sem c s0 w := do
    let (idx, seen, w) ← readV c s0 (xOpd c 2 b) 4 false ([], w)
    let (dest, w) ← loadDest c s0 (xOpd c 0 d) seen w
    let l ← lanes s0 .read false a idx
    .ok (bindLoad c w l 0 { dest := dest, ben := s0.fr.enables 4 } 10 .vectorLoadLand)

/-- The sources of a scatter: the data, then the index; an entry named twice is consumed once. -/
def scatterSrcs (c : SlotCtx) (s0 w : State) (d b : BitVec 6) : Except Stop (Vec × Vec × State) := do
  let (x, seen, w) ← readV c s0 (xOpd c 0 d) 4 false ([], w)
  let (idx, _, w) ← readV c s0 (xOpd c 2 b) 4 false (seen, w)
  .ok (x, idx, w)

def opStvs (d : BitVec 6) (a : BitVec 6) (b : BitVec 6) : Op where
  legal _ := okGather d a b
  sregs _ := [a]
  ofs := [xOpd {} 0 d, xOpd {} 2 b]
  uses c s := useOf s (xOpd c 0 d) false true ++ useOf s (xOpd c 2 b) false true
  memp := 1
  sem c s0 w := do
    let (x, idx, w) ← scatterSrcs c s0 w d b
    let l ← lanes s0 .write false a idx
    .ok (storeAt w l 0 x.toNat (ones 512))

/-! ## Atomics (R116, R117, R232) -/

/-- An atomic leaves the core: its dirty bytes of the word go first and its L1 copy is discarded (R116). A lower slot's write of its
destination does not take place (R65). -/
def State.startAtomic (w : State) (c : SlotCtx) (at_ : Atomic) : State :=
  let w := w.evictWord w.cur at_.pa (atomSize at_.op)
  let id := w.fresh
  let seq := seqOf (w.cyc w.cur) c.slot
  let w := w.bump.updFr fun f =>
    let f := if at_.dest = 0 then f else cancelSame seq (.s at_.dest) (firstBytes 8) f
    { f with atoms := f.atoms ++ [{ at_ with id := id, seq := seq, asid := f.sys.asid }] }
  w.postFree w.cur 39 .atomicComplete { k := w.here.run, id := id }

/-- A scalar atomic. -/
def atomOp (op : Nat) (legal : Bool) (d a : BitVec 6) (o : BitVec 4) (m : BitVec 2) : Op where
  legal c := legal && modeOk c m
  sregs c := d :: (if op = 6 then [d + 1] else []) ++ memRegs c a m
  memp := 1
  sem c s0 w := do
    let x ← getS s0 d
    let new ← if op = 6 then getS s0 (d + 1) else .ok 0
    let ea ← effAddr c s0 a m
    let n := atomSize op
    let _ ← if va57 ea % n = 0 then .ok () else trapAt Cause.address (va57 ea)
    let l ← classed s0 (va57 ea) n .atomic false o.toNat
    .ok (l.foldl (fun w x' => w.startAtomic c { op := op, pa := x'.1.pa, va := x'.1.va, oc := o.toNat, x := x, new := new, dest := d.toNat })
      (w.learn l))

def opAadd (d : BitVec 6) (a : BitVec 6) (o : BitVec 4) (m : BitVec 2) : Op := atomOp 0 (okAtom d a m) d a o m
def opAmin (d : BitVec 6) (a : BitVec 6) (o : BitVec 4) (m : BitVec 2) : Op := atomOp 1 (okAtom d a m) d a o m
def opAmax (d : BitVec 6) (a : BitVec 6) (o : BitVec 4) (m : BitVec 2) : Op := atomOp 2 (okAtom d a m) d a o m
def opAand (d : BitVec 6) (a : BitVec 6) (o : BitVec 4) (m : BitVec 2) : Op := atomOp 3 (okAtom d a m) d a o m
def opAor (d : BitVec 6) (a : BitVec 6) (o : BitVec 4) (m : BitVec 2) : Op := atomOp 4 (okAtom d a m) d a o m
def opAxch (d : BitVec 6) (a : BitVec 6) (o : BitVec 4) (m : BitVec 2) : Op := atomOp 5 (okAtom d a m) d a o m
def opAcas (d : BitVec 6) (a : BitVec 6) (o : BitVec 4) (m : BitVec 2) : Op := atomOp 6 (okAcas d a m) d a o m
def opAaddf (d : BitVec 6) (a : BitVec 6) (o : BitVec 4) (m : BitVec 2) : Op := atomOp 7 (okAtom d a m) d a o m

/-- VAADD: one atomic per active lane, in lane order (R231). -/
def opVaadd (d : BitVec 6) (a : BitVec 6) (b : BitVec 6) : Op where
  legal _ := okGather d a b
  sregs _ := [a]
  ofs := [xOpd {} 0 d, xOpd {} 2 b]
  uses c s := useOf s (xOpd c 0 d) false true ++ useOf s (xOpd c 2 b) false true
  memp := 1
  sem c s0 w := do
    let (x, idx, w) ← scatterSrcs c s0 w d b
    let l ← lanes s0 .atomic true a idx
    .ok (l.foldl (fun w g => w.startAtomic c { op := 7, pa := g.1.pa, va := g.1.va, x := wd (lane x 32 (g.1.off / 4)) }) (w.learn l))

/-- ATOMIC_COMPLETE (R232): an atomic that must follow an outstanding access of its core waits. -/
def execAtomicComplete (s : State) : Out :=
  let c := s.arg.c
  let k := s.arg.k
  match (s.frameAt c k).atoms.find? (·.id == s.arg.id) with
  | none => .next s
  | some a =>
    if s.mustWait c a.id a.oc a.pa 8 then .next (s.postFree c 1 .atomicComplete s.arg)
    else
      .next (((s.updFrameAt c k fun f => { f with atoms := f.atoms.filter (·.id != a.id) }).performAtomic c k a).settleDrains)

/-! ## Ordering (R109, R111, R112, R233, R234) -/

/-- FENCE: noted among the core's writes, and while accesses are outstanding, which later ones of its classes then follow. -/
def opFence (k : BitVec 16) : Op where
  memp := 1
  sem _ s0 w :=
    let old := if s0.coreBusy s0.cur true true then w.fr.msg.fences else []
    let me := coreWriter w.cur
    let w := w.updClock me fun x => { x with fences := x.fences ++ [(x.n, k)] }
    if w.coreBusy w.cur true true then .ok (w.bump.updMsg fun m => { m with fences := old ++ [(w.fresh, k)] })
    else .ok (w.updMsg fun m => { m with fences := old })

/-- Whether a destination is register space or a lent window. -/
def Dest.isSpace (d : Dest) : Bool :=
  match d with
  | .rs _ => true
  | .lent _ => true
  | _ => false

/-- Whether results and loads for register space or a lent window, issued before `seq`, are not complete in some frame of a core. -/
def Core.spaceBusy (x : Core) (seq : Nat) : Bool :=
  allSlots.any fun k => let f := x.frame k
    f.infl.any (fun r => r.dest.isSpace && decide (r.seq < seq)) || f.loads.any (fun l => l.dest.isSpace && decide (l.id < seq))

/-- Whether matrix operations issued up to a cycle are not complete: they read their sources and write their destinations then (R203). -/
def Core.matrixBusy (x : Core) (cycle : Nat) : Bool := (x.mrun.toList ++ x.mwait.toList).any fun o => decide (o.at_ ≤ cycle)

/-- The cycle in which the head bundle's release or acquire began to wait: what a nest issues after it is not earlier (log 48). -/
def State.orderCycle (s : State) : Nat := s.fr.ctl.orderFrom.getD (s.cyc s.cur)

/-- The bundle is held for a release or acquire. -/
def holdOrder (b : Bool) : Except Stop Unit :=
  if b then .error (.hold fun s => s.updCtl fun c => { c with orderFrom := some s.orderCycle }) else .ok ()

/-- What a release on a core waits for before it can complete (R111): classed accesses, and class-free ones of every task of the core, matrix
operations up to a cycle. -/
def State.releaseBusy (s : State) (c : CoreId) (cycle : Nat) : Bool :=
  s.coreBusy c true true || (s.core c).spaceBusy (4 * s.cyc c + 4) || (s.core c).matrixBusy cycle

/-- What a release of the head bundle waits for. -/
def State.releaseWaits (s : State) : Bool := s.releaseBusy s.cur s.orderCycle

/-- What an acquire waits for (R112): every earlier read has bound its value. -/
def State.acquireWaits (s : State) : Bool := s.coreBusy s.cur false true || s.here.matrixBusy s.orderCycle

/-- The rest of an operation that follows accesses of lower slots of its own bundle: it takes its place among them. -/
def State.sendOrder (w : State) (c : SlotCtx) (o : Order) (then_ : List Event) : State :=
  w.sendAccess { c := w.cur, k := w.here.run, order := some o, seq := seqOf (w.cyc w.cur) c.slot, then_ := then_ }

/-- Events that come now. -/
def State.postAll (s : State) (l : List Event) : State := { s with agenda := s.agenda ++ l.map fun e => { e with at_ := s.time } }

/-- A release, and the events that its completion posts (R111). -/
def State.releaseThen (w : State) (c : SlotCtx) (scope : Nat) (then_ : List Event := []) : State :=
  if w.releaseWaits then w.sendOrder c (.release scope) then_ else (w.release w.cur scope).postAll then_

/-- An acquire (R112). -/
def State.acquireNow (w : State) (c : SlotCtx) (scope : Nat) : State :=
  if w.acquireWaits then w.sendOrder c (.acquire scope) [] else w.acquire w.cur scope

/-- ACQ: waits until reads have bound, then discards clean L1 bytes (R112). -/
def opAcq (s : BitVec 3) : Op where
  legal _ := scopeOk s
  memp := 1
  sem c s0 w := do
    let _ ← holdOrder s0.acquireWaits
    .ok (w.acquireNow c s.toNat)

/-- REL: waits until earlier writes and atomics are performed, then writes back (R111). -/
def opRel (s : BitVec 3) : Op where
  legal _ := scopeOk s
  memp := 1
  sem c s0 w := do
    let _ ← holdOrder s0.releaseWaits
    .ok (w.releaseThen c s.toNat)

/-! ## Flushing, discarding and prefetching (R235, R236) -/

/-- The part of a virtual range under a cached translation, as a physical range. -/
def TlbEntry.part (e : TlbEntry) (asid : BitVec 16) (va n : Nat) : List (Nat × Nat) :=
  let lo := max va e.va
  let hi := min (va + n) (e.va + 2 ^ e.log)
  if e.asid = asid ∧ lo < hi then [(e.phys lo, hi - lo)] else []

/-- The translations that a table gives now to [lo, hi), from a node whose addresses begin at `base` (R413). -/
def leavesIn (s : State) (d : DieId) (asid : BitVec 16) (lo hi : Nat) : List TableLevel → Nat → Nat → List TlbEntry
  | [], _, _ => []
  | l :: ls, base, node =>
    (List.range (2 ^ l.width)).flatMap fun i =>
      let va := base + i <<< l.shift
      if hi ≤ va ∨ va + 2 ^ l.shift ≤ lo then [] else
      match (s.dies.get d).walkc.find? fun w => w.asid == asid && w.level == l.num && w.tag == va >>> l.shift with
      | some w => leavesIn s d asid lo hi ls va w.node
      | none =>
        let e := s.dieRead d (node + 8 * i) 8
        if !e.testBit 0 then []
        else if e.testBit 1 then
          if leafOk e l then [{ asid := asid, va := va, log := l.shift, pa := field e 16 36 <<< 16, flags := BitVec.ofNat 8 e }] else []
        else if pointerOk e l then leavesIn s d asid lo hi ls va (field e 6 46 <<< 6)
        else []

/-- The translations of the resident copies of handles (R325). -/
def State.residentLeaves (s : State) (asid : BitVec 16) : List TlbEntry :=
  s.bases.toList.flatMap fun b => (List.range b.slots.length).flatMap fun i =>
    let size := bits b.hslot 32 16 * 65536
    if (b.slots.getD i {}).st = .resident then
      (List.range (min (size / 65536) (s.handlePages (b.slots.getD i {}).handle))).map fun j =>
        { asid := asid, va := residentBase + b.hpool.toNat + i * size + j * 65536, log := 16, pa := b.hpool.toNat + i * size + j * 65536,
          flags := 0x27#8 }
    else []

/-- The physical ranges that a virtual range of the running task reaches: by cached translations and by its table. -/
def State.physParts (s : State) (va n : Nat) : List (Nat × Nat) :=
  if s.here.l1.isEmpty then [] else
  let f := s.fr
  let d := dieOf s.cur
  (s.here.l1tlb ++ (s.dies.get d).l2tlb ++ s.residentLeaves f.sys.asid
      ++ leavesIn s d f.sys.asid va (va + n) tableLevels 0 f.sys.ptroot.toNat).flatMap fun e => e.part f.sys.asid va n

/-- The start and length of a range operation, checked (R235). -/
def rangeOf (s0 : State) (a b : BitVec 6) : Except Stop (Nat × Nat) := do
  let x ← getS s0 a
  let n ← getS s0 b
  if n = 0 then .ok (0, 0)
  else if !canonical x || decide (2 ^ 57 < va57 x + n.toNat) then trapAt Cause.address (va57 x)
  else .ok (va57 x, n.toNat)

/-- FLUSH: dirty L1 bytes of the range go to the level of the scope (R235). -/
def opFlush (s : BitVec 3) (a : BitVec 6) (b : BitVec 6) : Op where
  legal _ := scopeOk s && okSS a b
  sregs _ := [a, b]
  memp := 1
  sem _ s0 w := do
    let (va, n) ← rangeOf s0 a b
    .ok (if n = 0 then w else w.writeBack w.cur s.toNat (inParts (w.physParts va n)))

/-- INVL: clean L1 bytes of the range are discarded (R235). -/
def opInvl (a : BitVec 6) (b : BitVec 6) : Op where
  legal _ := okSS a b
  sregs _ := [a, b]
  memp := 1
  sem _ s0 w := do
    let (va, n) ← rangeOf s0 a b
    if n = 0 then .ok w else
    let parts := w.physParts va n
    .ok (w.updCore w.cur (·.discard fun y => !y.dirty && inParts parts y.pa))

/-- PRFL: the line at ea into the L1, or into the die's L2; what would fault, and a line for which there is no room, is dropped (R236). -/
def opPrfl (l : BitVec 1) (a : BitVec 6) (_o : BitVec 4) (m : BitVec 2) : Op where
  legal c := sSrc a && modeExists m && modeOk c m
  sregs c := memRegs c a m
  memp := 1
  sem c s0 w :=
    match effAddr c s0 a m with
    | .error (.trap t) => if t.cause = Cause.dataPoison then .error (.trap t) else .ok w
    | .error e => .error e
    | .ok ea =>
      let line := va57 ea / 64 * 64
      match checkAccess s0 line 64 .read false with
      | .error _ => .ok w
      | .ok q =>
        let room := w.pick 2 == 0
        let w := w.tick
        if !room then .ok w else
        .ok (q.foldl (fun w x => match placeOf w.cur x.1.pa with
          | .mem => if l = 0 then w.fillLines w.cur x.1.pa x.1.len else w.l2Fill (dieOf w.cur) x.1.pa
          | _ => w) (w.learn q))

/-- L1_WRITE_BACK (R105): a line's dirty bytes go first from the L1 to the die, where the line may also leave the L1, then from the die
to their home. -/
def execL1WriteBack (s : State) : Out :=
  let c := s.arg.c
  let a := s.arg.n
  let inLine (x : Nat) : Bool := decide (a ≤ x) && decide (x < a + 64)
  if s.arg.u = 0 then
    let s' := s.writeBack c 1 inLine
    let leaves := s'.pick 2 == 1
    let s' := s'.tick
    let s' := if leaves then s'.updCore c (·.discard fun b => inLine b.pa) else s'
    .next (s'.postFree c 1 .l1WriteBack { s.arg with u := 1 })
  else .next (s.flushDie (dieOf c) inLine)

/-! ## Translation invalidation (R256, R416, R417) and walks (R413) -/

/-- TINVR and TINVA once they are judged (R256, R416, R417): the bundle holds until the invalidation it asked for has ended; a ninth
of the package waits for its turn. What lower slots of its own bundle have sent under a removed translation performs first, and no bundle of the task
issues until then (R383). -/
def inval (s0 : State) (v : Inval) (w : State) : Except Stop State :=
  match s0.fr.ctl.inval with
  | some id =>
    if s0.invals.any (fun q => q.id == id && q.ids.any s0.underWay) then holdNow
    else .ok (w.settleDrains.updCtl fun c => { c with inval := none })
  | none =>
    if 8 ≤ s0.invals.length then holdNow
    else if (s0.invalIds v).isEmpty then
      .ok (if (w.invalIds v).isEmpty then w.invalidate v else (w.requestInval v).updCtl fun c => { c with draining := some w.fresh })
    else .error (.hold fun s => (s.requestInval v).updCtl fun c => { c with inval := some s.fresh })

/-- The ASID word of an invalidation (R256). -/
def invalWord (x : Word) : Except Stop Inval :=
  if bits x 17 47 != 0 then trapOf Cause.address
  else .ok { every := bit x 16, asid := x.setWidth 16 }

/-- TINVR (R256). -/
def opTinvr (d : BitVec 6) (a : BitVec 6) (b : BitVec 6) : Op where
  legal _ := okSSS d a b
  priv := true
  sregs _ := [d, a, b]
  memp := 1
  sem _ s0 w := do
    let v ← invalWord (← getS s0 b)
    let x ← getS s0 a
    let n ← getS s0 d
    if n = 0 then .ok w
    else if !canonical x || !inRange57 (va57 x) n.toNat then trapAt Cause.address (va57 x)
    else
      inval s0 { v with range := some (va57 x, n.toNat) } w

/-- TINVA (R256). -/
def opTinva (a : BitVec 6) : Op where
  legal _ := sSrc a
  priv := true
  sregs _ := [a]
  memp := 1
  sem _ s0 w := do
    let v ← invalWord (← getS s0 a)
    inval s0 v w

/-- TABLE_WALK (R413, R415): a core's walk for an address caches what it finds; the access that waits for a failed walk
takes its fault. -/
def execTableWalk (s : State) : Out :=
  let c := s.arg.c
  let k := s.arg.k
  let f := s.frameAt c k
  let va := va57 s.arg.w0
  match lookup s (dieOf c) (s.core c).l1tlb f.sys.asid f.sys.ptroot va with
  | .ok w => .next ((s.updDie (dieOf c) fun d => d.learn w).updCore c fun x => { x with l1tlb := cachePut x.l1tlb w.leaf 1024 })
  | .error t => .next (s.takeTrapAt c k { t with evaddr := s.arg.w0 } f.ctl.pc)

/-! ## The instructions -/

/-- LDS (R140). -/
def execLds (p : BitVec 3) (w : BitVec 3) (n : BitVec 1) (d : BitVec 6) (a : BitVec 6) (o : BitVec 4) (m : BitVec 2) (s : State) : Out :=
  issueOne s p 0 (opLds w n d a o m)
/-- STS (R140). -/
def execSts (p : BitVec 3) (w : BitVec 2) (d : BitVec 6) (a : BitVec 6) (o : BitVec 4) (m : BitVec 2) (s : State) : Out :=
  issueOne s p 0 (opSts w d a o m)
/-- LDV (R230). -/
def execLdv (p : BitVec 3) (d : BitVec 6) (a : BitVec 6) (o : BitVec 4) (m : BitVec 2) (s : State) : Out :=
  issueOne s p 3 (opLdv d a o m)
/-- LDVB (R230). -/
def execLdvb (p : BitVec 3) (d : BitVec 6) (a : BitVec 6) (o : BitVec 4) (m : BitVec 2) (s : State) : Out :=
  issueOne s p 3 (opLdvb d a o m)
/-- STV (R230). -/
def execStv (p : BitVec 3) (d : BitVec 6) (a : BitVec 6) (o : BitVec 4) (m : BitVec 2) (s : State) : Out :=
  issueOne s p 3 (opStv d a o m)
/-- LDVG (R231). -/
def execLdvg (p : BitVec 3) (d : BitVec 6) (a : BitVec 6) (b : BitVec 6) (s : State) : Out :=
  issueOne s p 3 (opLdvg d a b)
/-- STVS (R231). -/
def execStvs (p : BitVec 3) (d : BitVec 6) (a : BitVec 6) (b : BitVec 6) (s : State) : Out :=
  issueOne s p 3 (opStvs d a b)
/-- AADD (R232). -/
def execAadd (p : BitVec 3) (d : BitVec 6) (a : BitVec 6) (o : BitVec 4) (m : BitVec 2) (s : State) : Out :=
  issueOne s p 3 (opAadd d a o m)
/-- AMIN (R232). -/
def execAmin (p : BitVec 3) (d : BitVec 6) (a : BitVec 6) (o : BitVec 4) (m : BitVec 2) (s : State) : Out :=
  issueOne s p 3 (opAmin d a o m)
/-- AMAX (R232). -/
def execAmax (p : BitVec 3) (d : BitVec 6) (a : BitVec 6) (o : BitVec 4) (m : BitVec 2) (s : State) : Out :=
  issueOne s p 3 (opAmax d a o m)
/-- AAND (R232). -/
def execAand (p : BitVec 3) (d : BitVec 6) (a : BitVec 6) (o : BitVec 4) (m : BitVec 2) (s : State) : Out :=
  issueOne s p 3 (opAand d a o m)
/-- AOR (R232). -/
def execAor (p : BitVec 3) (d : BitVec 6) (a : BitVec 6) (o : BitVec 4) (m : BitVec 2) (s : State) : Out :=
  issueOne s p 3 (opAor d a o m)
/-- AXCH (R232). -/
def execAxch (p : BitVec 3) (d : BitVec 6) (a : BitVec 6) (o : BitVec 4) (m : BitVec 2) (s : State) : Out :=
  issueOne s p 3 (opAxch d a o m)
/-- ACAS (R232). -/
def execAcas (p : BitVec 3) (d : BitVec 6) (a : BitVec 6) (o : BitVec 4) (m : BitVec 2) (s : State) : Out :=
  issueOne s p 3 (opAcas d a o m)
/-- AADDF (R232). -/
def execAaddf (p : BitVec 3) (d : BitVec 6) (a : BitVec 6) (o : BitVec 4) (m : BitVec 2) (s : State) : Out :=
  issueOne s p 3 (opAaddf d a o m)
/-- VAADD (R231). -/
def execVaadd (p : BitVec 3) (d : BitVec 6) (a : BitVec 6) (b : BitVec 6) (s : State) : Out :=
  issueOne s p 3 (opVaadd d a b)
/-- FENCE (R233). -/
def execFence (p : BitVec 3) (k : BitVec 16) (s : State) : Out :=
  issueOne s p 3 (opFence k)
/-- ACQ (R234). -/
def execAcq (p : BitVec 3) (s : BitVec 3) (st : State) : Out :=
  issueOne st p 3 (opAcq s)
/-- REL (R234). -/
def execRel (p : BitVec 3) (s : BitVec 3) (st : State) : Out :=
  issueOne st p 3 (opRel s)
/-- FLUSH (R235). -/
def execFlush (p : BitVec 3) (s : BitVec 3) (a : BitVec 6) (b : BitVec 6) (st : State) : Out :=
  issueOne st p 3 (opFlush s a b)
/-- INVL (R235). -/
def execInvl (p : BitVec 3) (a : BitVec 6) (b : BitVec 6) (s : State) : Out :=
  issueOne s p 3 (opInvl a b)
/-- PRFL (R236). -/
def execPrfl (p : BitVec 3) (l : BitVec 1) (a : BitVec 6) (o : BitVec 4) (m : BitVec 2) (s : State) : Out :=
  issueOne s p 3 (opPrfl l a o m)
/-- TINVR (R256). -/
def execTinvr (p : BitVec 3) (d : BitVec 6) (a : BitVec 6) (b : BitVec 6) (s : State) : Out :=
  issueOne s p 3 (opTinvr d a b)
/-- TINVA (R256). -/
def execTinva (p : BitVec 3) (a : BitVec 6) (s : State) : Out :=
  issueOne s p 3 (opTinva a)

end Sys2Proof.Machine
end

