-- ==== Sys2Proof/Machine/Messages.lean ====
section
/-! DEFINITION. Groups, barriers and event records (R37, R121, R124, R125, R239, R249, R250, R261-R264, R307, R311, R326). -/

namespace Sys2Proof.Machine

open Sys2Proof

/-! ## A task's messages, wherever the task is (R250, R264) -/

/-- Where a task is resident. -/
def State.whereIs (s : State) (tid : BitVec 32) : Option (CoreId × Fin 4) := (s.task tid).bind (·.place)

/-- A task's frame, resident or saved; none before it has run. -/
def State.frameOf (s : State) (tid : BitVec 32) : Option Frame :=
  match s.task tid with
  | none => none
  | some t => match t.place with
    | some (c, k) => some (s.frameAt c k)
    | none => t.saved.map (·.frame)

/-- The system registers that govern a task's spills. -/
def State.sysOf (s : State) (tid : BitVec 32) : SysRegs :=
  match s.frameOf tid with
  | some f => f.sys
  | none => ((s.task tid).map (·.sys)).getD {}

/-- A task's messages. -/
def State.msgOf (s : State) (tid : BitVec 32) : Msgs :=
  match s.frameOf tid with
  | some f => f.msg
  | none => ((s.task tid).map (·.msg)).getD {}

/-- A task's messages changed. -/
def State.updMsgOf (s : State) (tid : BitVec 32) (g : Msgs → Msgs) : State :=
  match s.task tid with
  | none => s
  | some t => match t.place, t.saved with
    | some (c, k), _ => s.updFrameAt c k fun f => { f with msg := g f.msg }
    | none, some v => s.updTask tid fun x => { x with saved := some { v with frame := { v.frame with msg := g v.frame.msg } } }
    | none, none => s.updTask tid fun x => { x with msg := g x.msg }

/-- Whether a slot holds the task now. -/
def State.holds (s : State) (c : CoreId) (k : Fin 4) (tid : BitVec 32) : Bool :=
  (s.frameAt c k).id.valid && (s.frameAt c k).id.task == tid

/-- The messages of the task that stood in a slot when it issued a command. -/
def State.updMsgAt (s : State) (c : CoreId) (k : Fin 4) (tid : BitVec 32) (g : Msgs → Msgs) : State :=
  if s.holds c k tid then s.updFrameAt c k fun f => { f with msg := g f.msg } else s.updMsgOf tid g

/-- A barrier object changed. -/
def Msgs.updBar (m : Msgs) (b : Fin 16) (g : Barrier → Barrier) : Msgs :=
  { m with bars := m.bars.set b.val (g (m.bars.get b)) b.isLt }

/-- BARPEND changed by a signed count (R238). -/
def Msgs.pend (m : Msgs) (b : Fin 16) (n : Int) : Msgs := m.updBar b fun x => { x with pend := x.pend + BitVec.ofInt 64 n }

/-- A 16-member field as an index. -/
def bar16 (n : Nat) : Fin 16 := Fin.ofNat 16 n

/-! ## Base-die engines: translation and access (R414, R415) -/

/-- The pieces of an access of a base-die engine, which caches translations in its base die and walks at the home. A control space fails
with ADDRESS, and so does an on-chip window where the engine may not reach one (`win`); elsewhere the target may refuse it (R319). -/
def baseSegs (s : State) (d : DieId) (sp : Space) (win : Bool) (acc : Access) (va n : Nat) : Except Trap (List (Seg × Walked)) :=
  match xlate (s.updDie d fun _ => {}) d (s.base d).tlb sp acc 0 (n / 0x10000 + 2) va n with
  | .error t => .error t
  | .ok l =>
    let bar (g : Seg) : Option Cause := match physClass g.pa with
      | .window => if win then s.windowRefuses (winCore g.pa) (winOff g.pa) g.len (acc == .write) none else some Cause.address
      | .control => some Cause.address
      | _ => none
    match l.findSome? fun x => (bar x.1).map fun q => (q, x.1.va) with
    | some (q, va) => .error { cause := q, evaddr := wd va }
    | none => .ok l

/-- The translations of a base-die engine's access cached; the walks that found them read memory. -/
def State.baseLearn (s : State) (d : DieId) (l : List (Seg × Walked)) : State :=
  (l.foldl (fun (s : State) x => s.arriveWalk x.2) s).updBase d fun x => { x with tlb := l.foldl (fun t y => cachePut t y.2.leaf 256) x.tlb }

/-- The bytes of pieces as the package sees them. -/
def State.homeSegs (s : State) (l : List (Seg × Walked)) : Nat :=
  l.foldl (fun acc x => acc + (if physClass x.1.pa = .window then s.windowRead (winCore x.1.pa) (winOff x.1.pa) x.1.len
                               else s.homeRead x.1.pa x.1.len) <<< (8 * x.1.off)) 0

/-- The physical ranges of pieces. -/
def segRanges (l : List (Seg × Walked)) : List (Nat × Nat) := l.map fun x => (x.1.pa, x.1.len)

/-- A party outside the cores has read the pieces: it knows what was released to it before the writes that they hold (R113, R128). -/
def State.partyReads (s : State) (w : Nat) (l : List (Nat × Nat)) : State :=
  let s := l.foldl (fun (s : State) x => s.arrive x.1 x.2 .touch) s
  (s.observe w (l.flatMap fun x => s.marksAt x.1 x.2)).learnSeen w 4

/-- A party outside the cores writes the pieces, each write after what it knows; what it writes is published (R113, R128, R129). -/
def State.partyWrites (s : State) (w : Nat) (l : List (Seg × Walked)) (v : Nat) : State :=
  (s.engineWrite (s.stamp w) l v [] .touch).publish w 4

/-! ## Event queue and spill ring (R250, R326) -/

/-- Ring slots of a quota of pages. -/
def SysRegs.ringSlots (x : SysRegs) : Nat := x.evquota.toNat * 256

/-- Whether a record must wait: the queue is full and the quota is spent. -/
def State.recordWaits (s : State) (tid : BitVec 32) : Bool :=
  let m := s.msgOf tid
  (decide (256 ≤ m.evq.length) || !m.spill.isEmpty) && decide ((s.sysOf tid).ringSlots ≤ m.spill.length)

/-- The next free ring slot from a position on. -/
def nextSlot (cap : Nat) (used : List Nat) (pos : Nat) : Nat → Nat
  | 0 => pos % cap
  | n + 1 => if used.contains (pos % cap) then nextSlot cap used (pos + 1) n else pos % cap

/-- A record discarded and counted in BFEVDISC (R403). -/
def State.discardRecord (s : State) : State := { s with bel := { s.bel with evdisc := s.bel.evdisc + 1 } }

/-- Space of a task's engines: its own, with its mode. -/
def State.spaceOf (s : State) (tid : BitVec 32) : Space :=
  let y := s.sysOf tid
  { asid := y.asid, root := y.ptroot,
    user := match s.frameOf tid with
      | some f => !f.id.mode
      | none => ((s.task tid).map fun t => !t.flags.getLsbD 3).getD true }

/-- The writer identifier of the spill engine that writes a task's records and the expert spill rings (R326, R405): R405 numbers one engine 8 in
each base die and does not say which one serves a task; the model takes BD0's, with its translation cache (log 80). -/
def spillWriter : Nat := baseWriter 0 8

/-- The spill engine writes a record to the ring, with its own writer identifier; a write that fails discards it (R125, R326). -/
def State.spillRecord (s : State) (tid : BitVec 32) (r : BitVec 128) (by_ : Write) : State :=
  let m := s.msgOf tid
  let y := s.sysOf tid
  let slot := nextSlot y.ringSlots (m.spill.map (·.slot)) m.spillPos y.ringSlots
  match baseSegs s 0 (s.spaceOf tid) false .write (va57 y.evspill + 16 * slot) 16 with
  | .error _ => s.discardRecord
  | .ok l =>
    let s := ((s.hear spillWriter [by_]).learnSeen spillWriter 4).baseLearn 0 l
    let x : Spilled := { slot := slot, ring := y.evspill, root := y.ptroot, asid := y.asid }
    (s.partyWrites spillWriter l r.toNat).updMsgOf tid fun m =>
      { m with spill := m.spill ++ [x], spillPos := slot + 1, evBy := m.evBy ++ [(by_, none)] }

/-- A record to a task's queue, in posting order, with the release that it stands for; the caller has seen that it need not wait. A task in
YIELD.ev is woken. -/
def State.putRecord (s : State) (tid : BitVec 32) (r : BitVec 128) (by_ : Write) : State :=
  let m := s.msgOf tid
  let s := if m.evq.length < 256 ∧ m.spill.isEmpty then s.updMsgOf tid fun m => { m with evq := m.evq ++ [r], evBy := m.evBy ++ [(by_, none)] }
           else s.spillRecord tid r by_
  match s.whereIs tid with
  | some (c, k) => s.updFrameAt c k fun f =>
      if f.msg.evq.isEmpty && f.msg.spill.isEmpty then f else { f with ctl := { f.ctl with waitEv := false } }
  | none => s

/-- The queue refills from the ring while it has room, up to `n` records: the oldest spilled record is read back where it was written, with the
poison of its line (R260, R326, R420); one that cannot be read is discarded. -/
def State.refillQueue (s : State) (c : CoreId) (k : Fin 4) : Nat → State
  | 0 => s
  | n + 1 =>
    let f := s.frameAt c k
    match f.msg.spill with
    | [] => s
    | x :: rest =>
      let i := f.msg.evq.length
      if 256 ≤ i then s else
      let s := s.updFrameAt c k fun f => { f with msg := { f.msg with spill := rest } }
      match baseSegs s 0 { f.space with asid := x.asid, root := x.root } false .read (va57 x.ring + 16 * x.slot) 16 with
      | .error _ =>
        (s.discardRecord.updFrameAt c k fun f => { f with msg := { f.msg with evBy := f.msg.evBy.eraseIdx i } }).refillQueue c k n
      | .ok l =>
        let bad := (s.homePoison l).map (·.src)
        let s := (s.baseLearn 0 l).partyReads spillWriter (segRanges l)
        let r := BitVec.ofNat 128 (s.homeSegs l)
        (s.updFrameAt c k fun f => { f with msg := { f.msg with
          evq := f.msg.evq ++ [r], evBy := f.msg.evBy.mapIdx fun j (e : Write × Option Nat) => if j = i then (e.1, bad) else e } }).refillQueue c k n

/-- An event record (R239). -/
def recordOf (payload : Word) (detail : BitVec 32) (tag : BitVec 16) (srcc : BitVec 8) (kind : Nat) : BitVec 128 :=
  payload ++ detail ++ tag ++ srcc ++ BitVec.ofNat 8 kind

/-- Registers that become pending now and are written together after a fixed number of cycles (R229). -/
def State.pendWords (w : State) (c : SlotCtx) (lat : Nat) (l : List (Nat × Word)) (poison : Option Nat := none) : State :=
  let cycle := w.cyc w.cur
  let id := seqOf cycle c.slot
  let k := w.here.run
  l.foldl (fun w x =>
    let w := w.updFr fun f =>
      let f := cancelSame id (.s x.1) (firstBytes 8) f
      { f with loads := f.loads ++ [{ id := id, dest := .s x.1, ben := firstBytes 8, data := x.2.setWidth 4096, form := 0, n := 8, poison := poison }] }
    w.postCore w.cur (cycle + lat - 1) .loadComplete { k := k, id := id }) w

/-- EVPOP (R250): the oldest record, read back from the ring when the queue is empty; the core has been told of what its posting released (R125). -/
def opEvpop (d : BitVec 6) : Op where
  legal _ := sPair d
  sregs _ := [d, d + 1]
  memp := 1
  sem c _ w :=
    let k := w.here.run
    let refill (w : State) : State := w.refillQueue w.cur k w.fr.msg.spill.length
    let w := if w.fr.msg.evq.isEmpty then refill w else w
    let (r, bad, w) := match w.fr.msg.evq with
      | [] => ((0 : BitVec 128), none, w)
      | r :: rs =>
        let by_ : Option (Write × Option Nat) := w.fr.msg.evBy.head?
        let w := w.hear (coreWriter w.cur) (by_.map Prod.fst).toList
        (r, by_.bind Prod.snd, refill (w.updMsg fun m => { m with evq := rs, evBy := m.evBy.drop 1 }))
    .ok (w.pendWords c 4 [(d.toNat, r.extractLsb' 0 64), (d.toNat + 1, r.extractLsb' 64 64)] bad)

/-- EVPOST (R125, R250): a release of package scope, then the record goes to the target; only a target in the poster's space makes it hold. -/
def opEvpost (a : BitVec 6) (b : BitVec 6) : Op where
  legal _ := okSS a b
  sregs _ := [a, b]
  memp := 1
  sem c s0 w := do
    let x ← getS s0 a
    let y ← getS s0 b
    let _ ← require (bits x 48 16 == 0) Cause.address
    let tid : BitVec 32 := x.setWidth 32
    let _ ← holdOrder s0.releaseWaits
    let _ ← holdWhile ((s0.task tid).isSome && (s0.sysOf tid).asid == s0.fr.sys.asid && s0.recordWaits tid)
    let r := recordOf y s0.fr.id.task (BitVec.ofNat 16 (bits x 32 16)) (BitVec.ofNat 8 s0.cur.val) 1
    .ok (w.releaseThen c 3 [{ row := .eventRecordPost, arg :=
      { tid := tid, h := s0.fr.sys.asid, w0 := r.extractLsb' 0 64, w1 := r.extractLsb' 64 64, w2 := wd (coreWriter s0.cur) } }])

/-- A record placed: a target that does not exist or runs in another space has it discarded (R250). -/
def State.placeRecord (s : State) (tid : BitVec 32) (asid : BitVec 16) (r : BitVec 128) (by_ : Write) : State :=
  if (s.task tid).isNone || (s.sysOf tid).asid != asid then s.discardRecord else s.putRecord tid r by_

/-- EVENT_RECORD_POST (R250): the record of party `w2`, which stands for that party's first `w3` releases, all of them when `w3` is zero, is
placed; a target with no room keeps it waiting. -/
def execEventRecordPost (s : State) : Out :=
  let a := s.arg
  let n := if a.w3 = 0 then (s.clock a.w2.toNat).rels.length else a.w3.toNat
  if (s.task a.tid).isSome && (s.sysOf a.tid).asid == a.h && s.recordWaits a.tid then
    .next (s.postLater 1 .eventRecordPost { a with w3 := wd n })
  else .next (s.placeRecord a.tid a.h (a.w1 ++ a.w0) { w := a.w2.toNat, rel := n })

/-! ## Groups (R261-R263) -/

/-- A group of the table. -/
def State.group (s : State) (g : BitVec 16) : Option Group := s.groups.find? (·.gid == g)

/-- Whether a task is a member. -/
def Group.has (g : Group) (tid : BitVec 32) : Bool := g.members.any (·.1 == tid)

/-- The lowest index that no member has. -/
def Group.freeIndex (g : Group) : Nat := ((List.range 1025).find? fun i => !g.members.any (·.2 == i)).getD 0

/-- JOIN's result (R262). -/
def joinResult (g : Group) (tid : BitVec 32) : Word :=
  wd ((((g.members.find? (·.1 == tid)).map (·.2)).getD 0) * 2 ^ 32 + g.members.length)

/-- JOIN: the table answers after 40 cycles and a free number more (R262). -/
def opJoin (n : BitVec 1) (d : BitVec 6) (a : BitVec 6) : Op where
  legal _ := okS2 n d a
  sregs _ := [d, a]
  sem c s0 w := do
    let x ← getS s0 a
    let gid : BitVec 16 := x.setWidth 16
    let tid := s0.fr.id.task
    let _ ← require (bits x 16 48 == 0 && gid != 0) Cause.group
    let found := s0.group gid
    let _ ← match found with
      | none => require (decide (gid.toNat < 0x8000) && decide (s0.groups.length < 4096)) Cause.group
      | some g => require (g.asid == s0.fr.sys.asid
          && (g.has tid || (decide (gid.toNat < 0x8000) && decide (g.members.length < 1024)))) Cause.group
    let _ ← if s0.fr.ctl.swHeld < 40 + s0.extra then holdSw else .ok ()
    let g : Group := match found with
      | none => { gid := gid, asid := s0.fr.sys.asid, members := [(tid, 0)] }
      | some g => if g.has tid then g else { g with members := g.members ++ [(tid, g.freeIndex)] }
    let w := { w with groups := w.groups.filter (fun (x : Group) => x.gid != gid) ++ [g] }
    .ok (w.tick.result c.slot 1 (.s d.toNat) (firstBytes 8) ((joinResult g tid).setWidth 4096) (some 0))

/-- What a leaver's departure means for one barrier object of another member (R263). -/
def Barrier.depart (x : Barrier) (gid : BitVec 16) (tid : BitVec 32) (pending : Bool) : Barrier :=
  let armed := x.armed && x.group == gid
  let here := pending && x.reached.contains tid
  let completed := !x.seen.contains tid
  let n := if !here then (if armed then x.arrived + 1 else x.arrived)
           else if armed then (if completed then x.arrived + 1 else x.arrived)
           else if completed then x.arrived else x.arrived - 1
  { x with arrived := n, reached := x.reached.filter (· != tid), seen := x.seen.filter (· != tid) }

/-! ## Gang barriers (R307, R308, R311) -/

/-- A gang's period and windows as its barrier completes (R308, R311): the `phases`-th completion. -/
def State.gangCompletes (s : State) (g : Gang) : State :=
  let n := g.phases + 1
  let s := { s with gangs := updWhere (fun x => x.gid == g.gid) (fun x => { x with phases := n }) s.gangs }
  let s := if n % 2 = 1 then
      (List.range g.members.length).foldl (fun s i =>
        match g.windows[i]?, s.whereIs (g.members.getD i 0) with
        | some (start, len), some (c, _) =>
          let now := s.cyc c
          (s.postCore c (now + 64 * start) .transferWindowOpen { h := g.gid, n := i }).postCore c (now + 64 * (start + len))
            .transferWindowClose { h := g.gid, n := i }
        | _, _ => s) s
    else s
  if g.sched ≠ [] ∧ n % g.period = 0 then s.post 0 .scheduleSelect { h := g.gid } else s

/-- Whether every member of a gang stands at its next completion: all are on a core, so that a member pre-empted alone is resumed before, all
have arrived, and every counted byte has landed (R306, R307). -/
def State.gangComplete (s : State) (g : Gang) : Bool :=
  let l := ((s.group g.gid).map (·.members)).getD []
  let there (tid : BitVec 32) : Bool := (s.task tid).any fun t => t.place.isSome && !t.restoring
  g.started && !l.isEmpty && l.all fun m =>
    let x := (s.msgOf m.1).bars.get 15
    there m.1 && x.armed && x.group == g.gid && x.phase == g.phases && decide (x.target ≤ x.arrived) && x.pend == 0

/-- The gangs whose barrier completes now. -/
def State.gangSettle (s : State) : State :=
  if s.gangs.isEmpty then s else (s.gangs.filter fun g => s.gangComplete g).foldl (fun s g => s.gangCompletes g) s

/-- A gang member's first arrival of a period is noted: the cycles of the core on which it arrives since the completion that opened the period, or
since the gang's start for the first one; where the member has moved since, the cycles of its new core count (R311, log 78). -/
def State.gangArrives (s : State) (gid : BitVec 16) (tid : BitVec 32) : State :=
  match s.gangs.find? (·.gid == gid) with
  | none => s
  | some g =>
    let i := (g.members.idxOf? tid).getD 0
    let t := match s.whereIs tid with
      | some (c, _) => s.cyc c - ((g.opened.find? (·.1 == c.val)).map (·.2)).getD 0
      | none => 0
    let g := { g with arrivals := if g.arrivals.any (·.1 == i) then g.arrivals else g.arrivals ++ [(i, t)] }
    { s with gangs := updWhere (fun x => x.gid == gid) (fun _ => g) s.gangs }

/-! ## Leaving (R263) -/

/-- LEAVE performs: the member goes, the others receive departures or withdrawals, an empty group dissolves (R263). -/
def State.leaveGroup (s : State) (gid : BitVec 16) (tid : BitVec 32) (own : Msgs) : State :=
  match s.group gid with
  | none => s
  | some g =>
    let rest := g.members.filter (·.1 != tid)
    let s := { s with groups := if rest.isEmpty then s.groups.filter (fun (x : Group) => x.gid != gid)
                                else updWhere (fun (x : Group) => x.gid == gid) (fun x => { x with members := rest }) s.groups }
    rest.foldl (fun s m => s.updMsgOf m.1 fun q =>
      ((List.range 16).map bar16).foldl (fun q b =>
        let o := own.bars.get b
        q.updBar b fun x => x.depart gid tid (o.pendingAt && o.group == gid)) q) s
  |>.gangSettle

/-- LEAVE: holds until the table acknowledges, a free number of cycles (R263). -/
def opLeave (a : BitVec 6) : Op where
  legal _ := sSrc a
  sregs _ := [a]
  sem _ s0 w := do
    let x ← getS s0 a
    let gid : BitVec 16 := x.setWidth 16
    let tid := s0.fr.id.task
    let _ ← require (bits x 16 48 == 0 && decide (gid.toNat < 0x8000)) Cause.group
    let _ ← require (((s0.group gid).map (·.has tid)).getD false) Cause.group
    let _ ← require (!s0.fr.msg.bars.toList.any fun b => b.armed && b.group == gid) Cause.group
    let _ ← if s0.fr.ctl.swHeld < s0.extra then holdSw else .ok ()
    .ok ((w.leaveGroup gid tid w.fr.msg).tick)

/-! ## Barriers (R124, R249, R307) -/

/-- The smallest scope that contains every member: package when one is not placed (R124, R264). -/
def State.groupScope (s : State) (g : Group) : Nat :=
  let places := g.members.map fun m => (s.whereIs m.1).map (·.1)
  match places with
  | some c :: rest =>
    if rest.all (fun x => x == some c) then 0
    else if rest.all (fun x => x == some c || x == some (partnerOf c)) then 1
    else if rest.all (fun x => match x with
        | some e => dieOf e == dieOf c
        | none => false) then 2
    else 3
  | _ => 3

/-- The group of an armed barrier, empty when it is gone. -/
def State.barGroup (s : State) (b : Barrier) : Group := (s.group b.group).getD { gid := b.group }

/-- BARX (R249). -/
def opBarx (d : BitVec 6) (a : BitVec 6) (b : BitVec 4) : Op where
  legal _ := okSS d a
  sregs _ := [d, a]
  memp := 1
  sem _ s0 w := do
    let g ← getS s0 d
    let n ← getS s0 a
    let gid : BitVec 16 := g.setWidth 16
    let i : Fin 16 := bar16 b.toNat
    let x := s0.fr.msg.bars.get i
    let _ ← require (bits g 16 48 == 0) Cause.barrier
    let grp := s0.group gid
    let _ ← require ((grp.map (·.has s0.fr.id.task)).getD false) Cause.barrier
    let _ ← require (!x.armed || x.group == gid) Cause.barrier
    let members := (grp.map (·.members.length)).getD 0
    .ok (w.updMsg fun m => m.updBar i fun y =>
      if x.armed then { y with pend := y.pend + n }
      else { y with armed := true, group := gid, target := members, pend := y.pend + n }).gangSettle

/-- BARA: a release of the group's scope, then an arrival at every member (R249). -/
def opBara (b : BitVec 4) : Op where
  memp := 1
  sem c s0 w := do
    let i : Fin 16 := bar16 b.toNat
    let x := s0.fr.msg.bars.get i
    let tid := s0.fr.id.task
    let _ ← require x.armed Cause.barrier
    let _ ← holdOrder s0.releaseWaits
    let g := s0.barGroup x
    let w := w.updMsg fun m => m.updBar i fun y => { y with pendingAt := true }
    -- of the task's arrivals at b only this one counts as its latest, wherever earlier ones have reached (R263)
    let w := w.tasks.foldl (fun w m => w.updMsgOf m.tid fun q => q.updBar i fun y =>
      { y with reached := y.reached.filter (· != tid), seen := y.seen.filter (· != tid) }) w
    let w := if b = 15 ∧ 0x8000 ≤ x.group.toNat then w.gangArrives x.group tid else w
    .ok (w.releaseThen c (s0.groupScope g) (g.members.map fun m => { row := .barrierArrival, arg :=
      { tid := m.1, u := i.val, w0 := tid.setWidth 64, c := s0.cur, k := s0.here.run } }))

/-- A release that a barrier's arrivals or counted bytes stand for: the latest of its party (R121, R124). -/
def Barrier.noteBy (x : Barrier) (y : Write) : Barrier := { x with by_ := y :: x.by_.filter fun e => e.w != y.w }

/-- BARRIER_ARRIVAL (R249): counted whether or not the barrier is armed; it stands for the releases of core `c` so far. -/
def execBarrierArrival (s : State) : Out :=
  let from_ : BitVec 32 := s.arg.w0.setWidth 32
  let w := coreWriter s.arg.c
  let by_ : Write := { w := w, rel := (s.clock w).rels.length }
  .next ((s.updMsgAt s.arg.c s.arg.k s.arg.tid fun m => m.updBar (bar16 s.arg.u) fun x =>
    { x.noteBy by_ with arrived := x.arrived + 1,
                        reached := if x.reached.contains from_ then x.reached else x.reached ++ [from_],
                        seen := if x.seen.contains from_ then x.seen else x.seen ++ [from_] }).gangSettle)

/-- BARW: holds until the barrier completes and reads have bound, then acquires what its arrivals released; a gang barrier waits for every member
to be on a core and for every counted byte of the gang, and is armed again (R124, R249, R306, R307). -/
def opBarw (b : BitVec 4) : Op where
  memp := 1
  sem c s0 w := do
    let i : Fin 16 := bar16 b.toNat
    let x := s0.fr.msg.bars.get i
    let _ ← require x.armed Cause.barrier
    let again := b = 15 ∧ 0x8000 ≤ x.group.toNat
    let away := again ∧ (s0.barGroup x).members.any fun m => (s0.whereIs m.1).isNone
    let behind := again ∧ s0.gangs.any fun g => g.gid == x.group && decide (g.phases ≤ x.phase)
    let _ ← if x.target ≤ x.arrived ∧ x.pend = 0 ∧ ¬away ∧ ¬behind then .ok () else holdSw
    let _ ← if s0.acquireWaits then
        .error (.hold fun s => s.updCtl fun y => { y with orderFrom := some s.orderCycle, swHeld := y.swHeld + 1 }) else .ok ()
    let g := s0.barGroup x
    let w := w.updMsg fun m => m.updBar i fun y =>
      { y with arrived := y.arrived - y.target, armed := again, pendingAt := false, seen := [],
               target := if again then g.members.length else y.target, phase := if again then y.phase + 1 else y.phase }
    .ok ((w.hear (coreWriter w.cur) x.by_).acquireNow c (s0.groupScope g))

/-! ## The instructions -/

/-- EVPOP (R250). -/
def execEvpop (p : BitVec 3) (d : BitVec 6) (s : State) : Out :=
  issueOne s p 3 (opEvpop d)
/-- EVPOST (R250). -/
def execEvpost (p : BitVec 3) (a : BitVec 6) (b : BitVec 6) (s : State) : Out :=
  issueOne s p 3 (opEvpost a b)
/-- JOIN (R262). -/
def execJoin (p : BitVec 3) (n : BitVec 1) (d : BitVec 6) (a : BitVec 6) (s : State) : Out :=
  issueOne s p 0 (opJoin n d a)
/-- LEAVE (R263). -/
def execLeave (p : BitVec 3) (a : BitVec 6) (s : State) : Out :=
  issueOne s p 0 (opLeave a)
/-- BARX (R249). -/
def execBarx (p : BitVec 3) (d : BitVec 6) (a : BitVec 6) (b : BitVec 4) (s : State) : Out :=
  issueOne s p 3 (opBarx d a b)
/-- BARA (R249). -/
def execBara (p : BitVec 3) (b : BitVec 4) (s : State) : Out :=
  issueOne s p 3 (opBara b)
/-- BARW (R249). -/
def execBarw (p : BitVec 3) (b : BitVec 4) (s : State) : Out :=
  issueOne s p 3 (opBarw b)

end Sys2Proof.Machine
end

