-- ==== Sys2Proof/Machine/Engines.lean ====
section
/-! DEFINITION. Engine commands: copies, multicasts, streams, owner bits, and the faults of engines (R118-R123,
R237-R248, R257, R281, R308, R412, R420). -/

namespace Sys2Proof.Machine

open Sys2Proof

/-! ## The task behind a command (R296, R409) -/

/-- The frame of the task that issued a command: in its slot, or wherever the task is now. -/
def State.taskFrame (s : State) (c : CoreId) (k : Fin 4) (tid : BitVec 32) : Frame :=
  if s.holds c k tid then s.frameAt c k else (s.frameOf tid).getD {}

/-- That frame changed. -/
def State.updTaskFrame (s : State) (c : CoreId) (k : Fin 4) (tid : BitVec 32) (g : Frame → Frame) : State :=
  if s.holds c k tid then s.updFrameAt c k g else
  match s.task tid with
  | none => s
  | some t => match t.place, t.saved with
    | some (d, j), _ => s.updFrameAt d j g
    | none, some v => s.updTask tid fun x => { x with saved := some { v with frame := g v.frame } }
    | none, none => s

/-- An asynchronous trap of that task (R257, R271). -/
def State.raiseTask (s : State) (c : CoreId) (k : Fin 4) (tid : BitVec 32) (t : Trap) : State :=
  if s.holds c k tid then s.raiseAsync c k t else
  match s.whereIs tid with
  | some (d, j) => s.raiseAsync d j t
  | none => s.updTaskFrame c k tid fun f => { f with tr := { f.tr with due := f.tr.due ++ [{ t with async := true, slot := 0 }] } }

/-- The writer identifier of the save engine (R102, R405): a context's save and restore. -/
def saveWriter : Nat := baseWriter 0 11

/-- The space of a task's save area: its queue's, as a system party (R389). -/
def State.areaSpace (s : State) (t : Task) : Space :=
  match (s.bel.queues.get t.q).ctx with
  | some c => { asid := c.asid, root := c.ptroot, user := false }
  | none => { user := false }

/-- Bytes written at an offset of a task's save area (R411); none when the write fails. -/
def State.areaWrite (s : State) (t : Task) (ctxsave : Word) (off n v : Nat) : Option State :=
  match baseSegs s 0 (s.areaSpace t) true .write (va57 (canon57 ctxsave + wd off)) n with
  | .error _ => none
  | .ok l => some ((s.baseLearn 0 l).partyWrites saveWriter l v)

/-- Bytes read at an offset of a task's save area; none when the read fails or finds poison. -/
def State.areaRead (s : State) (t : Task) (ctxsave : Word) (off n : Nat) : Option Nat :=
  match baseSegs s 0 (s.areaSpace t) true .read (va57 (canon57 ctxsave + wd off)) n with
  | .error _ => none
  | .ok l => if (s.homePoison l).isSome then none else some (s.homeSegs l)

/-- The bytes of a range of a task's save area with the poisoned parts of it, for a party that passes poison on; none when they do not translate. -/
def State.areaRange (s : State) (t : Task) (ctxsave : Word) (off n : Nat) : Option (Nat × List (Nat × Nat)) :=
  match baseSegs s 0 (s.areaSpace t) true .read (va57 (canon57 ctxsave + wd off)) n with
  | .error _ => none
  | .ok l => some (s.homeSegs l, l.flatMap fun x =>
      (s.poison.filter fun p => decide (x.1.pa ≤ p.1) && decide (p.1 < x.1.pa + x.1.len)).map fun p => (x.1.off + (p.1 - x.1.pa), p.2))

/-- The save engine has read a part of an area (R113, R324). -/
def State.areaTaken (s : State) (t : Task) (ctxsave : Word) (n : Nat) : State :=
  match baseSegs s 0 (s.areaSpace t) true .read (va57 (canon57 ctxsave)) n with
  | .error _ => s
  | .ok l => (s.baseLearn 0 l).partyReads saveWriter (segRanges l)

/-- The place of OFn's queue in a save area (R411). -/
def queueImageAt (n : Nat) : Nat := 0x10800 + 0x2000 * n

/-- A stream element that arrives after its task was saved is written into the saved queue image too (R409). -/
def State.saveElement (s : State) (c : CoreId) (k : Fin 4) (tid : BitVec 32) (n i : Nat) (v : Vec) : State :=
  match s.task tid with
  | none => s
  | some t => if t.place.isSome || t.saved.isNone then s else
    (s.areaWrite t (s.taskFrame c k tid).sys.ctxsave (queueImageAt n + 512 * i) 512 v.toNat).getD s

/-! ## Signals (R237-R239) -/

/-- EV of a signal field. -/
def sigEv (sig : BitVec 24) : Bool := sig.getLsbD 5
/-- BE of a signal field. -/
def sigBe (sig : BitVec 24) : Bool := sig.getLsbD 4
/-- BAR of a signal field. -/
def sigBar (sig : BitVec 24) : Fin 16 := bar16 sig.toNat
/-- TAG of a signal field. -/
def sigTag (sig : BitVec 24) : BitVec 16 := BitVec.ofNat 16 (sig.toNat / 256)

/-- BARPEND of a command's task changed by a signed count, when BE = 1 (R238); the bytes that leave it stand for the engine's releases (R121). -/
def State.signalBytes (s : State) (c : CoreId) (k : Fin 4) (tid : BitVec 32) (sig : BitVec 24) (n : Int) (by_ : Write := {}) : State :=
  if sigBe sig then
    (s.updMsgAt c k tid fun m => (m.pend (sigBar sig) n).updBar (sigBar sig) fun x => if by_.w = 0 then x else x.noteBy by_).gangSettle
  else s

/-- What a party's releases so far stand for. -/
def State.releasesOf (s : State) (w : Nat) : Write := { w := w, rel := (s.clock w).rels.length }

/-- The event record of a command, by its signal field (R239). -/
def signalWord (sig : BitVec 24) (payload : Word) (detail srcc kind : Nat) : BitVec 128 :=
  recordOf payload (BitVec.ofNat 32 (min detail (2 ^ 32 - 1))) (sigTag sig) (BitVec.ofNat 8 srcc) kind

/-- A command's event record, when EV = 1, goes to its task's queue (R239): the caller has seen that it need not wait. -/
def State.signalRecord (s : State) (c : CoreId) (k : Fin 4) (tid : BitVec 32) (sig : BitVec 24) (payload : Word)
    (detail : Nat) (srcc kind : Nat) (by_ : Write) : State :=
  if !sigEv sig then s
  else s.placeRecord tid (s.taskFrame c k tid).sys.asid (signalWord sig payload detail srcc kind) by_

/-- Whether a command's record must wait in its engine (R326). -/
def State.signalWaits (s : State) (tid : BitVec 32) (sig : BitVec 24) : Bool := sigEv sig && (s.task tid).isSome && s.recordWaits tid

/-! ## Copy commands (R240-R244) -/

/-- Total bytes of a command. -/
def CopyCmd.total (q : CopyCmd) : Nat := q.rows * q.len

/-- A range that a command names: canonical at its start and end (R241). -/
def rangeOk (a : Word) (n : Nat) : Bool := canonical a && inRange57 (va57 a) n

/-- Whether a physical piece is barred at issue: the core's own register space, or a control space (R241, R480). -/
def copyBars (c : CoreId) (x : Nat × Nat) : Bool :=
  decide (meets x.1 x.2 (winBase c) 0x400000) || decide (physClass x.1 = .control)

/-- The addresses of a command's rows. -/
def rowAddrs (a : Word) (stride : Int) (rows : Nat) : List Word := (List.range rows).map fun (r : Nat) => a + BitVec.ofInt 64 (stride * r)

/-- Whether the ranges of a side pass the checks of issue; and the physical pieces they reach. A copy of no bytes has its start checked too,
one of no rows nothing: the manual says only that such a copy completes at once (R241, R242, log 76). -/
def copySide (s : State) (a : Word) (stride : Int) (rows len : Nat) : Except Stop (List (Nat × Nat)) :=
  let rs := rowAddrs a stride rows
  match rs.find? fun x => !rangeOk x len with
  | some x => trapAt Cause.address (va57 x)
  | none =>
    let l := rs.flatMap fun x => s.rangePhys s.cur s.fr (va57 x) len
    if l.any (copyBars s.cur) then trapOf Cause.address else .ok l

/-- A unit's commands changed. -/
def State.updUnit (w : State) (c : CoreId) (u : Fin 2) (g : List CopyCmd → List CopyCmd) : State :=
  w.updCore c fun x => { x with cu := x.cu.set u.val (g (x.cu.get u)) u.isLt }

/-- A frame as a command sees it: under the table and address space that stood when the command issued (R260). -/
def Frame.under (f : Frame) (root : Word) (asid : BitVec 16) : Frame := { f with sys := { f.sys with ptroot := root, asid := asid } }

/-- The tiles of other cores' local stores among physical pieces (R119). -/
def awayTiles (c : CoreId) (l : List (Nat × Nat)) : List (CoreId × Nat) :=
  l.flatMap fun x => match placeOf c x.1 with
    | .window t off => if 0x400000 ≤ off ∧ off < 0x600000 then (tilesOf (off - 0x400000) x.2).map fun i => (t, i) else []
    | _ => []

/-- A command that has ended stays in its unit, with nothing left to move, until its record is placed (R326). -/
def CopyCmd.endWith (q : CopyCmd) (payload : Word) (detail kind : Nat) : CopyCmd :=
  { q with ended := some (payload, detail, kind), tiles := [], away := [], targets := [] }

/-- A command enters its unit, numbered among its task's commands there (R240), under the space of the bundle that issues it; a unit that was
empty starts it. One that moves nothing completes at once (R241). -/
def State.enqueue (w : State) (s0 : State) (u : Fin 2) (q : CopyCmd) : State :=
  let k := w.here.run
  let tid := w.fr.id.task
  let index := (w.fr.msg.cmdCount.get u).toNat
  let w := w.updMsg fun m => { m with cmdCount := m.cmdCount.set u.val (m.cmdCount.get u + 1) u.isLt }
  let w := if q.multi then w else w.signalBytes w.cur k tid q.sig q.total
  let (by_, w) := w.engineIssue w.cur (Fin.ofNat 3 u.val)
  let id := w.fresh
  let q := { q with id := id, slot := k, task := tid, index := index, by_ := by_, root := s0.fr.sys.ptroot, asid := s0.fr.sys.asid }
  let q := { q with nestGen := if q.nest.isSome then w.fr.mat.nest.gen else 0 }
  let idle := (w.here.cu.get u).isEmpty
  if q.total = 0 ∨ (q.multi ∧ q.targets.isEmpty) then
    if w.signalWaits tid q.sig then
      let w := w.bump.updUnit w.cur u (· ++ [q.endWith 0 0 2])
      if idle then w.postFree w.cur 0 .copyComplete { k := k, u := u.val, id := id } else w
    else w.signalRecord w.cur k tid q.sig 0 0 (u.val + 1) 2 (w.releasesOf by_.w)
  else
    let w := ((w.touchTiles w.cur k q.tiles).bump).updUnit w.cur u (· ++ [q])
    if idle then w.postFree w.cur 8 .copyPiecePerformed { k := k, u := u.val, id := id } else w

/-- SIG of a descriptor, refused when a reserved bit of it or of [63:56] is set (R237, R241). -/
def descSig (x : Word) : Except Stop (BitVec 24) :=
  if bits x 56 8 != 0 || bits x 38 2 != 0 then trapOf Cause.address else .ok (BitVec.ofNat 24 (bits x 32 24))

/-- A full unit holds the bundle (R240). -/
def unitRoom (c : SlotCtx) (w : State) : Except Stop Unit := holdWhile (decide (16 ≤ (w.here.cu.get c.unit).length))

/-- CPY (R241). -/
def opCpy (d : BitVec 6) (a : BitVec 6) (b : BitVec 6) : Op where
  legal _ := okSSS d a b
  sregs _ := [d, a, b]
  memp := 1
  sem c s0 w := do
    let dst ← getS s0 d
    let srcA ← getS s0 a
    let x ← getS s0 b
    let sig ← descSig x
    let len := bits x 0 32
    let p ← copySide s0 srcA 0 1 len
    let q ← copySide s0 dst 0 1 len
    let _ ← unitRoom c w
    .ok (w.enqueue s0 c.unit { sig := sig, src := srcA, dst := dst, len := len, nest := c.nestTag,
                               tiles := dedup (lsTiles s0.cur (p ++ q)), away := awayTiles s0.cur (p ++ q) })

/-- CPYW (R242). -/
def opCpyw (d : BitVec 6) (a : BitVec 6) (b : BitVec 6) : Op where
  legal _ := sSrc d && sSrc a && sPair b
  sregs _ := [d, a, b, b + 1]
  memp := 1
  sem c s0 w := do
    let dst ← getS s0 d
    let srcA ← getS s0 a
    let x ← getS s0 b
    let y ← getS s0 (b + 1)
    let sig ← descSig x
    let len := bits x 0 32
    let rows := if len = 0 then 0 else bits y 48 16
    let sstr := toInt 24 (bits y 0 24)
    let dstr := toInt 24 (bits y 24 24)
    let p ← copySide s0 srcA sstr rows len
    let q ← copySide s0 dst dstr rows len
    let _ ← unitRoom c w
    .ok (w.enqueue s0 c.unit { sig := sig, src := srcA, dst := dst, len := len, rows := rows, sstr := sstr, dstr := dstr,
                               nest := c.nestTag, tiles := dedup (lsTiles s0.cur (p ++ q)), away := awayTiles s0.cur (p ++ q) })

/-- The cores of the masked clusters of a die (R243). -/
def clusterCores (c : CoreId) (mask : Nat) : List CoreId :=
  (List.range 16).flatMap fun j =>
    if mask.testBit j then
      let base := (dieOf c).val * 32 + j / 4 * 8 + j % 4 * 2
      [Fin.ofNat 256 base, Fin.ofNat 256 (base + 1)]
    else []

/-- CPYM (R243, R244). -/
def opCpym (d : BitVec 6) (a : BitVec 6) (b : BitVec 6) : Op where
  legal _ := okSSS d a b
  sregs _ := [d, a, b]
  memp := 1
  sem c s0 w := do
    let t ← getS s0 d
    let srcA ← getS s0 a
    let x ← getS s0 b
    let sig ← descSig x
    let len := bits x 0 32
    let off := bits t 0 21
    let _ ← require (bits t 48 16 == 0 && bits t 21 11 == 0 && decide (off + len ≤ 0x200000)) Cause.address
    let p ← copySide s0 srcA 0 1 len
    let _ ← unitRoom c w
    let targets := clusterCores s0.cur (bits t 32 16)
    let mine := if targets.contains s0.cur ∧ 0 < len then tilesOf off len else []
    .ok (w.enqueue s0 c.unit { sig := sig, src := srcA, len := len, multi := true, off := off, nest := c.nestTag,
                               targets := targets.map fun e => (e, 0, false), tiles := dedup (lsTiles s0.cur p ++ mine), away := awayTiles s0.cur p })

/-- The die of a physical address: a stack's or a core's. R308 does not say on which die host memory counts: the model takes BD0 (log 79). -/
def dieOfPa (pa : Nat) : DieId :=
  match physClass pa with
  | .hbm d => Fin.ofNat 8 d
  | .window => dieOf (winCore pa)
  | .control => Fin.ofNat 8 ((pa - ctlStart) / 0x10000000)
  | _ => 0

/-- Whether a gang's closed transfer window holds a cross-die command (R308). -/
def State.windowHolds (s : State) (c : CoreId) (tid : BitVec 32) (pas : List Nat) : Bool :=
  match s.gangs.find? fun g => g.members.contains tid && !g.windows.isEmpty with
  | none => false
  | some g => !g.openWin.contains ((g.members.idxOf? tid).getD 0) && pas.any fun a => dieOfPa a != dieOf c

/-- A unit goes on: an ended command's record, or the next command's first piece. -/
def State.nextCmd (s : State) (c : CoreId) (u : Fin 2) : State :=
  match (s.core c).cu.get u with
  | q :: _ => s.postFree c 0 (if q.ended.isSome then .copyComplete else .copyPiecePerformed) { k := q.slot, u := u.val, id := q.id }
  | [] => s

/-- What a copy unit serves: 0 its commands, n + 1 the stream of entry n. -/
def unitSource (e : Event) (u : Fin 2) : Option Nat :=
  match e.row with
  | .copyPiecePerformed => if e.arg.u = u.val then some 0 else none
  | .streamFillArrive | .streamDrainWrite => if e.arg.u % 2 = u.val then some (e.arg.u + 1) else none
  | _ => none

/-- A copy unit serves its commands and its streams in rotation, one element a cycle (R281): whether `me` has its turn now, and the
cycle from which it asks again when it does not. -/
def State.unitTurn (s : State) (c : CoreId) (u : Fin 2) (me : Nat) : Option Nat :=
  let n := s.cyc c
  let (last, who) := (s.core c).cuTurn.get u
  if last = n + 1 then some n
  else
    -- places after the one served last come first
    let place (x : Nat) : Nat := (x + 17 - who - 1) % 17
    let due := (s.core c).events.filterMap fun e => if e.at_ < n then unitSource e u else none
    if due.any fun x => decide (place x < place me) then some (n - 1) else none

/-- The unit has served `me` in this cycle. -/
def State.unitServed (s : State) (c : CoreId) (u : Fin 2) (me : Nat) : State :=
  s.updCore c fun x => { x with cuTurn := x.cuTurn.set u.val (s.cyc c + 1, me) u.isLt }

/-- A command of a unit. -/
def State.cmdOf (s : State) (c : CoreId) (u : Fin 2) (id : Nat) : Option CopyCmd := ((s.core c).cu.get u).find? (·.id == id)

/-- A command of a unit changed. -/
def State.updCmd (s : State) (c : CoreId) (u : Fin 2) (id : Nat) (g : CopyCmd → CopyCmd) : State :=
  s.updUnit c u (updWhere (fun q => q.id == id) g)

/-- The next piece of a command: 512 bytes, or what is left of its row (R238, R240). -/
def CopyCmd.piece (q : CopyCmd) : Nat := min 512 (q.len - q.done % q.len)
/-- Source address of the next piece. -/
def CopyCmd.srcAt (q : CopyCmd) : Word := q.src + BitVec.ofInt 64 (q.sstr * (q.done / q.len : Nat)) + wd (q.done % q.len)
/-- Destination address of the next piece. -/
def CopyCmd.dstAt (q : CopyCmd) : Word := q.dst + BitVec.ofInt 64 (q.dstr * (q.done / q.len : Nat)) + wd (q.done % q.len)

/-- A command that fails: its fault is reported by the engine's own event (R257). A multicast whose source fails reads no more, and ends once the
pieces it has sent have landed; a target's earlier failure stays the first (R244). -/
def State.failCmd (s : State) (c : CoreId) (u : Fin 2) (q : CopyCmd) (t : Trap) (va : Word) : State :=
  if q.multi then
    (s.updCmd c u q.id fun x => if x.failed.isSome then x else { x with failed := some { t with evaddr := va }, stopAt := q.done }).postFree c 0
      .copyComplete { k := q.slot, u := u.val, id := q.id }
  else
  (s.updCmd c u q.id fun x => { x with failed := some { t with evaddr := va } }).post 0 .engineFault
    { c := c, k := q.slot, u := u.val, id := q.id }

/-- What follows a moved piece: the next one, or completion. -/
def State.movedPiece (s : State) (c : CoreId) (u : Fin 2) (q : CopyCmd) (n : Nat) : State :=
  let s := s.updCmd c u q.id fun x => { x with done := x.done + n, started := true }
  let row : Instr := if q.done + n < q.total then .copyPiecePerformed else .copyComplete
  s.postFree c 0 row { k := q.slot, u := u.val, id := q.id }

/-- The physical addresses of the rows of a command's two sides, as far as they translate (R308). -/
def State.reach (s : State) (c : CoreId) (f : Frame) (q : CopyCmd) : List Nat :=
  ((rowAddrs q.src q.sstr q.rows ++ if q.multi then [] else rowAddrs q.dst q.dstr q.rows).flatMap fun a => s.rangePhys c f (va57 a) q.len).map (·.1)

/-- COPY_PIECE_PERFORMED (R120, R121, R238, R241, R281): one piece is read and written at package scope, poison and all, and
subtracted; a multicast's piece is sent to its targets. -/
def execCopyPiecePerformed (s : State) : Out :=
  let c := s.arg.c
  let u : Fin 2 := Fin.ofNat 2 s.arg.u
  let e : Fin 3 := Fin.ofNat 3 u.val
  match s.cmdOf c u s.arg.id with
  | none => .next s
  | some q =>
    match s.unitTurn c u 0 with
    | some n => .next (s.postCore c n .copyPiecePerformed s.arg)
    | none =>
    let s := s.unitServed c u 0
    let f := (s.taskFrame c q.slot q.task).under q.root q.asid
    let n := q.piece
    if !q.started && s.windowHolds c q.task (s.reach c f q) then .next (s.postFree c 64 .copyPiecePerformed s.arg) else
    match engineSegs s c f e .read (va57 q.srcAt) n with
    | .error t => .next (s.failCmd c u q t q.srcAt)
    | .ok l =>
      let v := s.engineRead c l
      let bad := s.segsBad c l
      if q.multi then
        let s := (s.engineLearn c e l).engineTake c l
        let s := q.targets.foldl (fun s t => if t.2.2 then s else
          s.postFree c 1 .multicastPieceLand
            { k := q.slot, u := u.val, id := q.id, n := q.done, w0 := wd t.1.val, w1 := wd n, bad := bad, v := BitVec.ofNat 4096 v }) s
        .next (s.movedPiece c u q n)
      else match engineSegs s c f e .write (va57 q.dstAt) n with
      | .error t => .next (s.failCmd c u q t q.dstAt)
      | .ok m =>
        let s := (((s.engineLearn c e l).engineTake c l).engineLearn c e m).engineWrite (s.unitStamp q.by_) m v bad
        let s := s.publish q.by_.w 3
        .next ((s.signalBytes c q.slot q.task q.sig (-(n : Int)) (s.releasesOf q.by_.w)).movedPiece c u q n)

/-- A multicast target's progress. -/
def CopyCmd.target (q : CopyCmd) (t : CoreId) : Option (CoreId × Nat × Bool) := q.targets.find? (·.1 == t)

/-- Bytes subtracted from the governing task of a tile of a core, or from no counter (R244). -/
def State.governSubtract (s : State) (t : CoreId) (tile : Nat) (sig : BitVec 24) (n : Nat) (by_ : Write := {}) : State :=
  match (s.core t).governs tile with
  | some k => s.signalBytes t k (s.frameAt t k).id.task sig (-(n : Int)) by_
  | none => s

/-- The parts of a piece by tile: the tile and its bytes. -/
def tileParts (off n : Nat) : List (Nat × Nat) :=
  (tilesOf off n).map fun t => (t, min (off + n) ((t + 1) * 4096) - max off (t * 4096))

/-- MULTICAST_PIECE_LAND (R244): a piece lands in engine-owned tiles of the target and is subtracted there, each tile's bytes from its
governing task, or stops that target; the tile that stops it says whose count loses the rest. Pieces land in order. -/
def execMulticastPieceLand (s : State) : Out :=
  let c := s.arg.c
  let u : Fin 2 := Fin.ofNat 2 s.arg.u
  let t : CoreId := Fin.ofNat 256 s.arg.w0.toNat
  let n := s.arg.w1.toNat
  match s.cmdOf c u s.arg.id with
  | none => .next s
  | some q => match q.target t with
    | none => .next s
    | some (_, done, failed) =>
      if failed then .next s
      else if done ≠ s.arg.n then .next (s.postFree c 1 .multicastPieceLand s.arg)
      else
        let off := q.off + s.arg.n
        let x := s.core t
        let upd (s : State) (d : Nat) (bad : Bool) : State := s.updCmd c u q.id fun y =>
          { y with targets := updWhere (fun z => z.1 == t) (fun _ => (t, d, bad)) y.targets }
        let stop : Option (Cause × Nat) := if x.lentTo.isSome then some (Cause.windowLent, tileOf off)
          else ((tilesOf off n).find? fun i => !x.tileOpen i).map fun i => (Cause.owner, i)
        match stop with
        | some (a, tile) =>
          let s := upd s done true
          let fault : Trap := { cause := a, evaddr := q.src + wd s.arg.n }
          let s := s.updCmd c u q.id fun y => if y.failed.isSome then y else { y with failed := some fault, stopAt := s.arg.n }
          .next (s.governSubtract t tile q.sig (q.len - done) (s.releasesOf q.by_.w))
        | none =>
          let s := (s.chipWrite (s.unitStamp q.by_) (lsBase t + off) n s.arg.v.toNat (ones n)).spreadPoison { pa := lsBase t + off, len := n } s.arg.bad
          let s := (upd s (done + n) false).publish q.by_.w 3
          .next ((tileParts off n).foldl (fun s p => s.governSubtract t p.1 q.sig p.2 (s.releasesOf q.by_.w)) s)

/-- EENG of a copy command's fault (R36, R257); in a nest the engine is the matrix unit, and the index the bundle and
slot of its program (R226). -/
def copyEeng (u : Fin 2) (q : CopyCmd) (cause : Cause) (moved : Nat) : Word :=
  let status := cause.toNat + min (moved / 512) (2 ^ 24 - 1) * 256
  match q.nest with
  | none => wd (status * 2 ^ 32 + q.index % 65536 * 65536 + u.val + 1)
  | some i => wd (status * 2 ^ 32 + i % 65536 * 65536 + 3)

/-- A nest of a task issues no further bundle; its end writes the counts back, at once or when its task stands on a core again (R224, R226). A
failure that comes after the nest has ended touches no later one. -/
def State.abandonNest (s : State) (c : CoreId) (k : Fin 4) (tid : BitVec 32) (gen : Nat) : State :=
  let n := (s.taskFrame c k tid).mat.nest
  if !n.running || n.ended || n.gen != gen then s else
  let s := s.updTaskFrame c k tid fun f => { f with mat := { f.mat with nest := { f.mat.nest with ended := true } } }
  match (if s.holds c k tid then some (c, k) else s.whereIs tid) with
  | some (d, j) => s.postCore d (s.cyc d) .nestEnd { k := j }
  | none => s

/-- The nest that issued a failed command is abandoned. -/
def State.failNest (s : State) (c : CoreId) (q : CopyCmd) : State :=
  if q.nest.isSome then s.abandonNest c q.slot q.task q.nestGen else s

/-- A command ends without moving further: its unmoved bytes are subtracted (R238). -/
def State.dropBytes (s : State) (c : CoreId) (q : CopyCmd) : State :=
  if q.multi then q.targets.foldl (fun s t => if t.2.2 then s else
      s.governSubtract t.1 (tileOf (q.off + t.2.1)) q.sig (q.len - t.2.1)) s
  else if q.ended.isSome then s
  else s.signalBytes c q.slot q.task q.sig (-((q.total - q.done : Nat) : Int))

/-- A failed command ends, and its task's later commands on the unit with it, without moving (R257): bytes are subtracted and the trap is due
at once; the records stay in the unit, in order, until they are placed (R326). -/
def State.endFailed (s : State) (c : CoreId) (u : Fin 2) (q : CopyCmd) (t : Trap) : State :=
  let l := (s.core c).cu.get u
  let moved := if q.multi then q.stopAt else q.done
  let mine := l.filter fun x => x.task == q.task && x.ended.isNone
  let close (x : CopyCmd) : CopyCmd :=
    if x.id = q.id then x.endWith t.evaddr moved 3
    else if x.task == q.task && x.ended.isNone then x.endWith x.src 0 3 else x
  let s := s.updUnit c u fun l => (l.map close).filter fun x => x.ended.isNone || sigEv x.sig
  let s := mine.foldl (fun s x => s.dropBytes c x) (s.failNest c q)
  (s.raiseTask c q.slot q.task { t with eeng := copyEeng u q t.cause moved }).nextCmd c u

/-- COPY_COMPLETE (R239, R240, R244): the record after the last write and the unit's next command; a multicast with a failed target ends as a
failed command. A record that must wait keeps the unit waiting (R326). SRC of a record is the unit's code also where a nest issued the copy: the
model's choice (log 63). -/
def execCopyComplete (s : State) : Out :=
  let c := s.arg.c
  let u : Fin 2 := Fin.ofNat 2 s.arg.u
  match s.cmdOf c u s.arg.id with
  | none => .next s
  | some q =>
    match q.ended with
    | some (payload, detail, kind) =>
      if s.signalWaits q.task q.sig then .next (s.postFree c 1 .copyComplete s.arg)
      else
        let s := s.updUnit c u (List.filter (·.id != q.id))
        .next ((s.signalRecord c q.slot q.task q.sig payload detail (u.val + 1) kind (s.releasesOf q.by_.w)).nextCmd c u)
    | none =>
      if q.targets.any (fun t => !t.2.2 && t.2.1 != q.done) then .next (s.postFree c 1 .copyComplete s.arg)
      else match q.failed with
        | some t => .next (s.endFailed c u q t)
        | none =>
          if s.signalWaits q.task q.sig then .next (s.postFree c 1 .copyComplete s.arg)
          else
            let s := s.updUnit c u (List.filter (·.id != q.id))
            .next ((s.signalRecord c q.slot q.task q.sig 0 q.total (u.val + 1) 2 (s.releasesOf q.by_.w)).nextCmd c u)

/-- ENGINE_FAULT (R257): the failed command ends at once, and its task's later commands on the unit are cancelled. -/
def execEngineFault (s : State) : Out :=
  let c := s.arg.c
  let u : Fin 2 := Fin.ofNat 2 s.arg.u
  match s.cmdOf c u s.arg.id with
  | none => .next s
  | some q => .next (s.endFailed c u q (q.failed.getD {}))

/-- A task's commands cancelled at their next piece: unmoved bytes subtracted, no record (R296). -/
def State.cancelCopies (s : State) (c : CoreId) (tid : BitVec 32) : State :=
  ([0, 1] : List (Fin 2)).foldl (fun s u =>
    let l := (s.core c).cu.get u
    let s := (l.filter (·.task == tid)).foldl (fun s q => s.dropBytes c q) s
    let s := s.updUnit c u (List.filter (·.task != tid))
    if (l.head?.map (·.task == tid)).getD false then s.nextCmd c u else s) s

/-! ## Reading by a core at issue (R126, R142) -/

/-- Bytes that an instruction reads by address while it holds its bundle, as a classed load of class 0 (R245): what lower slots of its own
bundle have sent is not waited for (log 49); a refused window read gives zero and its trap. Poison is a trap of the reader. -/
def readAt (s0 w : State) (va n : Nat) : Except Stop (Nat × State) := do
  let l ← classed s0 va n .read false 0
  let bad (g : Seg) : Option (Nat × Nat) := if placeOf w.cur g.pa == .mem then w.corePoison w.cur g.pa g.len else w.poisonOf g.pa g.len
  match l.findSome? fun x => bad x.1 with
  | some p => .error (.trap (trapOfPoison p))
  | none =>
    .ok (l.foldl (fun (acc : Nat × State) x =>
      let put (v : Nat) : Nat := acc.1 + v <<< (8 * x.1.off)
      match placeOf w.cur x.1.pa with
      | .window t off => match s0.windowRefuses t off x.1.len false (some s0.fr.sys.asid) with
        | some q => (acc.1, acc.2.raiseAsync w.cur w.here.run { cause := q, evaddr := wd x.1.va })
        | none => (put (acc.2.windowRead t off x.1.len), acc.2)
      | _ => let r := acc.2.nearRead w.cur x.1.pa x.1.len; (put r.2.1, r.1)) (0, w.learn l))

/-! ## Streams (R122, R123, R245-R247) -/

/-- Banks whose role is stream. -/
def SysRegs.streamBanks (x : SysRegs) : List Nat := (List.range 32).filter fun b => bits x.bankrole (2 * b) 2 == 1

/-- The bank that holds a bound entry's queue (R245). -/
def SysRegs.queueBank (x : SysRegs) (n : Nat) : Option Nat := x.streamBanks[n / 8]?

/-- The tiles of a queue's 8 KiB (R12, R245). -/
def queueTiles (bank n : Nat) : List Nat := [16 * bank + 2 * (n % 8), 16 * bank + 2 * (n % 8) + 1]

/-- Address of element i of a stream's pattern, i0 fastest (R245). -/
def elemAddr (base : Word) : List Nat → List Word → Nat → Word
  | c :: cs, st :: ss, i => elemAddr (base + wd (i % c) * st) cs ss (i / c)
  | _, _, _ => base

/-- Address of a stream's next element. -/
def Stream.addr (q : Stream) (i : Nat) : Word := elemAddr q.base q.counts q.strides i

/-- The pattern of a descriptor, when it is in order (R245). -/
def patternOfDesc (d : Nat) : Option (Word × List Nat × List Word) :=
  let base := wd (getQ d 0)
  let counts := (List.range 4).map fun i => field d (64 + 32 * i) 32
  let strides := (List.range 4).map fun i => wd (getQ d (3 + i))
  let product := counts.foldl (· * ·) 1
  if base.toNat % 64 = 0 ∧ strides.all (fun x => x.toNat % 64 == 0) ∧ product ≠ 0 ∧ product < 2 ^ 32 ∧ getQ d 7 = 0 then
    some (base, counts, strides)
  else none
where
  /-- Word i of a descriptor. -/
  getQ (d i : Nat) : Nat := field d (64 * i) 64

/-- `m` fill reads of a fresh read stream start; the first element stands at the head 24 cycles after SBIND (R281). -/
def State.startFills (w : State) (n : Fin 16) (gen : Nat) : Nat → State
  | 0 => w
  | m + 1 => (w.startFills n gen m).postFree w.cur 23 .streamFillArrive
      { k := w.here.run, u := n.val, id := gen, tid := w.fr.id.task }

/-- SBIND (R122, R245): the binding stands from the next bundle on (R64). The manual says that it takes the time of a 64-byte load and gives no
number: the model holds it for 4 cycles, whether or not the line is in the L1 (log 77). The tiles that its range covers are noted as touched, as far
as the range translates now, the others as they move (R412). Queued elements stand in the
queue and not in the 8 KiB of the stream bank, whose bytes no write of the queue changes: the model's choice (log 62). -/
def opSbind (d : BitVec 6) (a : BitVec 6) (m : BitVec 2) (q : BitVec 4) : Op where
  legal _ := okSbind d a m q
  sregs _ := [a]
  ofs := [xOpd {} 0 d]
  memp := 1
  sem c s0 w := do
    let n : Fin 16 := Fin.ofNat 16 d.toNat
    let x ← getS s0 a
    let _ ← require (x.toNat % 64 == 0 && (s0.fr.stream n).mode == 0) Cause.streamUse
    let _ ← require (decide (n.val / 8 < s0.fr.sys.streamBanks.length)) Cause.streamUse
    let _ ← if canonical x then .ok () else trapAt Cause.address (va57 x)
    let _ ← holdWhile (decide (s0.fr.ctl.heldFor < 4))
    let _ ← holdOrder s0.releaseWaits
    let (v, w) ← readAt s0 w (va57 x) 64
    match patternOfDesc v with
    | none => trapOf Cause.streamUse
    | some (base, counts, strides) =>
      let left := counts.foldl (· * ·) 1
      let f := s0.fr
      let bank := (f.sys.queueBank n.val).getD 0
      let tiles := dedup (lsTiles s0.cur ((List.range left).flatMap fun i =>
        s0.rangePhys s0.cur f (va57 (elemAddr base counts strides i)) 512) ++ queueTiles bank n.val)
      let fills := if m = 1 then min q.toNat left else 0
      let w := (w.releaseThen c 2).bump.touchTiles w.cur w.here.run tiles
      let gen := w.fresh - 1
      let x : Stream := { mode := m.toNat, gen := gen, bank := bank, depth := q.toNat, left := left, base := base,
                          counts := counts, strides := strides, fills := fills, root := f.sys.ptroot, asid := f.sys.asid }
      .ok ((w.updCtl fun y => { y with rebind := y.rebind ++ [(n, x)] }).startFills n gen fills)

/-- STREAM_FILL_ARRIVE (R122, R246, R281, R420): the next element, or a faulted one after which nothing is filled; it follows the release of its
binding, and takes its turn at the unit. -/
def execStreamFillArrive (s : State) : Out :=
  let c := s.arg.c
  let k := s.arg.k
  let tid := s.arg.tid
  let n : Fin 16 := Fin.ofNat 16 s.arg.u
  let e : Fin 3 := Fin.ofNat 3 (n.val % 2)
  let q := (s.taskFrame c k tid).stream n
  let f := (s.taskFrame c k tid).under q.root q.asid
  if q.mode ≠ 1 ∨ q.gen ≠ s.arg.id ∨ q.fills = 0 ∨ q.stopped then .next s else
  if s.ordering c then .next (s.postFree c 1 .streamFillArrive s.arg) else
  match s.unitTurn c (Fin.ofNat 2 n.val) (n.val + 1) with
  | some y => .next (s.postCore c y .streamFillArrive s.arg)
  | none =>
  let s := s.unitServed c (Fin.ofNat 2 n.val) (n.val + 1)
  let va := q.addr q.next
  let upd (s : State) (x : StreamElem) (stop : Bool) : State :=
    let y : Stream := { q with queue := q.queue ++ [x], left := q.left - 1, scount := q.scount + 1, next := q.next + 1,
                               fills := q.fills - 1, stopped := stop }
    (s.updTaskFrame c k tid fun f => { f with r := { f.r with streams := f.r.streams.set n.val y n.isLt } }).saveElement c k tid n.val q.queue.length x.data
  let bad (t : Trap) : Out := .next (upd s { ben := allBytes, fault := some { t with evaddr := wd (va57 va) } } true)
  if !canonical va then bad { cause := Cause.address } else
  match engineSegs s c f e .read (va57 va) 512 with
  | .error t => bad t
  | .ok l => match s.segsPoison (dieOf c) l with
    | some t => bad t
    | none =>
      let s := (upd s { data := BitVec.ofNat 4096 (s.engineRead c l), ben := allBytes } false).engineLearn c e l
      let s := s.engineTake c l
      .next (s.updTaskFrame c k tid fun f => { f with sys := f.sys.touch (l.flatMap fun x => ownTiles c x.1) })

/-- The write stream of a binding: as its entry holds it, or unbound and draining (R247). -/
def State.drainSource (s : State) (c : CoreId) (k : Fin 4) (tid : BitVec 32) (n : Fin 16) (gen : Nat) : Option Stream :=
  let q := (s.taskFrame c k tid).stream n
  if q.mode = 2 ∧ q.gen = gen then some q else ((s.core c).outq.find? fun o => o.tid == tid && o.n == n && o.q.gen == gen).map (·.q)

/-- That stream changed; an unbound one with nothing left to drain is gone. -/
def State.putDrained (s : State) (c : CoreId) (k : Fin 4) (tid : BitVec 32) (n : Fin 16) (y : Stream) : State :=
  let q := (s.taskFrame c k tid).stream n
  if q.mode = 2 ∧ q.gen = y.gen then s.updTaskFrame c k tid fun f => { f with r := { f.r with streams := f.r.streams.set n.val y n.isLt } }
  else s.updCore c fun x =>
    { x with outq := (updWhere (fun o => o.tid == tid && o.n == n && o.q.gen == y.gen) (fun o => { o with q := y }) x.outq).filter fun o =>
        !o.q.queue.isEmpty && !o.q.stopped }

/-- One element of a write stream written, performed at package scope, poison and all; a failed write stops the stream (R123, R246, R420). -/
def State.drainOne (s : State) (c : CoreId) (k : Fin 4) (tid : BitVec 32) (n : Fin 16) (q : Stream) : State :=
  let e : Fin 3 := Fin.ofNat 3 (n.val % 2)
  match q.queue with
  | [] => s
  | x :: rest =>
    let f := (s.taskFrame c k tid).under x.root x.asid
    let va := q.addr q.next
    let bad (t : Trap) : State := (s.putDrained c k tid n { q with stopped := true }).raiseTask c k tid
      { t with evaddr := wd (va57 va), eeng := wd (t.cause.toNat * 2 ^ 32 + n.val * 65536 + 5) }
    if !canonical va then bad { cause := Cause.address } else
    match engineSegs s c f e .write (va57 va) 512 with
    | .error t => bad t
    | .ok l =>
      let w := unitWriter c e
      let s := ((s.engineLearn c e l).engineWrite (s.stamp w) l x.data.toNat (x.fault.map fun t => (0, 512, t.src)).toList).publish w 3
      let s := s.putDrained c k tid n { q with queue := rest, scount := q.scount + 1, next := q.next + 1 }
      s.updTaskFrame c k tid fun f => { f with sys := f.sys.touch (l.flatMap fun x => ownTiles c x.1) }

/-- STREAM_DRAIN_WRITE (R123, R247, R281): the oldest pushed element, once its result is there and the unit's turn comes, whether or not the entry
is still bound. -/
def execStreamDrainWrite (s : State) : Out :=
  let n : Fin 16 := Fin.ofNat 16 s.arg.u
  match s.drainSource s.arg.c s.arg.k s.arg.tid n s.arg.id with
  | none => .next s
  | some q =>
    if q.stopped then .next s else
    match q.queue with
    | [] => .next s
    | x :: _ =>
      if x.tag ≠ 0 then .next (s.postFree s.arg.c 1 .streamDrainWrite s.arg) else
      match s.unitTurn s.arg.c (Fin.ofNat 2 n.val) (n.val + 1) with
      | some y => .next (s.postCore s.arg.c y .streamDrainWrite s.arg)
      | none => .next ((s.unitServed s.arg.c (Fin.ofNat 2 n.val) (n.val + 1)).drainOne s.arg.c s.arg.k s.arg.tid n q)

/-- SUNB (R247): a read stream's head stays as the entry's value, once its result is there; the pushed elements of a write stream drain on in the
unit's rotation and the entry reads zero. The entry is plain from the next bundle on (R64). Without a head the entry keeps its plain value, a head whose
fill faulted leaves zero, and a write stream that a drain fault has stopped drops the rest: the model's choices (log 61). -/
def opSunb (d : BitVec 6) : Op where
  legal _ := ofOnly d
  ofs := [xOpd {} 0 d]
  memp := 1
  sem _ s0 w := do
    let n : Fin 16 := Fin.ofNat 16 d.toNat
    let q := s0.fr.stream n
    let _ ← require (q.mode != 0) Cause.streamUse
    let _ ← holdWhile (q.mode == 1 && q.queue.any fun x => x.tag != 0)
    let put (v : Vec) (poison : Option Nat) : State :=
      (w.updRegs fun r =>
        let r := r.setOf n.val v allBytes
        { r with oPoison := r.oPoison ++ (poison.map fun p => (n.val, p)).toList }).updCtl fun y => { y with rebind := y.rebind ++ [(n, {})] }
    if q.mode = 1 then
      .ok (match (w.fr.stream n).queue with
        | x :: _ => put x.data ((x.fault.filter fun t => t.cause == Cause.dataPoison).map (·.src))
        | [] => put (w.fr.r.ofe.get n) none)
    else .ok (put 0 none)

/-- SDRN: holds until the pushed elements are performed; the core then knows of them, and no clean L1 copy stands before them (R123, R247). -/
def opSdrn (d : BitVec 6) : Op where
  legal _ := ofOnly d
  ofs := [xOpd {} 0 d]
  memp := 1
  sem _ s0 w := do
    let n : Fin 16 := Fin.ofNat 16 d.toNat
    let q := s0.fr.stream n
    let _ ← require (q.mode == 2) Cause.streamUse
    let _ ← holdWhile (!q.queue.isEmpty)
    let u := unitWriter w.cur (Fin.ofNat 3 (n.val % 2))
    .ok ((w.updCore w.cur Core.discardClean).updClock (coreWriter w.cur) fun k => k.learn { rels := [(u, (w.clock u).rels.length)] })

/-! ## Owner bits (R118, R119, R248) -/

/-- Owner bits of a tile range set. -/
def SysRegs.setOwn (x : SysRegs) (tiles : List Nat) (v : Bool) : SysRegs :=
  tiles.foldl (fun x t => if h : t / 64 < 8 then
    let bitv : Word := 1#64 <<< (t % 64)
    let old := x.own.get ⟨t / 64, h⟩
    { x with own := x.own.set (t / 64) (if v then old ||| bitv else old &&& ~~~bitv) h } else x) x

/-- Whether a stream's transfers under way touch some of the tiles of core `t`. -/
def State.streamTouches (s : State) (c : CoreId) (f : Frame) (q : Stream) (t : CoreId) (tiles : List Nat) : Bool :=
  let n := if q.mode = 1 then q.fills else q.queue.length
  q.mode != 0 && !q.stopped && (
    let l := (List.range n).flatMap fun i => s.rangePhys c (f.under q.root q.asid) (va57 (q.addr (q.next + i))) 512
    if c = t then (lsTiles c l).any tiles.contains else (awayTiles c l).any fun x => x.1 == t && tiles.contains x.2)

/-- Whether a copy command of core `c` has not finished its accesses to some of the tiles of core `t`. -/
def CopyCmd.touches (q : CopyCmd) (c t : CoreId) (tiles : List Nat) : Bool :=
  (c == t && q.tiles.any tiles.contains) || q.away.any (fun x => x.1 == t && tiles.contains x.2)
    || q.multi && q.targets.any fun x => x.1 == t && !x.2.2 && decide (x.2.1 < q.len)
        && (tilesOf (q.off + x.2.1) (q.len - x.2.1)).any tiles.contains

/-- Whether an engine command of any task, of this core or another, has not finished its accesses to some of the core's tiles (R119). -/
def State.enginesTouch (s : State) (t : CoreId) (tiles : List Nat) : Bool :=
  !tiles.isEmpty && allCores.any fun c =>
    let x := s.core c
    x.cu.toList.any (fun l => l.any fun q => q.touches c t tiles)
      || x.tiles.any (fun q => (c == t && q.tiles.any tiles.contains) || q.away.any fun y => y.1 == t && tiles.contains y.2)
      || x.outq.any (fun o => s.streamTouches c (s.taskFrame c o.k o.tid) o.q t tiles)
      || allSlots.any fun k => let f := x.frame k
          f.id.valid && f.r.streams.toList.any fun q => s.streamTouches c f q t tiles

/-- The tiles that an owner operation names (R248). -/
def tileRange (s0 : State) (a b : BitVec 6) : Except Stop (List Nat) := do
  let t ← getS s0 a
  let n ← getS s0 b
  if n = 0 then .ok []
  else
    let _ ← require (decide (t.toNat + n.toNat ≤ 512)) Cause.address
    .ok ((List.range n.toNat).map (t.toNat + ·))

/-- Whether a classed access of the core that is outstanding touches some of its tiles: the others perform at issue (R119). -/
def State.classedTouch (s : State) (c : CoreId) (tiles : List Nat) : Bool :=
  (s.core c).atomics.any (fun x => (lsTiles c [(x.pa, atomSize x.op)]).any tiles.contains)
    || s.wins.any fun a => a.c == c && a.order.isNone && (lsTiles c [(a.pa, a.n)]).any tiles.contains

/-- Tiles given to the engines (R119): after the accesses of lower slots of the bundle to them. -/
def State.giveTiles (w : State) (c : SlotCtx) (tiles : List Nat) : State :=
  if w.classedTouch w.cur tiles then w.sendOrder c (.own tiles) []
  else w.updFr fun f => { f with sys := f.sys.setOwn tiles true }

/-- An owner operation: the tiles are noted as touched (R412). -/
def ownOp (priv waits : Bool) (set : Option Bool) (a b : BitVec 6) : Op where
  legal _ := okSS a b
  priv := priv
  sregs _ := [a, b]
  memp := 1
  sem c s0 w := do
    let l ← tileRange s0 a b
    let _ ← holdWhile ((waits && s0.enginesTouch s0.cur l) || (set == some true && s0.classedTouch s0.cur l))
    let w := w.touchTiles w.cur w.here.run l
    .ok (match set with
      | some true => w.giveTiles c l
      | some false => w.updFr fun f => { f with sys := f.sys.setOwn l false }
      | none => w)

def opOwntCore (a : BitVec 6) (b : BitVec 6) : Op := ownOp false true (some false) a b
def opOwntEng (a : BitVec 6) (b : BitVec 6) : Op := ownOp false false (some true) a b
def opOwntF (a : BitVec 6) (b : BitVec 6) : Op := ownOp true false (some false) a b
def opOwnw (a : BitVec 6) (b : BitVec 6) : Op := ownOp false true none a b

/-! ## The instructions -/

/-- CPY (R241). -/
def execCpy (p : BitVec 3) (d : BitVec 6) (a : BitVec 6) (b : BitVec 6) (s : State) : Out :=
  issueOne s p 3 (opCpy d a b)
/-- CPYW (R242). -/
def execCpyw (p : BitVec 3) (d : BitVec 6) (a : BitVec 6) (b : BitVec 6) (s : State) : Out :=
  issueOne s p 3 (opCpyw d a b)
/-- CPYM (R243). -/
def execCpym (p : BitVec 3) (d : BitVec 6) (a : BitVec 6) (b : BitVec 6) (s : State) : Out :=
  issueOne s p 3 (opCpym d a b)
/-- SBIND (R245). -/
def execSbind (p : BitVec 3) (d : BitVec 6) (a : BitVec 6) (m : BitVec 2) (q : BitVec 4) (s : State) : Out :=
  issueOne s p 3 (opSbind d a m q)
/-- SUNB (R247). -/
def execSunb (p : BitVec 3) (d : BitVec 6) (s : State) : Out :=
  issueOne s p 3 (opSunb d)
/-- SDRN (R247). -/
def execSdrn (p : BitVec 3) (d : BitVec 6) (s : State) : Out :=
  issueOne s p 3 (opSdrn d)
/-- OWNT_CORE (R248). -/
def execOwntCore (p : BitVec 3) (a : BitVec 6) (b : BitVec 6) (s : State) : Out :=
  issueOne s p 3 (opOwntCore a b)
/-- OWNT_ENG (R248). -/
def execOwntEng (p : BitVec 3) (a : BitVec 6) (b : BitVec 6) (s : State) : Out :=
  issueOne s p 3 (opOwntEng a b)
/-- OWNT_F (R248). -/
def execOwntF (p : BitVec 3) (a : BitVec 6) (b : BitVec 6) (s : State) : Out :=
  issueOne s p 3 (opOwntF a b)
/-- OWNW (R248). -/
def execOwnw (p : BitVec 3) (a : BitVec 6) (b : BitVec 6) (s : State) : Out :=
  issueOne s p 3 (opOwnw a b)

end Sys2Proof.Machine
end

