-- ==== Sys2Proof/Machine/Llc.lean ====
section
/-! DEFINITION. The home slices' LLC parts and the requests that the HBM controllers send: where a line lies, its sectors and sidecar, the
activation tracker and the capture of rows (R87, R323, R324, R376, R379, R426-R429). -/

namespace Sys2Proof.Machine

open Sys2Proof

/-- A stack's controller. -/
def State.hbm (s : State) (d : DieId) : HbmCtl := (s.base d).hbm
/-- The state with a stack's controller changed. -/
def State.updHbm (s : State) (d : DieId) (f : HbmCtl → HbmCtl) : State := s.updBase d fun b => { b with hbm := f b.hbm }
/-- A word with some bits cleared and some set. -/
def remask (w : Word) (clear set : Nat) : Word := (w &&& ~~~(wd clear)) ||| wd set

/-! ## Where a line lies (R376) -/

/-- Parity of the low 36 bits. -/
def parity36 (x : Nat) : Nat := popCount x 36 % 2
/-- A hashed field: mask registers `lo` on, `n` of them, the first lowest. -/
def hashField (m : Vector Word 11) (a lo n : Nat) : Nat :=
  buildNat 1 (fun i => parity36 (a % 2 ^ 36 &&& (m.toList.getD (lo + i) 0).toNat)) n
/-- The pseudo-channel number of a stack-local offset. -/
def pseudoChannel (m : Vector Word 11) (a : Nat) : Nat := 2 * hashField m a 1 5 + hashField m a 0 1
/-- The bank: pseudo-channel x 32 + BK'. -/
def bankOf (m : Vector Word 11) (a : Nat) : Nat := pseudoChannel m a * 32 + hashField m a 6 5
/-- The row. -/
def rowOf (a : Nat) : Nat := field a 21 15

/-- Bytes of a residency slot. -/
def BaseDie.slotSize (b : BaseDie) : Nat := bits b.hslot 32 16 * 65536
/-- Physical address of a slot (R432). -/
def BaseDie.slotPa (b : BaseDie) (i : Nat) : Nat := b.hpool.toNat + i * b.slotSize

/-! ## Counts and the activation tracker (R379, R428, R429) -/

/-- A saturating 32-bit count. -/
def sat32 (n k : Nat) : Nat := min (n + k) (2 ^ 32 - 1)
/-- A word of two saturating counts, high and low, increased. -/
def count2 (w : Word) (hi lo : Nat) : Word := wd (sat32 (bits w 32 32) hi * 2 ^ 32 + sat32 (bits w 0 32) lo)
/-- A request to a pseudo-channel is counted with its granules (R379). -/
def HbmCtl.request (x : HbmCtl) (p gran : Nat) : HbmCtl :=
  if h : p < 64 then { x with pcstat := x.pcstat.set p (count2 (x.pcstat.get ⟨p, h⟩) gran 1) h } else x

/-- What an activation of a row does to its bank's sixteen counters (R428): the counters, and the row's count, 0 when it has no
counter afterwards. -/
def countRow (l : List (Nat × Nat)) (r : Nat) : List (Nat × Nat) × Nat :=
  match (List.range 16).find? fun i => let x := l.getD i (0, 0); x.1 == r && decide (0 < x.2) with
  | some i => (updNth l i fun x => (r, x.2 + 1), (l.getD i (0, 0)).2 + 1)
  | none => match (List.range 16).find? fun i => (l.getD i (0, 0)).2 == 0 with
    | some i => (updNth l i fun _ => (r, 1), 1)
    | none => (l.map fun x => (x.1, x.2 - 1), 0)

/-- Neighbours of a row that exist. -/
def rowNeighbours (r : Nat) : Nat := (if 2 ≤ r then 2 else r) + min 2 (32767 - r)

/-- The line of a bank and row in a column: the address whose hashed fields name them (R376). -/
def lineIn (m : Vector Word 11) (bank row col : Nat) : Nat :=
  let fix (a lo n v : Nat) : Nat := a + buildNat 1 (fun i => (hashField m a (lo + i) 1 + v / 2 ^ i) % 2) n * 2 ^ (6 + lo)
  fix (fix (row * 2 ^ 21 + col * 2 ^ 17) 6 5 (bank % 32)) 0 6 (bank / 32)

/-- Rows that the capture partition holds: a row is 1 KiB. -/
def HbmCtl.capacity (x : HbmCtl) : Nat := bits x.llcpart 0 8 * 1024
/-- A captured row enters the partition; the oldest leaves a full one (R429). -/
def HbmCtl.capture (x : HbmCtl) (bank row : Nat) : HbmCtl :=
  if x.capacity = 0 then x else
  { x with captured := x.captured.drop (x.captured.length + 1 - x.capacity) ++ [(bank, row, 0)], rhstat := count2 x.rhstat 0 1 }

/-- An activation of a row (R428). -/
def HbmCtl.activate (x : HbmCtl) (bank row : Nat) : HbmCtl :=
  let old := ((x.tracker.find? fun (t : Nat × List (Nat × Nat)) => t.1 == bank).map (·.2)).getD (List.replicate 16 (0, 0))
  let t1 := bits x.rhctl 0 24
  let t2 := bits x.rhctl 32 24
  let (l, c) := countRow old row
  let put (l : List (Nat × Nat)) : HbmCtl :=
    { x with tracker := x.tracker.filter (fun (t : Nat × List (Nat × Nat)) => t.1 != bank) ++ [(bank, l)] }
  if c = 0 then put l
  else if c = t2 then (put (l.map fun y => if y.1 == row then (0, 0) else y)).capture bank row
  else if c % t1 = 0 ∧ c < t2 then { put l with rhstat := count2 x.rhstat (rowNeighbours row) 0 }
  else put l

/-- Sectors of a line that [pa, pa+n) touches, as a mask. -/
def sectorsOf (line pa n : Nat) : Nat := buildNat 1 (fun i => if meets (line + 16 * i) 16 pa n then 1 else 0) 4

/-- The smallest aligned granule that covers a mask of sectors: its sectors, and its size in sectors (R324). -/
def coverOf (m : Nat) : Nat × Nat :=
  if m = 1 ∨ m = 2 ∨ m = 4 ∨ m = 8 then (m, 1) else if m = 3 ∨ m = 12 then (m, 2) else (15, 4)

/-- The granules in which dirty sectors are written back, each run at its granule: their sizes in sectors (R324). -/
def runsOf (m : Nat) : List Nat :=
  if m = 15 then [4] else [m % 4, m / 4].flatMap fun p => if p = 3 then [2] else if p = 0 then [] else [1]

/-! ## Format windows and sidecars (R87, R91, R430) -/

/-- The valid format window whose code range holds a line (R87, R430). -/
def State.windowOf (s : State) (pa : Nat) : Option FmtWin :=
  s.ld.windows.toList.find? fun w =>
    let base := bits w.code 12 40 * 4096
    bit w.code 0 && decide (base ≤ pa) && decide (pa < base + bits w.len 12 28 * 4096)

/-- Where the scale bytes of a line of codes stand (R87). -/
def State.sidecarAt (s : State) (pa : Nat) : Option Nat :=
  (s.windowOf pa).map fun w => bits w.scl 8 44 * 256 + (pa - bits w.code 12 40 * 4096) / 16

/-- Whether a line of codes takes its scale bytes from [pa, pa+n). -/
def State.scaledBy (s : State) (line pa n : Nat) : Bool := (s.sidecarAt line).any fun a => meets a 4 pa n

/-! ## Requests and captured rows (R323, R379, R428, R429) -/

/-- A captured row's lines, in the order of its columns. -/
def HbmCtl.rowLines (x : HbmCtl) (d : DieId) (bank row : Nat) : List Nat :=
  (List.range 16).map fun i => d.val * 2 ^ 36 + lineIn x.inForce bank row i

/-- Whether a line's row is captured. -/
def HbmCtl.inCapture (x : HbmCtl) (a : Nat) : Bool :=
  x.captured.any fun (y : Nat × Nat × Nat) => y.1 == bankOf x.inForce a && y.2.1 == rowOf a

/-- A request of `gran` 16-byte granules for a line is sent to its pseudo-channel (R379); whether its data needed correction is free. -/
def State.hbmCount (s : State) (d : DieId) (a gran : Nat) : State :=
  let fixed := s.pick 2 == 0
  s.tick.updHbm d fun x =>
    { x.request (pseudoChannel x.inForce a) gran with herr := if fixed then count2 x.herr 1 0 else x.herr }

/-- The sectors of a mask go to HBM in the next tick, each run at its granule (R324). -/
def State.sendRuns (s : State) (d : DieId) (a mask : Nat) : State :=
  if mask = 0 then s else s.post 1 .hbmActivation { d := d, n := a, u := mask, id := 4 }

/-- A line's entry changed. -/
def State.updLine (s : State) (d : DieId) (a : Nat) (f : LlcLine → LlcLine) : State :=
  s.updHbm d fun x => { x with llc := updWhere (fun y => y.pa == a) f x.llc }

/-- A fill of a line of codes attaches its sidecar, whose scale bytes come as one 16-byte granule unless the LLC part holds them (R87, R324). -/
def State.attachSidecar (s : State) (d : DieId) (a : Nat) : State :=
  match s.sidecarAt a with
  | none => s
  | some b =>
    let held := (s.hbm d).llc.any fun y => y.pa == b / 64 * 64 && y.valid.testBit (b % 64 / 16)
    (if held then s else s.sendRuns d (b / 64 * 64) (2 ^ (b % 64 / 16))).updLine d a fun y => { y with side := true }

/-- Capture copies every line of a row into the LLC part: the lines that it lacks are read, with their sidecars (R87, R429). -/
def State.copyRow (s : State) (d : DieId) (bank row : Nat) : State :=
  ((s.hbm d).rowLines d bank row).foldl (fun (s : State) a =>
    let s := if (s.hbm d).llc.any (·.pa == a) then s else s.updHbm d fun x => { x with llc := x.llc ++ [{ pa := a }] }
    let e := ((s.hbm d).llc.find? (·.pa == a)).getD {}
    let lacks := 15 - e.valid
    let s := if lacks = 0 then s else (s.hbmCount d a (coverOf lacks).2).updLine d a fun y => { y with valid := 15 }
    if e.side then s else s.attachSidecar d a) s

/-- Whether a line stands in the slot of a handle in state LLC. -/
def State.inLlcHandle (s : State) (d : DieId) (a : Nat) : Bool :=
  s.handles.any fun x => x.2.llch && x.2.rdie.toNat == d.val
    && decide ((s.base d).slotPa x.2.slot.toNat ≤ a) && decide (a < (s.base d).slotPa x.2.slot.toNat + x.2.size.toNat * 65536)

/-- The release of a captured row writes back its dirty lines; they leave the LLC part, but for those of the handle partition (R429). -/
def State.releaseRow (s : State) (d : DieId) (bank row : Nat) : State :=
  let row := (s.hbm d).rowLines d bank row
  let gone := (s.hbm d).llc.filter fun y => row.contains y.pa
  let left := (s.hbm d).llc.filter fun y => !row.contains y.pa || s.inLlcHandle d y.pa
  let t := s.updHbm d fun x => { x with llc := updWhere (fun y => row.contains y.pa) (fun y => { y with dirty := 0 }) left }
  gone.foldl (fun t y => t.sendRuns d y.pa y.dirty) t

/-- What follows a change of a stack's captured rows, which were `old`: new ones are copied and those that left are released. -/
def State.rowsMoved (s : State) (d : DieId) (old : List (Nat × Nat × Nat)) : State :=
  let has (l : List (Nat × Nat × Nat)) (y : Nat × Nat × Nat) : Bool := l.any fun z => z.1 == y.1 && z.2.1 == y.2.1
  let new := (s.hbm d).captured
  let s := (old.filter fun y => !has new y).foldl (fun s y => s.releaseRow d y.1 y.2.1) s
  (new.filter fun y => !has old y).foldl (fun s y => s.copyRow d y.1 y.2.1) s

/-- A request that may activate its row, which is free (R379, R428). -/
def State.hbmRequest (s : State) (d : DieId) (a gran : Nat) : State :=
  let act := s.pick 2 == 0
  let s := s.tick.hbmCount d a gran
  if !act then s else
  (s.updHbm d fun x => x.activate (bankOf x.inForce a) (rowOf a)).rowsMoved d (s.hbm d).captured

/-! ## The parts' lines (R323, R324, R426) -/

/-- A line leaves the LLC part: its dirty sectors are written back. -/
def State.llcDrop (s : State) (d : DieId) (l : LlcLine) : State :=
  (runsOf l.dirty).foldl (fun (s : State) g => s.hbmRequest d l.pa g)
    (s.updHbm d fun x => { x with llc := x.llc.filter fun y => y.pa != l.pa })

/-- Lines that the general part holds: 128 MiB less the handle and capture partitions (R3, R323, R426). -/
def HbmCtl.general (x : HbmCtl) : Nat := (128 - bits x.llcpart 8 8 - bits x.llcpart 0 8) * 16384

/-- The lines of the general part. -/
def State.generalLines (s : State) (d : DieId) : List LlcLine :=
  (s.hbm d).llc.filter fun y => !s.inLlcHandle d y.pa && !(s.hbm d).inCapture y.pa

/-- Lines that the general part has no room for leave it when `more` come, which ones is left open. -/
def State.llcShrink (s : State) (d : DieId) (more : Nat := 0) : State :=
  if (s.hbm d).llc.length + more ≤ (s.hbm d).general then s else
  let out := s.generalLines d
  if out.length + more ≤ (s.hbm d).general then s else
  ((out.rotateLeft (s.pick out.length)).take (out.length + more - (s.hbm d).general)).foldl (fun s y => s.llcDrop d y) s.tick

/-- A line of the LLC part has its entry; where the general part is full, lines of it leave. -/
def State.llcRoom (s : State) (d : DieId) (a : Nat) : State :=
  if (s.hbm d).llc.any (·.pa == a) then s else
  let s := if s.inLlcHandle d a || (s.hbm d).inCapture a then s else s.llcShrink d 1
  s.updHbm d fun x => { x with llc := x.llc ++ [{ pa := a }] }

/-- A line is asked for at its home: where the LLC part misses some of the sectors that the request needs, they come from HBM in one request, with
the line's sidecar; of a line of a windowed code range all are needed (R87, R324, R379). A write leaves the sectors that it touches dirty. A write
asks as a read does, a write-back from an L2 too, which is the model's reading (log 66). -/
def State.llcAsk (s : State) (d : DieId) (a touched : Nat) (write : Bool) : State :=
  let s := s.llcRoom d a
  let e := ((s.hbm d).llc.find? (·.pa == a)).getD {}
  let codes := (s.sidecarAt a).isSome
  let need := if codes then 15 else touched
  let miss := !(e.valid &&& need == need)
  let s := s.updLine d a fun y => { y with valid := if miss then y.valid ||| (coverOf need).1 else y.valid,
                                           dirty := if write then y.dirty ||| touched else y.dirty }
  let s := if miss then s.hbmRequest d a (coverOf need).2 else s
  if codes && !e.side && (miss || !write) then s.attachSidecar d a else s

/-- A store to scale bytes takes the sidecars of the lines that they govern (R91). -/
def State.dropSidecars (s : State) (d : DieId) (pa n : Nat) : State :=
  s.updHbm d fun x => { x with llc := updWhere (fun y => y.side && s.scaledBy y.pa pa n) (fun y => { y with side := false }) x.llc }

/-- HBM_ACTIVATION (R91, R324, R379, R426-R429): a request for [n, n+u) looks in its home's LLC part; `id` tells whether it needs whole lines or the
sectors it touches, and whether it writes. An access to a captured row's line is counted for it. With `id` 4 it is the sectors `u` of line `n` that go to
or come from HBM. -/
def execHbmActivation (s : State) : Out :=
  let d := s.arg.d
  let pa := s.arg.n
  let n := s.arg.u
  if s.arg.id = 4 then .next ((runsOf n).foldl (fun (s : State) g => s.hbmRequest d pa g) s) else
  let write : Bool := 2 ≤ s.arg.id
  let s := if write then s.dropSidecars d pa n else s
  .next ((linesOf pa n).foldl (fun (s : State) a =>
    let s := if (s.hbm d).inCapture a then
        s.updHbm d fun x => { x with captured := updWhere (fun (y : Nat × Nat × Nat) => y.1 == bankOf x.inForce a && y.2.1 == rowOf a)
                                                   (fun y => (y.1, y.2.1, y.2.2 + 1)) x.captured }
      else s
    s.llcAsk d a (if s.arg.id % 2 = 0 then 15 else sectorsOf a pa n) write) s)

end Sys2Proof.Machine
end

