-- ==== Sys2Proof/Machine/Handles.lean ====
section
/-! DEFINITION. Weight handles: the table, residency slots, fills, evictions, flips, pins, waits and their deferral
(R251, R325, R327-R336, R342, R343, R432, R434, R437, R442). -/

namespace Sys2Proof.Machine

open Sys2Proof

/-! ## Flash pages (R434, R437) -/

/-- Bytes of a flash page. -/
def pageSize : Nat := 32768
/-- A logical block of a stack. -/
def Nolnus.block (n : Nolnus) (lb : Nat) : Option LogBlock := n.blocks.find? (·.lb == lb)
/-- The stack that holds a logical block. -/
def State.flashStack (s : State) (lb : Nat) : Option DieId := allDies.find? fun d => ((s.base d).nl.block lb).isSome
/-- Whether a page of a block holds data that can be read. -/
def LogBlock.pageOk (b : LogBlock) (p : Nat) : Bool := decide (p < b.written) && !b.blank.contains p && !b.failed.contains p
/-- Whether the page at a logical flash address can be read. -/
def State.pageOk (s : State) (lfa : Nat) : Bool :=
  match s.flashStack (lfa / 512) with
  | none => false
  | some d => (((s.base d).nl.block (lfa / 512)).map fun b => b.pageOk (lfa % 512)).getD false
/-- The count of a physical block in a list of counts. -/
def countOf (l : List (Nat × Nat)) (p : Nat) : Nat := ((l.find? (·.1 == p)).map (·.2)).getD 0
/-- A count replaced; zero is not listed. -/
def setCount (l : List (Nat × Nat)) (p n : Nat) : List (Nat × Nat) :=
  l.filter (fun (x : Nat × Nat) => decide (x.1 < p)) ++ (if n = 0 then [] else [(p, n)])
    ++ l.filter (fun (x : Nat × Nat) => decide (p < x.1))

/-- Free physical blocks of a stack, in rising order. -/
def Nolnus.freePhys (n : Nolnus) : List Nat :=
  (List.range 131072).filter fun p => !n.blocks.any (·.phys == p) && !n.retired.contains p && !n.moving.any (·.2 == p) && !n.stale.any (·.1 == p)
/-- The free block of lowest erase count, ties to the lower number (R438). -/
def Nolnus.leastWorn (n : Nolnus) : Option Nat :=
  let l := n.freePhys
  (minOf (countOf n.erases) l).bind fun m => l.find? fun p => countOf n.erases p == m

/-- A page read is counted; at RDLIM the block's relocation begins: its new block is taken, and reads that arrive wait for the switch
(R437). -/
def State.countPage (s : State) (lfa : Nat) : State :=
  match s.flashStack (lfa / 512) with
  | none => s
  | some d => match (s.base d).nl.block (lfa / 512) with
    | none => s
    | some b =>
      let n := countOf (s.base d).nl.reads b.phys + 1
      let s := s.updBase d fun x => { x with nl := { x.nl with reads := setCount x.nl.reads b.phys n } }
      let nl := (s.base d).nl
      if n < bits nl.nlctl 0 32 ∨ nl.spare = 0 ∨ nl.moving.any (·.1 == b.lb) then s else
      match nl.leastWorn with
      | none => s
      | some p => (s.updBase d fun x => { x with nl := { x.nl with moving := x.nl.moving ++ [(b.lb, p)] } }).postLater 1
          .readDisturbRelocation { d := d, n := b.lb }

/-- Pages read, each counted. -/
def State.countPages (s : State) (lfa n : Nat) : State := (List.range n).foldl (fun s i => s.countPage (lfa + i)) s

/-- Whether the block of a page is under relocation: a read that arrives waits (R437). -/
def State.pageMoves (s : State) (lfa : Nat) : Bool :=
  match s.flashStack (lfa / 512) with
  | none => false
  | some d => (s.base d).nl.moving.any (·.1 == lfa / 512)

/-- `n` bytes of logical flash from a page on. -/
def State.flashRead (s : State) (lfa n : Nat) : Nat :=
  match s.flashStack (lfa / 512) with
  | none => 0
  | some d => Memory.read (s.base d).nl.pages (lfa * pageSize) n

/-! ## The table (R327) -/

/-- A handle's entry. -/
def State.handle (s : State) (h : BitVec 16) : HandleEnt := ((s.handles.find? (·.1 == h.toNat)).map (·.2)).getD {}
/-- The list of entries with one replaced, in rising order. -/
def putHandle (l : List (Nat × HandleEnt)) (h : Nat) (e : HandleEnt) : List (Nat × HandleEnt) :=
  l.filter (fun (x : Nat × HandleEnt) => decide (x.1 < h)) ++ (if e = {} then [] else [(h, e)])
    ++ l.filter (fun (x : Nat × HandleEnt) => decide (h < x.1))
/-- The state with an entry changed. -/
def State.updHandle (s : State) (h : BitVec 16) (f : HandleEnt → HandleEnt) : State :=
  { s with handles := putHandle s.handles h.toNat (f (s.handle h)) }
/-- The table die of a handle. -/
def tableDie (h : BitVec 16) : DieId := Fin.ofNat 8 h.toNat
/-- STATE as it reads: PINNED while PINS is not zero (R327). -/
def HandleEnt.code (e : HandleEnt) : Nat := if 0 < e.pins then 4 else if e.st = 2 ∧ e.llch then 3 else e.st
/-- The status word of WHQRY (R251). -/
def HandleEnt.status (e : HandleEnt) : Word := e.version ++ BitVec.ofNat 32 (min e.pins 255 * 256 + e.code)

/-- A map version's word for a layer and expert; none where it is absent (R445). -/
def MapVer.word (m : MapVer) (layer e : Nat) : Option (BitVec 32) := (m.layers[layer]?).bind fun l => l[e]?
/-- The home die of a map word. -/
def mapDie (w : BitVec 32) : DieId := Fin.ofNat 8 ((w >>> 16).toNat % 8)
/-- A live map version by its number. -/
def State.mapVer (s : State) (v : BitVec 32) : Option MapVer := s.ld.maps.find? (·.ver == v)
/-- The resident die: the home die in the newest live version that names the handle (R327). Versions stand in the
order of their installation. -/
def State.residentDie (s : State) (h : BitVec 16) : Option DieId :=
  s.ld.maps.reverse.findSome? fun m => (m.layers.flatten.find? fun w => w.setWidth 16 == h).map mapDie

/-- A slot. -/
def BaseDie.slot (b : BaseDie) (i : Nat) : ResSlot := b.slots.getD i {}
/-- A die's slot changed. -/
def State.updSlot (s : State) (d : DieId) (i : Nat) (f : ResSlot → ResSlot) : State :=
  s.updBase d fun b => { b with slots := updNth b.slots i f }
/-- The address of a handle's resident copy in a task's space (R251). -/
def State.residentVa (s : State) (e : HandleEnt) : Word :=
  BitVec.ofNat 64 (residentBase + (s.base (Fin.ofNat 8 e.rdie.toNat)).slotPa e.slot.toNat)

/-! ## What a die is to do next (R328, R329, R334) -/

/-- A row posted for a die unless it is already to come: it applies at the end of this tick, or of the next one when this tick's cores have had
their turns (R328, R331). -/
def State.postOnce (s : State) (row : Instr) (d : DieId) : State :=
  if s.agenda.any fun e => e.row == row && e.arg.d == d && e.arg.u == 0 then s else s.post (if s.turn = 256 then 1 else 0) row { d := d }

/-- Slots of a die FREE or EVICTING. -/
def BaseDie.spare (b : BaseDie) : Nat := (b.slots.filter fun x => x.st == .free || x.st == .evicting).length

/-- A die whose slots or queues changed tries its pin-wait queue, its evictor and its other fills, in that order. -/
def State.pokeDie (s : State) (d : DieId) : State :=
  let b := s.base d
  let s := if b.pinq.isEmpty then s else s.postOnce .pinWaitRetry d
  let s := if b.spare < bits b.hpar1 0 16 then s.postOnce .evictorVictim d else s
  if b.fills.isEmpty then s else s.postOnce .handleFillAllocation d

/-- Whether a slot may be chosen as victim (R328 step 2). -/
def State.evictable (s : State) (x : ResSlot) : Bool :=
  let e := s.handle x.handle
  x.st == .resident && e.pins == 0 && !e.flipp && decide (x.graceTo ≤ s.time)

/-- The victim: the least recently used, ties to the lower number. -/
def State.victim (s : State) (d : DieId) : Option Nat :=
  let l := (s.base d).slots
  let c := (List.range l.length).filter fun i => s.evictable (l.getD i {})
  match minOf (fun i => (l.getD i {}).lastUse) c with
  | none => none
  | some m => c.find? fun i => (l.getD i {}).lastUse == m

/-- A resident handle's slot enters EVICTING; the drain ends it (R330). -/
def State.evict (s : State) (d : DieId) (i : Nat) (reserved : Option (BitVec 16)) : State :=
  let h := ((s.base d).slot i).handle
  let s := s.updSlot d i fun x => { x with st := .evicting, reserved := reserved }
  let s := s.updHandle h fun e => { e with st := 5 }
  (s.postLater 1 .evictionDrainComplete { d := d, u := i, h := h }).pokeDie d

/-- A prefetch's fill has completed or is dropped: no Lantern has it outstanding (R338). -/
def State.notOutstanding (s : State) (h : BitVec 16) : State :=
  allDies.foldl (fun s d =>
    if (s.base d).lnout.contains h then
      (s.updBase d fun b => { b with lnout := b.lnout.filter (· != h) }).postOnce .lanternPrefetchSend d
    else s) s

/-- HANDLE_FILL_START (R330): the slot is FILLING and the flash reads begin. -/
def State.startFill (s : State) (d : DieId) (i : Nat) (h : BitVec 16) (demand : Bool) : State :=
  let s := s.updSlot d i fun x => { x with st := .filling, handle := h, reserved := none }
  let s := s.updBase d fun b => { b with fills := b.fills.filter (fun (x : BitVec 16 × Bool × Nat) => x.1 != h),
                                         pinq := b.pinq.filter (· != h),
                                         pinTimers := b.pinTimers.filter (fun (x : BitVec 16 × BitVec 32 × Nat) => x.1 != h) }
  let s := s.updHandle h fun e => { e with st := 1, slot := BitVec.ofNat 16 i, rdie := BitVec.ofNat 3 d.val }
  let s := if demand then s.updBase (tableDie h) fun b => { b with lndem := b.lndem + 1 } else s
  (s.postLater 1 .handleFillComplete { d := d, u := i, h := h }).pokeDie d

/-- Whether a fill of the handle waits on a die: queued, in the pin-wait queue, or with a slot reserved. -/
def BaseDie.awaits (b : BaseDie) (h : BitVec 16) : Bool :=
  b.fills.any (fun (x : BitVec 16 × Bool × Nat) => x.1 == h) || b.pinq.contains h

/-- WHPRE's effect, a Lantern's prefetch and the Belfry's (R330, R338, R395): true when it queued a fill. -/
def State.prefetch (s : State) (h : BitVec 16) : State × Bool :=
  let e := s.handle h
  if e.st ≠ 0 ∨ e.size = 0 ∨ e.flipp then (s, false) else
  match s.residentDie h with
  | none => (s, false)
  | some d =>
    if (s.base d).awaits h then (s, false) else
    let s := s.updHandle h fun e => { e with pref := true }
    let s := s.updBase d fun b => { b with fills := b.fills ++ [(h, false, s.fresh)] }
    (s.bump.pokeDie d, true)

/-- A demand fill queued; a queued prefetch fill becomes a demand fill (R330). -/
def State.demand (s : State) (h : BitVec 16) (d : DieId) : State :=
  let b := s.base d
  if b.pinq.contains h || b.fills.any (fun (x : BitVec 16 × Bool × Nat) => x.1 == h && x.2.1) then s else
  let s := s.updHandle h fun e => { e with pref := if e.st = 0 then false else e.pref }
  let s := if b.awaits h then s.updBase d fun b =>
      { b with fills := updWhere (fun (x : BitVec 16 × Bool × Nat) => x.1 == h) (fun x => (x.1, true, x.2.2)) b.fills }
    else (s.updBase d fun b => { b with fills := b.fills ++ [(h, true, s.fresh)] }).bump
  s.pokeDie d

/-! ## Waiters (R333, R335) -/

/-- Whether a wait would end now: a release, a fault, or a resident copy that may be returned. -/
def State.waitOver (s : State) (w : HWait) : Bool :=
  let e := s.handle w.h
  w.zero || w.cause.isSome || w.granted || e.st == 6
    || (e.st == 2 && !e.flipp && (!w.pin || decide (e.pins < 4096)))

/-- Whether all waits of a task's messages would end. -/
def State.waitsOver (s : State) (m : Msgs) : Bool := m.waits.all s.waitOver && !(m.gateWait && s.ld.gate)

/-- The launched tasks that wait on a handle: one that has been released, by deferral or with a failure, waits no more (R335). -/
def State.waitersOf (s : State) (h : BitVec 16) : List Task :=
  s.tasks.filter fun t => (s.msgOf t.tid).waits.any fun w => w.h == h && !w.zero && w.cause.isNone

/-- A task becomes READY: the Belfry prefetches its handles and the distributor looks for a core (R289, R395). -/
def State.markReady (s : State) (tid : BitVec 32) : State :=
  match s.task tid with
  | none => s
  | some t =>
    let s := s.updTask tid fun t => { t with st := .ready, readyAt := s.time, aging := 0 }
    let s := t.handles.foldl (fun s h => (s.prefetch h).1) s
    (s.post 0 .taskPlace { tid := tid }).post (ticksOfUs 1000) .priorityAging { tid := tid, n := s.time }

/-- Saved tasks whose handle waits are over become READY (R287, R333). -/
def State.wakeWaiters (s : State) : State :=
  s.tasks.foldl (fun s t =>
    match t.st, t.saved with
    | .saved, some v => if s.waitsOver v.frame.msg then s.markReady t.tid else s
    | _, _ => s) s

/-- Whether a task is a second-pass task (R335). -/
def Task.pass2 (t : Task) : Bool := t.flags.getLsbD 7

/-- PINWAIT's timer of a handle in the pin-wait queue and a token group starts with its first first-pass waiter. -/
def State.startPinTimer (s : State) (h : BitVec 16) (d : DieId) (grp : BitVec 32) : State :=
  let b := s.base d
  if !b.pinq.contains h || b.pinTimers.any (fun (x : BitVec 16 × BitVec 32 × Nat) => x.1 == h && x.2.1 == grp) then s else
  let id := s.fresh
  let s := s.updBase d fun b => { b with pinTimers := b.pinTimers ++ [(h, grp, id)] }
  s.bump.post (ticksOfUs (bits b.hpar1 32 32)) .pinwaitExpiry { d := d, h := h, w0 := grp.setWidth 64, id := id }

/-- A waiting fill joins the pin-wait queue; the timers of the groups that wait already start (R334, R335). -/
def State.joinPinq (s : State) (h : BitVec 16) (d : DieId) : State :=
  let s := s.updBase d fun b => { b with fills := b.fills.filter (fun (x : BitVec 16 × Bool × Nat) => x.1 != h),
                                         pinq := b.pinq ++ [h] }
  ((s.waitersOf h).filter fun t => !t.pass2).foldl (fun s t => s.startPinTimer h d t.tokgrp) s

/-- HWAIT runs for the running task from the first hold of its bundle, unless it runs already (R333). -/
def State.startHwait (s : State) (d : DieId) : State :=
  if s.fr.msg.waitFrom.isSome then s else
  let id := s.fresh
  (s.bump.updMsg fun m => { m with waitFrom := some id }).post (ticksOfUs (bits (s.base d).hpar0 0 32)) .hwaitExpiry
    { c := s.cur, k := s.here.run, tid := s.fr.id.task, id := id }

/-- A task begins to wait, or waits on: its wait is noted, HWAIT runs from the first hold of the bundle (R333). -/
def State.noteWait (s : State) (h : BitVec 16) (pin : Bool) (d : DieId) : State :=
  let tid := s.fr.id.task
  let grp := s.fr.id.tokgrp
  let first := !((s.task tid).map Task.pass2).getD false
  let s := s.updCtl fun x => { x with swHeld := x.swHeld + 1 }
  let known := s.fr.msg.waits.any fun w => w.h == h && w.pin == pin
  let s := if known then s else s.updMsg fun m => { m with waits := m.waits ++ [{ h := h, pin := pin }] }
  let s := if !known && first then s.startPinTimer h d grp else s
  s.startHwait d

/-- The waits of the running task are over: its bundle issues. A resume grace ends with its last waiter (R333). -/
def State.endWait (s : State) (h : BitVec 16) : State :=
  let tid := s.fr.id.task
  let e := s.handle h
  let s := s.updMsg fun m => { m with waits := m.waits.filter (·.h != h), waitFrom := none, gateWait := false }
  let d : DieId := Fin.ofNat 8 e.rdie.toNat
  if e.st = 2 ∧ s.time < ((s.base d).slot e.slot.toNat).graceTo ∧ (s.waitersOf h).all (fun t => t.tid == tid) then
    (s.updSlot d e.slot.toNat fun x => { x with graceTo := s.time }).pokeDie d
  else s

/-! ## Pins and flips (R330) -/

/-- VERSION and LFA take the staged values. -/
def HandleEnt.takeStaged (e : HandleEnt) : HandleEnt :=
  match e.staged with
  | some (v, l, sh) => { e with version := v, lfa := l, shape := sh, staged := none, flipp := false }
  | none => { e with flipp := false }

/-- A flip of a resident handle without pins: the staged values, and its copy is evicted. -/
def State.flipResident (s : State) (h : BitVec 16) : State :=
  let e := s.handle h
  (s.updHandle h HandleEnt.takeStaged).evict (Fin.ofNat 8 e.rdie.toNat) e.slot.toNat none

/-- HANDLE_FLIP (R330). -/
def execHandleFlip (s : State) : Out :=
  let h := s.arg.h
  let e := s.handle h
  if e.st = 0 then .next (s.updHandle h HandleEnt.takeStaged)
  else if e.st = 6 then .next ((s.updHandle h fun e => { e.takeStaged with st := 0, cause := 0 }).wakeWaiters)
  else if e.st = 2 ∧ e.pins = 0 then .next (s.flipResident h)
  else .next (s.updHandle h fun e => { e with flipp := true })

/-- A pin dropped (R330): at zero a held flip proceeds and the pin-waiters are tried. -/
def State.dropPin (s : State) (h : BitVec 16) : State :=
  let s := s.updHandle h fun e => { e with pins := e.pins - 1 }
  let e := s.handle h
  let s := if e.pins ≠ 0 then s else if e.flipp then s.flipResident h else s.pokeDie (Fin.ofNat 8 e.rdie.toNat)
  s.wakeWaiters

/-- All pins of a task dropped: it ends or is pre-empted (R251, R330). -/
def State.dropPins (s : State) (c : CoreId) (k : Fin 4) : State :=
  let l := (s.frameAt c k).msg.pins
  let s := s.updFrameAt c k fun f => { f with msg := { f.msg with pins := [], waits := f.msg.waits.map fun w => { w with granted := false } } }
  l.foldl (fun s h => s.dropPin h) s

/-! ## The LLC partition (R323, R330, R426) -/

/-- 64 KiB units that handles of a die hold in the LLC. -/
def State.llcUsed (s : State) (d : DieId) : Nat :=
  ((s.handles.filter fun x => x.2.llch && x.2.rdie.toNat == d.val).map fun x => x.2.size.toNat).foldl (· + ·) 0
/-- HLIM in 64 KiB units. -/
def State.llcLimit (s : State) (d : DieId) : Nat := bits (s.base d).hbm.llcpart 8 8 * 16
/-- The handles of a die in state LLC, least recently used first. -/
def State.llcHandles (s : State) (d : DieId) : List (Nat × HandleEnt) :=
  let use (x : Nat × HandleEnt) : Nat := ((s.base d).slot x.2.slot.toNat).lastUse
  let l := s.handles.filter fun x => x.2.llch && x.2.rdie.toNat == d.val && x.2.pins == 0 && x.2.st == 2
  l.foldl (fun acc x => acc.takeWhile (fun y => use y ≤ use x) ++ [x] ++ acc.dropWhile (fun y => use y ≤ use x)) []
/-- LLC_DEMOTION: handles demoted, least recently used first, until the rest fits in `room` units. -/
def demoteTo (s : State) (d : DieId) (room : Nat) : List (Nat × HandleEnt) → State
  | [] => s
  | x :: xs => if s.llcUsed d ≤ room then s
    else demoteTo (s.updHandle (BitVec.ofNat 16 x.1) fun e => { e with llch := false }) d room xs
/-- A WHWAIT of a handle in HBM: it enters the LLC when room can be made (R330). -/
def State.promote (s : State) (h : BitVec 16) : State :=
  let e := s.handle h
  let d : DieId := Fin.ofNat 8 e.rdie.toNat
  let fixed := s.llcUsed d - ((s.llcHandles d).map fun x => x.2.size.toNat).foldl (· + ·) 0
  if e.llch ∨ s.llcLimit d < fixed + e.size.toNat then s else
  let s := (demoteTo s d (s.llcLimit d - e.size.toNat) (s.llcHandles d)).updHandle h fun e => { e with llch := true }
  -- what was demoted is now of the general part; the lines are preloaded, with their sidecars
  let s := s.llcShrink d
  s.arrive ((s.base d).slotPa e.slot.toNat) (e.size.toNat * 65536)

/-! ## Requests: WHPRE, WHWAIT, WHPIN, WHUNP, WHQRY, WHMAP (R251) -/

/-- The admitted entry of a token group. -/
def State.admitted (s : State) (grp : BitVec 32) : Option Admitted := s.ld.admitted.find? (·.tokgrp == grp)
/-- A request is admitted at its task's first such instruction (R442); group 0 names no request. -/
def State.allowIn (s : State) : State :=
  let grp := s.fr.id.tokgrp
  if grp = 0 ∨ (s.admitted grp).isSome then s else
  { s with ld := { s.ld with admitted := s.ld.admitted ++ [{ tokgrp := grp, mapver := s.ld.mapcur }] } }
/-- The map version of a token group's request. -/
def State.requestMap (s : State) (grp : BitVec 32) : BitVec 32 := ((s.admitted grp).map (·.mapver)).getD s.ld.mapcur

/-- A new admission holds while the gate of a replacement is closed (R444); `sw` says whether the hold counts toward a switch (R290). -/
def gateCheck (s0 : State) (sw : Bool := false) : Except Stop Unit :=
  let grp := s0.fr.id.tokgrp
  if s0.ld.gate && grp != 0 && (s0.admitted grp).isNone then
    .error (.hold fun s => ((s.updCtl fun x => { x with swHeld := x.swHeld + bitOf sw }).updMsg fun m => { m with gateWait := true }).startHwait (dieOf s.cur))
  else .ok ()

/-- The version of returned weights is noted: the first of the request, or a differing one (R442). -/
def State.sawVersion (s : State) (v : BitVec 32) : State :=
  let grp := s.fr.id.tokgrp
  match (s.admitted grp).bind (·.firstver) with
  | none => { s with ld := { s.ld with admitted := updWhere (fun (x : Admitted) => x.tokgrp == grp) (fun x => { x with firstver := some v }) s.ld.admitted } }
  | some f => if f = v then s else s.updTask s.fr.id.task fun t => { t with mixver := some (t.mixver.getD v) }

/-- A handle number in a register (R251). -/
def handleOf (s0 : State) (a : BitVec 6) : Except Stop (BitVec 16) := do
  let x ← getS s0 a
  let _ ← require (bits x 16 48 == 0) Cause.handle
  .ok (x.setWidth 16)

/-- The first use of a prefetched fill counts in LNHIT; the slot's last use moves (R328, R338). -/
def State.useHandle (s : State) (h : BitVec 16) : State :=
  let e := s.handle h
  let d : DieId := Fin.ofNat 8 e.rdie.toNat
  let s := if e.pref ∧ !e.used then s.updBase d fun b => { b with lnhit := b.lnhit + 1 } else s
  ((s.updHandle h fun e => { e with used := true }).updSlot d e.slot.toNat fun x => { x with lastUse := s.fresh }).bump

/-- The routing entry of a running first-pass task has DIV set (R335). An entry that cannot be read has not. -/
def State.deferred (s : State) : Bool :=
  match s.task s.fr.id.task with
  | none => false
  | some t =>
    if t.pass2 || t.route == 0 then false else
    match baseSegs s (dieOf s.cur) s.fr.space false .read (va57 t.route + 8) 4 with
    | .error _ => false
    | .ok l => (s.homeSegs l).testBit 31

/-- WHWAIT and WHPIN (R251, R330, R335, R442). -/
def whOp (pin : Bool) (d a : BitVec 6) : Op where
  legal _ := sDst d && sSrc a
  sregs _ := [d, a]
  memp := 1
  sem c s0 w := do
    let h ← handleOf s0 a
    let _ ← gateCheck s0 true
    let me := (s0.fr.msg.waits.find? fun x => x.h == h && x.pin == pin).getD { h := h }
    let _ ← match me.cause with
      | some q => .error (.trap { cause := q.1, evaddr := q.2 })
      | none => .ok ()
    if me.zero || s0.deferred then .ok ((w.allowIn.endWait h).pendWords c 1 [(d.toNat, 0)]) else
    let e := w.handle h
    let back (w : State) : Except Stop State :=
      let w := (w.useHandle h).allowIn.sawVersion e.version
      .ok ((w.endWait h).pendWords c 1 [(d.toNat, w.residentVa e)])
    if pin && me.granted then back w else
    let _ ← require (!pin || decide (w.fr.msg.pins.length < 4)) Cause.handle
    let die := (w.residentDie h).getD 0
    let hold (g : State → State) : Except Stop State := .error (.hold fun s => (g s).noteWait h pin die)
    if e.flipp then hold id
    else if e.st = 6 then trapOf Cause.weightPoison
    else if e.st = 2 then
      if !pin then back (if e.pins = 0 then w.promote h else w)
      else if e.pins < 4096 then
        back ((w.updHandle h fun e => { e with pins := e.pins + 1 }).updMsg fun m => { m with pins := m.pins ++ [h] })
      else hold id
    else if e.size = 0 || (w.residentDie h).isNone then trapOf Cause.handle
    else if e.st = 1 then hold id
    else hold fun s => s.demand h die

def opWhpre (a : BitVec 6) : Op where
  legal _ := sSrc a
  sregs _ := [a]
  memp := 1
  sem _ s0 w := do
    let h ← handleOf s0 a
    .ok (w.prefetch h).1
def opWhwait (d : BitVec 6) (a : BitVec 6) : Op := whOp false d a
def opWhpin (d : BitVec 6) (a : BitVec 6) : Op := whOp true d a
/-- WHUNP (R251): the drop reaches the table in the next tick, before what the cores ask of the handle there (R331). -/
def opWhunp (a : BitVec 6) : Op where
  legal _ := sSrc a
  sregs _ := [a]
  memp := 1
  sem _ s0 w := do
    let h ← handleOf s0 a
    let _ ← require (w.fr.msg.pins.contains h) Cause.handle
    .ok ((w.updMsg fun m => { m with pins := dropFirst (· == h) m.pins }).post 1 .pinWaitRetry { d := tableDie h, u := 1, h := h })
def opWhqry (d : BitVec 6) (a : BitVec 6) : Op where
  legal _ := sDst d && sSrc a
  sregs _ := [d, a]
  memp := 1
  sem c s0 w := do
    let h ← handleOf s0 a
    .ok (w.pendWords c 4 [(d.toNat, (s0.handle h).status)])
/-- WHMAP: the word of the request's map version (R251, R343, R445). -/
def opWhmap (d : BitVec 6) (a : BitVec 6) : Op where
  legal _ := sDst d && sSrc a
  sregs _ := [d, a]
  memp := 1
  sem c s0 w := do
    let x ← getS s0 a
    let _ ← require (bits x 32 32 == 0) Cause.handle
    let _ ← gateCheck s0
    let w := w.allowIn
    let v := w.requestMap w.fr.id.tokgrp
    let r : Word := match (w.mapVer v).bind fun m => m.word (bits x 16 16) (bits x 0 16) with
      | some q => v ++ (q &&& 0x7FFFF#32)
      | none => BitVec.allOnes 64
    let w := w.updMsg fun m => { m with gateWait := false, waitFrom := if m.waits.isEmpty then none else m.waitFrom }
    .ok (w.pendWords c 4 [(d.toNat, r)])

/-! ## Fills and evictions -/

/-- The victim of a fill among a die's slots, those that the evictor has chosen in this cycle among them, unless an earlier fill has met them (R329). -/
def State.fillVictim (s : State) (d : DieId) (met : List Nat) : Option Nat :=
  let l := (s.base d).slots
  let c := (List.range l.length).filter fun i =>
    let x := l.getD i {}
    !met.contains i && (s.evictable x || (x.st == .evicting && x.reserved.isNone && x.chosen == some s.time))
  (minOf (fun i => (l.getD i {}).lastUse) c).bind fun m => c.find? fun i => (l.getD i {}).lastUse == m

/-- HANDLE_FILL_ALLOCATION (R328, R329) for one waiting fill; `met` are the slots at which fills have lost to the evictor in this cycle: such a
fill chooses again in the next. A handle whose old copy is still EVICTING, and a fill with a reserved slot, wait on. -/
def allocateFill (d : DieId) (a : State × List Nat) (f : BitVec 16 × Bool × Nat) : State × List Nat :=
  let (s, met) := a
  let h := f.1
  let b := s.base d
  let again (s : State) : State := s.postOnce .handleFillAllocation d
  if (s.handle h).st ≠ 0 ∨ b.slots.any (fun x => x.reserved == some h) then (s, met) else
  match (List.range b.slots.length).find? fun i => (b.slot i).st == .free with
  | some i => (s.startFill d i h f.2.1, met)
  | none => match s.fillVictim d met with
    | some i => if (b.slot i).st = .evicting then (again s, i :: met) else (s.evict d i (some h), met)
    | none =>
      if b.slots.any fun x => x.st == .evicting && x.reserved.isNone then (again s, met)
      else if f.2.1 then (s.joinPinq h d, met)
      else (((s.updBase d fun b => { b with fills := b.fills.filter (fun (x : BitVec 16 × Bool × Nat) => x.1 != h),
                                            lndrop := b.lndrop + 1 }).updHandle h fun e => { e with pref := false }).notOutstanding h, met)

/-- HANDLE_FILL_ALLOCATION (R328, R329): the waiting fills of a die, demand fills first, oldest first. -/
def execHandleFillAllocation (s : State) : Out :=
  let d := s.arg.d
  let l := (s.base d).fills
  .next ((l.filter (fun (x : BitVec 16 × Bool × Nat) => x.2.1) ++ l.filter (fun (x : BitVec 16 × Bool × Nat) => !x.2.1)).foldl (allocateFill d) (s, [])).1

/-- Victims chosen until SLOTLOW slots are FREE or EVICTING. -/
def evictMore (d : DieId) (s : State) : Nat → State
  | 0 => s
  | n + 1 =>
    if bits (s.base d).hpar1 0 16 ≤ (s.base d).spare then s else
    match s.victim d with
    | some i => evictMore d ((s.evict d i none).updSlot d i fun x => { x with chosen := some s.time }) n
    | none => s

/-- EVICTOR_VICTIM (R328): its victims enter EVICTING unreserved. -/
def execEvictorVictim (s : State) : Out := .next (evictMore s.arg.d s (s.base s.arg.d).slots.length)

/-- PIN_WAIT_RETRY (R334): the queue's entries, oldest first, each take a FREE slot or a victim. With `u` 1 it is the drop of a pin that has reached
the table (R330, R331). -/
def execPinWaitRetry (s : State) : Out :=
  let d := s.arg.d
  if s.arg.u = 1 then .next (s.dropPin s.arg.h) else
  .next ((s.base d).pinq.foldl (fun s h =>
    let b := s.base d
    if b.slots.any (fun x => x.reserved == some h) then s else
    match (List.range b.slots.length).find? fun i => (b.slot i).st == .free with
    | some i => s.startFill d i h true
    | none => match s.victim d with
      | some i => s.evict d i (some h)
      | none => s) s)

/-- EVICTION_DRAIN_COMPLETE (R325, R330): accesses under the mapping drain first; then the handle is ABSENT, a pending
flip applies, and the slot is FREE or passes to its reserved fill. -/
def execEvictionDrainComplete (s : State) : Out :=
  let d := s.arg.d
  let i := s.arg.u
  let h := s.arg.h
  let x := (s.base d).slot i
  if x.st ≠ .evicting ∨ x.handle ≠ h then .next s else
  let v : Inval := { every := true, range := some (residentBase + (s.base d).slotPa i, (s.base d).slotSize) }
  -- the translations go first, then the accesses that may have used them end, then the lines go home (R325, R416)
  if s.arg.id = 0 ∧ !(s.invalIds v).isEmpty then
    .next ((s.requestInval v).post 1 .evictionDrainComplete { s.arg with id := s.fresh })
  else if s.arg.id ≠ 0 ∧ s.invals.any (·.id == s.arg.id) then .next (s.post 1 .evictionDrainComplete s.arg) else
  let s := if s.arg.id = 0 then s.invalidate v else s
  let e := s.handle h
  let s := if e.pref ∧ !e.used then s.updBase d fun b => { b with lnwaste := b.lnwaste + 1 } else s
  let s := s.updHandle h fun e =>
    let e := { e with st := 0, slot := 0, rdie := 0, used := false, pref := false, llch := false }
    if e.flipp then e.takeStaged else e
  let s := s.llcShrink d
  let s := s.updSlot d i fun x => { x with st := .free, handle := 0, reserved := none, graceTo := 0 }
  let s := match x.reserved with
    | some g => if (s.handle g).st = 0 ∧ (s.base d).awaits g then
        s.startFill d i g ((s.base d).pinq.contains g || (s.base d).fills.any (fun (y : BitVec 16 × Bool × Nat) => y.1 == g && y.2.1))
      else s
    | none => s
  let s := match s.residentDie h with
    | some r => if (s.waitersOf h).isEmpty then s else s.demand h r
    | none => s
  .next (s.pokeDie d)

/-- Bytes of a fill: code length, whether scale bytes follow, and their place (R87, R432, R440). Without a length from
the loader SIZE gives it, and a valid window over the slot says that scales follow. -/
def State.fillShape (s : State) (d : DieId) (i : Nat) (e : HandleEnt) : Nat × Option Nat :=
  let pa := (s.base d).slotPa i
  let win := s.ld.windows.toList.find? fun w => bit w.code 0 && decide (bits w.code 12 40 * 4096 ≤ pa)
    && decide (pa < bits w.code 12 40 * 4096 + bits w.len 12 28 * 4096)
  let n := (e.shape.map (·.1)).getD (e.size.toNat * 65536)
  let scaled := (e.shape.map (·.2)).getD win.isSome
  (n, if scaled then win.map fun w => bits w.scl 8 44 * 256 + (pa - bits w.code 12 40 * 4096) / 16 else none)

/-- Flash bytes of a fill: scale bytes stand after the code bytes. -/
def State.fillBytes (s : State) (d : DieId) (i : Nat) (e : HandleEnt) : Nat :=
  let n := (s.fillShape d i e).1
  if (e.shape.map (·.2)).getD (s.fillShape d i e).2.isSome then n + n / 16 else n

/-- Held WHPINs take their pins as the fill completes, in order of their waits (R330). -/
def State.grantPins (s : State) (h : BitVec 16) : State :=
  (s.waitersOf h).foldl (fun s t =>
    match s.whereIs t.tid with
    | none => s
    | some (c, k) =>
      let m := (s.frameAt c k).msg
      if m.waits.any (fun w => w.h == h && w.pin && !w.granted) && decide (m.pins.length < 4) && decide ((s.handle h).pins < 4096) then
        (s.updHandle h fun e => { e with pins := e.pins + 1 }).updFrameAt c k fun f =>
          { f with msg := { f.msg with pins := f.msg.pins ++ [h],
                                       waits := updWhere (fun w => w.h == h && w.pin) (fun w => { w with granted := true }) f.msg.waits } }
      else s) s

/-- The end of a fill whose bytes stand in the slot: the handle is resident, a pending flip applies, held pins are taken, and a saved
waiter gives the slot resume grace (R330, R333). -/
def State.finishFill (s : State) (d : DieId) (i : Nat) (h : BitVec 16) : State :=
  let s := (s.notOutstanding h).updSlot d i fun x => { x with st := .resident, lastUse := s.fresh }
  let s := s.bump.updHandle h fun e => { e with st := 2, used := false }
  if (s.handle h).flipp then (s.flipResident h).pokeDie d else
  let saved := (s.waitersOf h).any fun t => (s.whereIs t.tid).isNone
  let grace := s.time + ticksOfUs (bits (s.base d).hpar0 32 32)
  let s := if saved then (s.updSlot d i fun x => { x with graceTo := grace }).post (grace - s.time) .rgraceExpiry { d := d, u := i, h := h }
           else s
  ((s.grantPins h).pokeDie d).wakeWaiters

/-- The handle unit's writer identifier: it places a fill's bytes (R102, R405). -/
def fillWriter (d : DieId) : Nat := baseWriter d 5

/-- A page of a fill stands in HBM: its code bytes in the slot, its scale bytes at their place (R432, R435). -/
def State.placePage (s : State) (d : DieId) (i : Nat) (e : HandleEnt) (j : Nat) : State :=
  let (n, scales) := s.fillShape d i e
  let v := s.flashRead (e.lfa.toNat + j) pageSize
  let w := fillWriter d
  let k := min pageSize (n - j * pageSize)
  let s := if k = 0 then s else s.homeWrite (s.stamp w) ((s.base d).slotPa i + j * pageSize) k v .line
  match scales with
  | none => s.publish w 3
  | some pa =>
    let lo := max n (j * pageSize)
    let hi := min (n + n / 16) ((j + 1) * pageSize)
    (if lo < hi then s.homeWrite (s.stamp w) (pa + (lo - n)) (hi - lo) (v / 256 ^ (lo - j * pageSize)) .line else s).publish w 3

/-- Whether the fill of a handle reads as a demand fill: it began as one, or someone waits on it (R330). -/
def State.demanded (s : State) (h : BitVec 16) : Bool := !(s.handle h).pref || !(s.waitersOf h).isEmpty

/-- Whether the flash stacks have power (R461, R462). -/
def State.flashOn (s : State) : Bool := s.pw.ready && decide (s.pw.pstate < 2)
/-- Whether reads of a stack come before those of a class now (R437): 0 relocation copies, 1 demand fills, 2 READ commands, 3 prefetch fills, 4 wear
moves. -/
def State.readsAhead (s : State) (d : DieId) (cls : Nat) : Bool :=
  (decide (0 < cls) && !(s.base d).nl.moving.isEmpty) || s.agenda.any fun x => decide (x.at_ ≤ s.time) && match x.row with
    | .handleFillComplete => x.arg.id == 0 && decide ((if s.demanded x.arg.h then 1 else 3) < cls)
        && s.flashStack (((s.handle x.arg.h).lfa.toNat + x.arg.n) / 512) == some d
    | .nolnusRead => decide (2 < cls) && s.flashStack (bits x.arg.w0 32 32 / 512) == some d
    | _ => false

/-- A read of a stack that has ended leaves its list; a block left behind that no read uses is erased (R437). -/
def Nolnus.erase (n : Nolnus) (p : Nat) : Nolnus :=
  let e := setCount n.erases p (countOf n.erases p + 1)
  { n with erases := e, reads := setCount n.reads p 0, maxErase := BitVec.ofNat 32 (max n.maxErase.toNat (n.allErased + countOf e p)),
           meanErase := BitVec.ofNat 32 (n.allErased + (e.map (·.2)).foldl (· + ·) 0 / 131072) }

/-- Blocks left behind by relocations that no page read uses any more are erased and free (R437 steps 4 and 5). -/
def Nolnus.settle (n : Nolnus) : Nolnus :=
  (n.stale.filter fun x => !n.open_.any fun r => r.phys == x.1).foldl (fun n x =>
    let n := { n with stale := n.stale.filter (·.1 != x.1), rdReloc := if x.2 then n.rdReloc + 1 else n.rdReloc }
    if n.retired.contains x.1 then n else n.erase x.1) n

/-- The allocated block of lowest erase count. -/
def Nolnus.leastErased (n : Nolnus) : Option LogBlock :=
  (minOf (fun b => countOf n.erases b.phys) n.blocks).bind fun m => n.blocks.find? fun b => countOf n.erases b.phys == m

/-- Whether the erase counts are spread beyond WLDELTA (R438). -/
def Nolnus.spread (n : Nolnus) : Bool :=
  match n.leastErased with
  | some b => decide (n.allErased + countOf n.erases b.phys + bits n.nlctl 32 32 < n.maxErase.toNat) && n.spare != 0
  | none => false
/-- Static wear levelling starts when the spread asks for it. -/
def State.checkWear (s : State) (d : DieId) : State :=
  if (s.base d).nl.spread && !s.agenda.any (fun e => e.row == .wearLevelMove && e.arg.d == d) then s.post 1 .wearLevelMove { d := d } else s

/-- A page read of a fill ends. -/
def State.closeRead (s : State) (d : DieId) (r : PageRead) : State :=
  (s.updBase d fun b => { b with nl := { b.nl with open_ := dropFirst (· == r) b.nl.open_ }.settle }).checkWear d

/-- HANDLE_FILL_COMPLETE (R330, R332, R333, R338, R432, R437): the next step of a fill's page reads, in order. With `id` 0 page `n` is asked for: it
waits for the reads of its stack that come before, is counted, and issues at the block that holds it. With `id` one more than a physical block, the
page read that issued there ends: one that failed at a block its page has left is issued again; a page that cannot be read makes it a fill fault;
the last one completes the fill. -/
def execHandleFillComplete (s : State) : Out :=
  let d := s.arg.d
  let i := s.arg.u
  let h := s.arg.h
  let j := s.arg.n
  let e := s.handle h
  let x := (s.base d).slot i
  let lfa := e.lfa.toNat + j
  let gone := x.st ≠ .filling ∨ x.handle ≠ h ∨ e.st ≠ 1
  if s.arg.id = 0 then
    if gone then .next s
    else if !s.flashOn ∨ ((s.flashStack (lfa / 512)).any fun d => s.readsAhead d (if s.demanded h then 1 else 3)) then .next (s.postLater 1 .handleFillComplete s.arg)
    else match s.flashStack (lfa / 512) with
      | none => .next (s.post 0 .handleFillFault s.arg)
      | some k => match (s.base k).nl.block (lfa / 512) with
        | none => .next (s.post 0 .handleFillFault s.arg)
        | some b =>
          if !b.pageOk (lfa % 512) then .next (s.post 0 .handleFillFault s.arg) else
          let s := s.updBase k fun y => { y with nl := { y.nl with open_ := y.nl.open_ ++ [{ lfa := lfa, phys := b.phys }] } }
          .next ((s.countPage lfa).postLater 1 .handleFillComplete { s.arg with id := b.phys + 1 })
  else
    match allDies.findSome? fun k => ((s.base k).nl.open_.find? fun r => r.lfa == lfa && r.phys + 1 == s.arg.id).map fun r => (k, r) with
    | none => .next s
    | some (k, r) =>
      let s := s.closeRead k r
      if gone then .next s
      else if r.failed then .next (s.post 0 .handleFillComplete { s.arg with id := 0 })
      else if !s.pageOk lfa then .next (s.post 0 .handleFillFault s.arg)
      else
        let pages := ceilDiv (s.fillBytes d i e) pageSize
        let s := s.placePage d i e j
        if j + 1 < pages then .next (s.postLater 1 .handleFillComplete { s.arg with n := j + 1, id := 0 })
        else .next (s.finishFill d i h)

/-- HANDLE_FILL_FAULT (R330, R439): the slot is FREE and the handle FAULTED; who waited takes the fault. A flip that is pending then reaches a
FAULTED handle (log 54). -/
def execHandleFillFault (s : State) : Out :=
  let d := s.arg.d
  let i := s.arg.u
  let h := s.arg.h
  let e := s.handle h
  let x := (s.base d).slot i
  if x.st ≠ .filling ∨ x.handle ≠ h ∨ e.st ≠ 1 then .next s else
  let s := (s.notOutstanding h).updSlot d i fun x => { x with st := .free, handle := 0 }
  let s := (s.waitersOf h).foldl (fun s t => s.updMsgOf t.tid fun m =>
    { m with waits := updWhere (fun w => w.h == h) (fun w => { w with cause := some (Cause.weightPoison, 0) }) m.waits }) s
  let s := s.updHandle h fun e => { e with st := 6, slot := 0, rdie := 0, pref := false, cause := Cause.weightPoison }
  let s := if e.flipp then s.post 0 .handleFlip { h := h } else s
  .next ((s.pokeDie d).wakeWaiters)

/-! ## Timers (R333, R335) -/

/-- HWAIT_EXPIRY (R333): the task is pre-empted unless its waits are over; then it issues again, and if it is held once more its time runs
anew. -/
def execHwaitExpiry (s : State) : Out :=
  let c := s.arg.c
  let k := s.arg.k
  let m := (s.frameAt c k).msg
  if !(s.holds c k s.arg.tid && m.waitFrom == some s.arg.id) then .next s
  else if s.waitsOver m then .next (s.updFrameAt c k fun f => { f with msg := { f.msg with waitFrom := none } })
  else .next (s.post 0 .preemptTask { tid := s.arg.tid, u := 3 })

/-- RGRACE_EXPIRY (R333): the slot may be chosen again. -/
def execRgraceExpiry (s : State) : Out := .next (s.pokeDie s.arg.d)

/-- The writer identifier of a base die's ingress unit: R405 does not number that unit, and the model gives it the Lantern's number (R102, log 81). -/
def ingressWriter (d : DieId) : Nat := baseWriter d 4

/-- A party outside the cores learns of another's releases. -/
def State.partyLearns (s : State) (w : Nat) (by_ : Write) : State := (s.hear w [by_]).learnSeen w 4

/-- An ingress unit's read in a task's space, performed at the home; the failed access. -/
def ingressRead (s : State) (d : DieId) (sp : Space) (va : Word) (n : Nat) : Except Trap (Nat × State) :=
  if !rangeOk va n then .error { cause := Cause.address, evaddr := va } else
  match baseSegs s d sp false .read (va57 va) n with
  | .error t => .error t
  | .ok l => match s.homePoison l with
    | some t => .error t
    | none => .ok (s.homeSegs l, (s.baseLearn d l).partyReads (ingressWriter d) (segRanges l))

/-- A write in a task's space by an engine of a base die, performed at package scope. -/
def engineStore (s : State) (d : DieId) (w : Nat) (sp : Space) (va : Word) (n v : Nat) : Except Trap State :=
  if !rangeOk va n then .error { cause := Cause.address, evaddr := va } else
  match baseSegs s d sp false .write (va57 va) n with
  | .error t => .error t
  | .ok l => .ok ((s.baseLearn d l).partyWrites w l v)

/-- An ingress unit's write in a task's space. -/
def ingressWrite (s : State) (d : DieId) (sp : Space) (va : Word) (n v : Nat) : Except Trap State :=
  engineStore s d (ingressWriter d) sp va n v

/-- A write to an expert spill ring, which the spill engine of the ingress unit's base die makes for it (R326, log 80). -/
def ringWrite (s : State) (d : DieId) (sp : Space) (va : Word) (n v : Nat) : Except Trap State :=
  let w := baseWriter d 8
  (engineStore (s.partyLearns w (s.releasesOf (ingressWriter d))) d w sp va n v).map fun s => s.partyLearns (ingressWriter d) (s.releasesOf w)

/-- A failed access with what was performed before it. -/
def failedAt {α : Type} (s : State) (x : Except Trap α) : Except (State × Trap) α :=
  match x with
  | .error t => .error (s, t)
  | .ok a => .ok a

/-- A token entry appended to the spill ring of a routing entry, its status set; beyond RSIZE only RCOUNT moves (R341). -/
def ringAppend (s : State) (d : DieId) (sp : Space) (ent : Word) (x status : Nat) : Except (State × Trap) (State × Bool) := do
  let (r, s) ← failedAt s (ingressRead s d sp (ent + 16) 16)
  let n := field r 96 32
  let fits := decide (n < field r 64 32)
  let s ← if fits then failedAt s (ringWrite s d sp (wd (field r 0 64 + 32 * n)) 32 (setByte x 31 status)) else .ok s
  let s ← failedAt s (ingressWrite s d sp (ent + 28) 4 (n + 1))
  .ok (s, fits)

/-- TOKEN_DEFERRAL: queue entries `i` on appended as DEFERRED; the failed access and what was performed before it. -/
def deferQueue (d : DieId) (sp : Space) (ent : Word) (qbase : Nat) (s : State) (i : Nat) : Nat → State × Option Trap
  | 0 => (s, none)
  | n + 1 =>
    match ingressRead s d sp (wd (qbase + 32 * i)) 32 with
    | .error t => (s, some t)
    | .ok (x, s) => match ringAppend s d sp ent x 2 with
      | .error (s, t) => (s, some t)
      | .ok (s, _) => deferQueue d sp ent qbase s (i + 1) n

/-- A waiting task's routing entry diverted and its queue deferred (R335). -/
def deferTask (s : State) (d : DieId) (t : Task) : State × Option Trap :=
  let sp := s.spaceOf t.tid
  let ent := t.route
  if t.route = 0 then (s, none) else
  match ingressRead s d sp ent 16 with
  | .error e => (s, some e)
  | .ok (x, s) => match ingressWrite s d sp (ent + 8) 4 (field x 64 31 + 2 ^ 31) with
    | .error e => (s, some e)
    | .ok s => deferQueue d sp ent (field x 0 64) s 0 (field x 96 32)

/-- PINWAIT_EXPIRY (R335): the first-pass waiters of the group are deferred and released with zero, or will raise the
cause of their failed access; the handle leaves the queue when no other waiter remains. -/
def execPinwaitExpiry (s : State) : Out :=
  let d := s.arg.d
  let h := s.arg.h
  let grp : BitVec 32 := s.arg.w0.setWidth 32
  if !(s.base d).pinTimers.contains (h, grp, s.arg.id) then .next s else
  let s := s.updBase d fun b => { b with pinTimers := b.pinTimers.filter (· != (h, grp, s.arg.id)) }
  let mine := (s.waitersOf h).filter fun t => !t.pass2 && t.tokgrp == grp
  let s := mine.foldl (fun s t =>
    let (s, e) := deferTask s d t
    s.updMsgOf t.tid fun m => { m with waits := updWhere (fun w => w.h == h) (fun w => match e with
      | none => { w with zero := true }
      | some q => { w with cause := some (q.cause, q.evaddr) }) m.waits }) s
  let s := if (s.waitersOf h).isEmpty then
      s.updBase d fun b => { b with pinq := b.pinq.filter (· != h),
                                    pinTimers := b.pinTimers.filter (fun (x : BitVec 16 × BitVec 32 × Nat) => x.1 != h) }
    else s
  .next s.wakeWaiters

/-! ## The instructions -/

/-- WHPRE (R251). -/
def execWhpre (p : BitVec 3) (a : BitVec 6) (s : State) : Out :=
  issueOne s p 3 (opWhpre a)
/-- WHWAIT (R251). -/
def execWhwait (p : BitVec 3) (d : BitVec 6) (a : BitVec 6) (s : State) : Out :=
  issueOne s p 3 (opWhwait d a)
/-- WHPIN (R251). -/
def execWhpin (p : BitVec 3) (d : BitVec 6) (a : BitVec 6) (s : State) : Out :=
  issueOne s p 3 (opWhpin d a)
/-- WHUNP (R251). -/
def execWhunp (p : BitVec 3) (a : BitVec 6) (s : State) : Out :=
  issueOne s p 3 (opWhunp a)
/-- WHQRY (R251). -/
def execWhqry (p : BitVec 3) (d : BitVec 6) (a : BitVec 6) (s : State) : Out :=
  issueOne s p 3 (opWhqry d a)
/-- WHMAP (R251). -/
def execWhmap (p : BitVec 3) (d : BitVec 6) (a : BitVec 6) (s : State) : Out :=
  issueOne s p 3 (opWhmap d a)

end Sys2Proof.Machine
end

