-- ==== Sys2Proof/Machine/Routing.lean ====
section
/-! DEFINITION. The Lantern and the dispatch of tokens to experts (R254, R255, R337, R338, R340, R341). -/

namespace Sys2Proof.Machine

open Sys2Proof

/-! ## Ranking logits (R337, R341) -/

/-- A logit placed in descending order; a tie stays behind. -/
def rankLogit (x : Nat × FVal) : List (Nat × FVal) → List (Nat × FVal)
  | [] => [x]
  | y :: ys => if y.2.lt x.2 then x :: y :: ys else y :: rankLogit x ys

/-- The first `n` f32 elements that are not NaN, in descending order, ties to the lower index. -/
def rankLogits (v n : Nat) : List (Nat × FVal) :=
  (((List.range n).map fun i => (i, f32.decode (field v (32 * i) 32))).filter fun x => !x.2.isNan).foldl
    (fun acc x => rankLogit x acc) []

/-! ## The Lantern (R337, R338) -/

/-- RTPRED: never holds, never traps on its values; a submission that finds another one of its Lantern under way may be dropped (R254). -/
def opRtpred (a : BitVec 6) (b : BitVec 6) : Op where
  legal _ := xData a && sSrc b
  sregs _ := [b]
  ofs := [xOpd {} 1 a]
  uses c s := useOf s (xOpd c 1 a) false true
  memp := 1
  sem c s0 w := do
    let (x, _, w) ← readV c s0 (xOpd c 1 a) 4 true ([], w)
    let y ← getS s0 b
    let d := dieOf w.cur
    let busy := w.agenda.any fun e => e.row == .lanternSubmission && e.arg.d == d
    let drop := busy && w.pick 2 == 1
    let w := w.tick
    let v := bits y 32 8
    if drop || decide (v = 0) || decide (128 < v) || bits y 40 24 != 0 then
      .ok (w.updBase d fun q => { q with lndisc := q.lndisc + 1 })
    else .ok (w.postLater 1 .lanternSubmission { d := d, w0 := y, v := x })

/-- Keys in the order of service: layer, rank, arrival. -/
def LnEntry.before (a b : LnEntry) : Bool :=
  decide (a.layer < b.layer) || (a.layer == b.layer && (decide (a.rank < b.rank) || (a.rank == b.rank && decide (a.arr < b.arr))))

/-- The entry served last. -/
def lastEntry : List LnEntry → Option LnEntry
  | [] => none
  | x :: xs => match lastEntry xs with
    | none => some x
    | some y => if y.before x then some x else some y

/-- The entry served first. -/
def firstEntry : List LnEntry → Option LnEntry
  | [] => none
  | x :: xs => match firstEntry xs with
    | none => some x
    | some y => if y.before x then some y else some x

/-- An entry's age limit is to be looked at. -/
def State.ageLater (s : State) (d : DieId) (h : BitVec 16) : State :=
  let age := (s.base d).lnage.toNat
  if age = 0 then s else s.post (ticksOfUs age + 1) .lanternAgeExpiry { d := d, h := h }

/-- One selected expert enters the queue (R337). -/
def State.lanternPut (s : State) (d : DieId) (e : LnEntry) : State :=
  let b := s.base d
  match b.lnq.find? fun x => x.handle == e.handle with
  | some old => if e.before old then
      s.updBase d fun b => { b with lnq := updWhere (fun x => x.handle == e.handle) (fun x => { e with at_ := x.at_ }) b.lnq }
    else s
  | none =>
    if b.lnq.length < 256 then (s.updBase d fun b => { b with lnq := b.lnq ++ [e] }).ageLater d e.handle
    else match lastEntry b.lnq with
      | none => s
      | some l =>
        let s := s.updBase d fun b => { b with lndrop := b.lndrop + 1 }
        if e.before l then
          (s.updBase d fun b => { b with lnq := b.lnq.filter (· != l) ++ [e] }).ageLater d e.handle
        else s

/-- Whether a value lies no more than the margin below the greatest (R337): the comparison is exact. -/
def withinMargin (m x : FVal) (sixteenths : Nat) : Bool := !(x.lt (m.add (.fin true sixteenths (-4))))

/-- LANTERN_SUBMISSION (R337, R339). -/
def execLanternSubmission (s : State) : Out :=
  let d := s.arg.d
  let y := s.arg.w0
  let g := bits y 0 16
  let t := bits y 16 16
  let layers := ((s.mapVer s.ld.mapcur).map (·.layers.length)).getD 0
  if 512 ≤ g ∨ layers ≤ t then .next (s.updBase d fun b => { b with lndisc := b.lndisc + 1 }) else
  let s := s.updBase d fun b => { b with lnsub := b.lnsub + 1 }
  let ctl := (s.base d).lnctl
  if !bit ctl 31 then .next s else
  match rankLogits s.arg.v.toNat (bits y 32 8) with
  | [] => .next s
  | m :: rest =>
    let chosen := ((m :: rest).filter fun x => x.1 == m.1 || withinMargin m.2 x.2 (bits ctl 16 8)).take (bits ctl 8 4)
    let s := (List.range chosen.length).foldl (fun (s : State) r =>
      let i := ((chosen[r]?).map (·.1)).getD 0
      match (s.mapVer s.ld.mapcur).bind fun m => m.word t (128 * g + i) with
      | none => s
      | some w =>
        let arr := (s.base d).lnarr
        let s := s.updBase d fun b => { b with lnarr := arr + 1 }
        s.lanternPut d { layer := t, rank := r, arr := arr, at_ := s.time, handle := w.setWidth 16 }) s
    .next (s.postOnce .lanternPrefetchSend d)

/-- LANTERN_PREFETCH_SEND (R338): the smallest key first, while fewer than LOUT are outstanding. -/
def execLanternPrefetchSend (s : State) : Out :=
  let d := s.arg.d
  let b := s.base d
  if bits b.lnctl 0 8 ≤ b.lnout.length then .next s else
  match firstEntry b.lnq with
  | none => .next s
  | some e =>
    let s := s.updBase d fun b => { b with lnq := b.lnq.filter (· != e), lnpf := b.lnpf + 1 }
    let (s, queued) := s.prefetch e.handle
    let s := if queued then s.updBase d fun b => { b with lnout := b.lnout ++ [e.handle] } else s
    .next (s.postOnce .lanternPrefetchSend d)

/-- LANTERN_AGE_EXPIRY (R338). -/
def execLanternAgeExpiry (s : State) : Out :=
  let d := s.arg.d
  let b := s.base d
  match b.lnq.find? fun x => x.handle == s.arg.h with
  | none => .next s
  | some e =>
    let due := e.at_ + ticksOfUs b.lnage.toNat
    if b.lnage = 0 then .next s
    else if due < s.time then .next (s.updBase d fun b => { b with lnq := b.lnq.filter (· != e), lndrop := b.lndrop + 1 })
    else .next (s.post (due + 1 - s.time) .lanternAgeExpiry s.arg)

/-! ## Dispatch (R255, R340, R341) -/

/-- An engine fault of an engine that is no copy unit (R257): ENGINE 6. R240 numbers the commands of copy units only: INDEX is 0, the model's
choice (log 55). -/
def Trap.engine6 (t : Trap) : Trap := { t with eeng := wd (t.cause.toNat * 2 ^ 32 + 6) }

/-- The dispatch that a record describes, checked (R340, R341); none where a field breaks its limits. -/
def dispatchOf (va : Word) (r : Nat) : Option Disp :=
  let w (o : Nat) : Word := wd (field r (8 * o) 64)
  let ok := va.toNat % 64 == 0 && bits (w 0) 0 9 == 0 && bits (w 8) 0 2 == 0 && bits (w 16) 0 6 == 0
    && decide (1 ≤ getByte r 0x26) && decide (getByte r 0x26 ≤ 8) && getByte r 0x27 == 0 && field r (8 * 0x2A) 176 == 0
  if ok then some { hidden := w 0, logits := w 8, route := w 16, ret := w 24, token := BitVec.ofNat 32 (field r (8 * 0x20) 32),
                    layer := field r (8 * 0x24) 16, ke := getByte r 0x26, tag := BitVec.ofNat 16 (field r (8 * 0x28) 16) }
  else none

/-- The chosen groups at their ranks: none skipped, a repeated one once (R341). -/
def chosenGroups (v : Vec) : List (Nat × Nat) :=
  ((List.range 8).map fun j => (lane v 32 j, j)).foldl (fun (acc : List (Nat × Nat)) x =>
    if x.1 = 0xFFFFFFFF ∨ acc.any (·.1 == x.1) then acc else acc ++ [x]) []

/-- The ingress unit of a group: its home die in the request's map version. -/
def State.groupDie (s : State) (ver : BitVec 32) (layer g : Nat) : Option DieId :=
  ((s.mapVer ver).bind fun m => m.word layer (128 * g)).map mapDie

/-- The logits of a group. -/
def Disp.logitVa (q : Disp) (g : Nat) : Word := q.logits + wd (512 * g)

/-- A dispatch under way leaves the list. -/
def State.dropDisp (s : State) (id : Nat) : State := { s with disps := s.disps.filter fun (x : Disp) => x.id != id }

/-- A dispatch under way changed. -/
def State.updDisp (s : State) (id : Nat) (f : Disp → Disp) : State := { s with disps := updWhere (fun (x : Disp) => x.id == id) f s.disps }

/-- The space of a dispatch: the table and address space that stood when it issued (R260). -/
def State.dispSpace (s : State) (q : Disp) : Space := ((s.taskFrame q.c q.k q.tid).under q.root q.asid).space

/-- The base die's engine reads the record and checks the logits of the chosen groups; the dispatch, or the fault. -/
def prepareDispatch (s : State) (q : Disp) : Except Trap (Disp × State) := do
  let d := dieOf q.c
  let bad : Trap := { cause := Cause.address, evaddr := q.record }
  let (r, s) ← ingressRead s d (s.dispSpace q) q.record 64
  match dispatchOf q.record r with
  | none => .error bad
  | some x =>
    let x := { x with id := q.id, c := q.c, k := q.k, tid := q.tid, tokgrp := q.tokgrp, root := q.root, asid := q.asid, by_ := q.by_, groups := q.groups }
    if x.groups.any fun g => (s.groupDie (s.requestMap q.tokgrp) x.layer g.1).isNone then .error bad
    else
      let s ← x.groups.foldlM (fun s g => (ingressRead s d (s.dispSpace q) (x.logitVa g.1) 512).map (·.2)) s
      .ok (x, s)

/-- RTDISP (R255, R340, R341): the release, and then the reads of its record; the selection is read at issue. -/
def opRtdisp (a : BitVec 6) (b : BitVec 6) : Op where
  legal _ := xData a && sSrc b
  sregs _ := [b]
  ofs := [xOpd {} 1 a]
  uses c s := useOf s (xOpd c 1 a) false true
  memp := 1
  sem c s0 w := do
    let (x, _, w) ← readV c s0 (xOpd c 1 a) 4 false ([], w)
    let va ← getS s0 b
    let _ ← gateCheck s0
    let _ ← holdOrder s0.releaseWaits
    let w := w.allowIn.updMsg fun m => { m with gateWait := false, waitFrom := if m.waits.isEmpty then none else m.waitFrom }
    let id := w.fresh
    let q : Disp := { id := id, c := w.cur, k := w.here.run, tid := w.fr.id.task, tokgrp := w.fr.id.tokgrp, record := va,
                      root := s0.fr.sys.ptroot, asid := s0.fr.sys.asid, groups := chosenGroups x }
    .ok ({ w.bump with disps := w.disps ++ [q] }.releaseThen c 3 [{ row := .ingressAppend, arg := { id := id, u := 8 } }])

/-- A count of DETAIL (R341): 0 queue, 1 SPILLED, 2 DEFERRED, 3 dropped. -/
def State.countAppend (s : State) (id kind : Nat) : State :=
  s.updDisp id fun q => { q with counts := updNth q.counts kind fun n => min 255 (n + 1) }

/-- The load counter of a layer's expert, saturating (R445). -/
def State.countLoad (s : State) (d : DieId) (layer e : Nat) : State :=
  let pa := (s.base d).hcnt.toNat + 4 * (layer * 65536 + e)
  if inMemory pa 4 then
    let n := s.homeRead pa 4
    if n < 2 ^ 32 - 1 then (s.homeWrite (s.stamp (ingressWriter d)) pa 4 (n + 1)).publish (ingressWriter d) 3 else s
  else s

/-- One expert of a group takes the token (R340, R341): its queue while there is room, else its ring. A failed access keeps what was performed
before it. -/
def appendExpert (s : State) (d : DieId) (sp : Space) (q : Disp) (g j r i logit : Nat) : Except (State × Trap) State := do
  let e := 128 * g + i
  let ent : Word := q.route + wd (32 * e)
  let x := q.hidden.toNat + q.ret.toNat * 2 ^ 64 + q.tokgrp.toNat * 2 ^ 128 + q.token.toNat * 2 ^ 160 + logit * 2 ^ 192
    + e % 65536 * 2 ^ 224 + (8 * j + r) * 2 ^ 240
  let (y, s) ← failedAt s (ingressRead s d sp ent 16)
  let cap := field y 64 32
  let count := field y 96 32
  if cap < 2 ^ 31 ∧ count < cap then
    let s ← failedAt s (ingressWrite s d sp (wd (field y 0 64 + 32 * count)) 32 x)
    let s ← failedAt s (ingressWrite s d sp (ent + 12) 4 (count + 1))
    .ok ((s.countAppend q.id 0).countLoad d q.layer e)
  else
    let st := if 2 ^ 31 ≤ cap then 2 else 1
    let (s, fits) ← ringAppend s d sp ent x st
    .ok ((s.countAppend q.id (if fits then st else 3)).countLoad d q.layer e)

/-- The experts of a group in rank order; what was performed before a failed access stays. -/
def appendExperts (d : DieId) (sp : Space) (q : Disp) (g j v : Nat) : State → Nat → List (Nat × FVal) → State × Option Trap
  | s, _, [] => (s, none)
  | s, r, x :: xs =>
    match appendExpert s d sp q g j r x.1 (field v (32 * x.1) 32) with
    | .error (s, t) => (s, some t)
    | .ok s => appendExperts d sp q g j v s (r + 1) xs

/-- A dispatch whose record has been read goes to the ingress units of its groups. -/
def State.startDispatch (s : State) (q : Disp) : State :=
  match prepareDispatch s { q with by_ := s.releasesOf (coreWriter q.c) } with
  | .error t => (s.dropDisp q.id).raiseTask q.c q.k q.tid t.engine6
  | .ok (x, s) =>
    let s := s.updDisp q.id fun _ => x
    if x.groups.isEmpty then s.postLater 1 .dispatchComplete { id := q.id }
    else x.groups.foldl (fun s g => s.postLater 1 .ingressAppend { id := q.id, n := g.1, u := g.2 }) s

/-- INGRESS_APPEND (R341): with `u` 8 the record of a dispatch is read; else one group of it is appended, and the last one completes it. The
appends stand after the release of the dispatch. A failed access ends the dispatch as an engine fault. -/
def execIngressAppend (s : State) : Out :=
  match s.disps.find? (·.id == s.arg.id) with
  | none => .next s
  | some q =>
    if s.arg.u = 8 ∧ s.disps.any (fun x => x.ended && dieOf x.c == dieOf q.c) then .next (s.postLater 1 .ingressAppend s.arg) else
    if s.arg.u = 8 then .next (s.startDispatch q) else
    let g := s.arg.n
    let fail (s : State) (t : Trap) : State := (s.dropDisp q.id).raiseTask q.c q.k q.tid t.engine6
    match s.groupDie (s.requestMap q.tokgrp) q.layer g with
    | none => .next (fail s { cause := Cause.address, evaddr := q.logits })
    | some d => match ingressRead (s.partyLearns (ingressWriter d) q.by_) d (s.dispSpace q) (q.logitVa g) 512 with
      | .error t => .next (fail s t)
      | .ok (v, s) =>
        match appendExperts d (s.dispSpace q) q g s.arg.u v s 0 ((rankLogits v 128).take q.ke) with
        | (s, some t) => .next (fail s t)
        | (s, none) =>
          let left := q.groups.filter (·.1 != g)
          let home := ingressWriter (dieOf q.c)
          let s := ((s.updDisp q.id fun x => { x with groups := left }).partyLearns home (s.releasesOf (ingressWriter d))).publish home 3
          .next (if left.isEmpty then s.post 0 .dispatchComplete { id := q.id } else s)

/-- DISPATCH_COMPLETE (R341): the record of KIND 6. -/
def execDispatchComplete (s : State) : Out :=
  match s.disps.find? (·.id == s.arg.id) with
  | none => .next s
  | some q =>
    let n (i : Nat) : Nat := q.counts.getD i 0
    if s.signalWaits q.tid (q.tag ++ 0x20#8) then
      .next ((s.updDisp q.id fun x => { x with ended := true }).postLater 1 .dispatchComplete s.arg) else
    .next ((s.dropDisp q.id).signalRecord q.c q.k q.tid (q.tag ++ 0x20#8) 0 (n 0 + 256 * n 1 + 65536 * n 2 + 16777216 * n 3) 6 6
      (s.releasesOf (ingressWriter (dieOf q.c))))

/-! ## The instructions -/

/-- RTPRED (R254). -/
def execRtpred (p : BitVec 3) (a : BitVec 6) (b : BitVec 6) (s : State) : Out :=
  issueOne s p 3 (opRtpred a b)
/-- RTDISP (R341). -/
def execRtdisp (p : BitVec 3) (a : BitVec 6) (b : BitVec 6) (s : State) : Out :=
  issueOne s p 3 (opRtdisp a b)

end Sys2Proof.Machine
end

