-- ==== Sys2Proof/Machine/Snapshots.lean ====
section
/-! DEFINITION. The prefix snapshot tree: keys, nodes in HBM, lookups, saves, restores, releases, eviction (R252, R253,
R345-R355). -/

namespace Sys2Proof.Machine

open Sys2Proof

/-! ## Keys and sizes (R345, R346, R355) -/

/-- G: tokens of a chunk. -/
def Tree.chunk (t : Tree) : Nat := 2 ^ bits t.pxctl 0 4
/-- EN of PXCTL. -/
def Tree.enabled (t : Tree) : Bool := bit t.pxctl 31
/-- The rolling hash H of R345 over `n` tokens, each in 32 bits of a number. -/
def hashTokens (x toks : Nat) : Nat → Nat
  | 0 => x ^^^ (x >>> 31)
  | n + 1 => hashTokens ((x ^^^ (toks % 2 ^ 32)) * 0x100000001B3 % 2 ^ 64) (toks / 2 ^ 32) n
/-- Granules of a chunk's tokens. -/
def Tree.tokGranules (t : Tree) : Nat := ceilDiv (4 * t.chunk) 512
/-- Payload granules of a node. -/
def Node.payload (n : Node) : Nat := n.counts.foldl (· + ·) 0
/-- Granules of a node. -/
def Tree.granules (t : Tree) (n : Node) : Nat := t.tokGranules + n.payload
/-- Nodes not FREE, and free pool granules (R355). -/
def Tree.used (t : Tree) : Nat := t.nodes.length
def Tree.free (t : Tree) : Nat := t.pxpsize.toNat - (t.nodes.map t.granules).foldl (· + ·) 0
/-- Physical address of a pool granule. -/
def Tree.poolPa (t : Tree) (g : Nat) : Nat := t.pxpool.toNat + 512 * g
/-- The generation of an index. -/
def Tree.gen (t : Tree) (i : Nat) : Nat := countOf t.gens i

/-- A node by index. -/
def Tree.node (t : Tree) (i : Nat) : Option Node := t.nodes.find? (·.idx == i)
/-- A node reference (R347). -/
def Node.ref (n : Node) : BitVec 32 := BitVec.ofNat 32 (n.gen * 2 ^ 24 + n.idx)
/-- The node that a reference names. -/
def Tree.named (t : Tree) (r : BitVec 32) : Option Node := t.nodes.find? (·.ref == r)

/-! ## The node table in HBM (R346) -/

/-- NEXT: the next node in creation order with the same space, parent and key. -/
def Tree.nextOf (t : Tree) (n : Node) : Nat :=
  let l := t.nodes.filter fun m => m.asid == n.asid && m.parent == n.parent && m.key == n.key && decide (n.seq < m.seq)
  match minOf (·.seq) l with
  | none => 0
  | some q => ((l.find? (·.seq == q)).map fun m => m.ref.toNat).getD 0

/-- A node's 128-byte header. -/
def Tree.header (t : Tree) (n : Node) : Nat :=
  let parent := ((t.node n.parent).map fun p => p.ref.toNat).getD 0
  n.key.toNat + parent * 2 ^ 64 + n.asid.toNat * 2 ^ 96 + n.depth % 65536 * 2 ^ 112 + n.st * 2 ^ 128 + n.gen * 2 ^ 136
    + n.counts.length * 2 ^ 144 + n.refs % 2 ^ 32 * 2 ^ 160 + n.kids % 2 ^ 32 * 2 ^ 192 + n.last % 2 ^ 64 * 2 ^ 256
    + t.poolPa n.tokAt * 2 ^ 320 + buildNat 16 (fun i => n.counts.getD i 0) 4 * 2 ^ 384 + t.poolPa n.dataAt * 2 ^ 448
    + t.nextOf n * 2 ^ 512

/-- The prefix engine's writer identifier (R102, R405). -/
def prefixWriter (d : DieId) : Nat := baseWriter d 6

/-- The prefix engine of BD0 writes at its home (R121). -/
def State.prefixWrite (s : State) (pa n v : Nat) : State := (s.homeWrite (s.stamp (prefixWriter 0)) pa n v).publish (prefixWriter 0) 3

/-- A header written; at an address that reaches nothing the access fails (R423). -/
def State.putHeader (s : State) (i v : Nat) : State :=
  let pa := s.tree.pxbase.toNat + 128 * i
  if inMemory pa 128 then s.prefixWrite pa 128 v else s

/-- The headers of an index and of the nodes of its key chain written. -/
def State.syncNode (s : State) (n : Node) : State :=
  (s.tree.nodes.filter fun m => m.idx == n.idx || (m.asid == n.asid && m.parent == n.parent && m.key == n.key)).foldl
    (fun s m => s.putHeader m.idx (s.tree.header m)) s

/-- A node changed. -/
def State.updNode (s : State) (i : Nat) (f : Node → Node) : State :=
  let s := { s with tree := { s.tree with nodes := updWhere (fun (n : Node) => n.idx == i) f s.tree.nodes } }
  match s.tree.node i with
  | some n => s.putHeader i (s.tree.header n)
  | none => s

/-- The indices from a node up to its ancestors below the root. -/
def Tree.path (t : Tree) (i : Nat) : Nat → List Nat
  | 0 => []
  | f + 1 => match t.node i with
    | some n => i :: t.path n.parent f
    | none => []

/-- Whether a task holds a node or a descendant of it (R347). -/
def State.mayUse (s : State) (m : Msgs) (i : Nat) : Bool :=
  m.holds.any fun r => match s.tree.named r with
    | some n => (s.tree.path n.idx (s.tree.nodes.length + 1)).contains i
    | none => false

/-! ## Holds, releases and eviction (R347, R350, R352) -/

/-- A hold taken, LAST of the node set. -/
def State.takeHold (s : State) (c : CoreId) (k : Fin 4) (tid : BitVec 32) (n : Node) : State :=
  (s.updNode n.idx fun n => { n with refs := n.refs + 1, last := s.ns }).updMsgAt c k tid fun m =>
    { m with holds := m.holds ++ [n.ref] }

/-- Whether a node may be evicted, now or in the next cycle. -/
def Node.ripe (n : Node) : Bool := n.st == 2 && n.refs == 0 && n.kids == 0

/-- Whether a node may be evicted in a tick: a parent that its last child has left may in the next one (R352). -/
def Node.evictable (n : Node) (t : Nat) : Bool := n.ripe && decide (n.leafAt ≤ t)

/-- The evictable node with the largest score, ties to the lower index. -/
def State.evictChoice (s : State) : Option Node :=
  let score (n : Node) : Nat := (s.ns - n.last) * (s.tree.granules n + 1)
  (s.tree.nodes.filter (·.evictable s.time)).foldl (fun (best : Option Node) n => match best with
    | none => some n
    | some b => if score b < score n ∨ (score b = score n ∧ n.idx < b.idx) then some n else some b) none

/-- A node leaves the tree: its space is freed, its parent loses a child, its index is FREE under the next generation. -/
def State.freeNode (s : State) (n : Node) : State :=
  let g := (n.gen + 1) % 256
  let s := { s with tree := { s.tree with nodes := s.tree.nodes.filter (fun (m : Node) => m.idx != n.idx), gens := setCount s.tree.gens n.idx g } }
  let s := (s.putHeader n.idx (g * 2 ^ 136)).updNode n.parent fun p => { p with kids := p.kids - 1, leafAt := if p.kids = 1 then s.time + 1 else p.leafAt }
  s.syncNode { n with idx := 0 }

/-- One eviction (R352); none when no node is evictable. -/
def State.evictNode (s : State) : Option State :=
  match s.evictChoice with
  | none => none
  | some n => some { s.freeNode n with tree := { (s.freeNode n).tree with pxevict := s.tree.pxevict + 1 } }

/-- Whether the engines evict of themselves: the free pool is below PXLOW, or the node table has no free index (R352). -/
def Tree.low (t : Tree) : Bool := decide (t.free < t.pxlow.toNat) || decide (t.pxnodes.toNat ≤ t.nodes.length + 1)

/-- An eviction is to come where the engines evict of themselves and a node can go. It follows the releases and lookups of its cycle (R354). -/
def State.lowPool (s : State) : State :=
  if s.tree.low ∧ s.tree.nodes.any (·.ripe) ∧ !s.agenda.any (fun e => e.row == .snapshotEvict && e.arg.id == 0) then
    s.post 1 .snapshotEvict {} else s

/-- SNAPSHOT_EVICT (R352, R354): one eviction, because the pool or the table is low, or for the save `id`, which then tries again. -/
def execSnapshotEvict (s : State) : Out :=
  if s.arg.id = 0 ∧ !s.tree.low then .next s else
  let s' := s.evictNode.getD s
  .next (if s.arg.id = 0 then s'.lowPool else s'.post 1 .snsaveComplete { id := s.arg.id, u := 1 })

/-- PXCTL_CLR (R352, R355): one eviction after another, until no node is evictable. -/
def execPxctlClr (s : State) : Out :=
  match s.evictNode with
  | some s => .next (s.post 1 .pxctlClr {})
  | none => .next (if s.tree.nodes.any (·.ripe) then s.post 1 .pxctlClr {} else s)

/-- A hold dropped: one entry of the list and one of REFS (R350). -/
def State.dropHold (s : State) (c : CoreId) (k : Fin 4) (tid : BitVec 32) (r : BitVec 32) : State :=
  let s := s.updMsgAt c k tid fun m => { m with holds := dropFirst (· == r) m.holds }
  match s.tree.named r with
  | some n => (s.updNode n.idx fun n => { n with refs := n.refs - 1 }).lowPool
  | none => s

/-! ## Reads of the prefix engine (R348, R349) -/

/-- A read at die scope in a task's space, with its fault: its lines come through the die's L2. -/
def snapRead (s : State) (d : DieId) (sp : Space) (va : Word) (n : Nat) : Except Trap (Nat × State) :=
  if !rangeOk va n then .error { cause := Cause.address, evaddr := va } else
  match baseSegs s d sp false .read (va57 va) n with
  | .error t => .error t
  | .ok l => match s.segsPoison d l with
    | some t => .error t
    | none =>
      let v := l.foldl (fun acc x => acc + s.dieRead d x.1.pa x.1.len <<< (8 * x.1.off)) 0
      .ok (v, l.foldl (fun (s : State) x => (linesOf x.1.pa x.1.len).foldl (fun (s : State) a => s.l2Fill d a) s) (s.baseLearn d l))

/-! ## SNLOOK (R252, R348) -/

/-- Whether a node's stored tokens are these. -/
def State.confirms (s : State) (n : Node) (toks : Nat) : Bool :=
  s.homeRead (s.tree.poolPa n.tokAt) (4 * s.tree.chunk) == toks

/-- Candidates of a step of the walk, in creation order. -/
def Tree.children (t : Tree) (asid : BitVec 16) (parent : Nat) (key : Word) : List Node :=
  t.nodes.filter fun n => n.asid == asid && n.parent == parent && n.key == key

/-- The walk: the deepest confirmed node, its depth in chunks, and the mismatches. `hashes` and `toks` are what remains
of the record's hashes and tokens. -/
def State.walkTree (s : State) (asid : BitVec 16) : Nat → Option Node → Nat → Nat → Nat → Nat → Option Node × Nat × Nat
  | 0, n, k, _, _, mism => (n, k, mism)
  | c + 1, n, k, hashes, toks, mism =>
    let g := 4 * s.tree.chunk
    let l := (s.tree.children asid ((n.map (·.idx)).getD 0) (wd (hashes % 2 ^ 64))).filter (·.st == 2)
    let t := toks % 2 ^ (8 * g)
    let miss := (l.takeWhile fun m => !s.confirms m t).length
    match l.find? fun m => s.confirms m t with
    | some m => s.walkTree asid c (some m) (k + 1) (hashes / 2 ^ 64) (toks / 2 ^ (8 * g)) (mism + miss)
    | none => (n, k, mism + miss)

/-- The answer to a lookup, and the tree after it. -/
def State.lookupTree (w : State) (asid : BitVec 16) (c hashes toks : Nat) : State × Word :=
  let core := w.cur
  let k := w.here.run
  let (n, d, mism) := w.walkTree asid c none 0 hashes toks 0
  let w := { w with tree := { w.tree with pxlook := w.tree.pxlook + 1, pxhit := w.tree.pxhit + wd d, pxmism := w.tree.pxmism + wd mism } }
  match n with
  | none => (w, 0)
  | some n =>
    if 64 ≤ w.fr.msg.holds.length then (w, 0) else
    let w := w.takeHold core k w.fr.id.task n
    let w := (w.tree.path n.idx (w.tree.nodes.length + 1)).foldl (fun (w : State) i => w.updNode i fun m => { m with last := w.ns }) w
    (w, wd (n.ref.toNat * 2 ^ 32 + d))

/-- Reads of SNLOOK: none where the record breaks its limits; else the count, hashes and tokens. -/
def lookRecord (s : State) (d : DieId) (sp : Space) (va : Word) : Except Trap (Option (Nat × Nat × Nat) × State) := do
  let (r, s) ← snapRead s d sp va 16
  let c := field r 0 32
  if va.toNat % 8 ≠ 0 ∨ c = 0 ∨ 1024 < c ∨ field r 32 32 ≠ 0 then .ok (none, s) else
  let (h, s) ← snapRead s d sp (va + 16) (8 * c)
  let (t, s) ← snapRead s d sp (wd (field r 64 64)) (4 * c * s.tree.chunk)
  .ok (some (c, h, t), s)

/-- SNLOOK: holds until the engine answers, a free number of cycles. -/
def opSnlook (d : BitVec 6) (a : BitVec 6) : Op where
  legal _ := sDst d && sSrc a
  sregs _ := [d, a]
  memp := 1
  sem c s0 w := do
    let va ← getS s0 a
    let _ ← if s0.fr.ctl.swHeld < s0.extra then holdSw else .ok ()
    let w := w.tick
    -- registers as they stood before the bundle (R259, R260)
    let f := s0.fr
    if !w.tree.enabled then .ok (w.pendWords c 1 [(d.toNat, 0)]) else
    match lookRecord w (dieOf w.cur) f.space va with
    | .error t => .error (.trap t)
    | .ok (none, w) => .ok (w.pendWords c 1 [(d.toNat, 0)])
    | .ok (some (n, h, t), w) =>
      let (w, x) := w.lookupTree f.sys.asid n h t
      .ok (w.pendWords c 1 [(d.toNat, x)])

/-- SNREL (R252, R350). -/
def opSnrel (a : BitVec 6) : Op where
  legal _ := sSrc a
  sregs _ := [a]
  memp := 1
  sem _ s0 w := do
    let x ← getS s0 a
    let r : BitVec 32 := x.setWidth 32
    .ok (if bits x 32 32 = 0 ∧ w.fr.msg.holds.contains r then w.dropHold w.cur w.here.run w.fr.id.task r else w)

/-- The tokens of SNHASH, bound at issue: their bytes, the source of their poison, and the state with their lines filled. A refused window read
gives zero and its trap. -/
def tokensAt (s0 w : State) (l : List (Seg × Walked)) : Except Stop (Nat × Option Nat × State) :=
  .ok (l.foldl (fun (acc : Nat × Option Nat × State) x =>
    let g := x.1
    let w := acc.2.2
    match placeOf w.cur g.pa with
    | .window t off => match s0.windowRefuses t off g.len false (some s0.fr.sys.asid) with
      | some q => (acc.1, acc.2.1, w.raiseAsync w.cur w.here.run { cause := q, evaddr := wd g.va })
      | none => (acc.1 + w.windowRead t off g.len <<< (8 * g.off), acc.2.1.or ((w.poisonOf g.pa g.len).map (·.2)), w)
    | _ =>
      let (w, v, q) := w.nearRead w.cur g.pa g.len
      (acc.1 + v <<< (8 * g.off), acc.2.1.or q, w)) (0, none, w.learn l))

/-- SNHASH (R252, R345): a classed load of class 0; poisoned tokens poison the result (R420). -/
def opSnhash (d : BitVec 6) (a : BitVec 6) (b : BitVec 6) : Op where
  legal _ := sDst d && sSrc a && sSrc b
  sregs _ := [d, a, b]
  memp := 1
  sem c s0 w := do
    let va ← getS s0 a
    let p ← getS s0 b
    let _ ← if canonical va then .ok () else trapAt Cause.address (va57 va)
    let g := s0.tree.chunk
    let l ← classed s0 (va57 va) (4 * g) .read false 0
    let (bytes, poison, w) ← tokensAt s0 w l
    let cycle := w.cyc w.cur
    let id := seqOf cycle c.slot
    let k := w.here.run
    let x : Word := wd (hashTokens p.toNat bytes g)
    let w := w.updFr fun f =>
      let f := cancelSame id (.s d.toNat) (firstBytes 8) f
      { f with loads := f.loads ++ [{ id := id, dest := .s d.toNat, ben := firstBytes 8, data := x.setWidth 4096, poison := poison, form := 0, n := 8 }] }
    .ok (w.postCore w.cur (cycle + 5 + g / 16) .loadComplete { k := k, id := id })

/-! ## SNSAVE and SNLOAD (R253, R349, R350) -/

/-- A range word: first granule and granules; none where it breaks its limits. -/
def rangeWord (f : Frame) (x : Nat) : Option (Nat × Nat) :=
  let first := field x 0 13
  let n := field x 16 14
  if first + n * 65536 = x ∧ 1 ≤ n ∧ n ≤ 8192 ∧ first + n ≤ f.id.foot then some (first, n) else none

/-- A command with what its descriptor `r` gives; `ok` is false where a field breaks its limits. -/
def SnCmd.described (q : SnCmd) (s : State) (r : Nat) : SnCmd :=
  let f := s.taskFrame q.c q.k q.tid
  let w (o : Nat) : Nat := field r (8 * o) 64
  let nr := w 8
  let l := (List.range (min nr 4)).map fun i => rangeWord f (w (16 + 8 * i))
  let ranges := l.filterMap fun x => x
  let clash := (List.range ranges.length).any fun i => (List.range i).any fun j =>
    match ranges[i]?, ranges[j]? with
    | some x, some y => meets x.1 x.2 y.1 y.2
    | _, _ => false
  let ok := q.nodeOk && q.desc.toNat % 64 == 0 && field (w 0) 24 40 == 0 && field (w 0) 6 2 == 0 && decide (1 ≤ nr) && decide (nr ≤ 4)
    && l.all (·.isSome) && (if q.save then !clash else w 0x30 == 0 && w 0x38 == 0)
  let spans := ranges.map fun x => ({ pa := winBase q.c + f.id.base * 512 + 512 * x.1, len := 512 * x.2 } : Span)
  { q with sig := BitVec.ofNat 24 (w 0), ok := ok, tokens := wd (w 0x30), hash := wd (w 0x38), counts := if ok then ranges.map (·.2) else [],
           spans := if ok then spans else [], bytes := if ok then (ranges.map (·.2)).foldl (· + ·) 0 * 512 else 0 }

/-- A snapshot command as it issues (R253): its ranges are pending from now on, and its bytes are counted. Which they are is what the
descriptor says at issue; the engine reads it afterwards, and goes by what it then says (log 9). -/
def snapAtIssue (s : State) (save : Bool) (a b : BitVec 6) : SnCmd :=
  let q : SnCmd := { save := save, c := s.cur, k := s.here.run, tid := s.fr.id.task, node := (s.rdS a).setWidth 32,
                     nodeOk := bits (s.rdS a) 32 32 == 0,
                     desc := s.rdS b, root := s.fr.sys.ptroot, asid := s.fr.sys.asid }
  match snapRead s (dieOf s.cur) s.fr.space q.desc 64 with
  | .error _ => q
  | .ok (r, _) => q.described s r

/-- The ranges as uses of the bundle (R204). -/
def snapUses (save : Bool) (a b : BitVec 6) (s : State) : List Use :=
  (snapAtIssue s save a b).spans.map fun x => { pa := x.pa, len := x.len, write := !save }

/-- SNSAVE or SNLOAD enters the engine, which knows what the core has released (R120). -/
def snapOp (save : Bool) (a b : BitVec 6) : Op where
  legal _ := sSrc a && sSrc b
  sregs _ := [a, b]
  uses _ s := snapUses save a b s
  memp := 1
  sem _ s0 w := do
    let _ ← getS s0 a
    let _ ← getS s0 b
    let id := w.fresh
    let q := { snapAtIssue s0 save a b with id := id }
    let w := w.updClock (prefixWriter (dieOf w.cur)) fun k => k.learn (w.forEngines w.cur)
    let w := { w.bump with tree := { w.tree with cmds := w.tree.cmds ++ [q] } }
    let w := w.signalBytes w.cur w.here.run w.fr.id.task q.sig q.bytes
    .ok (w.postLater 1 (if save then .snsaveComplete else .snloadComplete) { id := id })

def opSnsave (a : BitVec 6) (b : BitVec 6) : Op := snapOp true a b
def opSnload (a : BitVec 6) (b : BitVec 6) : Op := snapOp false a b

/-- A snapshot command changed. -/
def State.updSnap (s : State) (id : Nat) (f : SnCmd → SnCmd) : State :=
  { s with tree := { s.tree with cmds := updWhere (fun (q : SnCmd) => q.id == id) f s.tree.cmds } }

/-- A snapshot command moves nothing more: its bytes are subtracted (R238). -/
def State.endBytes (s : State) (q : SnCmd) : State :=
  s.signalBytes q.c q.k q.tid q.sig (-(q.bytes : Int)) (s.releasesOf (prefixWriter (dieOf q.c)))

/-- A snapshot command leaves the engine. -/
def State.removeSnap (s : State) (q : SnCmd) : State :=
  { s with tree := { s.tree with cmds := s.tree.cmds.filter fun (x : SnCmd) => x.id != q.id } }

/-- A command's record is placed, or keeps the command in its engine (R326). -/
def State.snapRecord (s : State) (q : SnCmd) (r : BitVec 128) : State :=
  if s.signalWaits q.tid q.sig then
    (s.updSnap q.id fun x => { x with ended := some r, spans := [], bytes := 0 }).postLater 1 (if q.save then .snsaveComplete else .snloadComplete) { id := q.id }
  else
    let s := s.removeSnap q
    if sigEv q.sig then s.placeRecord q.tid (s.taskFrame q.c q.k q.tid).sys.asid r (s.releasesOf (prefixWriter (dieOf q.c))) else s

/-- A snapshot command completes: its record is posted (R238, R239). DETAIL of a failed command is a free value (log 4). -/
def State.snapDone (s : State) (q : SnCmd) (kind : Nat) (ref : BitVec 32) (payload : Word) : State :=
  ((s.endBytes q).tick).snapRecord q (signalWord q.sig payload (if kind = 4 then ref.toNat else s.pick (2 ^ 32)) 6 kind)

/-- SNAPSHOT_ENGINE_FAULT (R253, R257): the trap, and the record of a command whose descriptor was read. -/
def execSnapshotEngineFault (s : State) : Out :=
  let t : Trap := { cause := s.arg.w0.setWidth 8, evaddr := s.arg.w1, src := s.arg.w2.toNat, padr := s.arg.w3 }
  match s.tree.cmds.find? (fun (q : SnCmd) => q.id == s.arg.id) with
  | none => .next s
  | some q => .next ((if q.words = 0 then (s.endBytes q).removeSnap q else s.snapDone q 5 0 t.evaddr).raiseTask q.c q.k q.tid t.engine6)

/-- A read of the engine failed. -/
def State.snapFails (s : State) (q : SnCmd) (t : Trap) : State :=
  s.post 0 .snapshotEngineFault { id := q.id, w0 := t.cause.setWidth 64, w1 := t.evaddr, w2 := wd t.src, w3 := t.padr }

/-- The command goes on in the next cycle of its core. -/
def State.snapNext (s : State) (q : SnCmd) : State :=
  s.postCore q.c (s.cyc q.c) (if q.save then .snsaveComplete else .snloadComplete) { id := q.id }

/-- The engine takes the command and reads its descriptor: the ranges are those that it names now (R253). An engine whose record waits takes no
new command (R326). -/
def State.readDesc (s : State) (q : SnCmd) : State :=
  if s.tree.cmds.any fun x => x.ended.isSome && dieOf x.c == dieOf q.c then
    s.postLater 1 (if q.save then .snsaveComplete else .snloadComplete) { id := q.id } else
  match snapRead s (dieOf q.c) ((s.taskFrame q.c q.k q.tid).under q.root q.asid).space q.desc 64 with
  | .error t => s.snapFails q t
  | .ok (r, s) =>
    let x := { q.described s r with words := 1 }
    ((s.signalBytes q.c q.k q.tid q.sig (-(q.bytes : Int))).signalBytes q.c q.k q.tid x.sig x.bytes).updSnap q.id (fun _ => x)
      |>.postLater 1 (if q.save then .snsaveComplete else .snloadComplete) { id := q.id }

/-- The address of granule i of the ranges, in range order. -/
def granuleAt : List Span → Nat → Nat
  | [], _ => 0
  | x :: xs, i => if i < x.len / 512 then x.pa + 512 * i else granuleAt xs (i - x.len / 512)

/-- Granules of the ranges. -/
def SnCmd.size (q : SnCmd) : Nat := q.counts.foldl (· + ·) 0

/-- One granule of a range moves, once its bank lets the engine (R278): a save's is read, a load's is written, each with its poison (R420). -/
def State.moveGranule (s : State) (q : SnCmd) : State :=
  let pa := granuleAt q.spans q.pos
  match s.engineBank q.c pa 512 (!q.save) q.waited with
  | none => (s.updSnap q.id fun x => { x with waited := x.waited + 1 }).snapNext q
  | some s =>
    let w := prefixWriter (dieOf q.c)
    let moved (s : State) (f : SnCmd → SnCmd) : State := (s.updSnap q.id fun x => f { x with pos := x.pos + 1, waited := 0 }).snapNext q
    if q.save then
      moved (s.observe w (s.marksAt pa 512)) fun x => { x with data := x.data ++ [(BitVec.ofNat 4096 (s.homeRead pa 512), (s.poisonOf pa 512).map (·.2))] }
    else match q.data[q.pos]? with
      | none => moved s id
      | some d =>
        let s := (s.chipWrite (s.stamp w) pa 512 d.1.toNat (ones 512)).publish w 3
        moved (match d.2 with
          | some e => s.addPoison pa 512 e
          | none => s) id

/-- A run of free pool granules. -/
def Tree.room (t : Tree) (n : Nat) (used : List (Nat × Nat)) : Option Nat :=
  let ok (g : Nat) : Bool := decide (g + n ≤ t.pxpsize.toNat) && used.all fun x => !meets g n x.1 x.2
  (0 :: used.map fun x => x.1 + x.2).find? ok

/-- Pool granules in use. -/
def Tree.taken (t : Tree) : List (Nat × Nat) := t.nodes.flatMap fun n => [(n.tokAt, t.tokGranules), (n.dataAt, n.payload)]

/-- A free index, and places for tokens and payload. -/
def Tree.place (t : Tree) (payload : Nat) : Option (Nat × Nat × Nat) :=
  match (List.range (t.nodes.length + 1)).find? fun i => (t.node (i + 1)).isNone with
  | none => none
  | some i =>
    if t.pxnodes.toNat ≤ i + 1 ∨ t.free < t.tokGranules + payload then none else
    match t.room t.tokGranules t.taken with
    | none => none
    | some a => (t.room payload ((a, t.tokGranules) :: t.taken)).map fun b => (i + 1, a, b)

/-- A save refused for want of room or holds. -/
def State.saveFull (s : State) (q : SnCmd) : State :=
  ({ s with tree := { s.tree with pxfull := s.tree.pxfull + 1 } }).snapDone q 5 0 0

/-- Granules written to the pool, with their poison. -/
def State.putGranules (s : State) (g : Nat) (l : List (Vec × Option Nat)) : State :=
  (l.foldl (fun (acc : State × Nat) x =>
    let pa := acc.1.tree.poolPa acc.2
    let s := acc.1.prefixWrite pa 512 x.1.toNat
    (match x.2 with
      | some src => s.addPoison pa 512 src
      | none => s, acc.2 + 1)) (s, g)).1

/-- The messages of a command's task. -/
def State.snapMsg (s : State) (q : SnCmd) : Msgs := (s.taskFrame q.c q.k q.tid).msg

/-- The node under which a save puts its own: 0 for the root, none where the task may not use it (R349). -/
def State.saveParent (s : State) (q : SnCmd) (asid : BitVec 16) : Option Nat :=
  if q.node = 0 then some 0 else
  match s.tree.named q.node with
  | some p => if p.asid = asid ∧ s.mayUse (s.snapMsg q) p.idx then some p.idx else none
  | none => none

/-- A node in BUILDING is created under its parent, with the saver's hold and its payload (R349). -/
def State.createNode (s : State) (q : SnCmd) (toks : Nat) (parent : Nat) (place : Nat × Nat × Nat) : State :=
  let (i, a, b) := place
  let depth := ((s.tree.node parent).map (·.depth)).getD 0 + 1
  let n : Node := { idx := i, key := q.hash, parent := parent, asid := q.asid, depth := depth, st := 1, gen := s.tree.gen i,
                    counts := q.counts, refs := 1, tokAt := a, dataAt := b, seq := s.tree.seq, builder := q.tid }
  let s := { s with tree := { s.tree with nodes := s.tree.nodes ++ [n], seq := s.tree.seq + 1 } }
  let s := (s.updNode parent fun p => { p with kids := p.kids + 1 }).syncNode n
  let s := s.updMsgAt q.c q.k q.tid fun m => { m with holds := m.holds ++ [n.ref] }
  let s := (s.prefixWrite (s.tree.poolPa a) (4 * s.tree.chunk) toks).putGranules b q.data
  ((s.updSnap q.id fun x => { x with built := some i }).lowPool).postLater 1 .snsaveComplete { id := q.id }

/-- A save with its ranges and tokens read: an identical node, or a new one in BUILDING, for which nodes are evicted as it needs (R349). -/
def State.buildNode (s : State) (q : SnCmd) (toks : Nat) (parent : Nat) : State :=
  let full := decide (64 ≤ (s.snapMsg q).holds.length)
  match (s.tree.children q.asid parent q.hash).find? fun m => s.confirms m toks && (m.st == 1 || m.st == 2) with
  | some m =>
    if m.st = 1 then s.post 1 .snsaveComplete { id := q.id, u := 1 }
    else if full then s.saveFull q
    else (s.takeHold q.c q.k q.tid m).snapDone q 4 m.ref 0
  | none =>
    if full || decide (65535 ≤ ((s.tree.node parent).map (·.depth)).getD 0) then s.saveFull q else
    match s.tree.place q.data.length with
    | some x =>
      let pa := s.tree.poolPa x.2.2
      if inMemory (s.tree.poolPa x.2.1) (4 * s.tree.chunk) && inMemory pa (512 * q.data.length) then s.createNode q toks parent x
      else s.snapFails q { cause := Cause.address, evaddr := wd pa }
    | none => if s.tree.nodes.any (·.ripe) then s.post 0 .snapshotEvict { id := q.id } else s.saveFull q

/-- SNSAVE_COMPLETE (R349): the next part of a save: its descriptor is read, then the ranges, then the node is built, and at last it is
READY. Its hold, with `u` 1, comes after the releases of its cycle (R354). PXCTL.EN is judged until the node is created (log 56). -/
def execSnsaveComplete (s : State) : Out :=
  match s.tree.cmds.find? (fun (q : SnCmd) => q.id == s.arg.id) with
  | none => .next s
  | some q =>
    if let some r := q.ended then .next (s.snapRecord q r) else
    match q.built with
    | some i =>
      let s := s.updNode i fun n => { n with st := 2, last := s.ns }
      .next (s.snapDone q 4 (((s.tree.node i).map (·.ref)).getD 0) 0)
    | none =>
      if q.words = 0 then .next (s.readDesc q)
      else if !q.ok ∨ !s.tree.enabled then .next (s.snapDone q 5 0 0)
      else if q.pos < q.size then .next (s.moveGranule q)
      else if !q.spans.isEmpty then .next ((s.updSnap q.id fun x => { x with spans := [] }).postLater 1 .snsaveComplete { s.arg with u := 1 })
      else match s.saveParent q q.asid with
        | none => .next (s.snapDone q 5 0 0)
        | some p => match snapRead s (dieOf q.c) ((s.taskFrame q.c q.k q.tid).under q.root q.asid).space q.tokens (4 * s.tree.chunk) with
          | .error t => .next (s.snapFails q t)
          | .ok (toks, s) => .next (s.buildNode q toks p)

/-- The payload of a node: its granules with their poison. -/
def State.payloadOf (s : State) (n : Node) : List (Vec × Option Nat) :=
  (List.range n.payload).map fun i =>
    let pa := s.tree.poolPa (n.dataAt + i)
    (BitVec.ofNat 4096 (s.homeRead pa 512), (s.poisonOf pa 512).map (·.2))

/-- SNLOAD_COMPLETE (R350): the next part of a load: its descriptor is read, its conditions are judged and the payload is read, its granules
land one after another, and at last LAST is set. -/
def execSnloadComplete (s : State) : Out :=
  match s.tree.cmds.find? (fun (q : SnCmd) => q.id == s.arg.id) with
  | none => .next s
  | some q =>
    if let some r := q.ended then .next (s.snapRecord q r)
    else if q.words = 0 then .next (s.readDesc q)
    else if q.words = 1 then
      match s.tree.named q.node with
      | none => .next (s.snapDone q 5 0 0)
      | some n =>
        if !q.ok || !s.tree.enabled || n.st != 2 || !s.mayUse (s.snapMsg q) n.idx || n.counts != q.counts then .next (s.snapDone q 5 0 0)
        else .next (((s.arrive (s.tree.poolPa n.dataAt) (512 * n.payload)).updSnap q.id fun x =>
          { x with words := 2, data := s.payloadOf n }).postLater 1 .snloadComplete s.arg)
    else if q.pos < q.size then .next (s.moveGranule q)
    else
      let s := match s.tree.named q.node with
        | some n => s.updNode n.idx fun n => { n with last := s.ns }
        | none => s
      .next (s.snapDone q 4 q.node 0)

/-- A node that was being built leaves the tree with all that has been put under it. -/
def State.freeTree (s : State) (i : Nat) : State :=
  let under := s.tree.nodes.filter fun m => (s.tree.path m.idx (s.tree.nodes.length + 1)).contains i
  (under.foldl (fun (acc : List Node) m => if m.depth ≤ ((acc.head?.map (·.depth)).getD 0) then acc ++ [m] else m :: acc) []).foldl
    (fun s m => s.freeNode m) s

/-- A task's snapshot commands are cancelled: no node, the ranges released (R296). -/
def State.cancelSnaps (s : State) (tid : BitVec 32) : State :=
  (s.tree.cmds.filter fun (q : SnCmd) => q.tid == tid).foldl (fun s q =>
    (match q.built with
      | some i => (s.freeTree i).lowPool
      | none => s).endBytes q |>.removeSnap q) s

/-! ## The instructions -/

/-- SNLOOK (R348). -/
def execSnlook (p : BitVec 3) (d : BitVec 6) (a : BitVec 6) (s : State) : Out :=
  issueOne s p 3 (opSnlook d a)
/-- SNREL (R350). -/
def execSnrel (p : BitVec 3) (a : BitVec 6) (s : State) : Out :=
  issueOne s p 3 (opSnrel a)
/-- SNHASH (R252). -/
def execSnhash (p : BitVec 3) (d : BitVec 6) (a : BitVec 6) (b : BitVec 6) (s : State) : Out :=
  issueOne s p 3 (opSnhash d a b)
/-- SNSAVE (R253). -/
def execSnsave (p : BitVec 3) (a : BitVec 6) (b : BitVec 6) (s : State) : Out :=
  issueOne s p 3 (opSnsave a b)
/-- SNLOAD (R253). -/
def execSnload (p : BitVec 3) (a : BitVec 6) (b : BitVec 6) (s : State) : Out :=
  issueOne s p 3 (opSnload a b)

end Sys2Proof.Machine
end

