-- ==== Sys2Proof/Machine/Tasks.lean ====
section
/-! DEFINITION. The life of a task: priority, heat and placement, lending, launch values, release and completion, error
tokens, deadlines, switching, stealing (R12, R72, R282, R287-R312, R316, R397, R404-R406, R442, R451, R476). -/

namespace Sys2Proof.Machine

open Sys2Proof

/-! ## Queues (R388, R398) -/

/-- A Belfry queue. -/
def State.queue (s : State) (q : Fin 64) : Queue := s.bel.queues.get q
/-- The state with a queue changed. -/
def State.updQueue (s : State) (q : Fin 64) (f : Queue → Queue) : State :=
  { s with bel := { s.bel with queues := s.bel.queues.set q.val (f (s.queue q)) q.isLt } }
/-- QUEUE_FREEZE (R398): the first cause is kept. -/
def State.freeze (s : State) (q : Fin 64) (cause : BitVec 8) (origin : BitVec 32) : State :=
  if (s.queue q).st = 2 then s else
  (s.updQueue q fun x => { x with st := 2, cause := cause, origin := origin, run := x.run.map fun (r : Exec) => { r with turn := none } }).post
    0 .submissionEntryStart {}
/-- A task's priority without its wait (R395). -/
def State.basePrio (s : State) (t : Task) : Nat := min (t.flags.toNat % 8) (bits (s.queue t.q).qctl 4 3)
/-- A task's effective priority (R312, R395). -/
def State.effPrio (s : State) (t : Task) : Nat := s.basePrio t + t.aging

/-! ## The grid (R298) -/

/-- Grid neighbours with the number of their direction, N, E, S, W. -/
def neighbours (c : CoreId) : List (Nat × CoreId) :=
  let row := c.val / 8 % 4
  let col := c.val % 8
  (if 0 < row then [(0, Fin.ofNat 256 (c.val - 8))] else []) ++ (if col < 7 then [(1, Fin.ofNat 256 (c.val + 1))] else [])
    ++ (if row < 3 then [(2, Fin.ofNat 256 (c.val + 8))] else []) ++ (if 0 < col then [(3, Fin.ofNat 256 (c.val - 1))] else [])
/-- Colour of a core. -/
def colour (c : CoreId) : Nat := (c.val / 8 % 4 + c.val % 8) % 2
/-- The resident frames of a core. -/
def Core.residents (x : Core) : List Frame := (allSlots.map x.frame).filter (·.resident)
/-- Heat class of a core: the highest among its resident tasks (R289). -/
def State.heatOf (s : State) (c : CoreId) : Nat := ((s.core c).residents.map (·.id.heat.toNat)).foldl max 0
/-- Whether a core holds a resident task. -/
def State.active (s : State) (c : CoreId) : Bool := !(s.core c).residents.isEmpty
/-- Whether a core holds an H3 task. -/
def State.runsH3 (s : State) (c : CoreId) : Bool := (s.core c).residents.any (·.id.heat == 3)
/-- Active neighbours of a core. -/
def State.activeAround (s : State) (c : CoreId) : Nat := ((neighbours c).filter fun n => s.active n.2).length

/-! ## Profiles (R282, R451, R452) -/

/-- A task launch sets the counters of its core to their capacity (R282): those of a profile that is granted for the next cycle too. -/
def State.fillPermits (s : State) (c : CoreId) : State :=
  let now := s.cyc c
  s.updCore c fun x =>
    let x := (x.refillTo now).fillAll
    { x with granted := x.granted.map fun g => { g with fill := true } }
/-- A core receives the profile of its heat class from the next cycle on (R451). -/
def State.grantTo (s : State) (c : CoreId) : State :=
  let h := Fin.ofNat 4 (s.heatOf c)
  let now := s.cyc c
  s.updCore c fun x =>
    { x.refillTo now with granted := some { at_ := now, p0 := s.pw.prof0.get h, p1 := s.pw.prof1.get h, div := 2 ^ bits (s.pw.prof2.get h) 16 2 } }
/-- Both cores of an island receive the EWLIM of the higher class of the two, from the next cycle on (R285, R451). A limit that the throttle has
lowered is not raised. -/
def State.grantLimit (s : State) (c : CoreId) : State :=
  let top := Fin.ofNat 4 (max (s.heatOf c) (s.heatOf (partnerOf c)))
  let lim := bits (s.pw.prof2.get top) 0 16
  let set (n : Nat) (x : Core) : Core :=
    { x.setLimit n (if x.ewlim < x.ewgrant then min x.ewlim lim else lim) with ewgrant := lim }
  (s.updCore c (set (s.cyc c))).updCore (partnerOf c) (set (s.cyc (partnerOf c)))
/-- PROFILE_GRANT (R451): a core whose heat class has changed from `old`. -/
def State.regrant (s : State) (c : CoreId) (old : Nat) : State :=
  if s.heatOf c = old then s else (s.grantTo c).grantLimit c

/-! ## Zeroing (R12, R304, R316) -/

/-- Bytes, poison and writes of a physical range cleared. -/
def State.zeroRange (s : State) (pa n : Nat) : State :=
  { s with mem := dropRange s.mem pa n, poison := s.poison.filter fun x => !(decide (pa ≤ x.1) && decide (x.1 < pa + n)),
           tags := s.tags.filter fun t => !(decide (pa ≤ t.pa) && decide (t.pa + t.len ≤ pa + n)) }
/-- CORE_WAKE_ZERO (R316): register space and local store. -/
def State.zeroCore (s : State) (c : CoreId) : State := s.zeroRange (winBase c) lentSize

/-! ## Lending (R301-R305) -/

/-- A dark core that no H3 neighbour keeps dark turns idle, zeroed before any use. -/
def State.settleDark (s : State) (c : CoreId) : State :=
  let x := s.core c
  if x.cond = .dark ∧ x.lentTo.isNone ∧ (neighbours c).all (fun n => !s.runsH3 n.2) then
    (s.zeroCore c).updCore c fun x => { x with cond := .idle, noLend := [] }
  else s
/-- LEND_BEGIN (R302, R304): the neighbours go dark; those not lent are lent to the task and zeroed. -/
def State.beginLend (s : State) (c : CoreId) (tid : BitVec 32) (lent : List (Nat × CoreId)) : State :=
  let s := (neighbours c).foldl (fun (s : State) (n : Nat × CoreId) => s.updCore n.2 fun x => { x with cond := .dark }) s
  lent.foldl (fun (s : State) (n : Nat × CoreId) =>
    ((s.updCore n.2 fun x => { x with lentTo := some tid, zeroing := true, noLend := [] }).postCore n.2 (s.cyc n.2 + s.extra % 1024)
      .lentWindowZeroed { tid := tid }).tick) s
/-- The H3 tasks on a core's neighbours. -/
def State.h3Around (s : State) (c : CoreId) : List (BitVec 32) :=
  (neighbours c).flatMap fun n => ((s.core n.2).residents.filter (·.id.heat == 3)).map (·.id.task)
/-- LEND_END (R303): the lent cores of a task, and the neighbours of its core that no H3 task keeps dark. A core that stays dark for other H3
tasks is not lent again until they are placed anew. -/
def State.endLend (s : State) (c : CoreId) (lent : List CoreId) : State :=
  let s := lent.foldl (fun (s : State) n => s.updCore n fun x => { x with lentTo := none, zeroing := false, noLend := s.h3Around n }) s
  (lent ++ (neighbours c).map (·.2)).foldl State.settleDark s

/-- LENT_WINDOW_ZEROED (R304). -/
def execLentWindowZeroed (s : State) : Out :=
  let c := s.arg.c
  if (s.core c).lentTo = some s.arg.tid ∧ (s.core c).zeroing then
    .next ((s.zeroCore c).updCore c fun x => { x with zeroing := false })
  else .next s

/-! ## The program header (R72) -/

/-- `n` bytes of a header at a byte offset. -/
def headerField (h : List Word) (at_ n : Nat) : Nat := field (nth h (at_ / 8)).toNat (8 * (at_ % 8)) (8 * n)
/-- The used stream bindings: entry, mode, depth. -/
def headerStreams (h : List Word) : List (Nat × Nat × Nat) :=
  ((List.range 11).map fun i => nth h (13 + i)).filterMap fun w =>
    if bits w 4 2 = 0 then none else some (bits w 0 4, bits w 4 2, bits w 8 4)
/-- Banks of role stream that the bindings need (R12). -/
def headerBanks (h : List Word) : Nat :=
  let l := headerStreams h
  if l.isEmpty then 0 else (l.map (·.1)).foldl max 0 / 8 + 1
/-- BANKROLE at launch (R12). -/
def launchRoles (k : Nat) : Word := wd (buildNat 2 (fun _ => 1) k)
/-- A vector with the words of a list from an index on. -/
def fillVec {n : Nat} (v : Vector Word n) (i : Nat) : List Word → Vector Word n
  | [] => v
  | w :: ws => if h : i < n then fillVec (v.set i w h) (i + 1) ws else v
/-- The frame of a task at launch (R12, R33, R72). -/
def launchFrame (t : Task) (prio base : Nat) (lent : List (Nat × CoreId)) : Frame :=
  let h := t.header
  let at_ (n : Nat) : Word := t.code + wd n
  let hnd := headerField h 0x14 4
  { id := { task := t.tid, valid := true, codebase := at_ 0x100, codelim := at_ (headerField h 0x0C 4), foot := t.foot, base := base,
            deadline := t.deadline, tokgrp := t.tokgrp, duplvl := BitVec.ofNat 2 (headerField h 0x23 1),
            steps := BitVec.ofNat 32 (headerField h 0x18 4), heat := t.heat, mode := t.flags.getLsbD 3, lent := lent.map (·.2),
            lendn := BitVec.ofNat 4 ((lent.map fun n => 2 ^ n.1).foldl (· + ·) 0), prio := prio,
            ewtab := BitVec.ofNat 32 (headerField h 0x1C 4) },
    r := { s := fillVec (Vector.replicate 48 0) 1 (t.args.take 8), vw := fillVec (Vector.replicate 8 0) 0 ((h.drop 5).take 8) },
    ctl := { pc := at_ (headerField h 0x08 4) },
    tr := { handler := if hnd = 0 then 0 else at_ hnd },
    sys := { t.sys with bankrole := launchRoles (headerBanks h) },
    msg := t.msg }

/-! ## Where a task may stand (R289, R299, R300, R411, R412) -/

/-- Whether a footprint fits at a base. -/
def Core.fits (x : Core) (foot base : Nat) : Bool :=
  decide (base + foot ≤ 8192) && !x.residents.any fun f => meets base foot f.id.base f.id.foot
/-- The bases at which a footprint fits. -/
def Core.basesFor (x : Core) (foot : Nat) : List Nat := ((List.range 512).map (16 * ·)).filter (x.fits foot)
/-- Whether a resident task has touched one of the tiles. -/
def Core.touchedAny (x : Core) (tiles : List Nat) : Bool := x.residents.any fun f => tiles.any fun t => f.sys.touched.getLsbD t
/-- Neighbours of a core that can be lent to a task now (R302, R303): an H3 task that keeps one from being lent again does so until it is itself
placed anew or has completed. -/
def State.lendable (s : State) (tid : BitVec 32) (c : CoreId) : List (Nat × CoreId) :=
  (neighbours c).filter fun n => let x := s.core n.2
    x.lentTo.isNone && x.noLend.all fun h => h == tid || (s.task h).isNone
/-- Whether the heat rules let a task stand on a core. -/
def State.heatAllows (s : State) (t : Task) (c : CoreId) : Bool :=
  let quiet := (neighbours c).all fun n => !s.active n.2
  let spares := s.active c || (neighbours c).all fun n => s.heatOf n.2 != 2 || decide (s.activeAround n.2 < 2)
  match t.heat with
  | 3 => quiet
  | 2 => spares && decide (s.activeAround c ≤ 2)
  | _ => spares
/-- Whether a core, or a neighbour of it, is cleared for another task (R299). -/
def State.claimed (s : State) (t : Task) (c : CoreId) : Bool :=
  s.tasks.any fun x => x.tid != t.tid && x.st == .ready && match x.claim with
    | some d => d == c || (x.heat == 3 && (neighbours d).any (·.2 == c))
    | none => false
/-- Whether a task may be placed on a core now. -/
def State.mayHold (s : State) (t : Task) (c : CoreId) : Bool :=
  let x := s.core c
  x.cond != .dark && x.lentTo.isNone && allSlots.any (fun k => !(x.frame k).resident) && !(x.basesFor t.foot).isEmpty
    && s.heatAllows t c && !s.claimed t c
    && match t.saved with
      | some v => !x.touchedAny (v.tiles.map (·.1)) && decide (v.lents.length ≤ (s.lendable t.tid c).length)
      | none => !x.touchedAny (List.range (256 * headerBanks t.header / 16))
/-- All cores. -/
def everyCore : List CoreId := (List.range 256).map (Fin.ofNat 256)
/-- The cores on which a task may be placed; an H3 task prefers the colour of its die's other H3 cores (R299). -/
def State.placesFor (s : State) (t : Task) : List CoreId :=
  let l := everyCore.filter (s.mayHold t)
  if t.heat ≠ 3 then l else
  let matching (c : CoreId) : Bool := everyCore.any fun d => dieOf d == dieOf c && colour d == colour c && s.runsH3 d
  l.filter fun c => matching c || !l.any fun d => dieOf d == dieOf c && matching d

/-! ## The context save area (R389, R411) -/

/-- Pages of a task's save area: room for every touched tile and lent window. -/
def Task.areaPages (t : Task) : Nat :=
  ceilDiv (ceilDiv (0x30800 + t.foot * 512) 4096 * 4096 + 512 * 4096 + (if t.heat = 3 then 4 * lentSize else 0)) 65536
/-- The lowest page of the pool from which `n` pages are free. -/
def Queue.areaFor (q : Queue) (n : Nat) : Option Nat :=
  match q.ctx with
  | none => none
  | some c =>
    let ends := q.areas.map fun (a : Nat × Nat × BitVec 32) => a.1 + a.2.1
    let ok := (0 :: ends).filter fun p => decide (p + n ≤ c.ctxpages) && !q.areas.any fun (a : Nat × Nat × BitVec 32) => meets p n a.1 a.2.1
    minOf id ok
/-- A save area is cut for the task, unless it has one; none when the pool has no room. -/
def State.cutArea (s : State) (t : Task) : Option State :=
  let q := s.queue t.q
  if q.areas.any fun (a : Nat × Nat × BitVec 32) => a.2.2 == t.tid then some s else
  match q.ctx, q.areaFor t.areaPages with
  | some c, some p =>
    some ((s.updQueue t.q fun q => { q with areas := q.areas ++ [(p, t.areaPages, t.tid)] }).updTask t.tid fun x =>
      { x with sys := { x.sys with ctxsave := c.ctxpool + wd (65536 * p) } })
  | _, _ => none
/-- The space of the distributor for a task's memory: the queue's, as a system party (R389, R390). -/
def State.queueSpace (s : State) (q : Fin 64) : Space :=
  match (s.queue q).ctx with
  | some c => { asid := c.asid, root := c.ptroot, user := false }
  | none => { user := false }
/-- The writer identifier of the Belfry core that serves a queue: queue q is served by core q mod 4 (R102, R405, log 58). -/
def belfryWriter (q : Fin 64) : Nat := baseWriter 0 (q.val % 4)
/-- Bytes of a queue's address space as a party of system scope reads them (R390). -/
def State.belfryRead (s : State) (q : Fin 64) (va : Word) (n : Nat) : Except Trap (Nat × State) :=
  if !rangeOk va n then .error { cause := Cause.address, evaddr := va } else
  match baseSegs s 0 (s.queueSpace q) true .read (va57 va) n with
  | .error t => .error t
  | .ok l => match s.homePoison l with
    | some t => .error t
    | none => .ok (s.homeSegs l, (s.baseLearn 0 l).partyReads (belfryWriter q) (segRanges l))
/-- Bytes written there at system scope; none when the write fails. -/
def State.belfryWrite (s : State) (q : Fin 64) (va : Word) (n v : Nat) : Option State :=
  if !rangeOk va n then none else
  match baseSegs s 0 (s.queueSpace q) true .write (va57 va) n with
  | .error _ => none
  | .ok l => some ((s.baseLearn 0 l).partyWrites (belfryWriter q) l v)
/-- Whether the area's STAMP names the task (R411). -/
def State.stampOk (s : State) (t : Task) : Bool :=
  s.areaRead t (s.sysOf t.tid).ctxsave 0x38 4 == some t.tid.toNat

/-! ## READY tasks (R287, R312) -/

/-- READY tasks by effective priority, then by the time at which they became READY. -/
def State.readyOrder (s : State) : List Task :=
  let before (a b : Task) : Bool := decide (s.effPrio b < s.effPrio a) || (s.effPrio a == s.effPrio b && decide (a.readyAt ≤ b.readyAt))
  let l := s.tasks.filter (·.st == .ready)
  l.foldl (fun (acc : List Task) t => acc.takeWhile (fun x => before x t) ++ [t] ++ acc.dropWhile (fun x => before x t)) []
/-- The distributor looks again for cores for the READY tasks. -/
def State.pokePlace (s : State) : State :=
  s.readyOrder.foldl (fun (s : State) t =>
    if s.agenda.any fun e => e.row == .taskPlace && e.arg.tid == t.tid && e.at_ == s.time then s
    else s.post 0 .taskPlace { tid := t.tid }) s

/-! ## Stealing (R310) -/

/-- Whether a core has no ready resident task and an empty queue. -/
def State.hungry (s : State) (c : CoreId) : Bool :=
  let x := s.core c
  s.pw.pstate == 0 && x.cond != .dark && x.lentTo.isNone && !x.residents.any (·.ready) && !s.tasks.any (fun t => t.st == .ready && t.bound == some c)
    && bit s.bel.dsteal 0
/-- A hungry core begins to send steal requests. -/
def State.startSteal (s : State) (c : CoreId) : State :=
  if (s.core c).stealing || !s.hungry c then s else
  (s.updCore c fun x => { x with stealing := true, tries := 0 }).postLater 1 .stealRequest { c := c }
/-- Whether a launch lets a task be stolen (R403). -/
def State.stealable (s : State) (t : Task) : Bool :=
  t.st == .ready && t.bal == 1 && t.flags.getLsbD 4 && bit s.bel.dsteal 0 && t.gang.isNone
    && !((t.saved.map fun v => !v.lents.isEmpty).getD false)
/-- The per-core xorshift state (R310). -/
def xorshift (x : BitVec 32) : BitVec 32 :=
  let x := x ^^^ (x <<< 13)
  let x := x ^^^ (x >>> 17)
  x ^^^ (x <<< 5)
/-- The victim of a try; none when the answer is the core itself. -/
def victimOf (c : CoreId) (x : BitVec 32) (try_ : Nat) : Option CoreId :=
  let base := c.val / 32 * 32
  if try_ < 4 then
    let v := x.toNat % 32
    some (Fin.ofNat 256 (base + if base + v = c.val then (v + 1) % 32 else v))
  else
    let v : CoreId := Fin.ofNat 256 (x.toNat / 32 % 8 * 32 + x.toNat % 32)
    if v = c then none else some v
/-- The task at the tail of a core's ready queue. -/
def State.queueTail (s : State) (v : CoreId) : Option Task :=
  (s.tasks.filter fun t => t.st == .ready && t.bound == some v).foldl (fun (best : Option Task) t =>
    match best with
    | some b => if b.readyAt ≤ t.readyAt then some t else best
    | none => some t) none

/-- STEAL_REQUEST (R310): one try. -/
def execStealRequest (s : State) : Out :=
  let c := s.arg.c
  if !s.hungry c then .next (s.updCore c fun x => { x with stealing := false }) else
  let x := s.core c
  let r := xorshift x.rng
  let s := s.updCore c fun x => { x with rng := r, tries := x.tries + 1 }
  let take := (((victimOf c r x.tries).bind s.queueTail).filter s.stealable).filter fun t => s.heatAllows t c
  match take with
  | some t =>
    .next (((s.updTask t.tid fun t => { t with bound := some c, stolen := true }).updCore c fun x =>
      { x with stealing := false }).post 0 .taskPlace { tid := t.tid })
  | none =>
    if x.tries < 7 then .next (s.postLater 1 .stealRequest { c := c })
    else .next ((s.updCore c fun y => { y with tries := 0, backoff := min 64 (2 * x.backoff) }).post (ticksOfUs x.backoff)
      .stealBackoffExpiry { c := c })

/-- STEAL_BACKOFF_EXPIRY (R310). -/
def execStealBackoffExpiry (s : State) : Out :=
  let c := s.arg.c
  if s.hungry c then .next (s.post 0 .stealRequest { c := c })
  else .next (s.updCore c fun x => { x with stealing := false })

/-! ## Placement (R12, R289, R299, R302, R412) -/

/-- A release at a slot of a core (R111, R122): it follows the core's accesses under way. -/
def State.releaseFor (s : State) (c : CoreId) (k : Fin 4) (scope : Nat) : State :=
  if s.releaseBusy c (s.cyc c) then s.sendAccess { c := c, k := k, order := some (.release scope), seq := seqOf (s.cyc c) 0 } else s.release c scope

/-- A header's stream bindings set up as by SBIND (R12, R122, R245). -/
def State.bindHeader (s : State) (c : CoreId) (k : Fin 4) (t : Task) : State :=
  let l := headerStreams t.header
  ((List.range l.length).zip l).foldl (fun (s : State) (x : Nat × Nat × Nat × Nat) =>
    let n : Fin 16 := Fin.ofNat 16 x.2.1
    let d := (List.range 8).foldl (fun a i => a + (nth t.header (32 + 8 * x.1 + i)).toNat * 2 ^ (64 * i)) 0
    match patternOfDesc d with
    | none => s
    | some (base, counts, strides) =>
      let left := counts.foldl (· * ·) 1
      let fills := if x.2.2.1 = 1 then min x.2.2.2 left else 0
      let bank := n.val / 8
      let f := s.frameAt c k
      let tiles := dedup (lsTiles c ((List.range left).flatMap fun i =>
        s.rangePhys c f (va57 (elemAddr base counts strides i)) 512) ++ queueTiles bank n.val)
      let s := (s.releaseFor c k 2).bump
      let gen := s.fresh - 1
      let y : Stream := { mode := x.2.2.1, gen := gen, bank := bank, depth := x.2.2.2, left := left, base := base, counts := counts,
                          strides := strides, fills := fills, root := f.sys.ptroot, asid := f.sys.asid }
      let s := (s.touchTiles c k tiles).updFrameAt c k fun f => { f with r := { f.r with streams := f.r.streams.set n.val y n.isLt } }
      (List.range fills).foldl (fun (s : State) _ =>
        s.postFree c 23 .streamFillArrive { k := k, u := n.val, id := gen, tid := t.tid }) s) s

/-- Whether every other member of a gang stands on a core with its context there. -/
def State.gangPlaced (s : State) (g : Gang) : Bool :=
  g.members.all fun m => match s.task m with
    | some t => t.place.isSome && !t.restoring
    | none => true
/-- A gang whose members have all been placed starts, or resumes as a whole (R306, R402). -/
def State.tryGang (s : State) (gid : BitVec 16) : State :=
  match s.gangs.find? (·.gid == gid) with
  | none => s
  | some g => if g.started || g.cutAt.isSome || !s.gangPlaced g then s else s.post 0 (if g.saved then .gangResume else .gangStart) { h := gid }

/-- A task takes a slot of a core at a base: a fresh frame by R12, or the saved one until its restore (R287, R412). -/
def State.placeAt (s : State) (t : Task) (c : CoreId) (k : Fin 4) (base : Nat) : State :=
  let old := s.heatOf c
  let now := s.time
  let lim := bits s.bel.dpar0 32 32
  let cycle := s.cyc c
  let lent := if t.heat = 3 then s.lendable t.tid c else []
  let s := if t.heat = 3 then { s with cores := s.cores.map fun x => { x with noLend := x.noLend.filter (· != t.tid) } } else s
  let s := if t.heat = 3 then s.beginLend c t.tid lent else s
  let holds := t.gang.isSome && !(((s.gangs.find? fun g => t.gang == some g.gid).map (·.started)).getD true)
  let fresh := launchFrame t (s.basePrio t) base lent
  let f : Frame := match t.saved with
    | none => { fresh with ctl := { fresh.ctl with stopped := holds, notBefore := cycle + 1 } }
    | some v => { v.frame with
        id := { v.frame.id with base := base, lent := fresh.id.lent, lendn := fresh.id.lendn },
        infl := [], ctl := { v.frame.ctl with stopped := true } }
  let s := s.zeroRange (winBase c + base * 512) (t.foot * 512)
  let s := s.updCore c fun x =>
    let idle := !(x.frame x.run).resident
    let x := x.updFrame k fun _ => f
    { x with cond := .active, run := if idle then k else x.run, sliceAt := if idle then now else x.sliceAt,
             slice := if idle then lim else x.slice, backoff := 1 }
  let s := s.updTask t.tid fun t => { t with st := .resident, place := some (c, k), bound := none, claim := none,
                                             aging := 0, restoring := t.saved.isSome }
  let s := (s.regrant c old)
  match t.saved with
  | some _ => s.postLater 1 .contextRestore { tid := t.tid, c := c, k := k }
  | none =>
    let s := (s.fillPermits c).bindHeader c k t
    match t.gang with
    | some g => s.tryGang g
    | none => s

/-- The tasks of lower priority that stand in a task's way on a core (R408): their slots, and the core without them. -/
def State.weaker (s : State) (t : Task) (c : CoreId) : List (BitVec 32) :=
  ((s.core c).residents.filter fun f => !f.ctl.halted && decide (f.id.prio < s.effPrio t)).map (·.id.task)
/-- The state without those tasks. -/
def State.without (s : State) (c : CoreId) (l : List (BitVec 32)) : State :=
  s.updCore c fun x => allSlots.foldl (fun (x : Core) k =>
    if l.contains (x.frame k).id.task then x.updFrame k fun _ => {} else x) x
/-- The state as it will be once those tasks have left the neighbours of a core: its lending to one of them is over, and it is dark only for an H3
neighbour that stays (R299, R303). -/
def State.cleared (s : State) (c : CoreId) (l : List (BitVec 32)) : State :=
  let s := (neighbours c).foldl (fun (s : State) n => s.without n.2 l) s
  s.updCore c fun x =>
    let lentTo := if x.lentTo.any l.contains then none else x.lentTo
    { x with lentTo := lentTo,
             cond := if x.cond = .dark ∧ lentTo.isNone ∧ (neighbours c).all (fun n => !s.runsH3 n.2) then .idle else x.cond }
/-- A READY task without a core: tasks of lower effective priority are pre-empted where that makes room; a gang is cut for
a gang (R401, R408). -/
def State.makeRoom (s : State) (t : Task) : State :=
  if s.tasks.any fun x => x.preempt.isSome then s else
  let l := everyCore.filter fun c => let w := s.weaker t c; !w.isEmpty && (s.without c w).mayHold t c
  if l.isEmpty then s else
  let c := l.getD (s.pick l.length) 0
  let s := s.tick.updTask t.tid fun t => { t with claim := some c }
  (s.weaker t c).foldl (fun (s : State) v =>
    match s.task v with
    | none => s
    | some x => match t.gang, x.gang with
      | some _, some g => s.post 0 .gangCut { h := g }
      | _, _ => s.post 0 .preemptTask { tid := v, u := 1 }) s

/-- A READY task without a core that no task of lower priority can give it: the distributor may swap it in for one resident task that does not
outrank it (R11, R408). When it does is left open, and a free choice here (log 82). -/
def State.swapIn (s : State) (t : Task) : State :=
  if s.tasks.any (fun x => x.preempt.isSome) || s.pick 2 == 0 then s.tick else
  let s := s.tick
  let l := everyCore.flatMap fun c => ((s.core c).residents.filter fun f =>
    !f.ctl.halted && decide (f.id.prio ≤ s.effPrio t) && (s.task f.id.task).any (·.gang.isNone) && (s.without c [f.id.task]).mayHold t c).map
      fun f => (c, f.id.task)
  match l[s.pick l.length]? with
  | none => s
  | some x => (s.tick.updTask t.tid fun t => { t with claim := some x.1 }).post 0 .preemptTask { tid := x.2, u := 2 }

/-- A gang that waits for cores lets the slices of gangs of its priority end (R401). -/
def State.watchGangs (s : State) (t : Task) : State :=
  if t.gang.isNone then s else
  s.gangs.foldl (fun (s : State) g =>
    let equal := g.members.any fun m => ((s.task m).map fun x => s.basePrio x == s.basePrio t).getD false
    if !g.started || some g.gid == t.gang || !equal || s.agenda.any (fun e => e.row == .gsliceExpiry && e.arg.h == g.gid) then s else
    s.post (g.startAt + ticksOfUs (bits s.bel.dpar2 0 32) - s.time) .gsliceExpiry { h := g.gid, n := g.startAt }) s

/-- Whether the distributor places tasks (R458, R461). -/
def State.mayPlace (s : State) : Bool := s.pw.pstate == 0 && s.pw.save == 0 && bits s.pw.pwctl 0 2 == 0

/-- Whether a cut of the task's gang is pending: it holds from the start, where it is (R401). -/
def State.beingCut (s : State) (t : Task) : Bool := s.gangs.any fun (g : Gang) => some g.gid == t.gang && g.cutAt.isSome

/-- TASK_PLACE (R287, R289, R299-R302): a READY task takes a core that every rule allows; of several, a free choice. -/
def execTaskPlace (s : State) : Out :=
  match s.task s.arg.tid with
  | none => .next s
  | some t =>
    if t.st ≠ .ready ∨ !s.mayPlace ∨ s.beingCut t then .next s else
    match s.cutArea t with
    | none => .next s
    | some s =>
      let t := (s.task t.tid).getD t
      if t.saved.isSome && !s.stampOk t then .next s else
      let l := s.placesFor t
      if l.isEmpty then
        let s := if t.bound.isSome then s else (s.updTask t.tid fun t => { t with bound := some (Fin.ofNat 256 (s.pick 256)) }).tick
        let s := if t.heat = 3 && !s.agenda.any (fun e => e.row == .h3waitExpiry && e.arg.tid == t.tid) then
            s.post (t.readyAt + ticksOfUs (bits s.bel.dpar1 0 32) - s.time) .h3waitExpiry { tid := t.tid, n := t.readyAt }
          else s
        let s := if t.claim.isSome then s else s.makeRoom t
        let s := if ((s.task t.tid).map (·.claim.isSome)).getD true then s else s.swapIn t
        let s := s.watchGangs t
        .next s
      else
        let c := match t.bound with
          | some b => if l.contains b then b else l.getD (s.pick l.length) 0
          | none => l.getD (s.pick l.length) 0
        let x := s.core c
        let bases := x.basesFor t.foot
        let slots := allSlots.filter fun k => !(x.frame k).resident
        let s := s.tick
        let base := bases.getD (s.pick bases.length) 0
        let s := s.tick
        .next (s.tick.placeAt t c (slots.getD (s.pick slots.length) 0) base)

/-- PRIORITY_AGING (R312): one step for each 1 ms that a task has waited READY. -/
def execPriorityAging (s : State) : Out :=
  match s.task s.arg.tid with
  | none => .next s
  | some t =>
    if t.st ≠ .ready ∨ t.readyAt ≠ s.arg.n then .next s else
    .next (((s.updTask t.tid fun t => { t with aging := t.aging + 1 }).post 0 .taskPlace { tid := t.tid }).post (ticksOfUs 1000)
      .priorityAging s.arg)

/-- H3WAIT_EXPIRY (R299): the core whose neighbours hold the fewest tasks, lowest number first, is cleared around. -/
def execH3waitExpiry (s : State) : Out :=
  match s.task s.arg.tid with
  | none => .next s
  | some t =>
    if t.st ≠ .ready ∨ t.readyAt ≠ s.arg.n then .next s else
    let around (c : CoreId) : List (BitVec 32) := (neighbours c).flatMap fun n => (s.core n.2).residents.map (·.id.task)
    let l := everyCore.filter fun c => (s.cleared c (around c)).mayHold t c
    match minOf (fun c => (around c).length) l with
    | none => .next (s.post (ticksOfUs 1) .h3waitExpiry s.arg)
    | some m => match l.find? fun c => (around c).length == m with
      | none => .next s
      | some c =>
        let s := s.updTask t.tid fun t => { t with claim := some c }
        .next (((around c).foldl (fun (s : State) v => s.post 0 .preemptTask { tid := v, u := 4 }) s).post (ticksOfUs 1) .taskPlace
          { tid := t.tid })

/-! ## Switching (R290) -/

/-- SWTHR_EXPIRY (R290): a head bundle held for SWTHR cycles gives way to another ready task. -/
def execSwthrExpiry (s : State) : Out :=
  match s.here.nextReady with
  | some j => .next (s.switchTo s.cur j)
  | none => .next s

/-- SLICE_EXPIRY (R290): a ready resident task of higher priority takes over after SLICE. -/
def execSliceExpiry (s : State) : Out :=
  match s.here.nextReady with
  | some j => if s.fr.id.prio < (s.here.frame j).id.prio then .next (s.switchTo s.cur j) else .next s
  | none => .next s

/-! ## Release (R288, R303, R316) -/

/-- The events that belong to a slot's frame and not to a command of its task. -/
def frameRows : List Instr := [.resultComplete, .loadComplete, .vectorLoadLand, .prepFetchComplete, .loopBufferFill, .bundleFetch]
/-- A slot is given up: lending ends, the tiles that no other resident task has touched are zeroed, the core's class, condition
and profile follow. -/
def State.vacate (s : State) (c : CoreId) (k : Fin 4) : State :=
  let f := s.frameAt c k
  let old := s.heatOf c
  let s := s.updCore c fun x =>
    let x := x.updFrame k fun _ => {}
    { x with events := x.events.filter fun e => !(e.arg.k == k && frameRows.contains e.row) }
  let tiles := (List.range 512).filter fun t => f.sys.touched.getLsbD t && !(s.core c).touchedAny [t]
  let s := tiles.foldl (fun (s : State) t => s.zeroRange (lsBase c + 4096 * t) 4096) s
  let s := s.updCore c fun x =>
    { x with cond := if x.cond = .dark then .dark else if x.residents.isEmpty then .idle else .active }
  let s := if f.id.heat = 3 then s.endLend c f.id.lent else s
  (s.regrant c old).pokePlace

/-! ## Logs (R406, R407, R442) -/

/-- A record that the Belfry writes at a physical address for a task of a queue, performed at system scope; one that names no memory reaches
nothing (R423). -/
def State.belfryStore (s : State) (q : Fin 64) (pa n v : Nat) : State :=
  if !inMemory pa n then s else
  (s.homeWrite (s.stamp (belfryWriter q)) pa n v).publish (belfryWriter q) 4

/-- FAULT_RECORD_WRITE (R406, R407): the record, or one more lost. -/
def State.writeFault (s : State) (t : Task) (c : CoreId) (k : Fin 4) : State :=
  let f := s.frameAt c k
  let e := t.eng
  let n := 2 ^ s.bel.floglogn
  if s.bel.flogbase = 0 then s
  else if (s.bel.flogprod - s.bel.flogcons).toNat = n then { s with bel := { s.bel with floglost := s.bel.floglost + 1 } }
  else
    let src := if e.cause = Cause.weightPoison then 1 else e.src
    let flags := (if e.async then 1 else 0) + f.id.duplvl.toNat * 2 + src % 4 * 8 + (if f.tr.intrap then 32 else 0)
    let w : List Nat := [t.tid.toNat + e.cause.toNat * 2 ^ 32 + flags * 2 ^ 40 + c.val * 2 ^ 48 + e.slot * 2 ^ 56, (low57 t.epc).toNat,
      (low57 e.evaddr).toNat, e.eeng.toNat, t.tokgrp.toNat + t.q.val * 2 ^ 32, s.ns % 2 ^ 64, e.padr.toNat, 0]
    let v := (List.range 8).foldl (fun a i => a + w.getD i 0 * 2 ^ (64 * i)) 0
    let s := s.belfryStore t.q (s.bel.flogbase.toNat + 64 * (s.bel.flogprod.toNat % n)) 64 v
    { s with bel := { s.bel with flogprod := s.bel.flogprod + 1 } }

/-- MIX_LOG_RECORD (R442): dropped when the ring is full. -/
def State.writeMix (s : State) (t : Task) : State :=
  match t.mixver with
  | none => s
  | some v =>
    let n := 2 ^ bits s.ld.mixbase 0 5
    if n ≤ (s.ld.mixprod - s.ld.mixcons).toNat then s else
    let first := (((s.admitted t.tokgrp).bind (·.firstver)).getD 0).toNat
    let x := t.tid.toNat + t.tokgrp.toNat * 2 ^ 32 + first * 2 ^ 64 + v.toNat * 2 ^ 96
    let s := s.belfryStore t.q (bits s.ld.mixbase 12 40 * 4096 + 16 * (s.ld.mixprod.toNat % n)) 16 x
    { s with ld := { s.ld with mixprod := s.ld.mixprod + 1 } }

/-! ## Completion (R287, R288, R294, R295, R397) -/

/-- Bytes 0x00-0x1F of a completion record, PHASE aside (R397). -/
def State.completionBytes (s : State) (t : Task) (status cause : Nat) (origin : BitVec 32) : List Byte :=
  let ver := if t.tokgrp = 0 then 0 else (((s.admitted t.tokgrp).map Admitted.mapver).getD 0).toNat
  let flags := (if t.mixver.isSome then 1 else 0) + (if t.unaligned then 2 else 0) + (if t.stolen then 4 else 0)
  let w0 := t.tid.toNat + t.index * 2 ^ 32 + status * 2 ^ 48 + cause * 2 ^ 56
  bytesOf (w0 + origin.toNat * 2 ^ 64 + t.ltag.toNat * 2 ^ 96 + s.ns % 2 ^ 64 * 2 ^ 128 + ver * 2 ^ 192 + flags * 2 ^ 224) 32

/-- A dependence completed DONE (R287): the last one outstanding makes the task READY. -/
def State.satisfy (s : State) (tid : BitVec 32) : State :=
  match s.task tid with
  | none => s
  | some t =>
    let s := s.updTask tid fun t => { t with deps := t.deps - 1 }
    if t.st = .waiting ∧ t.deps ≤ 1 then s.markReady tid else s

/-- What remains of a task goes: groups, holds, event queue, areas (R263, R288). -/
def State.releaseTask (s : State) (t : Task) : State :=
  let tid := t.tid
  let m := s.msgOf tid
  let s := (s.groups.filter fun (g : Group) => g.has tid).foldl (fun (s : State) g => s.leaveGroup g.gid tid m) s
  let s := m.holds.foldl (fun (s : State) r => match t.place with
    | some (c, k) => s.dropHold c k tid r
    | none => s.dropHold 0 0 tid r) s
  let lost := m.evq.length + m.spill.length
  let s := { s with bel := { s.bel with evdisc := s.bel.evdisc + wd lost } }
  s.updQueue t.q fun q => { q with areas := q.areas.filter fun (a : Nat × Nat × BitVec 32) => a.2.2 != tid,
                                   evAreas := q.evAreas.filter fun (a : Nat × BitVec 32) => a.2 != tid }

/-- A request with no launched task left is freed (R442); a gang with no member left is gone. -/
def State.forget (s : State) (t : Task) : State :=
  let s := if t.tokgrp ≠ 0 ∧ !s.tasks.any (fun x => x.tokgrp == t.tokgrp) ∧ (s.admitted t.tokgrp).isSome then
      ({ s with ld := { s.ld with admitted := s.ld.admitted.filter fun (a : Admitted) => a.tokgrp != t.tokgrp } }).post 0 .mapRetire {}
    else s
  let s := if s.ld.phase = 3 then s.post 0 .loaderFlip {} else s
  { s with gangs := s.gangs.filter fun (g : Gang) => g.members.any fun m => s.tasks.any fun x => x.tid == m }

/-- A task completes with a status: its slot and resources are released, its records written or queued, its successors told,
its queue frozen where the status says so (R287, R288, R294, R295, R397, R398). -/
def State.endTask (s : State) (t : Task) (status cause : Nat) (origin ostatus : BitVec 32) : State :=
  let t := (s.task t.tid).getD t
  let s := match t.place with
    | some (c, k) =>
      -- the record stands after the task's release (R154, R288)
      let s := s.partyLearns (belfryWriter t.q) (s.releasesOf (coreWriter c))
      let s := if status = 1 then s.writeFault t c k else s
      s.dropPins c k
    | none => s
  let s := s.writeMix t
  let bytes := s.completionBytes t status cause (if status = 3 then origin else 0)
  let s := s.releaseTask t
  let s := { s with tasks := s.tasks.filter fun (x : Task) => x.tid != t.tid }
  let s := match t.place with
    | some (c, k) => s.vacate c k
    | none => s.pokePlace
  let s := s.updQueue t.q fun q =>
    { q with recs := q.recs ++ [{ tid := t.tid, bytes := bytes, peer := t.peer }],
             run := q.run.map fun r => if status ≠ 0 ∧ r.mine.contains t.tid then { r with fails := r.fails + 1 } else r }
  let s := s.post 0 .completionRecordWrite { q := t.q }
  let s := t.succ.foldl (fun (s : State) n =>
    if status = 0 then s.satisfy n
    else s.post 0 .errorToken { tid := n, w0 := origin.setWidth 64, w1 := ostatus.setWidth 64 }) s
  let s := s.forget t
  if status = 1 then s.freeze t.q (if cause = 0x33 then 0x09#8 else 0x05#8) t.tid
  else if status = 4 then s.freeze t.q 0x06#8 0 else s

/-- ERROR_TOKEN (R294): a successor is cancelled with the origin of the first token; of tokens that arrive together, the lowest
TASK_ID. -/
def execErrorToken (s : State) : Out :=
  match s.task s.arg.tid with
  | none => .next s
  | some t =>
    let others := (s.agenda.filter fun e => e.row == .errorToken && e.arg.tid == t.tid && decide (e.at_ ≤ s.time)).map (·.arg)
    let a := others.foldl (fun (a b : Arg) => if b.w0.toNat < a.w0.toNat then b else a) s.arg
    .next (s.endTask t 3 a.w1.toNat (a.w0.setWidth 32) (a.w1.setWidth 32))

/-- Matrix, tile and nest work of a slot that must end before it is released or saved (R227, R296). -/
def State.matrixLeft (s : State) (c : CoreId) (k : Fin 4) : Bool :=
  let x := s.core c
  (x.mrun.toList ++ x.mwait.toList).any (·.slot == k) || x.tiles.any (·.slot == k)
/-- Accesses of a slot under way. -/
def State.accessLeft (s : State) (c : CoreId) (k : Fin 4) : Bool :=
  !((s.frameAt c k).atoms).isEmpty || s.wins.any fun a => a.c == c && a.k == k
/-- What HALT waits for (R154). -/
def State.workLeft (s : State) (c : CoreId) (k : Fin 4) (tid : BitVec 32) : Bool :=
  let f := s.frameAt c k
  s.matrixLeft c k || s.accessLeft c k || !f.infl.isEmpty || !f.loads.isEmpty || f.mat.nest.running
    || everyCore.any (fun d => (s.core d).cu.toList.any fun l => l.any (·.task == tid))
    || s.tree.cmds.any (·.tid == tid) || s.disps.any (·.tid == tid)
    || (f.r.streams.toList.any fun q => q.mode == 2 && !q.queue.isEmpty && !q.stopped)
    || everyCore.any fun d => (s.core d).outq.any (·.tid == tid)

/-- A task's commands on every core cancelled, and what its unbound write streams still held discarded (R296). -/
def State.cancelWork (s : State) (tid : BitVec 32) : State :=
  let s := everyCore.foldl (fun (s : State) c =>
    if (s.core c).cu.toList.any fun l => l.any (·.task == tid) then s.cancelCopies c tid else s) s
  let s := s.cancelSnaps tid
  { s with disps := s.disps.filter fun (q : Disp) => q.tid != tid,
           cores := s.cores.map fun x => { x with outq := x.outq.filter (·.tid != tid) } }

/-- The stop of an expired or faulted task (R296): results, loads, streams and commands go; a nest issues nothing more. -/
def State.stopTask (s : State) (c : CoreId) (k : Fin 4) (tid : BitVec 32) : State :=
  let s := s.updFrameAt c k fun f =>
    { f with infl := [], loads := [], ctl := { f.ctl with halted := true, ended := true },
             r := { f.r with streams := Vector.replicate 16 {} }, tr := { f.tr with due := [], held := [] },
             mat := { f.mat with nest := { f.mat.nest with running := false }, pins := [] } }
  s.cancelWork tid

/-- TASK_COMPLETE (R154, R287, R288, R296): `u` 0 a HALT that completes once all the task's work has, 1 a fault, 2 expiry, 4
power lost. -/
def execTaskComplete (s : State) : Out :=
  let a := s.arg
  match s.task a.tid with
  | none => .next s
  | some t =>
    if t.place ≠ some (a.c, a.k) then .next s
    else if a.u = 0 then
      if (s.frameAt a.c a.k).ctl.ended then .next s
      else if s.workLeft a.c a.k a.tid || s.releaseBusy a.c (s.cyc a.c) then .next (s.post 1 .taskComplete a)
      else .next ((s.release a.c 4).endTask t 0 0 0 0)
    else
      let s := s.stopTask a.c a.k a.tid
      if s.matrixLeft a.c a.k || s.accessLeft a.c a.k then .next (s.post 1 .taskComplete a)
      else .next (s.endTask t a.u (if a.u = 1 then a.w0.toNat % 256 else 0) a.tid (BitVec.ofNat 32 a.u))

/-- DEADLINE_EXPIRY (R292, R293, R296): a task that has not issued expires at once, one that has is stopped; a HALT that has
issued keeps it DONE. -/
def execDeadlineExpiry (s : State) : Out :=
  match s.task s.arg.tid with
  | none => .next s
  | some t => match t.place with
    | none => .next ((s.cancelWork t.tid).endTask t 2 0 t.tid 2)
    | some (c, k) =>
      if (s.frameAt c k).ctl.halted then .next s
      else if t.firstIssue.isNone then .next (s.endTask t 2 0 t.tid 2)
      else .next ((s.updFrameAt c k fun f => { f with ctl := { f.ctl with halted := true, ended := true } }).post 0 .taskComplete
        { tid := t.tid, c := c, k := k, u := 2 })

/-- HUNG_EXPIRY (R398): a task neither completed nor SAVED since its first issue is faulted. -/
def execHungExpiry (s : State) : Out :=
  match s.task s.arg.tid with
  | none => .next s
  | some t => match t.place with
    | some (c, k) => if t.kept then .next s else .next (s.faultTaskAt c k { cause := Cause.hung } (s.frameAt c k).ctl.pc)
    | none => .next s

/-- COMPLETION_RECORD_WRITE (R397, R476): the oldest waiting record, once the ring has room, in two steps; a NET queue's
record is then sent to its peer, which may fail to acknowledge it. A record whose write fails at a ring that does not translate stands nowhere and is
not sent (log 83). -/
def execCompletionRecordWrite (s : State) : Out :=
  let i := s.arg.q
  let q := s.queue i
  match q.recs, q.ctx with
  | r :: rest, some ctx =>
    let n := 2 ^ ctx.clogn
    if n ≤ (BitVec.ofNat 32 q.recCount - q.qchead).toNat then .next s else
    let at_ := ctx.cring + wd (32 * (q.recCount % n))
    let phase := 1 - q.recCount / n % 2
    let v := natOf r.bytes + phase * 2 ^ 227
    let stored := (s.belfryWrite i at_ 28 (v % 2 ^ 224)).bind fun s => s.belfryWrite i (at_ + 28) 4 (v >>> 224)
    let s := stored.getD s
    let s := s.updQueue i fun q => { q with recs := rest, recCount := q.recCount + 1,
                                            run := q.run.map fun x => if r.old then x else { x with mine := dropFirst (· == r.tid) x.mine } }
    let s := match r.peer.filter fun _ => stored.isSome with
      | some p =>
        let s := { s with out := s.out ++ [Output.record p (bytesOf v 32)] }
        if s.pick 2 = 0 then s.tick
        else { s.tick with net := { s.net with recdrop := if s.net.recdrop = BitVec.allOnes 32 then s.net.recdrop else s.net.recdrop + 1 } }
      | none => s
    let s := s.post 0 .submissionEntryStart {}
    .next (if rest.isEmpty then s else s.post 0 .completionRecordWrite s.arg)
  | _, _ => .next s

end Sys2Proof.Machine
end

