-- ==== Sys2Proof/Machine/Gangs.lean ====
section
/-! DEFINITION. Pre-emption, the context save area and its restore, gangs, their cuts, windows and schedules (R227, R264,
R266, R275, R305-R308, R311, R400-R402, R408-R412). -/

namespace Sys2Proof.Machine

open Sys2Proof

/-! ## The save area's image (R410, R411) -/

/-- 64-bit words as one number, the first lowest. -/
def packWords : List Nat → Nat
  | [] => 0
  | w :: ws => w % 2 ^ 64 + packWords ws * 2 ^ 64
/-- Items of `n` bits as one number, the first lowest. -/
def packBits (n : Nat) : List Nat → Nat
  | [] => 0
  | w :: ws => w % 2 ^ n + packBits n ws * 2 ^ n
/-- A snapshot buffer entry (R410). -/
def Result.entry (r : Result) : Nat :=
  let (kind, index, off) : Nat × Nat × Nat := match r.dest with
    | .s i => (0, i, 0)
    | .rs off => (1, 0, off)
    | .lent off => (1, 0, off)
    | .pred p => (2, p, 0)
    | .mask m => (3, m, 0)
    | .ofe n => (4, n, 0)
    | .ofHead n _ => (4, n, 0)
    | .bp => (5, 0, 0)
    | .none => (0, 0, 0)
  r.due % 256 + kind * 2 ^ 8 + bitOf r.lat.isSome * 2 ^ 11 + r.unit * 2 ^ 12 + index * 2 ^ 16 + off * 2 ^ 64
    + r.ben.toNat * 2 ^ 128 + r.data.toNat * 2 ^ 640
/-- The latches with their pointers, 4,160 bytes. -/
def Latches.image (l : Latches) : Nat :=
  packWords (l.bs.toList.map (·.toNat) ++ l.ptr.toList.map (·.val) ++ [0]) + packBits 4096 (l.bv.toList.map (·.toNat)) * 2 ^ 512
/-- A held trap, 32 bytes. -/
def Trap.image (t : Trap) : Nat := packWords [t.cause.toNat + bitOf t.async * 256 + t.src * 512, t.evaddr.toNat, t.eeng.toNat, t.padr.toNat]
/-- Words of a loop level, in CSR order (R35). -/
def Level.words (x : Level) : List Nat := (List.range 6).map fun f => (x.csr f).toNat
/-- The nest's part of the area: lambda, ragged binding, flag, level copies, views, registers, program, position. -/
def MatState.words (m : MatState) : List Nat :=
  let n := m.nest
  [m.lambda.toNat, bitOf m.live.isSome, (m.live.getD 0).toNat % 2 ^ 64, (m.live.getD 0).toNat >>> 64, bitOf n.running]
    ++ n.lv.toList.flatMap Level.words ++ n.views.map (·.toNat) ++ n.sregs.flatMap (fun (x : Nat × Word) => [x.1, x.2.toNat])
    ++ n.bls.map (·.toNat) ++ [n.cycle.toNat]
    ++ n.program.flatMap (fun (x : Nat × Bundle) => [x.2.toNat % 2 ^ 64, x.2.toNat >>> 64]) ++ [n.first, n.last, n.depth, n.pos.toNat]
/-- The frame's part of a save area: offset, length, value of each piece, the header aside. -/
def Frame.image (f : Frame) : List (Nat × Nat × Nat) :=
  let words (off : Nat) (l : List Nat) : Nat × Nat × Nat := (off, 8 * l.length, packWords l)
  let m := f.msg
  [ words 0x40 (f.r.s.toList.map (·.toNat)),
    words 0x1C0 (f.r.vw.toList.map (·.toNat)),
    words 0x200 (f.ctl.tg.toList.map fun t => (low57 t.addr).toNat / 16 * 16 + bitOf t.valid),
    (0x240, 320, packWords (f.ctl.lv.toList.flatMap Level.words ++ [f.ctl.ldepth.toNat])),
    words 0x380 (f.sys.mirtab.toList.map (·.toNat)),
    (0x3C0, 64, f.r.p.toNat / 2 + f.r.mstack.length * 2 ^ 8 + bitOf f.tr.intrap * 2 ^ 16),
    (0x400, 512, packBits 512 (f.r.mks.toList.map (·.toNat))),
    (0x600, 1024, packBits 512 (f.r.mstack.reverse.map (·.toNat))),
    (0xA00, 960, packWords ([f.sys.bankrole.toNat] ++ f.sys.own.toList.map (·.toNat)
      ++ m.bars.toList.flatMap (fun b => [b.cnt.toNat, b.pend.toNat]) ++ f.r.streams.toList.map (·.sstat.toNat)
      ++ f.r.streams.toList.map (·.scount) ++ [m.evqstat.toNat, f.id.stepn.toNat])),
    (0xDC0, 64, f.sys.touched.toNat),
    (0xE00, 768, packWords ([f.tr.estatus.toNat, f.tr.ecause.toNat, (low57 f.tr.epc).toNat, (low57 f.tr.evaddr).toNat, f.tr.eslot.toNat,
      f.tr.eeng.toNat, (low57 f.tr.handler).toNat, f.tr.shadow.depth, f.tr.shadow.floor, f.tr.shadow.mfloor] ++ f.tr.shadow.lidx
      ++ f.tr.shadow.lrotc.map (·.toNat) ++ f.tr.shadow.tgs.map fun (x : Word × Bool × Bool) => (low57 x.1).toNat / 16 * 16 + bitOf x.2.1)),
    (0x1100, 256, packBits 256 (f.tr.held.map Trap.image)),
    (0x1200, 4160, f.r.lat.image),
    (0x2240, 4160, f.tr.shadow.lat.image),
    (0x3400, 8704, packBits 4096 (f.r.ofe.toList.map (·.toNat) ++ [f.r.bp.toNat])),
    (0x5600, 2560, packWords f.mat.words % 2 ^ 20480),
    (0x6000, 37888, packBits 4736 (f.infl.map Result.entry)),
    (0xF400, 4096, packBits 128 (m.evq.map (·.toNat))),
    (0x10400, 1016, packBits 32 (m.holds.map (·.toNat)) % 2 ^ 8128),
    (0x107F8, 8, (m.waits.head?.map fun w => w.h.toNat + 2 ^ 31).getD 0),
    (0x10800, 131072, packBits 65536 (f.r.streams.toList.map fun q => packBits 4096 (q.queue.map (·.data.toNat)))) ]
/-- Where a save area holds the touched tiles (R411). -/
def tilesAt (foot : Nat) : Nat := ceilDiv (0x30800 + foot * 512) 4096 * 4096
/-- The header of a save area without its STAMP. -/
def headerImage (t : Task) (f : Frame) (tiles lents reason : Nat) : Nat :=
  let flags := bitOf f.tr.intrap + 2 * bitOf f.mat.nest.running + 4 * bitOf (!f.msg.waits.isEmpty) + 8 * bitOf t.gang.isSome
    + 16 * bitOf (!f.tr.due.isEmpty)
  let tileOff := tilesAt f.id.foot
  packWords [0x53585443 + 1 * 2 ^ 32 + flags * 2 ^ 48,
    t.tid.toNat + f.id.foot * 2 ^ 32 + lents * 2 ^ 48 + reason * 2 ^ 56,
    (f.msg.waits.head?.map fun w => w.h.toNat + 2 ^ 31).getD 0,
    f.infl.length + tiles * 2 ^ 32, 0x30800, tileOff, tileOff + tiles * 4096, 0]

/-! ## The frame as its area gives it back (R275, R409-R411) -/

/-- Items of `n` bits that a number packs. -/
def itemsOf (n v k : Nat) : List Nat := (List.range k).map fun i => field v (n * i) n
/-- Words that a number packs. -/
def wordsIn (v k : Nat) : List Word := (itemsOf 64 v k).map wd
/-- Latches from their image. -/
def Latches.ofImage (v : Nat) : Latches :=
  { bs := Vector.ofFn fun i => wd (field v (64 * i.val) 64), ptr := Vector.ofFn fun i => Fin.ofNat 4 (field v (256 + 64 * i.val) 64),
    bv := Vector.ofFn fun i => BitVec.ofNat 4096 (field v (512 + 4096 * i.val) 4096) }
/-- A loop level from its words. -/
def Level.ofWords (x : Level) (l : List Word) : Level :=
  let g := nth l 4
  { x with lcnt := bits (nth l 0) 0 48, lidx := (nth l 1).toNat, lstart := canon57 (nth l 2), lstop := canon57 (nth l 3), lrotc := nth l 5,
           stages := bits g 0 3, savedp := BitVec.ofNat 4 (bits g 4 4), isOpen := bit g 8, nest := bit g 9, pipe := bit g 10 }
/-- The six levels from theirs. -/
def levelsOf (old : Vector Level 6) (l : List Word) : Vector Level 6 := Vector.ofFn fun i => (old.get i).ofWords (l.drop (6 * i.val))
/-- A target entry's address, and whether the entry is valid. -/
def targetOf (w : Word) : Word × Bool := (canon57 (w &&& ~~~0xF#64), bit w 0)
/-- A held trap from its image. -/
def Trap.ofImage (t : Trap) (v : Nat) : Trap :=
  let l := wordsIn v 4
  { t with cause := BitVec.ofNat 8 (bits (nth l 0) 0 8), async := bit (nth l 0) 8, src := bits (nth l 0) 9 55, evaddr := nth l 1,
           eeng := nth l 2, padr := nth l 3 }
/-- A snapshot buffer entry read back: when it completes, its enables and its data. -/
def Result.ofEntry (r : Result) (v : Nat) : Result :=
  { r with due := field v 0 8, ben := BitVec.ofNat 512 (field v 128 512), data := BitVec.ofNat 4096 (field v 640 4096) }
/-- The registers as the area gives them. -/
def Regs.ofArea (r : Regs) (rd : Nat → Nat → Option Nat) : Regs :=
  let at_ {α : Type} (off n : Nat) (old : α) (g : Nat → α) : α := ((rd off n).map g).getD old
  let msp := at_ 0x3C0 64 r.mstack.length fun v => field v 8 5
  { r with
    s := at_ 0x40 384 r.s fun v => fillVec r.s 1 ((wordsIn v 48).drop 1), vw := at_ 0x1C0 64 r.vw fun v => fillVec r.vw 0 (wordsIn v 8),
    p := at_ 0x3C0 64 r.p fun v => BitVec.ofNat 8 (2 * (v % 128) + 1),
    mks := at_ 0x400 512 r.mks fun v => Vector.ofFn fun i => BitVec.ofNat 512 (field v (512 * i.val) 512),
    mstack := at_ 0x600 1024 r.mstack fun v => ((itemsOf 512 v msp).map (BitVec.ofNat 512)).reverse,
    lat := at_ 0x1200 4160 r.lat Latches.ofImage,
    ofe := at_ 0x3400 8704 r.ofe fun v => Vector.ofFn fun i => BitVec.ofNat 4096 (field v (4096 * i.val) 4096),
    bp := at_ 0x3400 8704 r.bp fun v => BitVec.ofNat 4096 (field v 65536 4096),
    -- the elements of a write stream that have drained since the save stood before the queue's
    streams := Vector.ofFn fun i =>
      let q := r.streams.get i
      let gone := if q.mode = 2 then at_ (0xA00 + 8 * (57 + i.val)) 8 0 fun v => q.scount - v else 0
      { q with queue := ((List.range q.queue.length).zip q.queue).map fun (x : Nat × StreamElem) =>
          if x.2.fault.isSome then x.2 else
          { x.2 with data := at_ (queueImageAt i.val + 512 * (gone + x.1)) 512 x.2.data (BitVec.ofNat 4096) } } }
/-- The control state as the area gives it. -/
def Ctl.ofArea (x : Ctl) (id : Ident) (rd : Nat → Nat → Option Nat) : Ctl :=
  let tg := match rd 0x200 64 with
    | none => x.tg
    | some v => Vector.ofFn fun i =>
        let y := targetOf (wd (field v (64 * i.val) 64))
        { valid := y.2, addr := y.1, outRange := !id.codeOk y.1 }
  match rd 0x240 320 with
  | none => { x with tg := tg }
  | some v =>
    let l := wordsIn v 37
    { x with tg := tg, lv := levelsOf x.lv l, depth := min 6 (bits (nth l 36) 0 3), floor := min 6 (bits (nth l 36) 4 3) }
/-- The trap registers as the area gives them. -/
def TrapState.ofArea (t : TrapState) (id : Ident) (rd : Nat → Nat → Option Nat) : TrapState :=
  let sh := t.shadow
  let t := match rd 0xE00 768 with
    | none => t
    | some v =>
      let l := wordsIn v 96
      let n := sh.lidx.length
      { t with estatus := nth l 0, ecause := nth l 1, epc := canon57 (nth l 2), evaddr := nth l 3, eslot := nth l 4, eeng := nth l 5,
               handler := canon57 (nth l 6),
               shadow := { sh with depth := min 6 (nth l 7).toNat, floor := min 6 (nth l 8).toNat, mfloor := (nth l 9).toNat,
                                   lidx := ((l.drop 10).take n).map BitVec.toNat, lrotc := (l.drop (10 + n)).take sh.lrotc.length,
                                   tgs := ((l.drop (10 + n + sh.lrotc.length)).take sh.tgs.length).map fun w =>
                                     ((targetOf w).1, (targetOf w).2, !id.codeOk (targetOf w).1) } }
  { t with shadow := { t.shadow with lat := ((rd 0x2240 4160).map Latches.ofImage).getD sh.lat },
           intrap := ((rd 0x3C0 64).map (Nat.testBit · 16)).getD t.intrap,
           held := match rd 0x1100 256 with
             | none => t.held
             | some v => ((List.range t.held.length).zip t.held).map fun (x : Nat × Trap) => x.2.ofImage (field v (256 * x.1) 256) }
/-- The matrix unit's state and the nest as the area gives them: a nest whose image fits its place. -/
def MatState.ofArea (m : MatState) (rd : Nat → Nat → Option Nat) : MatState :=
  match rd 0x5600 2560 with
  | none => m
  | some v =>
    let l := wordsIn v 320
    let m := { m with lambda := (nth l 0).setWidth 32, live := if bit (nth l 1) 0 then some (nth l 3 ++ nth l 2) else none }
    if 320 < m.words.length then m else
    let n := m.nest
    let a := 41 + n.views.length
    let b := a + 2 * n.sregs.length
    let c := b + n.bls.length + 1
    let d := c + 2 * n.program.length
    { m with nest := { n with
      running := bit (nth l 4) 0, lv := levelsOf n.lv (l.drop 5), views := (l.drop 41).take n.views.length,
      sregs := (List.range n.sregs.length).map fun i => ((nth l (a + 2 * i)).toNat, nth l (a + 2 * i + 1)),
      bls := (l.drop b).take n.bls.length, cycle := nth l (b + n.bls.length),
      program := ((List.range n.program.length).zip n.program).map fun (x : Nat × Nat × Bundle) =>
        (x.2.1, nth l (c + 2 * x.1 + 1) ++ nth l (c + 2 * x.1)),
      first := (nth l d).toNat, last := (nth l (d + 1)).toNat, depth := (nth l (d + 2)).toNat, pos := nth l (d + 3) } }
/-- The system registers as the area gives them; a tile that an engine has touched since stays touched. -/
def SysRegs.ofArea (x : SysRegs) (rd : Nat → Nat → Option Nat) : SysRegs :=
  { x with mirtab := ((rd 0x380 64).map fun v => fillVec x.mirtab 0 (wordsIn v 8)).getD x.mirtab,
           bankrole := ((rd 0xA00 8).map wd).getD x.bankrole, own := ((rd 0xA08 64).map fun v => fillVec x.own 0 (wordsIn v 8)).getD x.own,
           touched := x.touched ||| ((rd 0xDC0 64).map (BitVec.ofNat 512)).getD x.touched }
/-- A restored frame: what the area's bytes give; the bundle's address, barriers, events, holds, waits, due traps and the streams' counts stand
as the saved context has them with what the distributor has applied since (R264, R275, R409, log 40). A piece that cannot be read stands as it was
saved. -/
def Frame.ofArea (f : Frame) (rd : Nat → Nat → Option Nat) : Frame :=
  { f with r := f.r.ofArea rd, ctl := f.ctl.ofArea f.id rd, tr := f.tr.ofArea f.id rd, mat := f.mat.ofArea rd, sys := f.sys.ofArea rd,
           id := { f.id with stepn := ((rd (0xA00 + 8 * 74) 8).map (BitVec.ofNat 32)).getD f.id.stepn } }
/-- The snapshot buffer from the area. -/
def bufferOf (l : List Result) (rd : Nat → Nat → Option Nat) : List Result :=
  ((List.range l.length).zip l).map fun (x : Nat × Result) => ((rd (0x6000 + 592 * x.1) 592).map x.2.ofEntry).getD x.2

/-! ## Pre-emption (R275, R296, R408, R409) -/

/-- A task stops at its boundary: nothing more issues, and results in flight enter the snapshot buffer with the cycles they have
left (R266, R296, R410). A task that stands so already keeps its buffer. -/
def State.park (s : State) (t : Task) (c : CoreId) (k : Fin 4) : State :=
  let s := s.updFrameAt c k fun f => { f with ctl := { f.ctl with stopped := true } }
  if t.saved.isSome then s else
  let n := if (s.core c).issuedAt = some (s.cyc c) ∨ (s.core c).nestAt = some (s.cyc c) then s.cyc c + 1 else s.cyc c
  let l := sortResults (s.frameAt c k).infl
  let s := s.updFrameAt c k fun f => { f with infl := [] }
  let s := (l.filter fun r => decide (r.due < n)).foldl (fun (s : State) r => s.complete c k r) s
  let left := (l.filter fun r => decide (n ≤ r.due)).map fun r => { r with due := r.due - n + 1 }
  s.updTask t.tid fun t => { t with saved := some { frame := { infl := left } } }

/-- Results of the snapshot buffer as they stand from a cycle on, before any new one (R410). -/
def replay (r : Nat) (l : List Result) : List Result :=
  ((List.range l.length).zip l).map fun (x : Nat × Result) => { x.2 with seq := x.1, due := r + x.2.due - 1 }

/-- A stopped task issues again from the next cycle, in which its buffer begins to replay (R275, R401, R410). -/
def State.unpark (s : State) (t : Task) (c : CoreId) (k : Fin 4) : State :=
  match t.saved with
  | none => s.updFrameAt c k fun f => { f with ctl := { f.ctl with stopped := false } }
  | some v =>
    let r := s.cyc c + 1
    (s.updFrameAt c k fun f =>
      { f with infl := replay r v.frame.infl, ctl := { f.ctl with stopped := false, notBefore := r, replay := true } }).updTask t.tid
      fun t => { t with saved := none }

/-- A pre-emption (R296, R402, R408): the task stops, its pins go, what it has written is performed at package scope, an invalidation that it waits
for is left to begin again (R417), and the save follows once the rest has completed. -/
def State.beginSave (s : State) (t : Task) (c : CoreId) (k : Fin 4) (reason : Nat) : State :=
  let s := (((s.park t c k).dropPins c k).updCore c fun x => x.unpin k).updFrameAt c k fun f =>
    { f with ctl := { f.ctl with inval := none, draining := none }, msg := { f.msg with waitFrom := none, gateWait := false } }
  let s := s.releaseFor c k 3
  let s := s.updTask t.tid fun t => { t with preempt := some reason, holdsCut := false,
                                             saved := t.saved.map fun v => { v with reason := reason } }
  s.postLater 1 .contextSave { tid := t.tid, c := c, k := k, u := reason }

/-- The members of a gang that have not completed. -/
def State.gangTasks (s : State) (g : Gang) : List Task := g.members.filterMap s.task
/-- STEPN of a task. -/
def State.stepOf (s : State) (t : Task) : Nat := ((s.frameOf t.tid).map (·.id.stepn.toNat)).getD 0
/-- Whether a task's HALT has issued, or it is being ended. -/
def State.haltIssued (s : State) (t : Task) : Bool :=
  match t.place with
  | some (c, k) => (s.frameAt c k).ctl.halted
  | none => false
/-- A gang changed. -/
def State.updGang (s : State) (h : BitVec 16) (f : Gang → Gang) : State :=
  { s with gangs := updWhere (fun (g : Gang) => g.gid == h) f s.gangs }
/-- Whether a member holds at its cut point: it holds there or at the gang's start, has no core, or has issued HALT (R401, R408). -/
def State.cutHolds (s : State) (g : Gang) (t : Task) : Bool :=
  !g.started || t.holdsCut || t.place.isNone || s.haltIssued t
/-- A member whose restore is under way gives its place up; its save area stands (R401, R411). -/
def State.unplace (s : State) (t : Task) (c : CoreId) (k : Fin 4) : State :=
  ((s.updTask t.tid fun t => { t with st := .saved, place := none, restoring := false }).vacate c k).markReady t.tid
/-- The cut is made: every member that has a core and no HALT is saved (R401, R402). -/
def State.saveGang (s : State) (g : Gang) (aligned : Bool) (reason : Nat) : State :=
  let s := { s with bel := { s.bel with cuts := s.bel.cuts + 1, unal := if aligned then s.bel.unal else s.bel.unal + 1 } }
  let s := s.updGang g.gid fun g => { g with cutAt := none, saved := true, started := false }
  ((s.gangTasks g).foldl (fun (s : State) t =>
    let s := s.updTask t.tid fun t => { t with stepHold := none, holdsCut := false, unaligned := t.unaligned || !aligned }
    match t.place with
    | some (c, k) =>
      if s.haltIssued t || t.preempt.isSome then s
      else if t.restoring then s.unplace t c k
      else s.beginSave t c k reason
    | none => s) s).pokePlace
/-- Once every member holds: equal step counts make an aligned cut, else the lower members run on (R401); those of a gang that has
not started wait for the grace to end. -/
def State.settleCut (s : State) (h : BitVec 16) : State :=
  match s.gangs.find? (·.gid == h) with
  | none => s
  | some g =>
    let ms := s.gangTasks g
    if g.cutAt.isNone || !ms.all (s.cutHolds g) then s else
    let steps := (ms.filter fun t => !s.haltIssued t).map s.stepOf
    let top := steps.foldl max 0
    if steps.all (· == top) then s.saveGang g true 5 else
    if !g.started then s else
    let s := s.updGang h fun g => { g with target := BitVec.ofNat 32 top }
    ms.foldl (fun (s : State) t =>
      let lower := decide (s.stepOf t < top)
      let s := s.updTask t.tid fun t => { t with stepHold := some (BitVec.ofNat 32 top), holdsCut := t.holdsCut && !lower }
      match t.place with
      | some (c, k) => if lower && t.holdsCut then s.unpark t c k else s
      | none => s) s
/-- A member stops at its cut point, in place: the stop is a pre-emption for all that is in flight (R266, R401). -/
def State.holdAtCut (s : State) (t : Task) (c : CoreId) (k : Fin 4) : State :=
  let s := (s.park t c k).updTask t.tid fun t => { t with holdsCut := true }
  match t.gang with
  | some g => s.settleCut g
  | none => s

/-- PREEMPT_TASK (R407, R408): a resident task whose HALT has not issued is saved for a reason; `u` 0 stops a gang member at
its cut point. A task without a core, or already on its way, is left alone. -/
def execPreemptTask (s : State) : Out :=
  match s.task s.arg.tid with
  | none => .next s
  | some t => match t.place with
    | none => .next s
    | some (c, k) =>
      if s.haltIssued t || t.preempt.isSome || t.restoring then .next s
      else if s.arg.u = 0 then .next (s.holdAtCut t c k)
      else .next (s.beginSave t c k s.arg.u)

/-! ## Saving and restoring (R305, R316, R409-R412) -/

/-- The cells of a physical range, by offset. -/
def State.cellsAt (s : State) (pa n : Nat) : List Host.Cell :=
  (s.mem.filter fun (x : Host.Cell) => decide (pa ≤ x.1) && decide (x.1 < pa + n)).map fun (x : Host.Cell) => (x.1 - pa, x.2)
/-- Cells put back at a physical range, whose other bytes read zero. -/
def State.putCells (s : State) (pa n : Nat) (l : List Host.Cell) : State :=
  { s with mem := l.foldl (fun (m : List Host.Cell) (x : Host.Cell) => if x.1 < n then Memory.write m (pa + x.1) 1 x.2.toNat else m)
                    (dropRange s.mem pa n) }
/-- A range of a save area put back at a physical range, with its poison; what cannot be read stands as it was saved. -/
def State.putRange (s : State) (t : Task) (ctxsave : Word) (off pa n : Nat) (kept : List Host.Cell) : State :=
  match s.areaRange t ctxsave off n with
  | none => s.putCells pa n kept
  | some (v, bad) =>
    bad.foldl (fun s b => s.addPoison (pa + b.1) 64 b.2) { s with mem := Memory.write (dropRange s.mem pa n) pa n v }
/-- The ranges that a save covers: a key, the physical address, the length. -/
def State.savedRanges (_ : State) (c : CoreId) (f : Frame) : List (Nat × Nat × Nat) :=
  [(0, winBase c + f.id.base * 512, f.id.foot * 512)]
    ++ ((List.range 512).filter fun t => f.sys.touched.getLsbD t).map (fun t => (1 + t, lsBase c + 4096 * t, 4096))
    ++ (List.range f.id.lent.length).map fun i => (513 + i, winBase (f.id.lent.getD i 0), lentSize)
/-- Poisoned granules of ranges: key, offset, source. -/
def State.marksOf (s : State) (l : List (Nat × Nat × Nat)) : List (Nat × Nat × Nat) :=
  l.flatMap fun r => (s.poison.filter fun x => decide (r.2.1 ≤ x.1) && decide (x.1 < r.2.1 + r.2.2)).map fun x => (r.1, x.1 - r.2.1, x.2)

/-- What must complete before a save begins (R409); while the whole package is saved it also waits for the task's engine commands (R458, R461). -/
def State.saveWaits (s : State) (c : CoreId) (k : Fin 4) (tid : BitVec 32) : Bool :=
  let f := s.frameAt c k
  !f.loads.isEmpty || s.accessLeft c k || s.matrixLeft c k || f.mat.nest.ended
    || s.tree.cmds.any (fun q => q.tid == tid && (q.words == 0 || !q.spans.isEmpty))
    || (s.pw.reason != 0 && (everyCore.any (fun d => (s.core d).cu.toList.any fun l => l.any (·.task == tid))
          || s.tree.cmds.any (·.tid == tid) || s.disps.any (·.tid == tid)))

/-- The bytes of the save area, STAMP last (R411). -/
def State.writeArea (s : State) (t : Task) (c : CoreId) (f : Frame) (reason : Nat) : State :=
  let ranges := s.savedRanges c f
  let tiles := ((List.range 512).filter fun i => f.sys.touched.getLsbD i).length
  let tileOff := tilesAt f.id.foot
  let put (s : State) (p : Nat × Nat × Nat) : State := (s.areaWrite t f.sys.ctxsave p.1 p.2.1 p.2.2).getD s
  let s := (f.image ++ [(0, 64, headerImage t f tiles f.id.lent.length reason)]).foldl put s
  let (s, _) := ranges.foldl (fun (acc : State × Nat) r =>
    let off := if r.1 = 0 then 0x30800 else acc.2
    (put acc.1 (off, r.2.2, acc.1.homeRead r.2.1 r.2.2), if r.1 = 0 then tileOff else off + r.2.2)) (s, 0x30800)
  put s (0x38, 4, t.tid.toNat)

/-- CONTEXT_SAVE (R305, R316, R409-R412): the frame, footprint, touched tiles and lent windows go to the save area; the slot
is given up; the task is SAVED, and READY unless it waits on a handle, whatever it was pre-empted for (R287). -/
def execContextSave (s : State) : Out :=
  let c := s.arg.c
  let k := s.arg.k
  match s.task s.arg.tid with
  | none => .next s
  | some t =>
    let f := s.frameAt c k
    if t.place ≠ some (c, k) ∨ t.preempt.isNone ∨ f.ctl.ended then .next s
    else if s.saveWaits c k t.tid then .next (s.post 1 .contextSave s.arg)
    else
      let reason := t.preempt.getD s.arg.u
      let f := { f with infl := (t.saved.map (·.frame.infl)).getD [] }
      let ranges := s.savedRanges c f
      let lents := ranges.filter fun r => decide (513 ≤ r.1)
      let tiles := ranges.filter fun r => decide (1 ≤ r.1) && decide (r.1 < 513)
      let v : Saved := { frame := f, foot := s.cellsAt (winBase c + f.id.base * 512) (f.id.foot * 512),
                         tiles := tiles.map fun r => (r.1 - 1, s.cellsAt r.2.1 4096),
                         lents := lents.map fun r => s.cellsAt r.2.1 lentSize, marks := s.marksOf ranges, reason := reason,
                         by_ := s.releasesOf (coreWriter c) }
      let s := s.writeArea t c f reason
      let s := s.updTask t.tid fun t => { t with st := .saved, place := none, saved := some v, preempt := none, kept := true }
      let s := s.vacate c k
      let s := if s.waitsOver f.msg then s.markReady t.tid else s
      .next s

/-- The restored frame in its slot: the core sees what the task wrote on the old one, and the area's STAMP is zeroed (R402, R411). -/
def State.takeArea (s : State) (t : Task) (c : CoreId) (k : Fin 4) (v : Saved) (f : Frame) : State :=
  let n := tilesAt f.id.foot + 4096 * v.tiles.length + lentSize * v.lents.length
  let s := (((s.areaTaken t f.sys.ctxsave n).updFrameAt c k fun _ => f).hear (coreWriter c) [v.by_]).acquire c 3
  (s.areaWrite t f.sys.ctxsave 0x38 4 0).getD s

/-- CONTEXT_RESTORE (R267, R305, R402, R410-R412, R458): the area's bytes stand in the frame, the footprint, the tiles and the lent windows of the
new core, which sees what the task wrote on the old one; STAMP is zeroed; the snapshot buffer replays from the first cycle in which a bundle may issue (until then the task keeps it), code is fetched again. -/
def execContextRestore (s : State) : Out :=
  let c := s.arg.c
  let k := s.arg.k
  match s.task s.arg.tid with
  | none => .next s
  | some t => match t.saved with
    | none => .next s
    | some v =>
      let f := s.frameAt c k
      if t.place ≠ some (c, k) ∨ !t.restoring then .next s
      else if f.id.lent.any fun d => (s.core d).zeroing then .next (s.post 1 .contextRestore s.arg)
      else
        let ctx := f.sys.ctxsave
        let rd (off n : Nat) : Option Nat := s.areaRead t ctx off n
        let f := f.ofArea rd
        let buffer := bufferOf v.frame.infl rd
        let tileOff := tilesAt f.id.foot
        let lentOff := tileOff + 4096 * v.tiles.length
        let s := s.takeArea t c k v f
        let ranges := s.savedRanges c f
        let pa (key : Nat) : Nat := ((ranges.find? (·.1 == key)).map (·.2.1)).getD 0
        let s := s.putRange t ctx 0x30800 (pa 0) (f.id.foot * 512) v.foot
        let s := ((List.range v.tiles.length).zip v.tiles).foldl (fun (s : State) x =>
          s.putRange t ctx (tileOff + 4096 * x.1) (lsBase c + 4096 * x.2.1) 4096 x.2.2) s
        let s := ((List.range v.lents.length).zip v.lents).foldl (fun (s : State) x =>
          s.putRange t ctx (lentOff + lentSize * x.1) (pa (513 + x.1)) lentSize x.2) s
        let s := { s with poison := s.poison ++ v.marks.map fun (m : Nat × Nat × Nat) => (pa m.1 + m.2.1, m.2.2) }
        let r := s.cyc c + 1
        let held := t.gang.isSome && !(((s.gangs.find? fun (g : Gang) => t.gang == some g.gid).map Gang.started).getD true)
        -- a member restored while its gang is cut may stand at its cut point already (R266, R401)
        let reached := t.stepHold.any fun h => decide (h.toNat ≤ f.id.stepn.toNat)
        let waits := held || reached
        let s := s.updFrameAt c k fun f =>
          { f with infl := if waits then [] else replay r buffer,
                   ctl := { f.ctl with
                     stopped := waits, notBefore := r, replay := true, fetched := [], refetch := false, heldFor := 0, swHeld := 0, bankHold := 0,
                     loopWait := none, waitEv := f.ctl.waitEv && f.msg.evq.isEmpty && f.msg.spill.isEmpty,
                     tg := f.ctl.tg.map fun (x : Target) => if x.valid then { x with filled := false, code := [] } else x,
                     lv := f.ctl.lv.map fun (x : Level) => { x with filled := false, buf := [] } } }
        let s := s.updTask t.tid fun t =>
          { t with saved := if waits then some { frame := { infl := buffer } } else none, restoring := false }
        let f := s.frameAt c k
        let s := (List.range 8).foldl (fun (s : State) i =>
          let x := f.ctl.tg.toList.getD i {}
          if x.valid then s.postFree c 1 .prepFetchComplete (f.fetchArg k i x.addr) else s) s
        let s := (List.range 6).foldl (fun (s : State) i =>
          let x := f.ctl.lv.toList.getD i {}
          if x.isOpen then s.postFree c 1 .loopBufferFill (f.fetchArg k i (x.lstart - 16)) else s) s
        let s := if f.mat.nest.running && f.mat.nest.ended then s.postCore c (s.cyc c) .nestEnd { k := k } else s
        let s := if reached && !held then s.holdAtCut ((s.task t.tid).getD t) c k else s
        .next (match t.gang with
          | some g => s.gangSettle.tryGang g
          | none => s)

/-! ## Gangs (R306-R308, R311, R400-R402) -/

/-- Every member may issue; a barrier that came to its end while the gang stood still completes (R306, R307). -/
def State.releaseGang (s : State) (g : Gang) : State :=
  let s := (s.gangTasks g).foldl (fun (s : State) t => match t.place with
    | some (c, k) => s.unpark t c k
    | none => s) s
  (s.updGang g.gid fun g => { g with started := true, saved := false, startAt := s.time }).gangSettle
/-- The cycle that each core is in, by its number: a period is measured on the core on which a member arrives (R311, log 78). -/
def State.coreCycles (s : State) : List (Nat × Nat) := everyCore.map fun c => (c.val, s.cyc c)

/-- GANG_START (R306): no member issues before every member is placed; the first period is measured from here, which no completion opens
(R311, log 78). -/
def execGangStart (s : State) : Out :=
  match s.gangs.find? (·.gid == s.arg.h) with
  | none => .next s
  | some g =>
    if g.started || g.cutAt.isSome || !s.gangPlaced g then .next s else
    .next ((s.releaseGang g).updGang g.gid fun x => { x with opened := s.coreCycles })

/-- GANG_RESUME (R402): a gang that was cut resumes as a whole. -/
def execGangResume (s : State) : Out :=
  match s.gangs.find? (·.gid == s.arg.h) with
  | none => .next s
  | some g => if g.started || g.cutAt.isSome || !s.gangPlaced g then .next s else .next (s.releaseGang g)

/-- The larger of two fractions. -/
def maxFrac (a b : Nat × Nat) : Nat × Nat := if a.1 * b.2 < b.1 * a.2 then b else a
/-- est_k of R311 as an exact fraction: t_i s_k,i / s_c,i at its largest. -/
def estimate (sched : List (List Nat)) (cur k : Nat) (t : List (Nat × Nat)) : Nat × Nat :=
  let share (r i : Nat) : Nat := (sched.getD r []).getD i 1
  t.foldl (fun (m : Nat × Nat) x => maxFrac m (x.2 * share k x.1, share cur x.1)) (0, 1)
/-- The schedule that R311 selects. -/
def selectSchedule (sched : List (List Nat)) (cur : Nat) (t : List (Nat × Nat)) : Nat :=
  let best := (List.range sched.length).foldl (fun (b : Nat) k =>
    let x := estimate sched cur k t
    let y := estimate sched cur b t
    if x.1 * y.2 < y.1 * x.2 then k else b) 0
  let x := estimate sched cur best t
  let y := estimate sched cur cur t
  if 16 * x.1 * y.2 < 15 * y.1 * x.2 then best else cur

/-- SCHEDULE_SELECT (R311): the index is written, and a new period opens. -/
def execScheduleSelect (s : State) : Out :=
  match s.gangs.find? (·.gid == s.arg.h) with
  | none => .next s
  | some g =>
    let c := selectSchedule g.sched g.cur g.arrivals
    let s := (s.belfryWrite g.q g.schword 8 c).getD s
    .next (s.updGang g.gid fun x => { x with cur := c, arrivals := [], opened := s.coreCycles })

/-- TRANSFER_WINDOW_OPEN (R308). -/
def execTransferWindowOpen (s : State) : Out :=
  .next (s.updGang s.arg.h fun g => { g with openWin := if g.openWin.contains s.arg.n then g.openWin else g.openWin ++ [s.arg.n] })

/-- Whether a command moves bytes between dies. -/
def State.crossDie (s : State) (c : CoreId) (q : CopyCmd) : Bool :=
  let f := (s.taskFrame c q.slot q.task).under q.root q.asid
  (s.reach c f q).any (fun x => dieOfPa x != dieOf c) || q.targets.any fun x => dieOf x.1 != dieOf c
/-- The cross-die commands of a task, on whichever core they run. -/
def State.crossDieOf (s : State) (tid : BitVec 32) : List CopyCmd :=
  everyCore.flatMap fun c => ((s.core c).cu.toList.flatMap id).filter fun q => q.task == tid && s.crossDie c q

/-- TRANSFER_WINDOW_CLOSE (R308, R403): commands still running across dies are counted. -/
def execTransferWindowClose (s : State) : Out :=
  match s.gangs.find? (·.gid == s.arg.h) with
  | none => .next s
  | some g =>
    let n := ((s.crossDieOf (g.members.getD s.arg.n 0)).filter (·.started)).length
    let s := s.updGang g.gid fun g => { g with openWin := g.openWin.filter (· != s.arg.n) }
    .next { s with bel := { s.bel with gangov := s.bel.gangov + wd n } }

/-- GANG_CUT (R266, R401): the target goes to every member; those that have reached it hold at once. With `u` 1 the distributor looks
again, each tick, whether every member of the cut that began at `n` holds. -/
def execGangCut (s : State) : Out :=
  match s.gangs.find? (·.gid == s.arg.h) with
  | none => .next s
  | some g =>
    if s.arg.u = 1 then
      if g.cutAt = some s.arg.n then .next ((s.settleCut g.gid).post 1 .gangCut s.arg) else .next s
    else
    let ms := s.gangTasks g
    if g.cutAt.isSome || !ms.any (·.place.isSome) then .next s else
    let top := (ms.map s.stepOf).foldl max 0 + 1
    let lim := (ms.map fun t => ((s.frameOf t.tid).map (·.id.steps.toNat)).getD (headerField t.header 0x18 4)).foldl min (2 ^ 32 - 1)
    let target := min top lim
    let now := s.time
    let s := s.updGang g.gid fun g => { g with cutAt := some now, target := BitVec.ofNat 32 target }
    let s := ms.foldl (fun (s : State) t => s.updTask t.tid fun t => { t with stepHold := some (BitVec.ofNat 32 target) }) s
    let s := ms.foldl (fun (s : State) t => match t.place with
      | some (c, k) => if g.started && decide (target ≤ s.stepOf t) && !s.haltIssued t && !t.restoring && t.preempt.isNone then s.holdAtCut t c k else s
      | none => s) s
    .next ((s.post 1 .gangCut { h := g.gid, n := now, u := 1 }).post (ticksOfUs (bits s.bel.dpar1 32 16)) .gangGraceExpiry { h := g.gid, n := now })

/-- GANG_GRACE_EXPIRY (R401, R402): stragglers stop at their next boundary, cross-die copies drain, and the cut is unaligned. -/
def execGangGraceExpiry (s : State) : Out :=
  match s.gangs.find? (·.gid == s.arg.h) with
  | none => .next s
  | some g =>
    if g.cutAt ≠ some s.arg.n then .next s else
    let ms := s.gangTasks g
    let s := ms.foldl (fun (s : State) t => match t.place with
      | some (c, k) => if s.haltIssued t || t.restoring then s else s.park ((s.task t.tid).getD t) c k
      | none => s) s
    if ms.any fun t => !(s.crossDieOf t.tid).isEmpty then .next (s.post 1 .gangGraceExpiry s.arg)
    else .next (s.saveGang g false 5)

/-- GSLICE_EXPIRY (R401): a gang that has run for GSLICE is cut while a gang of equal priority waits for cores. -/
def execGsliceExpiry (s : State) : Out :=
  match s.gangs.find? (·.gid == s.arg.h) with
  | none => .next s
  | some g =>
    let waits := s.tasks.any fun t => t.st == .ready && t.gang.isSome && t.gang != some g.gid
      && g.members.any fun m => ((s.task m).map fun x => s.basePrio x == s.basePrio t).getD false
    if g.started ∧ g.startAt = s.arg.n ∧ waits then .next (s.post 0 .gangCut { h := g.gid }) else .next s

end Sys2Proof.Machine
end

