-- ==== Sys2Proof/Machine/Matrix.lean ====
section
/-! DEFINITION. The matrix unit, tile fetch and nests (R87-R95, R177, R178, R201-R227, R278, R279, R420). -/

namespace Sys2Proof.Machine

open Sys2Proof

/-! ## Operands and the waiting place (R201-R205) -/

/-- What every M slot waits for: a free waiting place (R203), and in the sequencer the end of a running nest (R223). -/
def mWaits (c : SlotCtx) (s0 : State) : Bool := s0.here.mwait.isSome || (c.nest.isNone && s0.fr.mat.nest.running)

/-- A view operand whose SHAPE and ETYPE the entry allows (R202). -/
def mElem (s0 : State) (o : Opd) (ok : Nat → Nat → Bool) : Except Stop Elem :=
  match o with
  | .view v i => do
    let e ← getElem s0 v i
    let _ ← require (ok e.shape e.etype) Cause.illegalInstruction
    .ok e
  | _ => trapOf Cause.illegalInstruction

/-- The physical span of an element. -/
def State.elemSpan (s : State) (e : Elem) : Span := { pa := s.elemPa e, len := e.len }

/-- Whether two spans meet. -/
def Span.meets (a b : Span) : Bool := Machine.meets a.pa a.len b.pa b.len

/-- Whether the running operation is an MMA into this accumulator, which forwards it (R203). -/
def State.forwards (s : State) (d : Option Span) : Bool :=
  match s.here.mrun with
  | some o => (match o.kind with
    | .mma _ _ => true
    | _ => false) && d == some o.dst
  | none => false

/-- An operation takes the waiting place; an idle unit starts it in the same cycle (R203). -/
def State.sendMatrix (w : State) (c : SlotCtx) (o : MOp) : State :=
  let cycle := w.cyc w.cur
  let idle := w.here.mrun.isNone
  let o := { o with slot := w.here.run, nestIx := c.nest, nestGen := w.fr.mat.nest.gen, opSlot := c.slot, at_ := cycle,
                    fwd := (o.kind matches .mma _ _) && w.forwards (some o.dst) }
  let w := w.updCore w.cur fun x => { x with mwait := some o }
  if idle then w.postCore w.cur cycle .matrixOpStart { n := cycle } else w

/-! ## MMA (R93-R95, R203, R207, R208) -/

/-- Element kinds of tiles: 0 e4m3, 1 e5m2, 2 bf16, 3 f16, 4 i8, 5 q4. -/
def tileKind (shape etype : Nat) : Option Nat :=
  match shape, etype with
  | 1, 8 => some 0
  | 1, 9 => some 1
  | 1, 5 => some 4
  | 2, 1 => some 2
  | 2, 2 => some 3
  | 4, 11 => some 5
  | _, _ => none

/-- The kinds of A and B by format (R207). -/
def mmaKinds (f : Nat) : Nat × Nat := [(0, 0), (1, 1), (0, 1), (4, 4), (2, 2), (3, 3), (0, 5), (5, 5)].getD f (0, 0)

/-- Occupancy of an MMA under MXDIV x1 (R203). -/
def mmaOcc (f : Nat) : Nat := if f = 7 then 32 else if f = 4 ∨ f = 5 then 256 else 64

/-- Modes: 0 acc, 1 ovw, 2 dec. -/
def mmaOp (mode : Nat) (f : BitVec 3) (d a b : BitVec 6) : Op where
  legal _ := okMma d a b && !(mode == 2 && f == 3)
  uses c s := useOf s (tOpd c 1 a) false false ++ useOf s (tOpd c 2 b) false false
    ++ (useOf s (mOpd c 0 d) true false).map fun u => { u with exempt := s.forwards (s.spanOf (mOpd c 0 d)) }
  matrix := true
  mx := 1
  sem c s0 w := do
    let (ka, kb) := mmaKinds f.toNat
    let cd ← mElem s0 (mOpd c 0 d) fun sh et => sh == 3 && et == (if f = 3 then 3 else 0)
    let ta ← mElem s0 (tOpd c 1 a) fun sh et => tileKind sh et == some ka
    let tb ← mElem s0 (tOpd c 2 b) fun sh et => tileKind sh et == some kb
    let dst := s0.elemSpan cd
    let pa := s0.elemSpan ta
    let pb := s0.elemSpan tb
    let _ ← require (!dst.meets pa && !dst.meets pb) Cause.illegalInstruction
    let _ ← holdWhile (mWaits c s0)
    .ok (w.sendMatrix c { kind := .mma mode f.toNat, dst := dst, a := pa, b := pb, lambda := s0.fr.mat.lambda,
                          live := s0.fr.mat.live, occ := mmaOcc f.toNat })

def opMmaAcc (f : BitVec 3) (d : BitVec 6) (a : BitVec 6) (b : BitVec 6) : Op := mmaOp 0 f d a b
def opMmaOvw (f : BitVec 3) (d : BitVec 6) (a : BitVec 6) (b : BitVec 6) : Op := mmaOp 1 f d a b
def opMmaDec (f : BitVec 3) (d : BitVec 6) (a : BitVec 6) (b : BitVec 6) : Op := mmaOp 2 f d a b

/-! ## Accumulator operations (R209-R213) -/

/-- MDECAY (R209). -/
def opMdecay (a : BitVec 6) : Op where
  legal _ := okMdecay a
  ofs := [tOpd {} 1 a]
  matrix := true
  sem c s0 w := do
    let (x, _, w) ← readV c s0 (tOpd c 1 a) 4 true ([], w)
    let _ ← holdWhile (mWaits c s0)
    .ok (w.updFr fun f => { f with mat := { f.mat with lambda := BitVec.ofNat 32 (lane x 32 0) } })

/-- MZERO (R210). -/
def opMzero (d : BitVec 6) : Op where
  legal _ := tileF d
  uses c s := useOf s (mOpd c 0 d) true false
  matrix := true
  sem c s0 w := do
    let e ← mElem s0 (mOpd c 0 d) fun sh et => sh == 3 && (et == 0 || et == 3)
    let _ ← holdWhile (mWaits c s0)
    .ok (w.sendMatrix c { kind := .mzero, dst := s0.elemSpan e, occ := 8 })

/-- The kind of the target of MCVT (R212). -/
def opMcvt (d : BitVec 6) (a : BitVec 6) (z : BitVec 1) (t : BitVec 2) : Op where
  legal _ := tileF d && tileF a
  uses c s := useOf s (tOpd c 1 a) false false ++ useOf s (mOpd c 0 d) true false
  matrix := true
  mx := 1
  sem c s0 w := do
    let cd ← mElem s0 (mOpd c 0 d) fun sh et => tileKind sh et == some t.toNat
    let ta ← mElem s0 (tOpd c 1 a) fun sh et => sh == 3 && et == 0
    let dst := s0.elemSpan cd
    let pa := s0.elemSpan ta
    let _ ← require (!dst.meets pa) Cause.illegalInstruction
    let _ ← holdWhile (mWaits c s0)
    .ok (w.sendMatrix c { kind := .mcvt t.toNat (z == 1), dst := dst, a := pa, occ := 16 })

/-- MTRN (R213). -/
def opMtrn (d : BitVec 6) (a : BitVec 6) : Op where
  legal _ := tileF d && tileF a
  uses c s := useOf s (tOpd c 1 a) false false ++ useOf s (mOpd c 0 d) true false
  matrix := true
  mx := 1
  sem c s0 w := do
    let cd ← mElem s0 (mOpd c 0 d) fun sh _ => sh == 1 || sh == 2 || sh == 3
    let ta ← mElem s0 (tOpd c 1 a) fun sh et => sh == cd.shape && et == cd.etype
    let dst := s0.elemSpan cd
    let pa := s0.elemSpan ta
    let _ ← require (dst == pa || !dst.meets pa) Cause.illegalInstruction
    let _ ← holdWhile (mWaits c s0)
    .ok (w.sendMatrix c { kind := .mtrn cd.shape, dst := dst, a := pa, occ := [0, 8, 16, 32].getD cd.shape 0 })

/-- A factor of MSCALE: a view is read while the unit works, anything else at issue (R205, R211). -/
def factorOf (c : SlotCtx) (s0 : State) (o : Opd) (x : Seen × State) : Except Stop (Span × Vec × Seen × State) :=
  match o with
  | .view _ _ => do
    let e ← mElem s0 o fun sh _ => sh == 0
    .ok (s0.elemSpan e, 0, x)
  | _ => do
    let (v, x) ← readV c s0 o 4 true x
    .ok ({}, v, x)

/-- MSCALE (R211). -/
def opMscale (d : BitVec 6) (a : BitVec 6) (b : BitVec 6) : Op where
  legal _ := tileF d && okFactor a && okFactor b
  ofs := [tOpd {} 1 a, tOpd {} 2 b]
  uses c s := useOf s (tOpd c 1 a) false false ++ useOf s (tOpd c 2 b) false false ++ useOf s (mOpd c 0 d) true false
  matrix := true
  mx := 1
  sem c s0 w := do
    let e ← mElem s0 (mOpd c 0 d) fun sh et => sh == 3 && et == 0
    let (pa, r, x) ← factorOf c s0 (tOpd c 1 a) ([], w)
    let (pb, q, _, w) ← factorOf c s0 (tOpd c 2 b) x
    let dst := s0.elemSpan e
    let _ ← require (!dst.meets pa && !dst.meets pb) Cause.illegalInstruction
    let _ ← holdWhile (mWaits c s0)
    .ok (w.sendMatrix c { kind := .mscale, dst := dst, a := pa, b := pb, rvec := r, cvec := q, live := s0.fr.mat.live, occ := 16 })

/-! ## Ragged records (R214, R215) -/

/-- Word i of a ragged record. -/
def ragWord (v : Vec) (i : Nat) : Nat := lane v 32 i

/-- Whether segments from word `i` on are in order, `prev` the end of the one before (R214). -/
def ragOk (v : Vec) (i prev : Nat) : Nat → Bool
  | 0 => true
  | n + 1 =>
    let w := ragWord v i
    let first := field w 0 7
    let span := field w 8 8
    let live := field w 16 8
    field w 24 8 == 0 && field w 7 1 == 0 && decide (1 ≤ span) && decide (span ≤ 128) && decide (live ≤ span)
      && decide (first + span ≤ 128) && decide (prev ≤ first) && ragOk v (i + 1) (first + span) n

/-- The live rows of a valid record (R214, R215). -/
def ragLive (v : Vec) : Option (BitVec 128) :=
  let g := field (ragWord v 0) 0 6
  if field (ragWord v 0) 6 26 = 0 ∧ 1 ≤ g ∧ g ≤ 32 ∧ ragOk v 1 0 g = true then
    some (BitVec.ofNat 128 (buildNat 1 (fun m =>
      if (List.range g).any fun i =>
          let w := ragWord v (i + 1)
          decide (field w 0 7 ≤ m) && decide (m < field w 0 7 + field w 16 8)
      then 1 else 0) 128))
  else none

/-- MRAG (R215). -/
def opMrag (a : BitVec 6) : Op where
  legal _ := okMrag a
  ofs := [tOpd {} 1 a]
  uses c s := useOf s (tOpd c 1 a) false true
  matrix := true
  sem c s0 w :=
    let bind (w : State) (l : Option (BitVec 128)) : Except Stop State := do
      let _ ← holdWhile (mWaits c s0)
      .ok (w.updFr fun f => { f with mat := { f.mat with live := l } })
    if a = 0x3D#6 then bind w none else do
      let (v, _, w) ← readV c s0 (tOpd c 1 a) 4 false ([], w)
      match ragLive v with
      | some l => bind w (some l)
      | none => trapOf Cause.raggedRecord

/-! ## Tile fetch and store (R216-R220) -/

/-- Bytes of a row by SHAPE (R216). -/
def rowSize (shape : Nat) : Nat := [0, 128, 256, 512, 64].getD shape 0

/-- Address of row ρ (R216). -/
def TileCmd.rowVa (t : TileCmd) (r : Nat) : Word := t.va + wd (t.pitch * r)

/-- The first address of a tile command (R216). -/
def tileBase (s0 : State) (base desc : Word) : Word :=
  let alv := bits desc 37 3
  let lidx := if h : 1 ≤ alv ∧ alv ≤ 6 then (s0.fr.ctl.lv.get ⟨alv - 1, by omega⟩).lidx else 0
  base + wd (64 * bits desc 40 24 * lidx)

/-- A tile command's checks of issue: descriptor, base, rows (R216). -/
def tileCmd (c : SlotCtx) (s0 : State) (store : Bool) (o : Opd) (base desc : Word) : Except Stop TileCmd := do
  let e ← mElem s0 o fun sh _ => decide (1 ≤ sh) && decide (sh ≤ 4)
  let pitch := bits desc 0 32
  let _ ← require (bits desc 37 3 != 7 && pitch % 64 == 0) Cause.illegalInstruction
  let _ ← require (!store || (decide (rowSize e.shape ≤ pitch) && bits desc 32 5 == 0)) Cause.illegalInstruction
  let va := tileBase s0 base desc
  let t : TileCmd := { slot := s0.here.run, store := store, elem := s0.elemSpan e, shape := e.shape, va := va, pitch := pitch,
                       tag := if !store ∧ bit desc 36 = true then some (bits desc 32 4) else none,
                       nestIx := c.nest, opSlot := c.slot }
  let _ ← if va.toNat % 64 = 0 then .ok () else trapAt Cause.address va.toNat
  match (List.range 128).find? fun r => !canonical (t.rowVa r) with
  | some r => trapAt Cause.address (t.rowVa r).toNat
  | none =>
    let parts := (List.range 128).flatMap fun r => s0.rangePhys s0.cur s0.fr (va57 (t.rowVa r)) (rowSize e.shape)
    .ok { t with tiles := dedup (lsTiles s0.cur parts), away := awayTiles s0.cur parts }

/-- A tile command enters the tile fetch unit under the space of the bundle that issues it; a fifth of its kind holds (R217, R219, R260). A store's
writes stand at its place in the program: a later release of the core separates them from what the core writes after it (R220). -/
def State.sendTile (w : State) (c : SlotCtx) (s0 : State) (t : TileCmd) : Except Stop State := do
  let _ ← holdWhile (decide (4 ≤ (s0.here.tiles.filter (·.store == t.store)).length) || mWaits c s0)
  let id := w.fresh
  let (by_, w) := w.engineIssue w.cur 2
  let w := if t.store then w.publish by_.w 0 else w
  let t := { t with id := id, by_ := by_, nestGen := w.fr.mat.nest.gen, root := s0.fr.sys.ptroot, asid := s0.fr.sys.asid }
  let w := (w.touchTiles w.cur w.here.run t.tiles).bump.updCore w.cur fun x => { x with tiles := x.tiles ++ [t] }
  .ok (w.postFree w.cur 1 (if t.store then .tileStorePerformed else .tileFetchLand) { k := w.here.run, id := id })

/-- MLDT (R216, R217). -/
def opMldt (d : BitVec 6) (a : BitVec 6) (b : BitVec 6) : Op where
  legal _ := okTss a d b
  sregs _ := [d, b]
  uses c s := useOf s (tOpd c 1 a) true false
  matrix := true
  memp := 1
  sem c s0 w := do
    let t ← tileCmd c s0 false (tOpd c 1 a) (← getS s0 d) (← getS s0 b)
    w.sendTile c s0 t

/-- MREL (R218). -/
def opMrel (t : BitVec 4) : Op where
  matrix := true
  sem c s0 w := do
    let _ ← holdWhile (mWaits c s0)
    .ok (w.updFr fun f => { f with mat := { f.mat with pins := f.mat.pins.filter fun p => p.1 != t.toNat } })

/-- MSTT (R216, R219). -/
def opMstt (d : BitVec 6) (a : BitVec 6) (b : BitVec 6) : Op where
  legal _ := okTss d a b
  sregs _ := [a, b]
  uses c s := useOf s (mOpd c 0 d) false false
  matrix := true
  memp := 1
  sem c s0 w := do
    let t ← tileCmd c s0 true (mOpd c 0 d) (← getS s0 a) (← getS s0 b)
    w.sendTile c s0 t

/-- MNWAIT (R225). -/
def mnwaitOp (n t : Bool) : Op where
  matrix := true
  sem _ s0 w := do
    let _ ← holdWhile (s0.here.mwait.isSome || (n && s0.fr.mat.nest.running)
      || (t && s0.here.tiles.any fun x => x.slot == s0.here.run))
    .ok w

def opMnwaitN : Op := mnwaitOp true false
def opMnwaitT : Op := mnwaitOp false true
def opMnwaitNt : Op := mnwaitOp true true

/-! ## Nests: the program and its checks (R177, R178, R221, R222) -/

/-- The operations that a nest's program may hold (R221): predicate, class, meaning. -/
def nestOp (i : Instr) : Option (BitVec 3 × Nat × Op) :=
  match i with
  | .mmaAcc p f d a b => some (p, 2, opMmaAcc f d a b)
  | .mmaOvw p f d a b => some (p, 2, opMmaOvw f d a b)
  | .mmaDec p f d a b => some (p, 2, opMmaDec f d a b)
  | .mdecay p a => some (p, 2, opMdecay a)
  | .mzero p d => some (p, 2, opMzero d)
  | .mcvt p d a z t => some (p, 2, opMcvt d a z t)
  | .mtrn p d a => some (p, 2, opMtrn d a)
  | .mldt p d a b => some (p, 2, opMldt d a b)
  | .mrel p t => some (p, 2, opMrel t)
  | .mstt p d a b => some (p, 2, opMstt d a b)
  | .mrag p a => some (p, 2, opMrag a)
  | .mscale p d a b => some (p, 2, opMscale d a b)
  | .cpy p d a b => some (p, 3, opCpy d a b)
  | .cpyw p d a b => some (p, 3, opCpyw d a b)
  | .cpym p d a b => some (p, 3, opCpym d a b)
  | _ => none

/-- The slots of a bundle that hold an operation. -/
def usedSlots (b : Bundle) : List (Fin 4) := allSlots.filter fun k => [0, 1, 2, 3, 5].contains (wordCls (slotWord b k))

/-- The instruction of a slot, when it has one. -/
def slotInstr (b : Bundle) (k : Fin 4) : Option Instr :=
  match decodeSlot (slotWord b k) with
  | .ok i => some i
  | .error _ => none

/-- The only operation of a bundle that holds nothing else but nops. -/
def soleInstr (b : Bundle) : Option Instr :=
  if (illegalSlot b).isSome || hasHeader b then none else
  match usedSlots b with
  | [k] => slotInstr b k
  | _ => none

/-- A bundle of a nest's program, as the nest sees it (R221, R223): skipped, a loop that is opened again, or operations. -/
inductive NestBundle where
  | skip (p : BitVec 3)
  | reopen (p : BitVec 3) (count : BitVec 6) (off : Nat)
  | ops (l : List SlotOp)

/-- The operations of a program bundle, none when it holds anything else (R221 step 5). -/
def nestOps (b : Bundle) (ix : Nat) : Option (List SlotOp) :=
  if (illegalSlot b).isSome || (hasHeader b && headerFormat b != 0 && headerFormat b != 2) then none else
  (usedSlots b).mapM fun k => do
    let i ← slotInstr b k
    let (p, cls, op) ← nestOp i
    let c : SlotCtx := { slotCtx b k with nest := some ix }
    if op.legal c then some { ctx := c, pred := p, cls := cls, op := op } else none

/-- A program bundle classified; `ix` is its place in the program. -/
def nestBundle (b : Bundle) (ix : Nat) : Option NestBundle :=
  match soleInstr b with
  | some (.mnest p _) => some (.skip p)
  | some (.loop p c o) => some (.reopen p c (immL {} o).toNat)
  | some (.loops p c _ o) => some (.reopen p c o.toNat)
  | _ => (nestOps b ix).map .ops

/-- Scalar registers and predicates that a program bundle names. -/
def NestBundle.names (x : NestBundle) : List (BitVec 6) × List (BitVec 3) :=
  match x with
  | .skip p => ([], [p])
  | .reopen p c _ => ([c], [p])
  | .ops l => (l.flatMap fun o => o.op.sregs o.ctx, l.map (·.pred))

/-- A bound level. -/
def levelOf (lv : Vector Level 6) (v : Nat) : Level := if h : v < 6 then lv.get ⟨v, h⟩ else {}

/-- The structure that R221 asks of a program, `lv` the loop levels, bound from `first` to `last - 1`. -/
def nestShapeOk (lv : Vector Level 6) (first last : Nat) (pc : Word) (prog : List (Nat × NestBundle)) : Bool :=
  let opens (w : Nat) : Option Nat := (List.range 6).find? fun v => first < v && v < last && (levelOf lv (v - 1)).lstart.toNat == w
  prog.all (fun x =>
    match x.2 with
    | .skip _ => x.1 == pc.toNat
    | .reopen _ _ off => match opens x.1 with
      | some v => (levelOf lv v).lstart.toNat == x.1 + 16 && (levelOf lv v).lstop.toNat == x.1 + 16 * off
      | none => false
    | .ops _ => x.1 != pc.toNat && (opens x.1).isNone)

/-- The program bundles in order, or the fault of fetching one (R143, R221). -/
def nestFetch (s : State) (w : State) : List Word → Except Stop (List (Nat × Bundle) × State)
  | [] => .ok ([], w)
  | a :: as =>
    match fetchAt s s.cur s.here.run a with
    | .error t => .error (.trap t)
    | .ok (b, x) => do
      let (l, w) ← nestFetch s (w.learnFetch s.cur x) as
      .ok ((a.toNat, b) :: l, w)

/-- The distinct registers S0-S47 that a program names; the second register of CPYW's pair, which no field names, is counted among them and
stands in the snapshot: the manual does not say whether it is (R221, log 52). -/
def nestRegs (l : List (BitVec 6)) : List Nat := (dedup (l.map (·.toNat))).filter (· < 48)

/-- The bound levels close, innermost first, and show NEST (R178). -/
def Frame.bindLevels (f : Frame) (first : Nat) : Frame :=
  let last := f.ctl.depth
  let f := f.closeDown first last
  { f with ctl := { f.ctl with lv := (List.range last).foldl (fun lv v =>
      if h : v < 6 then (if first ≤ v then lv.set v { lv.get ⟨v, h⟩ with nest := true } h else lv) else lv) f.ctl.lv } }

/-- The table's levels: bound ones as they stand with LIDX 0, the others only for LIDX and LROTC (R222). The manual gives the bound levels only;
that the others read as they stood at the binding is the model's choice (log 52). -/
def nestLevels (lv : Vector Level 6) (first last : Nat) : Vector Level 6 :=
  (List.range 6).foldl (fun l v =>
    if h : v < 6 then
      let x := l.get ⟨v, h⟩
      l.set v (if first ≤ v ∧ v < last then { x with lidx := 0 } else { x with isOpen := false, pipe := false }) h
    else l) lv

/-- MNEST (R177, R178, R221, R222). -/
def opMnest (l : BitVec 3) : Op where
  matrix := true
  sem c s0 w := do
    let f := s0.fr
    let first := l.toNat
    let last := f.ctl.depth
    let bound := (List.range last).filter (first ≤ ·)
    let _ ← require (decide (first < last) && decide (f.ctl.floor ≤ first) && bound.all fun v => (levelOf f.ctl.lv v).lidx == 0)
      Cause.loopNesting
    let _ ← holdWhile (mWaits c s0)
    let lo := (levelOf f.ctl.lv first).lstart
    let hi := (levelOf f.ctl.lv first).lstop
    let n := (hi.toNat - lo.toNat) / 16 + 1
    let _ ← require ((levelOf f.ctl.lv (last - 1)).lstart == f.ctl.pc && decide (n ≤ 32)) Cause.nestContent
    let (prog, w) ← nestFetch s0 w ((List.range n).map fun (i : Nat) => lo + wd (16 * i))
    match prog.mapM fun x => (nestBundle x.2 ((x.1 - lo.toNat) / 16)).map fun y => (x.1, y) with
    | none => trapOf Cause.nestContent
    | some shaped =>
      let pipe := bound.any fun v => (levelOf f.ctl.lv v).pipe
      let regs := nestRegs (shaped.flatMap fun x => x.2.names.1)
      let _ ← require (nestShapeOk f.ctl.lv first last f.ctl.pc shaped
        && (shaped.all fun x => x.2.names.2.all fun p => p == 0 || (pipe && decide (4 ≤ p.toNat)))
        && decide (regs.length ≤ 8)) Cause.nestContent
      let _ ← holdWhile (regs.any f.pendingS)
      let sregs ← regs.mapM fun r => do
        let x ← getS s0 (BitVec.ofNat 6 r)
        .ok (r, x)
      let nest : Nest :=
        { gen := w.fresh, running := true, first := first, last := last, depth := last, lv := nestLevels f.ctl.lv first last,
          lcnt0 := (List.range 6).foldl (fun a v => if h : v < 6 then a.set v (levelOf f.ctl.lv v).lcnt h else a) (Vector.replicate 6 0),
          program := prog, views := (f.r.vw.toList.drop 2), sregs := sregs, bls := f.r.lat.bs.toList,
          cycle := wd (s0.cyc s0.cur), pos := f.ctl.pc }
      let w := w.bump.updFr fun g =>
        let g := g.bindLevels first
        let r := g.backEdge hi 6
        { r.1 with mat := { r.1.mat with nest := nest },
                   ctl := { r.1.ctl with taken := some r.2.1, loopWait := if r.2.2.isSome then r.2.2 else r.1.ctl.loopWait } }
      .ok (w.updCore w.cur fun x => { x with nestAt := some (w.cyc w.cur) })

/-! ## The nest at work (R222-R224, R226) -/

/-- The table after the bundle at its position: back edges by R160 on the table's levels (R223). -/
def Nest.advance (n : Nest) : Nest :=
  let f : Frame := { ctl := { lv := n.lv, depth := n.depth, floor := n.first } }
  let r := f.backEdge n.pos 6
  { n with lv := r.1.ctl.lv, depth := r.1.ctl.depth, pos := r.2.1, ended := decide (r.1.ctl.depth ≤ n.first) }

/-- A level opened again at its loop's bundle (R223). -/
def Nest.reopen (n : Nest) : Nest :=
  if h : n.depth < 6 then
    if n.depth < n.last then
      { n with lv := n.lv.set n.depth { n.lv.get ⟨n.depth, h⟩ with lcnt := n.lcnt0.get ⟨n.depth, h⟩, lidx := 0, lrotc := 0, isOpen := true } h,
               depth := n.depth + 1 }
    else n
  else n

/-- P4-P7 inside a nest, from the innermost bound PIPE level (R222). -/
def Nest.preds (n : Nest) (p : BitVec 8) : BitVec 8 :=
  match ((List.range 6).filter fun v => n.first ≤ v && v < n.last && (levelOf n.lv v).pipe).getLast? with
  | none => p
  | some v => (p &&& 0x0F#8) ||| (BitVec.ofNat 8 (buildNat 1 (fun i => if (levelOf n.lv v).stageOn i then 1 else 0) 4) <<< 4)

/-- The frame in which a nest's bundle issues: the snapshot's registers, the table's views and levels (R222). BL4-BL11 are in no snapshot: that
they read as they stand when the nest's bundle issues is the model's choice (log 52). -/
def Frame.nestView (f : Frame) : Frame :=
  let n := f.mat.nest
  let s : Vector Word 48 := n.sregs.foldl (fun v x => if h : x.1 < 48 then v.set x.1 x.2 h else v) (Vector.replicate 48 0)
  let vw : Vector Word 8 := (List.range 6).foldl (fun v i => if h : i + 2 < 8 then v.set (i + 2) (nth n.views i) h else v) f.r.vw
  let bs : Vector Word 4 := (List.range 4).foldl (fun v i => if h : i < 4 then v.set i (nth n.bls i) h else v) f.r.lat.bs
  let lv : Vector Level 6 := (List.range 6).foldl (fun l v =>
    if h : v < 6 then l.set v { l.get ⟨v, h⟩ with pipe := false } h else l) n.lv
  { f with
    r := { f.r with s := s, sPoison := [], vw := vw, lat := { f.r.lat with bs := bs }, p := n.preds f.r.p },
    ctl := { f.ctl with pc := n.pos, lv := lv, depth := n.depth, floor := n.first, cycleAs := some n.cycle },
    loads := f.loads.filter (fun l => match l.dest with
      | .s _ => false
      | _ => true),
    atoms := [] }

/-- What a nest's bundle leaves behind: matrix state, streams, messages, touched tiles, traps. -/
def Frame.nestMerge (f g : Frame) (n : Nest) : Frame :=
  { f with r := { f.r with streams := g.r.streams }, mat := { g.mat with nest := n }, msg := g.msg, sys := g.sys, tr := g.tr }

/-- EENG of a fault of matrix work (R226). -/
def nestEeng (engine ix : Nat) (slot : Fin 4) (status : Nat) : Word :=
  wd (status * 2 ^ 32 + (ix * 4 + slot.val) % 65536 * 65536 + engine)

/-- The nest has no more to issue this cycle. -/
def State.nestDone (s : State) : State := s.updCore s.cur fun x => { x with nestAt := some (s.cyc s.cur) }

/-- A table that ended by count is closed by its own event. -/
def State.closeNest (s : State) : State :=
  if s.fr.mat.nest.ended then s.postCore s.cur (s.cyc s.cur) .nestEnd { k := s.here.run } else s

/-- The nest of a slot's task is abandoned, whichever it is. -/
def State.dropNest (s : State) (c : CoreId) (k : Fin 4) : State :=
  s.abandonNest c k (s.frameAt c k).id.task (s.frameAt c k).mat.nest.gen

/-- A fault of a nest's bundle at issue: an asynchronous trap, and the nest is abandoned (R226). -/
def State.nestFault (s : State) (t : Trap) (ix : Nat) (slot : Fin 4) : State :=
  (s.dropNest s.cur s.here.run).raiseAsync s.cur s.here.run { t with eeng := nestEeng 3 ix slot t.cause.toNat }

/-- A program bundle of operations is judged and issues whole, or holds (R203, R204, R223, R276, R284). -/
def State.nestIssue (s : State) (b : Bundle) (l : List SlotOp) : State :=
  let f := s.fr
  let v := s.updFr fun f => f.nestView
  let live := l.filter fun o => o.live v.fr
  let ix := match l with
    | o :: _ => o.ctx.nest.getD 0
    | [] => 0
  -- while a release or acquire of the task waits, nothing later issues (R111, R112)
  if operandsPending v live || f.ctl.orderFrom.isSome then s.nestDone else
  let r := runSlots v (judged v live) { w := v }
  if !r.holds.isEmpty then s.nestDone else
  let x := s.here.refillTo (s.cyc s.cur)
  let mx := drawSum live (·.mx)
  let memp := drawSum live (·.memp)
  let weight := bundleWeight f.id.ewtab (headerWeight b) (hasHeader b) (l.map (·.cls))
  if !x.covers mx 0 0 memp then s.nestDone
  else match r.trap with
  | some (.trap t, slot) => (s.nestFault t ix slot).nestDone
  | some (_, slot) => (s.nestFault { cause := Cause.illegalInstruction } ix slot).nestDone
  | none =>
    if !s.admits s.cur weight then s.countStall.nestDone
    else
      let w := r.w.updCore s.cur fun y => ((y.refillTo (s.cyc s.cur)).draw mx 0 0 memp).logWeight (s.cyc s.cur) weight
      ((w.updFr fun g => f.nestMerge g f.mat.nest.advance).refillStreams.issuedNow.nestDone).closeNest

/-- NEST_BUNDLE_ISSUE (R223, R378): the next program bundle of the running frame's nest; its own and its loops' bundles cost
no cycle. An operation that has met a quiesced stack holds until its place there is free; with `u` 1 that has come. -/
def execNestBundleIssue (s : State) : Out :=
  let n := s.fr.mat.nest
  if !n.running || n.ended then .next s else
  if s.arg.u = 1 ∧ !s.resumes .nestBundleIssue then .next s else
  if s.placed s.cur .nestBundleIssue then .next (s.updCore s.cur fun x => { x with nestAt := some (s.cyc s.cur) }) else
  let put (n : Nest) : State := (s.updFr fun f => { f with mat := { f.mat with nest := n } }).closeNest
  match n.program.find? (·.1 == n.pos.toNat) with
  | none => .next (s.dropNest s.cur s.here.run)
  | some (a, b) =>
    match nestBundle b ((a - (levelOf n.lv n.first).lstart.toNat) / 16) with
    | some (.skip _) => .next (put n.advance)
    | some (.reopen _ _ _) => .next (put n.reopen.advance)
    | some (.ops l) => .next (s.nestIssue b l)
    | none => .next (s.dropNest s.cur s.here.run)

/-- Bound levels that the sequencer has not opened again take the table's LIDX and LROTC (R224). -/
def Frame.writeBackNest (f : Frame) : Frame :=
  let n := f.mat.nest
  let lv := (List.range 6).foldl (fun l v =>
    if h : v < 6 then
      if n.first ≤ v ∧ v < n.last ∧ (l.get ⟨v, h⟩).nest = true then
        l.set v { l.get ⟨v, h⟩ with lidx := (levelOf n.lv v).lidx, lrotc := (levelOf n.lv v).lrotc } h
      else l
    else l) f.ctl.lv
  { f with ctl := { f.ctl with lv := lv }, mat := { f.mat with nest := { n with running := false, ended := false } } }

/-- NEST_END (R224). -/
def execNestEnd (s : State) : Out :=
  let f := s.frameAt s.arg.c s.arg.k
  if f.mat.nest.running && f.mat.nest.ended then .next (s.updFrameAt s.arg.c s.arg.k Frame.writeBackNest) else .next s

/-! ## The matrix unit at work (R203, R205, R208, R210-R213, R278, R420, R451) -/

/-- MATRIX_OP_START (R203, R451): the waiting operation starts in cycle n; its occupancy is fixed by MXDIV now. It ends when it has worked that
many cycles, those not counted in which a port that it needs is taken (R278, R279). -/
def execMatrixOpStart (s : State) : Out :=
  let c := s.arg.c
  let x := s.core c
  match x.mrun, x.mwait with
  | none, some o =>
    let div := x.divAt s.arg.n
    let occ := o.occ * div
    let o := { o with occ := occ, upTo := s.arg.n, ends := s.arg.n + occ - 1, readable := 12 * div + 1 }
    .next ((s.updCore c fun x => { x with mrun := some o, mwait := none }).postCore c o.ends .matrixOpComplete {})
  | _, _ => .next s

/-- Bytes of a row of a tile kind. -/
def kindRow (kind : Nat) : Nat := [128, 128, 256, 256, 128, 64].getD kind 0

/-- Row ρ of a tile as values (R89, R201): a floating or q4 kind. -/
def State.rowVals (s : State) (pa kind r : Nat) : List FVal :=
  let x := s.homeRead (pa + kindRow kind * r) (kindRow kind)
  if kind = 5 then
    let sc := s.homeRead (pa + 0x2000 + 4 * r) 4
    (List.range 128).map fun k => q4Decode (getByte sc (k / 32)) (field x (4 * k) 4)
  else
    let t := [e4m3, e5m2, bf16, f16].getD kind f32
    (List.range 128).map fun k => t.decode (field x (t.width * k) t.width)

/-- Row ρ of an i8 tile. -/
def State.rowInts (s : State) (pa r : Nat) : List Int :=
  let x := s.homeRead (pa + 128 * r) 128
  (List.range 128).map fun k => toInt 8 (getByte x k)

/-- A list in pieces of 32. -/
def blocks32 {α : Type} (l : List α) : List (List α) := (List.range 4).map fun b => (l.drop (32 * b)).take 32

/-- One output of MMA (R93-R95): `c` is the old element. -/
def mmaOut (mode : Nat) (lambda c : Nat) (a b : List (List FVal)) : Nat :=
  let start := if mode = 1 then 0x80000000 else if mode = 2 then f32.rne ((f32.decode lambda).mul (f32.decode c)) else c
  mmaSum start (List.zip a b)

/-- Row m of the accumulator after a floating MMA. -/
def mmaRow (mode lambda old : Nat) (a : List FVal) (bs : List (List (List FVal))) : Nat :=
  let aq := blocks32 a
  natLanes (List.zipWith (fun n b => mmaOut mode lambda (field old (32 * n) 32) aq b) (List.range 128) bs)
where
  /-- 32-bit lanes from a list. -/
  natLanes : List Nat → Nat
    | [] => 0
    | x :: xs => x + natLanes xs <<< 32

/-- Row m after an i8 MMA: the exact sum modulo 2^32. -/
def mmaRowInt (mode old : Nat) (a : List Int) (bs : List (List Int)) : Nat :=
  mmaRow.natLanes (List.zipWith (fun n b =>
    let c : Int := if mode = 1 then 0 else (field old (32 * n) 32 : Nat)
    ofInt 32 ((List.zipWith (· * ·) a b).foldl (· + ·) c)) (List.range 128) bs)

/-- A row written. -/
def State.putRow (s : State) (x : Stamp) (pa n v : Nat) : State := s.chipWrite x pa n v (ones n)

/-- MMA's writes. -/
def State.runMma (s : State) (x : Stamp) (o : MOp) (mode f : Nat) : State :=
  let (ka, kb) := mmaKinds f
  let rows := (List.range 128).filter o.rowLive
  if ka = 4 then
    let bs := (List.range 128).map (s.rowInts o.b.pa)
    rows.foldl (fun w m => w.putRow x (o.dst.pa + 512 * m) 512
      (mmaRowInt mode (s.homeRead (o.dst.pa + 512 * m) 512) (s.rowInts o.a.pa m) bs)) s
  else
    let bs := (List.range 128).map fun n => blocks32 (s.rowVals o.b.pa kb n)
    rows.foldl (fun w m => w.putRow x (o.dst.pa + 512 * m) 512
      (mmaRow mode o.lambda.toNat (s.homeRead (o.dst.pa + 512 * m) 512) (s.rowVals o.a.pa ka m) bs)) s

/-- MSCALE's writes (R211): a factor stands in register space, or was taken at issue. -/
def State.runScale (s : State) (x : Stamp) (o : MOp) : State :=
  let r := if o.a.len = 0 then o.rvec.toNat else s.homeRead o.a.pa 512
  let q := if o.b.len = 0 then o.cvec.toNat else s.homeRead o.b.pa 512
  ((List.range 128).filter o.rowLive).foldl (fun w m =>
    let old := s.homeRead (o.dst.pa + 512 * m) 512
    w.putRow x (o.dst.pa + 512 * m) 512 (buildNat 32 (fun n =>
      f32.rne (((f32.decode (field old (32 * n) 32)).mul (f32.decode (field r (32 * m) 32))).mul (f32.decode (field q (32 * n) 32)))) 128)) s

/-- MCVT's writes (R212). -/
def State.runCvt (s : State) (x : Stamp) (o : MOp) (dst : Nat) (rtz : Bool) : State :=
  let t := [e4m3, e5m2, bf16, f16].getD dst f32
  let n := kindRow dst
  (List.range 128).foldl (fun w m =>
    let old := s.homeRead (o.a.pa + 512 * m) 512
    w.putRow x (o.dst.pa + n * m) n (buildNat t.width (fun k => t.round rtz (f32.decode (field old (32 * k) 32))) 128)) s

/-- MTRN's writes (R213): the whole source is read first. -/
def State.runTrn (s : State) (x : Stamp) (o : MOp) (shape : Nat) : State :=
  let n := rowSize shape
  let b := n / 128
  let rows := (List.range 128).map fun r => s.homeRead (o.a.pa + n * r) n
  (List.range 128).foldl (fun w k =>
    w.putRow x (o.dst.pa + n * k) n (buildNat (8 * b) (fun r => field (rows.getD r 0) (8 * b * k) (8 * b)) 128)) s

/-- What a matrix operation writes, as writes of its core. -/
def State.runMatrix (s : State) (x : Stamp) (o : MOp) : State :=
  match o.kind with
  | .mma mode f => s.runMma x o mode f
  | .mzero => (List.range 128).foldl (fun w m => w.putRow x (o.dst.pa + 512 * m) 512 0) s
  | .mscale => s.runScale x o
  | .mcvt dst rtz => s.runCvt x o dst rtz
  | .mtrn shape => s.runTrn x o shape

/-- The bytes that an operation reads (R208, R279): dead rows are not read. -/
def MOp.readBytes (o : MOp) : List (Nat × Nat) :=
  let live := (List.range 128).filter o.rowLive
  let acc := live.map fun m => (o.dst.pa + 512 * m, 512)
  match o.kind with
  | .mma mode f =>
    let ka := (mmaKinds f).1
    live.map (fun m => (o.a.pa + kindRow ka * m, kindRow ka))
      ++ (if ka = 5 then live.map fun m => (o.a.pa + 0x2000 + 4 * m, 4) else []) ++ [(o.b.pa, o.b.len)]
      ++ (if mode = 1 ∨ o.fwd then [] else acc)
  | .mzero => []
  | .mscale => acc ++ (o.reads.map fun p => (p.pa, p.len))
  | _ => [(o.a.pa, o.a.len)]

/-- A waiting operation that needs the destination is cancelled without writing (R226, R420). -/
def State.cancelWaiting (s : State) (c : CoreId) (d : Span) : State :=
  s.updCore c fun x => { x with mwait := x.mwait.filter fun o => !(o.dst.meets d || o.reads.any d.meets) }

/-- The unit is free from the cycle after `ends`: the waiting operation starts (R203). -/
def State.nextMatrix (s : State) (c : CoreId) (ends : Nat) : State :=
  if (s.core c).mwait.isSome then s.postCore c ends .matrixOpStart { n := ends + 1 } else s

/-- MATRIX_OP_COMPLETE (R203, R204, R279, R420): the destination is written; a poisoned source writes nothing and traps.
Cycles that it has lost lengthen it. -/
def execMatrixOpComplete (s : State) : Out :=
  let c := s.arg.c
  let s := s.runUnit c
  match (s.core c).mrun with
  | none => .next s
  | some o =>
    if o.pos < o.occ then
      let o := { o with ends := o.ends + (o.occ - o.pos) }
      .next ((s.updCore c fun x => { x with mrun := some o }).postCore c o.ends .matrixOpComplete {})
    else
      let s := s.updCore c fun x => { x with mrun := none }
      match o.readBytes.find? fun p => s.poisoned p.1 p.2 with
      | some p =>
        let t := s.poisonTrap p.1 p.2
        let s := (s.cancelWaiting c o.dst).raiseAsync c o.slot { t with eeng := nestEeng 3 (o.nestIx.getD 0) o.opSlot t.cause.toNat }
        let s := if o.nestIx.isSome then s.abandonNest c o.slot (s.frameAt c o.slot).id.task o.nestGen else s
        .next (s.nextMatrix c o.ends)
      | none =>
        let s := s.observe (coreWriter c) (o.readBytes.flatMap fun p => s.marksAt p.1 p.2)
        let s := s.runMatrix (s.stamp (coreWriter c)) o
        let s := s.updCore c fun x =>
          { x with mdone := (x.mdone.filter fun d => s.cyc c < d.2) ++ [(o.dst, o.ends + o.readable)] }
        .next (s.nextMatrix c o.ends)

/-! ## Tile fetch at work (R87-R91, R217-R220, R226) -/

/-- The scale bytes delivered with a line of codes (R88). -/
def State.sidecar (s : State) (c : CoreId) (pa : Nat) : Nat :=
  match s.sidecarAt pa with
  | some a => s.dieRead (dieOf c) a 4
  | none => 0x3F3F3F3F

/-- The trap values of poison in the scale bytes delivered with a line of codes, when there is some (R420). -/
def State.sidecarPoison (s : State) (c : CoreId) (g : Seg) : Option Trap :=
  match s.sidecarAt g.pa with
  | some a => (s.diePoison (dieOf c) a 4).map fun p => { trapOfPoison p with evaddr := wd g.va }
  | none => none

/-- The rows of a fetch from row `r` on: what landed before the first fault, last row first. -/
def fetchRows (s : State) (c : CoreId) (f : Frame) (t : TileCmd) (r : Nat) :
    Nat → List (Nat × Nat × List (Seg × Walked)) → List (Nat × Nat × List (Seg × Walked)) × Option (Trap × Nat)
  | 0, acc => (acc, none)
  | n + 1, acc =>
    match engineSegs s c f 2 .read (va57 (t.rowVa r)) (rowSize t.shape) with
    | .error e => (acc, some (e, r))
    | .ok l =>
      match (s.segsPoison (dieOf c) l).or (if t.shape = 4 then l.findSome? fun x => s.sidecarPoison c x.1 else none) with
      | some e => (acc, some (e, r))
      | none =>
        let side := match t.shape, l with
          | 4, x :: _ => s.sidecar c x.1.pa
          | _, _ => 0
        fetchRows s c f t (r + 1) n ((s.engineRead c l, side, l) :: acc)

/-- Whether a set of a die's L2 has as many pinned ways as it may have (R322). -/
def pinsFull (pins : List Nat) (a : Nat) : Bool := decide (l2PinWays ≤ (pins.filter fun b => l2Place b == l2Place a).length)

/-- A KEEP fetch's line stays pinned under its tag, unless the core has 1 MiB pinned or the line's set has no way left to pin (R218,
R322). -/
def State.pinLine (s : State) (c : CoreId) (k : Fin 4) (tag a : Nat) : State :=
  let mine := dedup (allSlots.flatMap fun j => (s.frameAt c j).mat.pins.map (·.2))
  let pins := dedup (s.pinnedLines (dieOf c))
  if (!mine.contains a && 0x100000 / 64 ≤ mine.length) || (!pins.contains a && pinsFull pins a) then s else
  s.updFrameAt c k fun f => { f with mat := { f.mat with pins := if f.mat.pins.contains (tag, a) then f.mat.pins else f.mat.pins ++ [(tag, a)] } }

/-- Whether the transient pin of some line of a fetch finds its set's pinned ways all taken, by kept lines or by those of fetches that are being
placed: the fetch is held until one frees (R322). -/
def State.fetchHeldByPins (s : State) (c : CoreId) (lines : List Nat) : Bool :=
  let pins := dedup (s.pinnedLines (dieOf c))
  !pins.isEmpty && lines.any fun a => !pins.contains a && pinsFull pins a

/-- The lines of the pieces that a tile command reads from memory. -/
def memLines (c : CoreId) (l : List (Seg × Walked)) : List Nat :=
  l.flatMap fun x => match placeOf c x.1.pa with
    | .mem => linesOf x.1.pa x.1.len
    | _ => []

/-- A tile command's fault goes to its own event (R226). -/
def State.tileFault (s : State) (c : CoreId) (t : TileCmd) (e : Trap) (row : Nat) : State :=
  s.post 0 .tileFetchFault { c := c, k := t.slot, id := t.id, n := row, w0 := e.cause.setWidth 64, w1 := e.evaddr,
                             w2 := wd e.src, w3 := e.padr }

/-- The granules of a tile command that find their banks' ports, in order, as far as they do (R278): how many. -/
def tileBanks (write : Bool) (waited : Nat) : List Nat → State → Nat → State × Nat
  | [], s, n => (s, n)
  | g :: gs, s, n => match s.engineBank (winCore (g * 512)) (g * 512) 512 write (if n = 0 then waited else 0) with
    | some s => tileBanks write waited gs s (n + 1)
    | none => (s, n)

/-- The tile command changed. -/
def State.updTile (s : State) (c : CoreId) (id : Nat) (g : TileCmd → TileCmd) : State :=
  s.updCore c fun x => { x with tiles := updWhere (fun t => t.id == id) g x.tiles }

/-- The tile command is over. -/
def State.endTile (s : State) (c : CoreId) (id : Nat) : State := s.updCore c fun x => { x with tiles := x.tiles.filter (·.id != id) }

/-- The banks of a tile command's granules, at most sixteen in a cycle: none once all have had theirs, else the state in which it asks again in the next
cycle (R278, R279). -/
def State.tileTurn (s : State) (c : CoreId) (t : TileCmd) (gs : List Nat) (row : Instr) : State × Bool :=
  let (s, n) := tileBanks (!t.store) t.waited ((gs.drop t.pos).take 16) s 0
  if gs.length ≤ t.pos + n then (s, true) else
  let s := s.updTile c t.id fun t => { t with pos := t.pos + n, waited := if n = 0 then t.waited + 1 else 0 }
  (s.postCore c (s.cyc c) row { k := t.slot, id := t.id }, false)

/-- The first half of a fetch (R217, R322): its rows are read, up to the first that faults, and their lines stand pinned in the L2. -/
def State.fetchTile (s : State) (c : CoreId) (t : TileCmd) : Option State :=
  let (rows, fault) := fetchRows s c ((s.frameAt c t.slot).under t.root t.asid) t 0 128 []
  let lines := rows.reverse.flatMap fun x => memLines c x.2.2
  if t.tag.isNone && s.fetchHeldByPins c lines then none else
  let size := rowSize t.shape
  let data := rows.foldl (fun acc x => acc * 2 ^ (8 * size) + x.1) 0
  let side := rows.foldl (fun acc x => acc * 2 ^ 32 + x.2.1) 0
  let pins := dedup (s.pinnedLines (dieOf c))
  let s := s.updTile c t.id fun t => { t with got := some (rows.length, data, side), fault := fault,
                                              lines := lines.filter fun a => pins.contains a || !pinsFull pins a }
  some (rows.reverse.foldl (fun s x => (s.engineLearn c 2 x.2.2).engineTake c x.2.2) s)

/-- The second half of a fetch, once its granules have had their banks (R217, R218): the rows stand in the register space, and the fetch ends or
faults. -/
def State.landTile (s : State) (c : CoreId) (t : TileCmd) (n data side : Nat) : State :=
  let size := rowSize t.shape
  let x := s.unitStamp t.by_
  let s := if n = 0 then s else s.putRow x t.elem.pa (n * size) data
  let s := if n = 0 ∨ t.shape ≠ 4 then s else s.putRow x (t.elem.pa + 0x2000) (n * 4) side
  match t.fault with
  | some (e, row) => (s.updTile c t.id fun t => { t with lines := [] }).tileFault c t e row
  | none =>
    let s := s.endTile c t.id
    match t.tag with
    | some tag => t.lines.foldl (fun (s : State) a => s.pinLine c t.slot tag a) s
    | none => s

/-- The granules that `n` fetched rows are placed in (R279). -/
def TileCmd.landGranules (t : TileCmd) (n : Nat) : List Nat :=
  (List.range (ceilDiv (n * rowSize t.shape) 512)).map (t.elem.pa / 512 + ·) ++ if t.shape = 4 ∧ n ≠ 0 then [t.elem.pa / 512 + 16] else []

/-- TILE_FETCH_LAND (R217, R278, R322): the rows are read, and then placed as their banks allow; at a fault, the rows before it. -/
def execTileFetchLand (s : State) : Out :=
  let c := s.arg.c
  match (s.core c).tiles.find? (·.id == s.arg.id) with
  | none => .next s
  | some t => match t.got with
    | none => match s.fetchTile c t with
      | none => .next (s.postFree c 1 .tileFetchLand s.arg)
      | some s => .next (s.postCore c (s.cyc c) .tileFetchLand s.arg)
    | some (n, data, side) =>
      let (s, done) := s.tileTurn c t (t.landGranules n) .tileFetchLand
      .next (if done then s.landTile c t n data side else s)

/-- Rows of a store written in order from row `r` on; the first fault with its row (R219). -/
def storeRows (c : CoreId) (f : Frame) (t : TileCmd) (s : State) (r : Nat) : Nat → State × Option (Trap × Nat)
  | 0 => (s, none)
  | n + 1 =>
    let size := rowSize t.shape
    let src := t.elem.pa + size * r
    let sc := t.elem.pa + 0x2000 + 4 * r
    if s.poisoned src size then (s, some (s.poisonTrap src size, r))
    else if t.shape = 4 ∧ s.poisoned sc 4 then (s, some (s.poisonTrap sc 4, r))
    else match engineSegs s c f 2 .write (va57 (t.rowVa r)) size with
    | .error e => (s, some (e, r))
    | .ok l =>
      let v := s.homeRead src size
      let k := s.homeRead sc 4
      let y : Stamp := { by_ := t.by_, before := t.before.map fun n => (coreWriter c, n) }
      let s := (s.engineLearn c 2 l).engineWrite y l v []
      let s := match t.shape, l with
        | 4, x :: _ => match s.sidecarAt x.1.pa with
          | some a => s.placeWrite y a 4 k (ones 4)
          | none => s
        | _, _ => s
      storeRows c f t s (r + 1) n

/-- TILE_STORE_PERFORMED (R219, R220, R278): once the element's granules have had their banks, the rows are written at package scope; at a fault, the
rows before it. -/
def execTileStorePerformed (s : State) : Out :=
  let c := s.arg.c
  match (s.core c).tiles.find? (·.id == s.arg.id) with
  | none => .next s
  | some t =>
    let (s, done) := s.tileTurn c t t.elem.granules .tileStorePerformed
    if !done then .next s else
    let (s, fault) := storeRows c ((s.frameAt c t.slot).under t.root t.asid) t s 0 128
    match fault with
    | some (e, row) => .next (s.tileFault c t e row)
    | none => .next (s.endTile c t.id)

/-- TILE_FETCH_FAULT (R226): the command ends; its trap is due, operations waiting on its destination are cancelled, its
nest is abandoned. -/
def execTileFetchFault (s : State) : Out :=
  let c := s.arg.c
  match (s.core c).tiles.find? (·.id == s.arg.id) with
  | none => .next s
  | some t =>
    let cause : Cause := s.arg.w0.setWidth 8
    let e : Trap := { cause := cause, evaddr := s.arg.w1, src := s.arg.w2.toNat, padr := s.arg.w3,
                      eeng := nestEeng 4 (t.nestIx.getD 0) t.opSlot (cause.toNat + s.arg.n * 256) }
    let s := s.endTile c t.id
    let s := if t.store then s else s.cancelWaiting c t.elem
    let s := s.raiseAsync c t.slot e
    .next (if t.nestIx.isSome then s.abandonNest c t.slot (s.frameAt c t.slot).id.task t.nestGen else s)

/-! ## The instructions -/

/-- MMA_ACC (R208). -/
def execMmaAcc (p : BitVec 3) (f : BitVec 3) (d : BitVec 6) (a : BitVec 6) (b : BitVec 6) (s : State) : Out :=
  issueOne s p 2 (opMmaAcc f d a b)
/-- MMA_OVW (R208). -/
def execMmaOvw (p : BitVec 3) (f : BitVec 3) (d : BitVec 6) (a : BitVec 6) (b : BitVec 6) (s : State) : Out :=
  issueOne s p 2 (opMmaOvw f d a b)
/-- MMA_DEC (R208). -/
def execMmaDec (p : BitVec 3) (f : BitVec 3) (d : BitVec 6) (a : BitVec 6) (b : BitVec 6) (s : State) : Out :=
  issueOne s p 2 (opMmaDec f d a b)
/-- MDECAY (R209). -/
def execMdecay (p : BitVec 3) (a : BitVec 6) (s : State) : Out :=
  issueOne s p 2 (opMdecay a)
/-- MZERO (R210). -/
def execMzero (p : BitVec 3) (d : BitVec 6) (s : State) : Out :=
  issueOne s p 2 (opMzero d)
/-- MCVT (R212). -/
def execMcvt (p : BitVec 3) (d : BitVec 6) (a : BitVec 6) (z : BitVec 1) (t : BitVec 2) (s : State) : Out :=
  issueOne s p 2 (opMcvt d a z t)
/-- MTRN (R213). -/
def execMtrn (p : BitVec 3) (d : BitVec 6) (a : BitVec 6) (s : State) : Out :=
  issueOne s p 2 (opMtrn d a)
/-- MSCALE (R211). -/
def execMscale (p : BitVec 3) (d : BitVec 6) (a : BitVec 6) (b : BitVec 6) (s : State) : Out :=
  issueOne s p 2 (opMscale d a b)
/-- MRAG (R215). -/
def execMrag (p : BitVec 3) (a : BitVec 6) (s : State) : Out :=
  issueOne s p 2 (opMrag a)
/-- MLDT (R217). -/
def execMldt (p : BitVec 3) (d : BitVec 6) (a : BitVec 6) (b : BitVec 6) (s : State) : Out :=
  issueOne s p 2 (opMldt d a b)
/-- MREL (R218). -/
def execMrel (p : BitVec 3) (t : BitVec 4) (s : State) : Out :=
  issueOne s p 2 (opMrel t)
/-- MSTT (R219). -/
def execMstt (p : BitVec 3) (d : BitVec 6) (a : BitVec 6) (b : BitVec 6) (s : State) : Out :=
  issueOne s p 2 (opMstt d a b)
/-- MNWAIT_N (R225). -/
def execMnwaitN (p : BitVec 3) (s : State) : Out :=
  issueOne s p 2 (opMnwaitN )
/-- MNWAIT_T (R225). -/
def execMnwaitT (p : BitVec 3) (s : State) : Out :=
  issueOne s p 2 (opMnwaitT )
/-- MNWAIT_NT (R225). -/
def execMnwaitNt (p : BitVec 3) (s : State) : Out :=
  issueOne s p 2 (opMnwaitNt )
/-- MNEST (R221). -/
def execMnest (p : BitVec 3) (l : BitVec 3) (s : State) : Out :=
  issueOne s p 2 (opMnest l)

end Sys2Proof.Machine
end

