-- ==== Sys2Proof/Machine/Sha3.lean ====
section
/-! DEFINITION. SHA3-512, which the manual names for image, shard, manifest and key digests (R74, R440, R464, R467);
taken from its public standard (log 10). The state is one number of 1,600 bits: lane (x, y) at bit 320 y + 64 x, so that a
plane is 320 bits and a shift by a lane is a turn by 64. -/

namespace Sys2Proof.Machine

open Sys2Proof

/-- A number of `w` bits turned left by `n`. -/
def turned (w n x : Nat) : Nat := (x <<< n ||| x >>> (w - n)) % 2 ^ w
/-- Bits `n` from `i` on. -/
def part (i n x : Nat) : Nat := x >>> i % 2 ^ n
/-- The number whose `n` parts of `w` bits the function gives. -/
def joined (w : Nat) (f : Nat → Nat) : Nat → Nat
  | 0 => 0
  | n + 1 => joined w f n ||| f n <<< (w * n)
/-- Every column's parity and the turned one of its other neighbour, into all planes. -/
def mixColumns (a : Nat) : Nat :=
  let p := (List.range 5).foldl (fun acc y => acc ^^^ part (320 * y) 320 a) 0
  let q := joined 64 (fun x => turned 64 1 (part (64 * x) 64 p)) 5
  let d := turned 320 64 p ^^^ turned 320 256 q
  a ^^^ joined 320 (fun _ => d) 5
/-- The walk over the 24 other lanes: step t takes the lane it stands on, turned by the triangular number of t + 1, to the next one. -/
def moveLanes (a : Nat) : Nat → Nat → Nat → Nat
  | 0, _, _ => part 0 64 a
  | n + 1, x, y =>
    let t := 24 - n
    let x' := y
    let y' := (2 * x + 3 * y) % 5
    moveLanes a n x' y' ||| turned 64 (t * (t + 1) / 2 % 64) (part (320 * y + 64 * x) 64 a) <<< (320 * y' + 64 * x')
/-- Each lane takes the lanes one and two further along its plane. -/
def mixPlanes (a : Nat) : Nat :=
  joined 320 (fun y =>
    let p := part (320 * y) 320 a
    p ^^^ (turned 320 192 p &&& (turned 320 256 p ^^^ (2 ^ 320 - 1)))) 5
/-- One step of the register of eight bits that gives the constants' bits. -/
def lfsrStep (r : Nat) : Nat := if r < 128 then 2 * r else 2 * r ^^^ 0x171
/-- A round's constant from the register: bit 2^j - 1 for each j below 7. -/
def lfsrWord (r : Nat) : Nat × Nat :=
  (List.range 7).foldl (fun p j => (p.1 + p.2 % 2 * 2 ^ (2 ^ j - 1), lfsrStep p.2)) (0, r)
/-- `n` rounds, the register standing at `r`. -/
def permute (a r : Nat) : Nat → Nat
  | 0 => a
  | n + 1 =>
    let (c, r) := lfsrWord r
    permute (mixPlanes (moveLanes (mixColumns a) 24 1 0) ^^^ c) r n
/-- Blocks of 72 bytes taken in, the first lowest in the number. -/
def takeIn (a m : Nat) : Nat → Nat
  | 0 => a
  | n + 1 => takeIn (permute (a ^^^ m % 2 ^ 576) 1 24) (m >>> 576) n
/-- The 512-bit digest of `n` bytes, byte 0 lowest in both numbers. -/
def sha3 (m n : Nat) : Nat :=
  let blocks := n / 72 + 1
  takeIn 0 (m % 2 ^ (8 * n) + 6 * 2 ^ (8 * n) + 0x80 * 2 ^ (8 * (72 * blocks - 1))) blocks % 2 ^ 512

end Sys2Proof.Machine
end

