-- ==== Sys2Proof/Machine/Belfry.lean ====
section
/-! DEFINITION. The Belfry's queues, streams, commands and launches (R72-R74, R307, R387-R400, R407, R465). -/

namespace Sys2Proof.Machine

open Sys2Proof

/-! ## The queue's turn (R391, R398) -/

/-- A queue's stream changed. -/
def State.updRun (s : State) (q : Fin 64) (f : Exec → Exec) : State := s.updQueue q fun x => { x with run := x.run.map f }

/-- A freeze that no task causes. -/
def State.freezeFor (s : State) (q : Fin 64) (cause : BitVec 8) : State := s.freeze q cause 0

/-- Whether the Belfry serves a queue: both enables, not frozen (R388, R403). -/
def State.serves (s : State) (q : Fin 64) : Bool := bit s.bel.bfctl 0 && bit (s.queue q).qctl 0 && (s.queue q).st != 2

/-- Whether a waiting command may go on (R393): WAIT and WRITE wait for every task of the stream. -/
def Queue.unblocked (_ : Queue) (r : Exec) : Bool :=
  match r.held with
  | none => true
  | some _ => r.mine.isEmpty

/-- Whether a queue has work for a Belfry core that is free. -/
def State.hasWork (s : State) (q : Fin 64) : Bool :=
  let x := s.queue q
  s.serves q && match x.run with
    | none => x.qhead != x.qtail
    | some r => r.turn.isNone && x.unblocked r

/-- The row of a command (R392). -/
def commandRow : Nat → Option Instr
  | 0 => some .nopc
  | 1 => some .launch
  | 2 => some .launchi
  | 3 => some .gang
  | 4 => some .wait
  | 5 => some .loopc
  | 6 => some .ifc
  | 7 => some .write
  | 8 => some .signal
  | 9 => some .chain
  | 15 => some .endC
  | _ => none

/-- A command begins: it is named, and its row is to come. -/
def State.begin (s : State) (q : Fin 64) (row : Instr) (a : Arg) : State :=
  let id := s.fresh
  (s.bump.updRun q fun r => { r with cmd := some id, held := none }).postLater 1 row { a with q := q, id := id }

/-- Whether the queues act (R461, R462, R472): the start is complete, and the package is active or idle. -/
def State.queuesAct (s : State) : Bool := s.pw.ready && decide (s.pw.pstate < 2)

/-- The command at the stream's index is read and begins (R392, R394); where the queue is not served or no queue acts, its core is given up. -/
def State.dispatch (s : State) (q : Fin 64) : State :=
  if !s.serves q || !s.queuesAct then (s.updRun q fun r => { r with turn := none }).post 0 .submissionEntryStart {} else
  match (s.queue q).run with
  | none => s
  | some r =>
    let id := s.fresh
    let s := s.bump.updRun q fun r => { r with cmd := some id }
    if r.len ≤ r.idx then s.freezeFor q 0x02#8 else
    match s.belfryRead q (canon57 (r.addr + wd (32 * r.idx))) 32 with
    | .error _ => s.freezeFor q 0x04#8
    | .ok (v, s) => match commandRow (v % 256) with
      | none => s.freezeFor q 0x01#8
      | some row => s.begin q row { w0 := wd (field v 0 64), w1 := wd (field v 64 64), w2 := wd (field v 128 64), w3 := wd (field v 192 64) }

/-- The queue context record (R389); none when it cannot be read or breaks its limits. -/
def State.readContext (s : State) (q : Fin 64) : Option QCtx :=
  let pa := (s.queue q).qctxa.toNat
  let home := match physClass pa with
    | .hbm _ => true
    | .host => true
    | _ => false
  let v := s.homeRead pa 64
  let at_ (o n : Nat) : Nat := field v (8 * o) (8 * n)
  if home && !s.poisoned pa 64 && at_ 0 8 % 0x10000 == 0 && decide (at_ 0 8 < 2 ^ 52) && decide (at_ 0x0A 1 ≤ 1) && at_ 0x0B 5 == 0
      && at_ 0x10 8 % 0x10000 == 0 && at_ 0x2C 4 == 0 && at_ 0x30 8 % 64 == 0 && decide (4 ≤ at_ 0x38 1) && decide (at_ 0x38 1 ≤ 20)
      && at_ 0x39 7 == 0 then
    some { ptroot := wd (at_ 0 8), asid := BitVec.ofNat 16 (at_ 8 2), sysok := at_ 0x0A 1 == 1, ctxpool := wd (at_ 0x10 8),
           ctxpages := at_ 0x18 8, evpool := wd (at_ 0x20 8), evquota := BitVec.ofNat 32 (at_ 0x28 4), cring := wd (at_ 0x30 8),
           clogn := at_ 0x38 1 }
  else none

/-- The next submission entry of a queue is read (R387, R389). -/
def State.startEntry (s : State) (q : Fin 64) : State :=
  let x := s.queue q
  let s := (if x.stale then s.partyReads (belfryWriter q) [(x.qctxa.toNat, 64)] else s).updQueue q fun x => { x with st := 1, run := some { turn := some 0 } }
  let ctx := if x.stale then s.readContext q else x.ctx
  match ctx with
  | none => s.freezeFor q 0x0B#8
  | some ctx =>
    let s := s.updQueue q fun x => { x with ctx := some ctx, stale := false }
    match s.belfryRead q (canon57 (x.qring + wd (16 * (x.qhead.toNat % 2 ^ bits x.qctl 8 5)))) 16 with
    | .error _ => s.freezeFor q 0x04#8
    | .ok (v, s) =>
      if field v 88 8 ≠ 0 ∨ field v 57 7 ≠ 0 ∨ v % 32 ≠ 0 ∨ field v 64 24 = 0 then s.freezeFor q 0x01#8 else
      let peer := (x.peers.find? fun (y : Fin 64 × Nat) => y.2 == x.qhead.toNat).map (·.1)
      (s.updRun q fun r => { r with addr := wd (field v 0 57), len := field v 64 24, stag := BitVec.ofNat 32 (field v 96 32),
                                    peer := peer }).dispatch q

/-- The queues. -/
def allQueues : List (Fin 64) := (List.range 64).map (Fin.ofNat 64)
/-- The queue that a free Belfry core takes: highest PMAX, then served least recently. -/
def State.nextQueue (s : State) : Option (Fin 64) :=
  let l := allQueues.filter s.hasWork
  let key (q : Fin 64) : Nat := (7 - bits (s.queue q).qctl 4 3) * (s.nextId + 1) + (s.queue q).served
  (minOf key l).bind fun m => l.find? fun q => key q == m
/-- Belfry cores that execute a stream. -/
def State.belfryBusy (s : State) : Nat :=
  (allQueues.filter fun q => (((s.queue q).run.map fun r => r.turn.isSome).getD false)).length

/-- SUBMISSION_ENTRY_START (R387, R389, R391): a free Belfry core takes a queue: its stream goes on, or its next entry
begins. -/
def execSubmissionEntryStart (s : State) : Out :=
  if !s.queuesAct ∨ 4 ≤ s.belfryBusy then .next s else
  match s.nextQueue with
  | none => .next s
  | some q =>
    let s := (s.bump.updQueue q fun x => { x with served := s.fresh }).post 0 .submissionEntryStart {}
    match (s.queue q).run with
    | none => .next (s.startEntry q)
    | some r =>
      let s := s.updRun q fun r => { r with turn := some 0 }
      match r.held with
      | some e => .next (s.begin q e.row e.arg)
      | none => .next (s.dispatch q)

/-! ## The end of a command (R391, R393, R394) -/

/-- The index after the one that has been passed, with the loop stack there (R394). -/
def afterIndex (j : Nat) : List (Nat × Nat × Nat) → Nat × List (Nat × Nat × Nat)
  | [] => (j + 1, [])
  | (first, last, left) :: rest =>
    if last = j then
      if 1 < left then (first, (first, last, left - 1) :: rest) else afterIndex j rest
    else (j + 1, (first, last, left) :: rest)

/-- The stream moves past an index. -/
def Exec.pass (r : Exec) (j : Nat) : Exec :=
  let n := afterIndex j r.loops
  { r with idx := n.1, loops := n.2, cmd := none, held := none }

/-- A command has finished: its core goes on with the next one, or gives the queue up after 64 (R391). -/
def State.finish (s : State) (q : Fin 64) : State :=
  match (s.queue q).run with
  | none => s
  | some r =>
    let n := r.turn.getD 0 + 1
    if n < 64 then (s.updRun q fun r => { r with turn := some n }).dispatch q
    else (s.updRun q fun r => { r with turn := none }).post 0 .submissionEntryStart {}
/-- The same, past the command's own index. -/
def State.finishAt (s : State) (q : Fin 64) (j : Nat) : State := (s.updRun q fun r => r.pass j).finish q

/-- Whether a word has no bit outside the mask. -/
def onlyBits (w : Word) (mask : Nat) : Bool := w.toNat &&& mask == w.toNat

/-- A command of a queue that is not frozen, with its fields checked (R392); one that a freeze has cut off does nothing. -/
def commandOf (s : State) (legal : Arg → Bool) (f : State → Fin 64 → Exec → Arg → State) : Out :=
  let a := s.arg
  match (s.queue a.q).run with
  | none => .next s
  | some r =>
    if (s.queue a.q).st = 2 ∨ r.cmd ≠ some a.id then .next s
    else if legal a then .next (f s a.q r a) else .next (s.freezeFor a.q 0x01#8)

/-- The command waits: its queue gives the Belfry core up. -/
def State.block (s : State) (row : Instr) (a : Arg) : State :=
  (s.updRun a.q fun r => { r with held := some { row := row, arg := a }, turn := none }).post 0 .submissionEntryStart {}

/-! ## Images and records (R72-R74, R395, R396, R465) -/

/-- Limits of a program header's fields (R72, R73); `code` is the image start. -/
def headerOk (h : List Word) (code : Word) : Bool :=
  let at_ := headerField h
  let entry := at_ 0x08 4
  let limit := at_ 0x0C 4
  let length := at_ 0x10 4
  let handler := at_ 0x14 4
  let used := headerStreams h
  at_ 0 4 == 0x444F4C53 && at_ 4 2 == 1 && decide (at_ 6 2 ≤ 1)
    && decide (0x100 ≤ entry) && decide (entry < limit) && decide (limit ≤ length)
    && entry % 16 == 0 && limit % 16 == 0 && length % 16 == 0 && handler % 16 == 0 && code.toNat % 256 == 0
    && (handler == 0 || (decide (0x100 ≤ handler) && decide (handler < limit)))
    && decide (1 ≤ at_ 0x20 2) && decide (at_ 0x20 2 ≤ 8192) && decide (at_ 0x22 1 ≤ 3) && decide (at_ 0x23 1 ≤ 3) && at_ 0x24 4 == 0
    && ((h.drop 5).take 8).all viewOk
    && (((h.drop 13).take 11).all fun w =>
      if bits w 4 2 = 0 then w == 0
      else bits w 4 2 != 3 && bits w 6 2 == 0 && bits w 12 20 == 0 && decide (2 ≤ bits w 8 4) && bits w 32 32 % 64 == 0
        && decide (0x100 ≤ bits w 32 32) && decide (bits w 32 32 + 64 ≤ length))
    && decide ((dedup (used.map (·.1))).length = used.length)

/-- Image offsets of the used bindings' descriptors. -/
def headerDescs (h : List Word) : List Nat := (((h.drop 13).take 11).filter fun w => bits w 4 2 != 0).map fun w => bits w 32 32

/-- Whether a signature block verifies for code use (R74, R464). -/
def State.signed (s : State) (digest blk : Nat) : Bool :=
  let i := field blk 0 32
  let k := s.sec.keys.toList.getD i {}
  decide (4 ≤ i) && decide (i < 32) && field blk 32 32 == 4627 && k.used && !k.revoked && k.usage.getLsbD 0
    && field blk (8 * 4635) 40 == 0 && Config.mldsaVerify k.digest digest (field blk 64 (8 * 4627))

/-- The words of a launch's image, header first and then the pattern descriptors; none when R73, R74 or R465 refuses it. -/
def State.readImage (s : State) (q : Fin 64) (code : Word) (sys : Bool) : Option (List Word) × State :=
  match s.belfryRead q code 0x100 with
  | .error _ => (none, s)
  | .ok (hd, s) =>
    let h := (List.range 32).map fun i => wd (field hd (64 * i) 64)
    let length := headerField h 0x10 4
    if !headerOk h code then (none, s) else
    match s.belfryRead q code length with
    | .error _ => (none, s)
    | .ok (img, s) =>
      let digest := sha3 (img % 2 ^ (8 * 0xC0) + img >>> (8 * 0x100) <<< (8 * 0xC0)) (0xC0 + (length - 0x100))
      let descs := (headerDescs h).map fun o => field img (8 * o) 512
      let h := h ++ descs.flatMap fun d => (List.range 8).map fun i => wd (field d (64 * i) 64)
      if digest ≠ field hd (8 * 0xC0) 512 ∨ descs.any (fun d => (patternOfDesc d).isNone) then (none, s)
      else if headerField h 6 2 = 0 then
        (if s.sec.life ≠ 0 ∧ (sys ∨ s.sec.usig) then none else some h, s)
      else match s.belfryRead q (code + wd length) 4640 with
        | .error _ => (none, s)
        | .ok (blk, s) => (if s.signed digest blk then some h else none, s)

/-- A record of a launch as it is read: its index, its bytes, its successors, its image when that is in order, and whether the
record itself is. -/
structure LaunchRec where
  i     : Nat := 0
  raw   : Nat := 0
  succ  : List Nat := []
  image : Option (List Word) := none
  ok    : Bool := false
  deriving DecidableEq, Repr, Inhabited

/-- A field of a record. -/
def LaunchRec.at_ (r : LaunchRec) (o n : Nat) : Nat := field r.raw (8 * o) (8 * n)

/-- Record `i` of the array at `base` read with its successors, its ragged record and its image (R395, R396). -/
def State.readRecord (s : State) (q : Fin 64) (base : Word) (i : Nat) : LaunchRec × State :=
  match s.belfryRead q (base + wd (192 * i)) 192 with
  | .error _ => ({ i := i, image := some [] }, s)
  | .ok (raw, s) =>
    let r : LaunchRec := { i := i, raw := raw }
    let flags := r.at_ 0x54 2
    let n := r.at_ 0x78 2
    let few := (List.range 16).map fun j => r.at_ (0x90 + 2 * j) 2
    let (succ, s) : Option (List Nat) × State :=
      if n ≤ 16 then (if r.at_ 0x80 8 = 0 ∧ (few.drop n).all (· == 0) then some (few.take n) else none, s)
      else if few.any (· != 0) then (none, s)
      else match s.belfryRead q (wd (r.at_ 0x80 8)) (2 * n) with
        | .error _ => (none, s)
        | .ok (v, s) => (some ((List.range n).map fun j => field v (16 * j) 16), s)
    let rag := r.at_ 0x70 8
    let (ragOk, s) : Bool × State :=
      if rag = 0 then (true, s) else
      match s.belfryRead q (wd rag) 512 with
      | .error _ => (false, s)
      | .ok (v, s) => (rag % 512 == 0 && (ragLive (BitVec.ofNat 4096 v)).isSome, s)
    let (image, s) := s.readImage q (wd (r.at_ 0 8)) (flags.testBit 3)
    let ok := r.at_ 0x7A 6 == 0 && r.at_ 0x88 8 == 0 && r.at_ 0xB0 16 == 0 && decide (flags < 256) && field flags 5 2 != 3
      && (List.range 4).all (fun j => field (r.at_ (0x58 + 4 * j) 4) 16 15 == 0)
      && (!flags.testBit 3 || (((s.queue q).ctx.map QCtx.sysok).getD false)) && succ.isSome && ragOk
    ({ r with succ := succ.getD [], image := image, ok := ok }, s)

/-- Records without a predecessor among the rest taken away until none is left or none can be (R396). -/
def acyclic (l : List LaunchRec) : Nat → Bool
  | 0 => l.isEmpty
  | n + 1 =>
    let rest := l.filter fun r => l.any fun p => p.succ.contains r.i
    if rest.length = l.length then l.isEmpty else acyclic rest n

/-- The checks of R396 over the launched records; `total` is the array's length. -/
def launchOk (l : List LaunchRec) (total : Nat) : Bool :=
  l.all (fun r => r.ok && r.succ.all fun n => decide (n < total) && n != r.i)
    && l.all (fun r => r.at_ 0x56 2 == (l.map fun p => p.succ.count r.i).foldl (· + ·) 0)
    && acyclic l l.length

/-- The serial after a TASK_ID (R396). -/
def nextSerial (t : BitVec 32) : BitVec 32 := if t = BitVec.allOnes 32 then 1 else t + 1
/-- `n` serials from one on. -/
def serials (t : BitVec 32) : Nat → List (BitVec 32)
  | 0 => []
  | n + 1 => t :: serials (nextSerial t) n

/-- The lowest place of the event pool that no task has. -/
def Queue.evPlace (x : Queue) : Nat :=
  ((List.range (x.evAreas.length + 1)).find? fun i => !x.evAreas.any fun (a : Nat × BitVec 32) => a.1 == i).getD 0

/-- The tick at which a deadline expires, from now (R292). -/
def State.untilExpiry (s : State) (d : Nat) : Nat := max (ceilDiv (d + 1) 1000) (ceilDiv s.time 4800) * 4800 - s.time

/-- A launched task (R12, R38, R395, R396). -/
def State.makeTask (s : State) (q : Fin 64) (x : Exec) (a : Arg) (r : LaunchRec) (tid : BitVec 32) (succ : List (BitVec 32))
    (deps : Nat) (deadline : Nat) : Task :=
  let ctx := ((s.queue q).ctx).getD {}
  let h := r.image.getD []
  let place := (s.queue q).evPlace
  { tid := tid, q := q, index := r.i, ltag := a.w2.setWidth 32, stag := x.stag, bal := bits a.w0 32 2, code := wd (r.at_ 0 8),
    args := (List.range 8).map fun j => wd (r.at_ (8 + 8 * j) 8), deadline := wd deadline, tokgrp := BitVec.ofNat 32 (r.at_ 0x50 4),
    flags := BitVec.ofNat 16 (r.at_ 0x54 2),
    handles := ((List.range 4).map fun j => r.at_ (0x58 + 4 * j) 4).filterMap fun w =>
      if w.testBit 31 then some (BitVec.ofNat 16 w) else none,
    route := wd (r.at_ 0x68 8), ragged := wd (r.at_ 0x70 8), succ := succ, deps := deps, header := h,
    heat := BitVec.ofNat 2 (headerField h 0x22 1), foot := headerField h 0x20 2,
    sys := { ptroot := ctx.ptroot, asid := ctx.asid, evspill := (ctx.evpool + wd (place * ctx.evquota.toNat * 4096)) &&& ~~~0xFFF#64, evquota := ctx.evquota },
    peer := x.peer }

/-- A task enters the table WAITING; its deadline is watched (R287, R292). -/
def State.addTask (s : State) (t : Task) : State :=
  let s := { s with tasks := s.tasks ++ [t] }
  let s := s.updQueue t.q fun x =>
    { x with evAreas := x.evAreas ++ [(x.evPlace, t.tid)], run := x.run.map fun (r : Exec) => { r with mine := r.mine ++ [t.tid] } }
  if t.deadline = 0 then s else s.post (s.untilExpiry t.deadline.toNat) .deadlineExpiry { tid := t.tid }

/-- A launch that R396 refuses: every record completes with BAD_IMAGE or BAD_RECORD, and the queue freezes. -/
def State.refuseLaunch (s : State) (q : Fin 64) (x : Exec) (a : Arg) (l : List LaunchRec) (status : Nat) : State :=
  let recs : List CRec := l.map fun r =>
    { tid := 0, peer := x.peer,
      bytes := s.completionBytes { q := q, index := r.i, ltag := a.w2.setWidth 32 } status 0 0 }
  let s := s.updQueue q fun y => { y with recs := y.recs ++ recs }
  let s := s.updRun q fun r => { r with mine := r.mine ++ l.map (fun _ => 0#32), fails := r.fails + l.length }
  ((s.post 0 .completionRecordWrite { q := q })).freezeFor q 0x07#8

/-- Records of the array read in ascending index. -/
def State.readRecords (s : State) (q : Fin 64) (base : Word) (l : List Nat) : List LaunchRec × State :=
  l.foldl (fun (acc : List LaunchRec × State) i =>
    let r := acc.2.readRecord q base i
    (acc.1 ++ [r.1], r.2)) ([], s)

/-- What R396 says of the records: none when the launch passes, else the status of every task. -/
def launchStatus (l : List LaunchRec) (total : Nat) (alone : Bool) : Option Nat :=
  if l.any fun r => r.image.isNone then some 5
  else if !launchOk l total || (alone && l.any fun r => r.at_ 0x56 2 != 0 || r.at_ 0x78 2 != 0) then some 6
  else none

/-- The tasks of a launch made, in ascending index, with their serials. -/
def State.makeTasks (s : State) (q : Fin 64) (x : Exec) (a : Arg) (l : List LaunchRec) (deadline : Option Nat)
    (change : Nat → Task → Task) : State :=
  let ids := serials s.bel.nextTid l.length
  let tidOf (i : Nat) : Option (BitVec 32) := ((l.zip ids).find? fun (p : LaunchRec × BitVec 32) => p.1.i == i).map (·.2)
  let s := { s with bel := { s.bel with nextTid := l.foldl (fun t _ => nextSerial t) s.bel.nextTid } }
  ((List.range l.length).zip (l.zip ids)).foldl (fun (s : State) (p : Nat × LaunchRec × BitVec 32) =>
    let r := p.2.1
    s.addTask (change p.1 (s.makeTask q x a r p.2.2 (r.succ.filterMap tidOf) (r.at_ 0x56 2) (deadline.getD (r.at_ 0x48 8))))) s

/-- LAUNCH and LAUNCHI over the indices they select (R393, R396). -/
def State.launchRecords (s : State) (q : Fin 64) (x : Exec) (a : Arg) (total : Nat) (l : List Nat) : State :=
  let (recs, s) := s.readRecords q a.w1 l
  match launchStatus recs total false with
  | some status => s.refuseLaunch q x a recs status
  | none =>
    let ids := serials s.bel.nextTid recs.length
    let s := s.makeTasks q x a recs none fun _ t => t
    let ready := ids.filter fun t => ((s.task t).map fun y => y.deps == 0).getD false
    (ready.foldl State.markReady s).finishAt q x.idx

/-! ## The commands (R392, R393, R400) -/

/-- NOPC (R393). -/
def execNopc (s : State) : Out :=
  commandOf s (fun a => onlyBits a.w0 0xFF && a.w1 == 0 && a.w2 == 0 && a.w3 == 0) fun s q x _ => s.finishAt q x.idx

/-- LAUNCH (R393, R396). -/
def execLaunch (s : State) : Out :=
  commandOf s (fun a => onlyBits a.w0 0x3FFFF00FF && bits a.w0 16 16 != 0 && decide (bits a.w0 32 2 ≤ 1) && a.w1.toNat % 64 == 0
      && onlyBits a.w2 0xFFFFFFFF && a.w3 == 0) fun s q x a =>
    s.launchRecords q x a (bits a.w0 16 16) (List.range (bits a.w0 16 16))

/-- Routing entries whose RCOUNT is not zero, ascending; none at the first read that fails. -/
def State.routed (s : State) (q : Fin 64) (table : Word) (l : List Nat) : Option (List Nat × State) :=
  l.foldl (fun (acc : Option (List Nat × State)) e =>
    match acc with
    | none => none
    | some (l, s) => match s.belfryRead q (table + wd (32 * e + 0x1C)) 4 with
      | .error _ => none
      | .ok (v, s) => some (if v = 0 then l else l ++ [e], s)) (some ([], s))

/-- LAUNCHI (R393): by a count, or by the routing entries that hold deferred tokens. -/
def execLaunchi (s : State) : Out :=
  commandOf s (fun a => onlyBits a.w0 0x3000100FF && decide (bits a.w0 32 2 ≤ 1) && a.w1.toNat % 64 == 0
      && bits a.w2 32 32 != 0 && decide (bits a.w2 32 32 ≤ 65535) && a.w3.toNat % (if bit a.w0 16 then 32 else 4) == 0) fun s q x a =>
    let max_ := bits a.w2 32 32
    if bit a.w0 16 then
      match s.routed q a.w3 (List.range max_) with
      | none => s.freezeFor q 0x04#8
      | some (l, s) => s.launchRecords q x a max_ l
    else
      match s.belfryRead q a.w3 4 with
      | .error _ => s.freezeFor q 0x04#8
      | .ok (k, s) => s.launchRecords q x a max_ (List.range (min k max_))

/-- Entries of a table in the queue's space: `n` of `b` bytes. -/
def State.readTable (s : State) (q : Fin 64) (va : Word) (n b : Nat) : Option (List Nat × State) :=
  match s.belfryRead q va (n * b) with
  | .error _ => none
  | .ok (v, s) => some ((List.range n).map fun i => field v (8 * b * i) (8 * b), s)

/-- The gang table and what it names: the table, windows as START and LENGTH, rows of shares. None when a read fails. -/
def State.readGang (s : State) (q : Fin 64) (va : Word) (m : Nat) (sched : Bool) :
    Option (Nat × List (Nat × Nat) × List (List Nat) × State) := do
  let (l, s) ← s.readTable q va 1 64
  let t := l.getD 0 0
  let (wins, s) ← if field t 64 64 = 0 then pure ([], s) else s.readTable q (wd (field t 64 64)) m 4
  let rows := field t 256 16
  let (shares, s) ← if sched && field t 128 64 != 0 then s.readTable q (wd (field t 128 64)) (rows * m) 2 else pure ([], s)
  pure (t, wins.map (fun w => (field w 0 16, field w 16 16)), (List.range rows).map (fun k => (shares.drop (k * m)).take m), s)

/-- Limits of a gang table (R400). -/
def gangTableOk (t m : Nat) (sched : Bool) (rows : List (List Nat)) : Bool :=
  field t 288 224 == 0 && (!sched || (field t 128 64 != 0 && field t 192 64 % 8 == 0 && decide (1 ≤ field t 256 16) && decide (field t 256 16 ≤ 4)
    && field t 272 16 != 0 && rows.all fun r => r.length == m && r.all (· != 0)))

/-- The lowest gang identifier that is free (R400). -/
def State.freeGang (s : State) : Option (BitVec 16) :=
  if 4096 ≤ s.groups.length then none else
  ((List.range 0x8000).map fun i => BitVec.ofNat 16 (0x8000 + i)).find? fun g => !s.groups.any fun x => x.gid == g

/-- GANG (R400): one gang of m records, its group, its barrier and its schedule word. -/
def execGang (s : State) : Out :=
  commandOf s (fun a => onlyBits a.w0 0x3FFFF00FF && bits a.w0 16 16 != 0 && decide (bits a.w0 16 16 ≤ 1024) && bits a.w0 32 2 % 2 == 0
      && a.w1.toNat % 64 == 0 && onlyBits a.w2 0xFFFFFFFF) fun s q x a =>
    let m := bits a.w0 16 16
    let sched := bits a.w0 32 2 == 2
    match s.readGang q a.w3 m sched with
    | none => s.freezeFor q 0x04#8
    | some (t, wins, rows, s) =>
      if !gangTableOk t m sched rows then s.freezeFor q 0x01#8 else
      let (recs, s) := s.readRecords q a.w1 (List.range m)
      match launchStatus recs m true, s.freeGang with
      | some status, _ => s.refuseLaunch q x a recs status
      | none, none => s.freezeFor q 0x08#8
      | none, some gid =>
        let schword := wd (field t 192 64)
        match (if sched then s.belfryWrite q schword 8 0 else some s) with
        | none => s.freezeFor q 0x04#8
        | some s =>
          let ids := serials s.bel.nextTid m
          let bar : Barrier := { armed := true, group := gid, target := m }
          let s := s.makeTasks q x a recs (some (field t 0 64)) fun i t =>
            { t with gang := some gid, member := i, msg := { t.msg with bars := t.msg.bars.set 15 bar } }
          let asid := (((s.queue q).ctx).map QCtx.asid).getD 0
          let s := { s with groups := s.groups ++ [{ gid := gid, asid := asid, members := ids.zip (List.range m) }],
                            gangs := s.gangs ++ [{ gid := gid, q := q, members := ids, sched := if sched then rows else [],
                                                   period := field t 272 16, schword := schword, windows := wins }] }
          (ids.foldl State.markReady s).finishAt q x.idx

/-- WAIT (R393): the count goes to W1; a write that faults has completed its wait. -/
def execWait (s : State) : Out :=
  commandOf s (fun a => onlyBits a.w0 0xFF && a.w2 == 0 && a.w3 == 0) fun s q x a =>
    if !x.mine.isEmpty then s.block .wait a else
    let s := s.updRun q fun r => { r with fails := 0 }
    match (if a.w1 = 0 then some s else s.belfryWrite q a.w1 8 x.fails) with
    | none => s.freezeFor q 0x04#8
    | some s => s.finishAt q x.idx

/-- LOOPC (R393, R394). -/
def execLoopc (s : State) : Out :=
  commandOf s (fun a => onlyBits a.w0 0xFFFF000100FF && bits a.w0 32 16 != 0 && a.w2 == 0 && a.w3 == 0) fun s q x a =>
    let last := x.idx + bits a.w0 32 16
    if x.len ≤ last then s.freezeFor q 0x02#8
    else if 4 ≤ x.loops.length ∨ (x.loops.head?.map fun l => decide (l.2.1 < last)) = some true then s.freezeFor q 0x03#8
    else
      match (if bit a.w0 16 then s.belfryRead q a.w1 8 else .ok (a.w1.toNat, s)) with
      | .error _ => s.freezeFor q 0x04#8
      | .ok (c, s) =>
        if c = 0 then s.finishAt q last
        else (s.updRun q fun r => { r with idx := r.idx + 1, loops := (r.idx + 1, last, c) :: r.loops, cmd := none }).finish q

/-- A comparison of IFC, unsigned (R393). -/
def ifcHolds (cc x y : Nat) : Bool :=
  match cc with
  | 0 => x == y
  | 1 => x != y
  | 2 => decide (x < y)
  | 3 => decide (x ≤ y)
  | 4 => decide (y < x)
  | _ => decide (y ≤ x)

/-- IFC (R393, R394). -/
def execIfc (s : State) : Out :=
  commandOf s (fun a => onlyBits a.w0 0xFFFF000700FF && decide (bits a.w0 16 3 ≤ 5) && bits a.w0 32 16 != 0 && a.w1.toNat % 8 == 0) fun s q x a =>
    match s.belfryRead q a.w1 8 with
    | .error _ => s.freezeFor q 0x04#8
    | .ok (v, s) =>
      let last := x.idx + bits a.w0 32 16
      if ifcHolds (bits a.w0 16 3) (v &&& a.w2.toNat) a.w3.toNat then s.finishAt q x.idx
      else if (x.loops.head?.map fun l => decide (l.2.1 < last)) = some true then s.freezeFor q 0x01#8
      else s.finishAt q last

/-- WRITE (R393). -/
def execWrite (s : State) : Out :=
  commandOf s (fun a => onlyBits a.w0 0x100FF && a.w1.toNat % 8 == 0 && a.w3 == 0) fun s q x a =>
    if bit a.w0 16 && !x.mine.isEmpty then s.block .write a else
    match s.belfryWrite q a.w1 8 a.w2.toNat with
    | none => s.freezeFor q 0x04#8
    | some s => s.finishAt q x.idx

/-- SIGNAL (R393): after the records of the tasks completed so far; the Belfry core waits with it (R391). -/
def execSignal (s : State) : Out :=
  commandOf s (fun a => onlyBits a.w0 0x7FF00FF && a.w1 == 0 && a.w2 == 0 && a.w3 == 0) fun s q x a =>
    if (s.queue q).recs.any (fun r => !r.old) then s.post 1 .signal a
    else ({ s with out := s.out ++ [Output.interrupt (bits a.w0 16 11)] }).finishAt q x.idx

/-- CHAIN (R393, R394). -/
def execChain (s : State) : Out :=
  commandOf s (fun a => onlyBits a.w0 0xFF && a.w1.toNat % 32 == 0 && onlyBits a.w2 0xFFFFFF && a.w2 != 0 && a.w3 == 0) fun s q x a =>
    if !x.loops.isEmpty then s.freezeFor q 0x03#8
    else (s.updRun q fun r => { r with addr := a.w1, len := a.w2.toNat, idx := 0, cmd := none }).finish q

/-- A submission entry has been dealt with: HEAD moves on. -/
def Queue.nextEntry (x : Queue) : Queue :=
  { x with qhead := x.qhead + 1, run := none, recs := x.recs.map fun (r : CRec) => { r with old := true },
           peers := x.peers.filter fun (y : Fin 64 × Nat) => y.2 != x.qhead.toNat }

/-- END (R393, R394). -/
def execEndC (s : State) : Out :=
  commandOf s (fun a => onlyBits a.w0 0xFF && a.w1 == 0 && a.w2 == 0 && a.w3 == 0) fun s q x _ =>
    if !x.loops.isEmpty then s.freezeFor q 0x03#8
    else (s.updQueue q fun y => { y.nextEntry with st := 0 }).post 0 .submissionEntryStart {}

/-! ## Doorbells and acknowledgements (R388, R399, R407) -/

/-- A refused write to the Belfry block (R388). -/
def State.refuseBelfry (s : State) : State := { s with bel := { s.bel with refused := true } }

/-- QUEUE_DOORBELL (R388, R475): TAIL of queue `q` becomes `w0`. -/
def execQueueDoorbell (s : State) : Out :=
  let q := s.arg.q
  let x := s.queue q
  let v := s.arg.w0
  if bits v 32 32 ≠ 0 ∨ bit x.qctl 7 then .next s.refuseBelfry
  else if 2 ^ bits x.qctl 8 5 < (v.setWidth 32 - x.qhead).toNat then .next (s.freezeFor q 0x0A#8)
  else .next ((s.updQueue q fun x => { x with qtail := v.setWidth 32 }).post 0 .submissionEntryStart {})

/-- A queue as a QACK leaves it, when its stream stands so. -/
def Queue.thaw (x : Queue) : Queue := { x with st := if x.run.isSome then 1 else 0, cause := 0, origin := 0, stale := true }

/-- Whether a freeze is resumed with the next submission entry (R399). -/
def resumesNext (cause : BitVec 8) : Bool := [0x01#8, 0x02#8, 0x03#8, 0x04#8, 0x0B#8, 0x0A#8].contains cause

/-- QACK_RESUME (R399). -/
def execQackResume (s : State) : Out :=
  let q := s.arg.q
  let x := s.queue q
  if x.st ≠ 2 then .next s.refuseBelfry else
  let y := match x.run with
    | none => x
    | some r => if resumesNext x.cause then x.nextEntry
                else { x with run := some (if r.cmd.isSome then r.pass r.idx else r) }
  .next ((s.updQueue q fun _ => y.thaw).post 0 .submissionEntryStart {})

/-- QACK_DISCARD (R399). -/
def execQackDiscard (s : State) : Out :=
  let q := s.arg.q
  let x := s.queue q
  if x.st ≠ 2 then .next s.refuseBelfry else
  .next ((s.updQueue q fun x => { x.nextEntry with qhead := x.qtail, peers := [] }.thaw).post 0 .submissionEntryStart {})

/-- PREEMPT_GO (R407): the resident task named in ID is pre-empted for firmware. -/
def execPreemptGo (s : State) : Out :=
  let tid : BitVec 32 := s.arg.w0.setWidth 32
  match s.task tid with
  | none => .next s
  | some t => if t.st = .resident then .next (s.post 0 .preemptTask { tid := tid, u := 6 }) else .next s

end Sys2Proof.Machine
end

