-- ==== Sys2Proof/Machine/Control.lean ====
section
/-! DEFINITION. Control operations: transfers, calls, returns, loops, predicates and the mask stack (R146-R178). -/

namespace Sys2Proof.Machine

open Sys2Proof

/-! ## Transfers (R147-R151) -/

/-- Next bundle: T through a target's copies, with latches cleared and levels left (R149, R151). -/
def State.transfer (w : State) (t : Word) (code : List (Nat × Bundle)) : State :=
  w.updFr fun f =>
    let f := f.leaveLevels t
    { f with ctl := { f.ctl with taken := some t, clearLat := true, fetched := code, loopWait := none } }

/-- The entry a taken transfer goes through: invalid faults, a fetch still pending holds (R147, R148). -/
def useTarget (s0 : State) (t : BitVec 3) : Except Stop Target := do
  let e := s0.fr.ctl.tg.get ⟨t.toNat, t.isLt⟩
  let _ ← require e.valid Cause.targetBuffer
  let _ ← holdWhile (!e.outRange && !e.filled)
  .ok e

/-- PREP: the entry's address and valid bit at issue, its bundles four cycles later (R147, R148). -/
def opPrep (t : BitVec 3) (i : BitVec 12) : Op where
  sem c s0 w :=
    let a := s0.fr.ctl.pc + BitVec.ofInt 64 (immL c i * 16)
    let out := !s0.fr.id.codeOk a
    let w := w.updCtl fun x =>
      { x with tg := x.tg.set t.toNat { valid := true, addr := a, outRange := out, filled := out } t.isLt }
    .ok (if out then w else w.postFree w.cur 3 .prepFetchComplete (w.fr.fetchArg w.here.run t.toNat a))

/-- A transfer taken when the condition holds at issue (R149). -/
def xferOp (legal : Bool) (t : BitVec 3) (cond : Frame → Bool) : Op where
  legal _ := legal
  sem _ s0 w :=
    if cond s0.fr then do
      let e ← useTarget s0 t
      .ok (w.transfer e.addr e.code)
    else .ok w

def opXfer (t : BitVec 3) : Op := xferOp true t fun _ => true
/-- XFERE: the tested bits of the active mask are all zero; never with an empty stack (R149). -/
def opXfere (t : BitVec 3) (w : BitVec 6) : Op :=
  xferOp (widthOk w) t fun f => !f.visible.isEmpty && lowMask f.active (widthElems w.toNat) == 0
/-- XFERA: the tested bits are all one; always with an empty stack (R149). -/
def opXfera (t : BitVec 3) (w : BitVec 6) : Op :=
  xferOp (widthOk w) t fun f => f.visible.isEmpty || lowMask f.active (widthElems w.toNat) == ones (widthElems w.toNat)

/-- CALL: the link, the raised floor, and a transfer that closes no level (R152, R169). -/
def opCall (t : BitVec 3) (l : BitVec 6) : Op where
  legal _ := sDst l
  sregs _ := [l]
  sem c s0 w := do
    let e ← useTarget s0 t
    let link := (s0.fr.ctl.pc + 16) ||| BitVec.ofNat 64 s0.fr.ctl.floor
    let w := w.result c.slot 1 (.s l.toNat) (firstBytes 8) (link.setWidth 4096) none
    let w := w.updCtl fun x => { x with floor := x.depth }
    .ok (w.transfer e.addr e.code)

/-- A refetch: nothing issues before cycle `n`, nor before the fetch arrives (R153, R158, R274). -/
def State.refetchAt (w : State) (n : Nat) : State :=
  let k := w.here.run
  let w := w.updCtl fun x => { x with notBefore := n, refetch := true }
  w.postFree w.cur (n - 1 - w.cyc w.cur) .bundleFetch { k := k, id := n }

/-- RET (R153, R170). -/
def opRet (a : BitVec 6) : Op where
  legal _ := sSrc a
  sregs _ := [a]
  sem _ s0 w := do
    let l ← getS s0 a
    let f := s0.fr
    let _ ← require (decide (f.ctl.depth ≤ f.ctl.floor)) Cause.loopNesting
    let _ ← if canonical l && !bit l 3 then .ok () else trapAt Cause.address l.toNat
    let _ ← require (decide (bits l 0 3 ≤ f.ctl.depth)) Cause.loopNesting
    let w := w.updCtl fun x => { x with floor := bits l 0 3 }
    .ok ((w.transfer (l &&& ~~~(0xF#64)) []).refetchAt (w.cyc w.cur + 7))

/-- HALT: no later bundle issues, tile pins are released; the task completes when its work has (R154, R218). -/
def opHalt : Op where
  sem _ _ w :=
    let w := w.updFr fun f => { f with ctl := { f.ctl with halted := true }, mat := { f.mat with pins := [] } }
    .ok (w.post 0 .taskComplete { tid := w.fr.id.task, c := w.cur, k := w.here.run, u := 0 })

/-! ## Loops (R157-R168) -/

/-- Opening a level, or skipping a loop of no iteration (R158). -/
def loopOp (legal : SlotCtx → Bool) (count : BitVec 6) (off : SlotCtx → Int) (stages : Nat) (pipe : Bool) : Op where
  legal c := sSrc count && legal c && decide (1 ≤ off c)
  sregs _ := [count]
  sem c s0 w := do
    let f := s0.fr
    let a := f.ctl.pc
    let stop := a + BitVec.ofInt 64 (16 * off c)
    let _ ← require (decide (stop.toNat < f.id.codelim.toNat)) Cause.fetchLimit
    let v := f.ctl.depth
    if h : v < 6 then
      let _ ← require (!(decide (f.ctl.floor < v) && decide ((f.ctl.lv.get ⟨v - 1, by omega⟩).lstop.toNat < stop.toNat)))
        Cause.loopNesting
      let x ← getS s0 count
      let n := x.toInt
      let _ ← require (decide (n < 2 ^ 47)) Cause.loopCount
      if n ≤ 0 then
        .ok ((w.updCtl fun y => { y with taken := some (stop + 16), fetched := [] }).refetchAt (w.cyc w.cur + 7))
      else
        let lev : Level := { (f.ctl.lv.get ⟨v, h⟩) with
          lcnt := n.toNat + stages - 1, lidx := 0, lrotc := 0, lstart := a + 16, lstop := stop, stages := stages,
          pipe := pipe, nest := false, isOpen := true, filled := false, buf := [],
          savedp := if pipe then (f.preds >>> 4).setWidth 4 else 0 }
        let w := w.updCtl fun y => { y with lv := y.lv.set v lev h, depth := v + 1 }
        .ok (w.postFree w.cur 3 .loopBufferFill (w.fr.fetchArg w.here.run v a))
    else trapOf Cause.loopNesting

def opLoop (c : BitVec 6) (o : BitVec 12) : Op := loopOp (fun _ => true) c (fun x => immL x o) 1 false
/-- LOOPS: an unsigned offset of 10 bits, or 30 with a header (R157). -/
def opLoops (c : BitVec 6) (s : BitVec 2) (o : BitVec 10) : Op :=
  loopOp (fun _ => true) c (fun x => match x.hx with
    | some h => (h * 1024 + o.toNat : Nat)
    | none => (o.toNat : Nat)) (s.toNat + 1) true

/-- LBRK: the innermost level above the floor closes, and enclosing levels that end with it advance (R166, R167). -/
def opLbrk : Op where
  sem _ s0 w := do
    let f := s0.fr
    if h : f.ctl.floor < f.ctl.depth ∧ f.ctl.depth ≤ 6 then
      let v : Fin 6 := ⟨f.ctl.depth - 1, by omega⟩
      let b := (f.ctl.lv.get v).lstop
      .ok (w.updFr fun g =>
        let r := (g.closeLevel v).backEdge b 6
        { r.1 with ctl := { r.1.ctl with taken := some r.2.1, clearLat := true,
                                         loopWait := some (r.2.2.getD v), fetched := [] } })
    else trapOf Cause.loopNesting
/-- LBRK.d: the trip count falls to the iterations started (R166, R167). -/
def opLbrkD : Op where
  sem _ s0 w := do
    let f := s0.fr
    if h : f.ctl.floor < f.ctl.depth ∧ f.ctl.depth ≤ 6 then
      let v : Fin 6 := ⟨f.ctl.depth - 1, by omega⟩
      .ok (w.updCtl fun y =>
        let x := y.lv.get v
        let n := x.lidx + x.lcnt + 1 - x.stages
        let m := min (x.lidx + 1) n
        { y with lv := y.lv.set v.val { x with lcnt := m + x.stages - 1 - x.lidx } v.isLt })
    else trapOf Cause.loopNesting

/-! ## Predicates (R155, R156) -/

/-- A predicate from the frame at issue (R155). -/
def predOp (legal : Bool) (d : BitVec 3) (v : Frame → Bool) : Op where
  legal _ := legal && pDst d
  sem c s0 w := do
    let _ ← require (s0.fr.predWritable d.toNat) Cause.illegalInstruction
    .ok (predResult c d (v s0.fr) w)

def opPand (d a b : BitVec 3) : Op := predOp true d fun f => f.pval a.toNat && f.pval b.toNat
def opPor (d a b : BitVec 3) : Op := predOp true d fun f => f.pval a.toNat || f.pval b.toNat
def opPxor (d a b : BitVec 3) : Op := predOp true d fun f => f.pval a.toNat != f.pval b.toNat
def opPnot (d a : BitVec 3) : Op := predOp true d fun f => !f.pval a.toNat
def opPmov (d a : BitVec 3) : Op := predOp true d fun f => f.pval a.toNat
def opPall (d a : BitVec 3) (w : BitVec 6) : Op :=
  predOp (widthOk w) d fun f => lowMask (f.r.mks.get ⟨a.toNat, a.isLt⟩) (widthElems w.toNat) == ones (widthElems w.toNat)
def opPany (d a : BitVec 3) (w : BitVec 6) : Op :=
  predOp (widthOk w) d fun f => lowMask (f.r.mks.get ⟨a.toNat, a.isLt⟩) (widthElems w.toNat) != 0

/-! ## The mask stack (R174, R175, R273) -/

def opMpush (a : BitVec 3) : Op where
  sem _ s0 w := do
    let f := s0.fr
    let _ ← require (decide (f.r.mstack.length < 16)) Cause.maskStack
    .ok (w.updRegs fun r => { r with mstack := (f.active &&& f.r.mks.get ⟨a.toNat, a.isLt⟩) :: r.mstack })
def opMpushIn (a : BitVec 3) : Op where
  sem _ s0 w := do
    let f := s0.fr
    let _ ← require (!f.visible.isEmpty) Cause.maskStack
    .ok (w.updRegs fun r => { r with mstack := (f.active &&& f.r.mks.get ⟨a.toNat, a.isLt⟩) :: r.mstack.drop 1 })
def opMinv : Op where
  sem _ s0 w := do
    let f := s0.fr
    let _ ← require (!f.visible.isEmpty) Cause.maskStack
    let below := (f.visible.drop 1).headD allBytes
    .ok (w.updRegs fun r => { r with mstack := (below &&& ~~~f.active) :: r.mstack.drop 1 })
def opMpop : Op where
  sem _ s0 w := do
    let _ ← require (!s0.fr.visible.isEmpty) Cause.maskStack
    .ok (w.updRegs fun r => { r with mstack := r.mstack.drop 1 })
def opMget (d : BitVec 3) : Op where
  sem c s0 w := .ok (maskResult c 1 d allBytes s0.fr.active w)

/-! ## The instructions -/

/-- PREP (R147). -/
def execPrep (p : BitVec 3) (t : BitVec 3) (i : BitVec 12) (s : State) : Out :=
  issueOne s p 5 (opPrep t i)
/-- XFER (R149). -/
def execXfer (p : BitVec 3) (t : BitVec 3) (s : State) : Out :=
  issueOne s p 5 (opXfer t)
/-- XFERE (R149). -/
def execXfere (p : BitVec 3) (t : BitVec 3) (w : BitVec 6) (s : State) : Out :=
  issueOne s p 5 (opXfere t w)
/-- XFERA (R149). -/
def execXfera (p : BitVec 3) (t : BitVec 3) (w : BitVec 6) (s : State) : Out :=
  issueOne s p 5 (opXfera t w)
/-- CALL (R152). -/
def execCall (p : BitVec 3) (t : BitVec 3) (l : BitVec 6) (s : State) : Out :=
  issueOne s p 5 (opCall t l)
/-- RET (R153). -/
def execRet (p : BitVec 3) (a : BitVec 6) (s : State) : Out :=
  issueOne s p 5 (opRet a)
/-- HALT (R154). -/
def execHalt (p : BitVec 3) (s : State) : Out :=
  issueOne s p 5 (opHalt )
/-- LOOP (R158). -/
def execLoop (p : BitVec 3) (c : BitVec 6) (o : BitVec 12) (s : State) : Out :=
  issueOne s p 5 (opLoop c o)
/-- LOOPS (R158). -/
def execLoops (p : BitVec 3) (c : BitVec 6) (s : BitVec 2) (o : BitVec 10) (st : State) : Out :=
  issueOne st p 5 (opLoops c s o)
/-- LBRK (R166). -/
def execLbrk (p : BitVec 3) (s : State) : Out :=
  issueOne s p 5 (opLbrk )
/-- LBRK_D (R166). -/
def execLbrkD (p : BitVec 3) (s : State) : Out :=
  issueOne s p 5 (opLbrkD )
/-- PAND (R155). -/
def execPand (p : BitVec 3) (d : BitVec 3) (a : BitVec 3) (b : BitVec 3) (s : State) : Out :=
  issueOne s p 5 (opPand d a b)
/-- POR (R155). -/
def execPor (p : BitVec 3) (d : BitVec 3) (a : BitVec 3) (b : BitVec 3) (s : State) : Out :=
  issueOne s p 5 (opPor d a b)
/-- PXOR (R155). -/
def execPxor (p : BitVec 3) (d : BitVec 3) (a : BitVec 3) (b : BitVec 3) (s : State) : Out :=
  issueOne s p 5 (opPxor d a b)
/-- PNOT (R155). -/
def execPnot (p : BitVec 3) (d : BitVec 3) (a : BitVec 3) (s : State) : Out :=
  issueOne s p 5 (opPnot d a)
/-- PMOV (R155). -/
def execPmov (p : BitVec 3) (d : BitVec 3) (a : BitVec 3) (s : State) : Out :=
  issueOne s p 5 (opPmov d a)
/-- PALL (R156). -/
def execPall (p : BitVec 3) (d : BitVec 3) (a : BitVec 3) (w : BitVec 6) (s : State) : Out :=
  issueOne s p 5 (opPall d a w)
/-- PANY (R156). -/
def execPany (p : BitVec 3) (d : BitVec 3) (a : BitVec 3) (w : BitVec 6) (s : State) : Out :=
  issueOne s p 5 (opPany d a w)
/-- MPUSH (R175). -/
def execMpush (p : BitVec 3) (a : BitVec 3) (s : State) : Out :=
  issueOne s p 5 (opMpush a)
/-- MPUSH_IN (R175). -/
def execMpushIn (p : BitVec 3) (a : BitVec 3) (s : State) : Out :=
  issueOne s p 5 (opMpushIn a)
/-- MINV (R175). -/
def execMinv (p : BitVec 3) (s : State) : Out :=
  issueOne s p 5 (opMinv )
/-- MPOP (R175). -/
def execMpop (p : BitVec 3) (s : State) : Out :=
  issueOne s p 5 (opMpop )
/-- MGET (R175). -/
def execMget (p : BitVec 3) (d : BitVec 3) (s : State) : Out :=
  issueOne s p 5 (opMget d)

end Sys2Proof.Machine
end

