-- ==== Sys2Proof/Machine/Scalar.lean ====
section
/-! DEFINITION. Scalar operations: arithmetic, logic, immediates, compares, views (R132-R139, R144, R145). -/

namespace Sys2Proof.Machine

open Sys2Proof

/-- A scalar result: destination, or the latch alone with NW = 1 (R53, R132). -/
def sResult (c : SlotCtx) (n : BitVec 1) (d : BitVec 6) (lat : Nat) (v : Word) (w : State) : State :=
  w.result c.slot lat (if n = 1 then .none else .s d.toNat) (if n = 1 then 0 else firstBytes 8) (v.setWidth 4096) (some 0)

/-- An operation on two scalars (R134). -/
def scalar3 (lat : Nat) (n : BitVec 1) (d a b : BitVec 6) (f : Word → Word → Word) : Op where
  legal _ := okS3 n d a b
  sregs _ := [d, a, b]
  sem c s0 w := do
    let x ← getS s0 a
    let y ← getS s0 b
    .ok (sResult c n d lat (f x y) w)

/-- An operation on one scalar (R134). -/
def scalar2 (n : BitVec 1) (d a : BitVec 6) (f : Word → Word) : Op where
  legal _ := okS2 n d a
  sregs _ := [d, a]
  sem c s0 w := do
    let x ← getS s0 a
    .ok (sResult c n d 1 (f x) w)

/-- An operation on a scalar and an immediate (R137). -/
def scalarI (lat : Nat) (n : BitVec 1) (d a i : BitVec 6) (f : Word → Word → Word) : Op where
  legal _ := okS2 n d a
  sregs _ := [d, a]
  sem c s0 w := do
    let x ← getS s0 a
    .ok (sResult c n d lat (f x (immS c i)) w)

/-- A shift by a raw amount; header bits must be zero (R137). -/
def scalarShI (n : BitVec 1) (d a i : BitVec 6) (f : Word → Nat → Word) : Op where
  legal c := okS2 n d a && c.hx.getD 0 == 0
  sregs _ := [d, a]
  sem c s0 w := do
    let x ← getS s0 a
    .ok (sResult c n d 1 (f x i.toNat) w)

/-- A divide: held while the divider is busy, latency 18 (R133, R135). -/
def scalarDiv (n : BitVec 1) (d a b : BitVec 6) (f : Word → Word → Word) : Op where
  legal _ := okS3 n d a b
  sregs _ := [d, a, b]
  sem c s0 w := do
    let x ← getS s0 a
    let y ← getS s0 b
    let _ ← holdWhile (decide (s0.cyc s0.cur < s0.here.divFree))
    let w := w.updCore w.cur fun k => { k with divFree := w.cyc w.cur + 18 }
    .ok (sResult c n d 18 (f x y) w)

/-- Shift amount (R134). -/
def amount (b : Word) : Nat := b.toNat % 64

/-- Signed quotient, truncated toward zero; the corners of R135. -/
def sdivW (a b : Word) : Word :=
  if b = 0 then BitVec.allOnes 64
  else if a = 0x8000000000000000#64 ∧ b = BitVec.allOnes 64 then a
  else BitVec.ofInt 64 (a.toInt.tdiv b.toInt)
/-- Signed remainder with the sign of the dividend (R135). -/
def sremW (a b : Word) : Word :=
  if b = 0 then a
  else if a = 0x8000000000000000#64 ∧ b = BitVec.allOnes 64 then 0
  else a - sdivW a b * b
/-- Unsigned quotient (R135). -/
def udivW (a b : Word) : Word := if b = 0 then BitVec.allOnes 64 else BitVec.ofNat 64 (a.toNat / b.toNat)
/-- Unsigned remainder (R135). -/
def uremW (a b : Word) : Word := if b = 0 then a else BitVec.ofNat 64 (a.toNat % b.toNat)

/-- The field of a control word: position, width cut to bit 63 (R136). -/
def extField (c : Word) : Nat × Nat :=
  let p := bits c 0 6
  (p, min (bits c 8 6 + 1) (64 - p))
/-- EXT (R136). -/
def extW (a c : Word) : Word :=
  let (p, w) := extField c
  if bit c 16 then sext (field a.toNat p w) w else zext (field a.toNat p w) w
/-- INS (R136). -/
def insW (old a c : Word) : Word :=
  let (p, w) := extField c
  let mask : Word := BitVec.ofNat 64 (ones w <<< p)
  (old &&& ~~~mask) ||| ((a <<< p) &&& mask)

/-- Minimum and maximum (R134). -/
def sminW (a b : Word) : Word := if a.toInt ≤ b.toInt then a else b
def smaxW (a b : Word) : Word := if a.toInt ≤ b.toInt then b else a
def uminW (a b : Word) : Word := if a.toNat ≤ b.toNat then a else b
def umaxW (a b : Word) : Word := if a.toNat ≤ b.toNat then b else a

def opAdd (n : BitVec 1) (d a b : BitVec 6) : Op := scalar3 1 n d a b fun x y => x + y
def opSub (n : BitVec 1) (d a b : BitVec 6) : Op := scalar3 1 n d a b fun x y => x - y
def opMul (n : BitVec 1) (d a b : BitVec 6) : Op := scalar3 3 n d a b fun x y => x * y
def opMulh (n : BitVec 1) (d a b : BitVec 6) : Op := scalar3 3 n d a b fun x y => BitVec.ofInt 64 (x.toInt * y.toInt / 2 ^ 64)
def opMulhn (n : BitVec 1) (d a b : BitVec 6) : Op := scalar3 3 n d a b fun x y => BitVec.ofNat 64 (x.toNat * y.toNat / 2 ^ 64)
def opDiv (n : BitVec 1) (d a b : BitVec 6) : Op := scalarDiv n d a b sdivW
def opDivn (n : BitVec 1) (d a b : BitVec 6) : Op := scalarDiv n d a b udivW
def opRem (n : BitVec 1) (d a b : BitVec 6) : Op := scalarDiv n d a b sremW
def opRemn (n : BitVec 1) (d a b : BitVec 6) : Op := scalarDiv n d a b uremW
def opAndR (n : BitVec 1) (d a b : BitVec 6) : Op := scalar3 1 n d a b fun x y => x &&& y
def opOrR (n : BitVec 1) (d a b : BitVec 6) : Op := scalar3 1 n d a b fun x y => x ||| y
def opXor (n : BitVec 1) (d a b : BitVec 6) : Op := scalar3 1 n d a b fun x y => x ^^^ y
def opAndn (n : BitVec 1) (d a b : BitVec 6) : Op := scalar3 1 n d a b fun x y => x &&& ~~~y
def opShl (n : BitVec 1) (d a b : BitVec 6) : Op := scalar3 1 n d a b fun x y => x <<< amount y
def opShr (n : BitVec 1) (d a b : BitVec 6) : Op := scalar3 1 n d a b fun x y => x >>> amount y
def opSar (n : BitVec 1) (d a b : BitVec 6) : Op := scalar3 1 n d a b fun x y => x.sshiftRight (amount y)
def opRotr (n : BitVec 1) (d a b : BitVec 6) : Op := scalar3 1 n d a b fun x y => x.rotateRight (amount y)
def opMin (n : BitVec 1) (d a b : BitVec 6) : Op := scalar3 1 n d a b sminW
def opMax (n : BitVec 1) (d a b : BitVec 6) : Op := scalar3 1 n d a b smaxW
def opMinn (n : BitVec 1) (d a b : BitVec 6) : Op := scalar3 1 n d a b uminW
def opMaxn (n : BitVec 1) (d a b : BitVec 6) : Op := scalar3 1 n d a b umaxW
def opClz (n : BitVec 1) (d a : BitVec 6) : Op := scalar2 n d a fun x => BitVec.ofNat 64 (leadZeros x.toNat 64)
def opPopc (n : BitVec 1) (d a : BitVec 6) : Op := scalar2 n d a fun x => BitVec.ofNat 64 (popCount x.toNat 64)
def opAbs (n : BitVec 1) (d a : BitVec 6) : Op := scalar2 n d a fun x => if x.toInt < 0 then 0 - x else x
def opExt (n : BitVec 1) (d a b : BitVec 6) : Op := scalar3 1 n d a b extW
/-- INS reads its destination as a third source; with NW = 1 that source is S0 (R136). -/
def opIns (n : BitVec 1) (d a b : BitVec 6) : Op where
  legal _ := okS3 n d a b
  sregs _ := [d, a, b]
  sem c s0 w := do
    let x ← getS s0 a
    let y ← getS s0 b
    let old ← getS s0 d
    .ok (sResult c n d 1 (insW old x y) w)
def opLea1 (n : BitVec 1) (d a b : BitVec 6) : Op := scalar3 1 n d a b fun x y => x + y
def opLea2 (n : BitVec 1) (d a b : BitVec 6) : Op := scalar3 1 n d a b fun x y => x + y * 2
def opLea4 (n : BitVec 1) (d a b : BitVec 6) : Op := scalar3 1 n d a b fun x y => x + y * 4
def opLea8 (n : BitVec 1) (d a b : BitVec 6) : Op := scalar3 1 n d a b fun x y => x + y * 8
def opMov (n : BitVec 1) (d a : BitVec 6) : Op := scalar2 n d a fun x => x
def opAddi (n : BitVec 1) (d a i : BitVec 6) : Op := scalarI 1 n d a i fun x y => x + y
def opMuli (n : BitVec 1) (d a i : BitVec 6) : Op := scalarI 3 n d a i fun x y => x * y
def opAndi (n : BitVec 1) (d a i : BitVec 6) : Op := scalarI 1 n d a i fun x y => x &&& y
def opOri (n : BitVec 1) (d a i : BitVec 6) : Op := scalarI 1 n d a i fun x y => x ||| y
def opXori (n : BitVec 1) (d a i : BitVec 6) : Op := scalarI 1 n d a i fun x y => x ^^^ y
def opShli (n : BitVec 1) (d a i : BitVec 6) : Op := scalarShI n d a i fun x k => x <<< k
def opShri (n : BitVec 1) (d a i : BitVec 6) : Op := scalarShI n d a i fun x k => x >>> k
def opSari (n : BitVec 1) (d a i : BitVec 6) : Op := scalarShI n d a i fun x k => x.sshiftRight k
/-- MOVI (R138). -/
def opMovi (n : BitVec 1) (d i : BitVec 6) : Op where
  legal _ := okS1 n d
  sregs _ := [d]
  sem c _ w := .ok (sResult c n d 1 (immS c i) w)
/-- MOVHI (R138). -/
def opMovhi (n : BitVec 1) (d a i : BitVec 6) : Op :=
  scalarI 1 n d a i fun x y => (x <<< 26) ||| zext y.toNat 26

/-- A compare of two scalars into a predicate (R139). -/
def compareOp (legal : Bool) (regs : List (BitVec 6)) (d : BitVec 3) (v : SlotCtx → State → Except Stop Bool) : Op where
  legal _ := legal
  sregs _ := regs
  sem c s0 w := do
    let x ← v c s0
    let _ ← require (s0.fr.predWritable d.toNat) Cause.illegalInstruction
    .ok (predResult c d x w)

def opCmp (c : BitVec 4) (d : BitVec 3) (a b : BitVec 6) : Op :=
  compareOp (okCmp c d a b) [a, b] d fun _ s0 => do
    let x ← getS s0 a
    let y ← getS s0 b
    .ok (condS c.toNat x y)
def opCmpi (c : BitVec 4) (d : BitVec 3) (a i : BitVec 6) : Op :=
  compareOp (okCmpI c d a) [a] d fun ctx s0 => do
    let x ← getS s0 a
    .ok (condS c.toNat x (immS ctx i))

/-- VSET: the image is judged by R16 at issue (R144). -/
def opVset (v : BitVec 3) (a : BitVec 6) : Op where
  legal _ := sSrc a
  sregs _ := [a]
  sem _ s0 w := do
    let x ← getS s0 a
    let _ ← require (viewOk x) Cause.illegalInstruction
    .ok (w.updRegs fun r => { r with vw := r.vw.set v.toNat x v.isLt })
/-- VGET (R145). -/
def opVget (n : BitVec 1) (d : BitVec 6) (v : BitVec 3) : Op where
  legal _ := okS1 n d
  sregs _ := [d]
  sem c s0 w := .ok (sResult c n d 1 (s0.fr.r.vw.get ⟨v.toNat, v.isLt⟩) w)

/-! ## The instructions -/

/-- ADD (R134). -/
def execAdd (p : BitVec 3) (n : BitVec 1) (d : BitVec 6) (a : BitVec 6) (b : BitVec 6) (s : State) : Out :=
  issueOne s p 0 (opAdd n d a b)
/-- SUB (R134). -/
def execSub (p : BitVec 3) (n : BitVec 1) (d : BitVec 6) (a : BitVec 6) (b : BitVec 6) (s : State) : Out :=
  issueOne s p 0 (opSub n d a b)
/-- MUL (R134). -/
def execMul (p : BitVec 3) (n : BitVec 1) (d : BitVec 6) (a : BitVec 6) (b : BitVec 6) (s : State) : Out :=
  issueOne s p 0 (opMul n d a b)
/-- MULH (R134). -/
def execMulh (p : BitVec 3) (n : BitVec 1) (d : BitVec 6) (a : BitVec 6) (b : BitVec 6) (s : State) : Out :=
  issueOne s p 0 (opMulh n d a b)
/-- MULHN (R134). -/
def execMulhn (p : BitVec 3) (n : BitVec 1) (d : BitVec 6) (a : BitVec 6) (b : BitVec 6) (s : State) : Out :=
  issueOne s p 0 (opMulhn n d a b)
/-- DIV (R135). -/
def execDiv (p : BitVec 3) (n : BitVec 1) (d : BitVec 6) (a : BitVec 6) (b : BitVec 6) (s : State) : Out :=
  issueOne s p 0 (opDiv n d a b)
/-- DIVN (R135). -/
def execDivn (p : BitVec 3) (n : BitVec 1) (d : BitVec 6) (a : BitVec 6) (b : BitVec 6) (s : State) : Out :=
  issueOne s p 0 (opDivn n d a b)
/-- REM (R135). -/
def execRem (p : BitVec 3) (n : BitVec 1) (d : BitVec 6) (a : BitVec 6) (b : BitVec 6) (s : State) : Out :=
  issueOne s p 0 (opRem n d a b)
/-- REMN (R135). -/
def execRemn (p : BitVec 3) (n : BitVec 1) (d : BitVec 6) (a : BitVec 6) (b : BitVec 6) (s : State) : Out :=
  issueOne s p 0 (opRemn n d a b)
/-- AND (R134). -/
def execAndR (p : BitVec 3) (n : BitVec 1) (d : BitVec 6) (a : BitVec 6) (b : BitVec 6) (s : State) : Out :=
  issueOne s p 0 (opAndR n d a b)
/-- OR (R134). -/
def execOrR (p : BitVec 3) (n : BitVec 1) (d : BitVec 6) (a : BitVec 6) (b : BitVec 6) (s : State) : Out :=
  issueOne s p 0 (opOrR n d a b)
/-- XOR (R134). -/
def execXor (p : BitVec 3) (n : BitVec 1) (d : BitVec 6) (a : BitVec 6) (b : BitVec 6) (s : State) : Out :=
  issueOne s p 0 (opXor n d a b)
/-- ANDN (R134). -/
def execAndn (p : BitVec 3) (n : BitVec 1) (d : BitVec 6) (a : BitVec 6) (b : BitVec 6) (s : State) : Out :=
  issueOne s p 0 (opAndn n d a b)
/-- SHL (R134). -/
def execShl (p : BitVec 3) (n : BitVec 1) (d : BitVec 6) (a : BitVec 6) (b : BitVec 6) (s : State) : Out :=
  issueOne s p 0 (opShl n d a b)
/-- SHR (R134). -/
def execShr (p : BitVec 3) (n : BitVec 1) (d : BitVec 6) (a : BitVec 6) (b : BitVec 6) (s : State) : Out :=
  issueOne s p 0 (opShr n d a b)
/-- SAR (R134). -/
def execSar (p : BitVec 3) (n : BitVec 1) (d : BitVec 6) (a : BitVec 6) (b : BitVec 6) (s : State) : Out :=
  issueOne s p 0 (opSar n d a b)
/-- ROTR (R134). -/
def execRotr (p : BitVec 3) (n : BitVec 1) (d : BitVec 6) (a : BitVec 6) (b : BitVec 6) (s : State) : Out :=
  issueOne s p 0 (opRotr n d a b)
/-- MIN (R134). -/
def execMin (p : BitVec 3) (n : BitVec 1) (d : BitVec 6) (a : BitVec 6) (b : BitVec 6) (s : State) : Out :=
  issueOne s p 0 (opMin n d a b)
/-- MAX (R134). -/
def execMax (p : BitVec 3) (n : BitVec 1) (d : BitVec 6) (a : BitVec 6) (b : BitVec 6) (s : State) : Out :=
  issueOne s p 0 (opMax n d a b)
/-- MINN (R134). -/
def execMinn (p : BitVec 3) (n : BitVec 1) (d : BitVec 6) (a : BitVec 6) (b : BitVec 6) (s : State) : Out :=
  issueOne s p 0 (opMinn n d a b)
/-- MAXN (R134). -/
def execMaxn (p : BitVec 3) (n : BitVec 1) (d : BitVec 6) (a : BitVec 6) (b : BitVec 6) (s : State) : Out :=
  issueOne s p 0 (opMaxn n d a b)
/-- CLZ (R134). -/
def execClz (p : BitVec 3) (n : BitVec 1) (d : BitVec 6) (a : BitVec 6) (s : State) : Out :=
  issueOne s p 0 (opClz n d a)
/-- POPC (R134). -/
def execPopc (p : BitVec 3) (n : BitVec 1) (d : BitVec 6) (a : BitVec 6) (s : State) : Out :=
  issueOne s p 0 (opPopc n d a)
/-- ABS (R134). -/
def execAbs (p : BitVec 3) (n : BitVec 1) (d : BitVec 6) (a : BitVec 6) (s : State) : Out :=
  issueOne s p 0 (opAbs n d a)
/-- EXT (R136). -/
def execExt (p : BitVec 3) (n : BitVec 1) (d : BitVec 6) (a : BitVec 6) (b : BitVec 6) (s : State) : Out :=
  issueOne s p 0 (opExt n d a b)
/-- INS (R136). -/
def execIns (p : BitVec 3) (n : BitVec 1) (d : BitVec 6) (a : BitVec 6) (b : BitVec 6) (s : State) : Out :=
  issueOne s p 0 (opIns n d a b)
/-- LEA1 (R134). -/
def execLea1 (p : BitVec 3) (n : BitVec 1) (d : BitVec 6) (a : BitVec 6) (b : BitVec 6) (s : State) : Out :=
  issueOne s p 0 (opLea1 n d a b)
/-- LEA2 (R134). -/
def execLea2 (p : BitVec 3) (n : BitVec 1) (d : BitVec 6) (a : BitVec 6) (b : BitVec 6) (s : State) : Out :=
  issueOne s p 0 (opLea2 n d a b)
/-- LEA4 (R134). -/
def execLea4 (p : BitVec 3) (n : BitVec 1) (d : BitVec 6) (a : BitVec 6) (b : BitVec 6) (s : State) : Out :=
  issueOne s p 0 (opLea4 n d a b)
/-- LEA8 (R134). -/
def execLea8 (p : BitVec 3) (n : BitVec 1) (d : BitVec 6) (a : BitVec 6) (b : BitVec 6) (s : State) : Out :=
  issueOne s p 0 (opLea8 n d a b)
/-- MOV (R134). -/
def execMov (p : BitVec 3) (n : BitVec 1) (d : BitVec 6) (a : BitVec 6) (s : State) : Out :=
  issueOne s p 0 (opMov n d a)
/-- ADDI (R137). -/
def execAddi (p : BitVec 3) (n : BitVec 1) (d : BitVec 6) (a : BitVec 6) (i : BitVec 6) (s : State) : Out :=
  issueOne s p 0 (opAddi n d a i)
/-- MULI (R137). -/
def execMuli (p : BitVec 3) (n : BitVec 1) (d : BitVec 6) (a : BitVec 6) (i : BitVec 6) (s : State) : Out :=
  issueOne s p 0 (opMuli n d a i)
/-- ANDI (R137). -/
def execAndi (p : BitVec 3) (n : BitVec 1) (d : BitVec 6) (a : BitVec 6) (i : BitVec 6) (s : State) : Out :=
  issueOne s p 0 (opAndi n d a i)
/-- ORI (R137). -/
def execOri (p : BitVec 3) (n : BitVec 1) (d : BitVec 6) (a : BitVec 6) (i : BitVec 6) (s : State) : Out :=
  issueOne s p 0 (opOri n d a i)
/-- XORI (R137). -/
def execXori (p : BitVec 3) (n : BitVec 1) (d : BitVec 6) (a : BitVec 6) (i : BitVec 6) (s : State) : Out :=
  issueOne s p 0 (opXori n d a i)
/-- SHLI (R137). -/
def execShli (p : BitVec 3) (n : BitVec 1) (d : BitVec 6) (a : BitVec 6) (i : BitVec 6) (s : State) : Out :=
  issueOne s p 0 (opShli n d a i)
/-- SHRI (R137). -/
def execShri (p : BitVec 3) (n : BitVec 1) (d : BitVec 6) (a : BitVec 6) (i : BitVec 6) (s : State) : Out :=
  issueOne s p 0 (opShri n d a i)
/-- SARI (R137). -/
def execSari (p : BitVec 3) (n : BitVec 1) (d : BitVec 6) (a : BitVec 6) (i : BitVec 6) (s : State) : Out :=
  issueOne s p 0 (opSari n d a i)
/-- MOVI (R138). -/
def execMovi (p : BitVec 3) (n : BitVec 1) (d : BitVec 6) (i : BitVec 6) (s : State) : Out :=
  issueOne s p 0 (opMovi n d i)
/-- MOVHI (R138). -/
def execMovhi (p : BitVec 3) (n : BitVec 1) (d : BitVec 6) (a : BitVec 6) (i : BitVec 6) (s : State) : Out :=
  issueOne s p 0 (opMovhi n d a i)
/-- CMP (R139). -/
def execCmp (p : BitVec 3) (c : BitVec 4) (d : BitVec 3) (a : BitVec 6) (b : BitVec 6) (s : State) : Out :=
  issueOne s p 0 (opCmp c d a b)
/-- CMPI (R139). -/
def execCmpi (p : BitVec 3) (c : BitVec 4) (d : BitVec 3) (a : BitVec 6) (i : BitVec 6) (s : State) : Out :=
  issueOne s p 0 (opCmpi c d a i)
/-- VSET (R144). -/
def execVset (p : BitVec 3) (v : BitVec 3) (a : BitVec 6) (s : State) : Out :=
  issueOne s p 0 (opVset v a)
/-- VGET (R145). -/
def execVget (p : BitVec 3) (n : BitVec 1) (d : BitVec 6) (v : BitVec 3) (s : State) : Out :=
  issueOne s p 0 (opVget n d v)

end Sys2Proof.Machine
end

