-- ==== Sys2Proof/Machine/System.lean ====
section
/-! DEFINITION. System operations: control registers, traps and returns, duplicate checks, yielding, steps, mirrors
(R29-R32, R258-R260, R265-R268, R271, R274, R315). -/

namespace Sys2Proof.Machine

open Sys2Proof

/-! ## Control registers (R30, R31, R259, R260, R315) -/

/-- CSRR (R259). -/
def opCsrr (n : BitVec 1) (d : BitVec 6) (c : BitVec 12) : Op where
  legal _ := okCsrr n d c
  priv := decide (0x800 ≤ c.toNat)
  sregs _ := [d]
  sem x s0 w := .ok (sResult x n d 1 (s0.csrRead s0.cur s0.here.run c.toNat) w)

/-- The bits of a RW register: lowest and width; none for a register that is RO (R34, R36, R38). -/
def csrBits (n : Nat) : Option (Nat × Nat) :=
  match n with
  | 0x100 => some (0, 64)
  | 0x400 => some (0, 64)
  | 0x402 => some (4, 53)
  | 0x406 => some (4, 53)
  | 0x800 => some (16, 36)
  | 0x801 => some (0, 16)
  | 0x802 => some (10, 47)
  | 0x803 => some (12, 45)
  | 0x804 => some (0, 32)
  | _ => none

/-- Whether an image sets no reserved bit of a field of `n` bits from `lo` (R31). -/
def imageOk (x : Word) (lo n : Nat) : Bool := wd (bits x lo n * 2 ^ lo) == x

/-- The tiles of the banks whose role changes so that engines reach them no more (R315). -/
def SysRegs.lostTiles (x : SysRegs) (new : Word) : List Nat :=
  let y := { x with bankrole := new }
  (List.range 512).filter fun t => x.role t != y.role t && x.engineMay t && !y.engineMay t

/-- The tiles of the banks whose role changes so that engines reach them from now on (R315). -/
def SysRegs.gainedTiles (x : SysRegs) (new : Word) : List Nat :=
  let y := { x with bankrole := new }
  (List.range 512).filter fun t => x.role t != y.role t && !x.engineMay t && y.engineMay t

/-- A write of BANKROLE: role 11 is refused, a bound stream's bank keeps its role, tiles that leave the engines wait for
them, tiles that go to them for the core's atomics (R260, R314, R315). -/
def writeBankrole (c : SlotCtx) (s0 w : State) (x : Word) : Except Stop State := do
  let f := s0.fr
  let _ ← require (!(List.range 32).any fun b => bits x (2 * b) 2 == 3) Cause.illegalInstruction
  let _ ← require (!f.r.streams.toList.any fun q => q.mode != 0 && bits x (2 * q.bank) 2 != 1) Cause.streamUse
  let gained := f.sys.gainedTiles x
  let _ ← holdWhile (s0.enginesTouch s0.cur (f.sys.lostTiles x) || s0.classedTouch s0.cur gained)
  .ok (if w.classedTouch w.cur gained then w.sendOrder c (.roles x) []
       else w.updFr fun f => { f with sys := { f.sys with bankrole := x } })

/-- CSRW (R31, R259, R260): the register is written as the bundle issues, and no slot of it sees the new value (R64). -/
def opCsrw (h : BitVec 6) (a : BitVec 6) (l : BitVec 6) : Op where
  legal _ := okCsrw h a l
  priv := decide (0x800 ≤ h.toNat * 64 + l.toNat)
  sregs _ := [a]
  sem c s0 w := do
    let n := h.toNat * 64 + l.toNat
    let x ← getS s0 a
    match csrBits n with
    | none => .ok w
    | some (lo, k) =>
      let _ ← require (imageOk x lo k) Cause.illegalInstruction
      if n = 0x100 then writeBankrole c s0 w x else .ok (w.updCtl fun y => { y with csrw := some (n, x) })

/-! ## Traps and returns (R271, R274) -/

/-- TRAP (R271): the bundle issues, and the trap is taken at the boundary after it. -/
def opTrap (t : BitVec 6) : Op where
  sem c _ w := .ok (w.updCtl fun x =>
    { x with trapReq := some { cause := BitVec.ofNat 8 (0xC0 + t.toNat), slot := c.slot.val } })

/-- Whether ESTATUS may be returned to (R274). -/
def Frame.statusOk (f : Frame) : Bool :=
  let st := f.tr.estatus
  bits st 15 49 == 0 && decide (bits st 3 5 ≤ f.tr.shadow.mfloor) && decide (bits st 0 3 ≤ f.tr.shadow.depth)

/-- TRET (R274). -/
def opTret : Op where
  sem _ s0 w := do
    let f := s0.fr
    let _ ← require f.tr.intrap Cause.illegalReturn
    if f.statusOk then .ok (w.updCtl fun x => { x with retReq := true }) else .error (.fault Cause.badStatus)

/-! ## Duplicate checks (R268) -/

/-- DCHK on scalars. -/
def opDchk (a : BitVec 6) (b : BitVec 6) : Op where
  legal _ := okSS a b
  sregs _ := [a, b]
  sem _ s0 w := do
    let x ← getS s0 a
    let y ← getS s0 b
    let _ ← require (x == y) Cause.dupMismatch
    .ok w

/-- A register-space range of the running task at an offset, when it is in order. -/
def dchkSpan (s : State) (x : Word) (n : Nat) : Option Span :=
  if x.toNat % 512 = 0 ∧ x.toNat + n ≤ s.fr.id.foot * 512 then some { pa := s.rsPa s.cur s.here.run x.toNat, len := n } else none

/-- The checks of a range: alignment, footprint, poison. -/
def dchkRange (s0 : State) (x : Word) (n : Nat) : Except Stop Nat := do
  let _ ← require (x.toNat % 512 == 0) Cause.address
  let _ ← require (decide (x.toNat + n ≤ s0.fr.id.foot * 512)) Cause.regBound
  let pa := s0.rsPa s0.cur s0.here.run x.toNat
  if s0.poisoned pa n then .error (.trap (s0.poisonTrap pa n)) else .ok (s0.homeRead pa n)

/-- DCHK on register space: `n` bytes at each offset. -/
def dchkOp (n slow : Nat) (bank : Bool) (a b : BitVec 6) : Op where
  legal _ := okSS a b
  sregs _ := [a, b]
  uses _ s := ([a, b].filterMap fun r => dchkSpan s (s.rdS r) n).map fun p => { pa := p.pa, len := p.len, bank := bank }
  slow := slow
  sem _ s0 w := do
    let x ← getS s0 a
    let y ← getS s0 b
    let v ← dchkRange s0 x n
    let u ← dchkRange s0 y n
    let _ ← require (v == u) Cause.dupMismatch
    .ok w

def opDchkV (a : BitVec 6) (b : BitVec 6) : Op := dchkOp 512 0 true a b
def opDchkA (a : BitVec 6) (b : BitVec 6) : Op := dchkOp 65536 16 false a b

/-! ## Yielding and steps (R265, R266) -/

/-- YIELD. -/
def opYield : Op where
  sem _ _ w := .ok (w.updCtl fun x => { x with yieldReq := true })

/-- YIELD.ev: not ready until the event queue holds a record. -/
def opYieldEv : Op where
  sem _ s0 w :=
    let none_ := s0.fr.msg.evq.isEmpty && s0.fr.msg.spill.isEmpty
    .ok (w.updCtl fun x => { x with yieldReq := true, waitEv := none_ })

/-- STEP (R266): a pending cut whose target is reached stops the task at the boundary after it. -/
def opStep (a : BitVec 6) : Op where
  legal _ := sSrc a
  sregs _ := [a]
  sem _ s0 w := do
    let x ← getS s0 a
    let v : BitVec 32 := x.setWidth 32
    let f := s0.fr
    let _ ← require (bits x 32 32 == 0 && decide (f.id.stepn.toNat ≤ v.toNat) && decide (v.toNat ≤ f.id.steps.toNat)) Cause.step
    let w := w.updFr fun f => { f with id := { f.id with stepn := v } }
    .ok (match (s0.task f.id.task).bind (·.stepHold) with
      | some t => if t.toNat ≤ v.toNat then w.post 0 .preemptTask { tid := f.id.task } else w
      | none => w)

/-! ## Mirrors (R29, R267) -/

/-- Whether the write port of one of two banks, or the granule's read port, is taken in this cycle: by a result, or by a read of the
bundle's own. -/
def State.bankTaken (s : State) (g p : Nat) : Bool :=
  let cycle := s.cyc s.cur
  (s.agedBanks s.cur).contains g || allSlots.any fun k => let f := s.frameAt s.cur k
    f.infl.any fun r => r.due == cycle && r.ben != 0 && match r.dest with
      | .rs off => (f.banksOf (off / 512)).any fun b => b == g || b == p
      | _ => false

/-- MIRROR (R267). -/
def opMirror (e : BitVec 3) (a : BitVec 6) : Op where
  legal _ := sSrc a
  sregs _ := [a]
  sem _ s0 w := do
    let x ← getS s0 a
    let f := s0.fr
    let gran := bits x 0 13
    let bank := bits x 16 4
    let others := (List.range 8).filter (· != e.toNat)
    let _ ← require (bits x 13 3 == 0 && bits x 20 11 == 0 && bits x 32 32 == 0) Cause.illegalInstruction
    let put (w : State) : State := w.updFr fun f => { f with sys := { f.sys with mirtab := f.sys.mirtab.set e.toNat x e.isLt } }
    if bit x 31 then do
      let _ ← require (bank != gran % 16) Cause.illegalInstruction
      let _ ← require (!others.any fun i =>
        let y := nth f.sys.mirtab.toList i
        bit y 31 && bits y 0 13 == gran) Cause.illegalInstruction
      let _ ← require (decide (gran < f.id.foot)) Cause.regBound
      let _ ← holdWhile (s0.bankTaken (gran % 16) bank)
      .ok ((put w).usePorts w.cur [(w.cyc w.cur, bank, .write)])
    else do
      let _ ← require (bank == 0 && gran == 0) Cause.illegalInstruction
      .ok (put w)

/-! ## The instructions -/

/-- CSRR (R259). -/
def execCsrr (p : BitVec 3) (n : BitVec 1) (d : BitVec 6) (c : BitVec 12) (s : State) : Out :=
  issueOne s p 0 (opCsrr n d c)
/-- CSRW (R259). -/
def execCsrw (p : BitVec 3) (h : BitVec 6) (a : BitVec 6) (l : BitVec 6) (s : State) : Out :=
  issueOne s p 0 (opCsrw h a l)
/-- TRAP (R271). -/
def execTrap (p : BitVec 3) (t : BitVec 6) (s : State) : Out :=
  issueOne s p 0 (opTrap t)
/-- TRET (R274). -/
def execTret (p : BitVec 3) (s : State) : Out :=
  issueOne s p 0 (opTret )
/-- DCHK (R268). -/
def execDchk (p : BitVec 3) (a : BitVec 6) (b : BitVec 6) (s : State) : Out :=
  issueOne s p 0 (opDchk a b)
/-- DCHK_V (R268). -/
def execDchkV (p : BitVec 3) (a : BitVec 6) (b : BitVec 6) (s : State) : Out :=
  issueOne s p 0 (opDchkV a b)
/-- DCHK_A (R268). -/
def execDchkA (p : BitVec 3) (a : BitVec 6) (b : BitVec 6) (s : State) : Out :=
  issueOne s p 0 (opDchkA a b)
/-- YIELD (R265). -/
def execYield (p : BitVec 3) (s : State) : Out :=
  issueOne s p 0 (opYield )
/-- YIELD_EV (R265). -/
def execYieldEv (p : BitVec 3) (s : State) : Out :=
  issueOne s p 0 (opYieldEv )
/-- STEP (R266). -/
def execStep (p : BitVec 3) (a : BitVec 6) (s : State) : Out :=
  issueOne s p 0 (opStep a)
/-- MIRROR (R267). -/
def execMirror (p : BitVec 3) (e : BitVec 3) (a : BitVec 6) (s : State) : Out :=
  issueOne s p 0 (opMirror e a)

end Sys2Proof.Machine
end

