-- ==== Sys2Proof/Machine/Vector.lean ====
section
/-! DEFINITION. Vector operations (R179-R200). -/

namespace Sys2Proof.Machine

open Sys2Proof

/-! ## Shapes of vector operation (R179-R182) -/

/-- A source of a vector operation: its field (1 SA, 2 SB), code, element width and whether it is read as f32 (R180). -/
structure VSrc where
  j     : Nat
  f     : BitVec 6
  b     : Nat := 4
  isF32 : Bool := false

/-- The destination operand, none with NW = 1 (R53). -/
def vDest (c : SlotCtx) (n : BitVec 1) (d : BitVec 6) : Option Opd := if n = 1 then none else some (vOpd c 0 d)

/-- Reads the sources in the order of their fields (R180). -/
def readSrcs (c : SlotCtx) (s0 : State) : List VSrc → Seen × State → Except Stop (List Vec × Seen × State)
  | [], x => .ok ([], x)
  | v :: vs, x => do
    let (a, x) ← readV c s0 (vOpd c v.j v.f) v.b v.isF32 x
    let (l, x) ← readSrcs c s0 vs x
    .ok (a :: l, x)

/-- Bytes that a vector operation touches: sources cost a bank read (R14, R180). -/
def vUses (c : SlotCtx) (s : State) (n : BitVec 1) (d : BitVec 6) (srcs : List VSrc) : List Use :=
  srcs.flatMap (fun v => useOf s (vOpd c v.j v.f) false true) ++ (if n = 1 then [] else useOf s (vOpd c 0 d) true false)

/-- What an operation computes: the whole result, and the enables of the bytes it writes (R181). -/
abbrev VFun := State → List Vec → Vec × Mask

/-- A vector operation with a data destination. -/
def vectorOp (legal : Bool) (lat : Nat) (sfu : Bool) (n : BitVec 1) (d : BitVec 6) (srcs : List VSrc) (f : VFun) : Op where
  legal _ := legal
  ofs := (if n = 1 then [] else [vOpd {} 0 d]) ++ srcs.map fun v => vOpd {} v.j v.f
  uses c s := vUses c s n d srcs
  vec := if sfu then 0 else 1
  sfu := if sfu then 1 else 0
  sem c s0 w := do
    let (l, seen, w) ← readSrcs c s0 srcs ([], w)
    let (r, ben) := f s0 l
    writeV c s0 (vDest c n d) seen lat ben r (some c.vUnit) w

/-- Operand i of a list. -/
def src (l : List Vec) (i : Nat) : Vec := l.getD i 0

/-- Enables of the active elements among the first `n` of `b` bytes, laid from byte `off` on. -/
def activeAt (m : Mask) (n b off : Nat) : Mask :=
  BitVec.ofNat 512 (buildNat b (fun e => if m.getLsbD e then ones b else 0) n <<< off)

/-- A value of `n` lanes of `w` bits, laid from byte `off` on. -/
def lanesAt (n w off : Nat) (f : Nat → Nat) : Vec := BitVec.ofNat 4096 (buildNat w f n <<< (8 * off))

/-- A masked operation lane by lane (R181). -/
def lanewise (b : Nat) (f : List Vec → Nat → Nat) : VFun :=
  fun s l => (vecOf (8 * b) (f l), s.fr.enables b)

/-! ## Typed arithmetic (R80, R183) -/

/-- One element of op 0-7 on type t. -/
def typedElem (op t x y z : Nat) : Nat :=
  match typeFloat t with
  | some ft =>
    let a := ft.decode x
    let b := ft.decode y
    match op with
    | 0 => ft.rne (a.add b)
    | 1 => ft.rne (a.add b.neg)
    | 2 => ft.rne (a.mul b)
    | 3 => ft.rne ((a.mul b).add (ft.decode z))
    | 4 => ft.rne (a.min b)
    | 5 => ft.rne (a.max b)
    | 6 => ft.rne a.neg
    | _ => ft.rne a.abs
  | none =>
    let it := typeInt t
    let a := it.decode x
    let b := it.decode y
    match op with
    | 0 => ofInt it.w (a + b)
    | 1 => ofInt it.w (a - b)
    | 2 => ofInt it.w (a * b)
    | 3 => ofInt it.w (a * b + it.decode z)
    | 4 => ofInt it.w (if b < a then b else a)
    | 5 => ofInt it.w (if a < b then b else a)
    | 6 => ofInt it.w (-a)
    | _ => ofInt it.w (if a < 0 then -a else a)

/-- Latency of a typed operation (R182). -/
def typedLat (op t : Nat) : Nat := if (typeFloat t).isSome then 4 else if op = 2 ∨ op = 3 then 4 else 2

/-- A source field read at a type. -/
def typedSrc (j : Nat) (f : BitVec 6) (t : BitVec 3) : VSrc := { j := j, f := f, b := typeBytes t.toNat, isF32 := t == 0 }

/-- A typed operation with two sources. -/
def typed3 (op : Nat) (t : BitVec 3) (n : BitVec 1) (d a b : BitVec 6) : Op :=
  let w := 8 * typeBytes t.toNat
  vectorOp (okV3 n d a b) (typedLat op t.toNat) false n d [typedSrc 1 a t, typedSrc 2 b t]
    (lanewise (typeBytes t.toNat) fun l e => typedElem op t.toNat (lane (src l 0) w e) (lane (src l 1) w e) 0)

/-- A typed operation with one source. -/
def typed2 (op : Nat) (t : BitVec 3) (n : BitVec 1) (d a : BitVec 6) : Op :=
  let w := 8 * typeBytes t.toNat
  vectorOp (okV2 n d a) (typedLat op t.toNat) false n d [typedSrc 1 a t]
    (lanewise (typeBytes t.toNat) fun l e => typedElem op t.toNat (lane (src l 0) w e) 0 0)

def opVadd (t : BitVec 3) (n : BitVec 1) (d a b : BitVec 6) : Op := typed3 0 t n d a b
def opVsub (t : BitVec 3) (n : BitVec 1) (d a b : BitVec 6) : Op := typed3 1 t n d a b
def opVmul (t : BitVec 3) (n : BitVec 1) (d a b : BitVec 6) : Op := typed3 2 t n d a b
def opVmin (t : BitVec 3) (n : BitVec 1) (d a b : BitVec 6) : Op := typed3 4 t n d a b
def opVmax (t : BitVec 3) (n : BitVec 1) (d a b : BitVec 6) : Op := typed3 5 t n d a b
def opVneg (t : BitVec 3) (n : BitVec 1) (d a : BitVec 6) : Op := typed2 6 t n d a
def opVabs (t : BitVec 3) (n : BitVec 1) (d a : BitVec 6) : Op := typed2 7 t n d a
/-- VFMA reads its destination as the addend; with NW = 1 the addend is zero (R183). -/
def opVfma (t : BitVec 3) (n : BitVec 1) (d a b : BitVec 6) : Op :=
  let w := 8 * typeBytes t.toNat
  vectorOp (okV3 n d a b) (typedLat 3 t.toNat) false n d
    ([typedSrc 1 a t, typedSrc 2 b t] ++ (if n = 1 then [] else [typedSrc 0 d t]))
    (lanewise (typeBytes t.toNat) fun l e =>
      typedElem 3 t.toNat (lane (src l 0) w e) (lane (src l 1) w e) (lane (src l 2) w e))

/-! ## Compares (R184) -/

/-- VCMP types: 0 f32, 1 bf16, 2 i32, 3 n32, as arithmetic type codes. -/
def cmpType (t : BitVec 2) : Nat := [0, 1, 3, 6].getD t.toNat 0

/-- One element's compare: 0 eq, 1 ne, 2 lt, 3 le, 4 gt, 5 ge. -/
def cmpElem (cc t x y : Nat) : Bool :=
  match typeFloat t with
  | some ft =>
    let a := ft.decode x
    let b := ft.decode y
    match cc with
    | 0 => a.eq b
    | 1 => !a.eq b
    | 2 => a.lt b
    | 3 => a.lt b || a.eq b
    | 4 => b.lt a
    | _ => b.lt a || a.eq b
  | none =>
    let a := (typeInt t).decode x
    let b := (typeInt t).decode y
    match cc with
    | 0 => decide (a = b)
    | 1 => decide (a ≠ b)
    | 2 => decide (a < b)
    | 3 => decide (a ≤ b)
    | 4 => decide (b < a)
    | _ => decide (b ≤ a)

def opVcmp (c : BitVec 3) (t : BitVec 2) (d : BitVec 3) (a b : BitVec 6) : Op where
  legal _ := decide (c.toNat ≤ 5) && vSrc a && vSrc b
  ofs := [vOpd {} 1 a, vOpd {} 2 b]
  uses x s := vUses x s 1 0 [{ j := 1, f := a }, { j := 2, f := b }]
  vec := 1
  sem x s0 w := do
    let ty := cmpType t
    let nb := typeBytes ty
    let (l, _, w) ← readSrcs x s0 [{ j := 1, f := a, b := nb, isF32 := ty == 0 }, { j := 2, f := b, b := nb, isF32 := ty == 0 }]
      ([], w)
    let cnt := 512 / nb
    let res := BitVec.ofNat 512 (buildNat 1 (fun e =>
      if cmpElem c.toNat ty (lane (src l 0) (8 * nb) e) (lane (src l 1) (8 * nb) e) then 1 else 0) cnt)
    let en := s0.fr.active ||| ~~~(firstBytes cnt)
    .ok (maskResult x (if (typeFloat ty).isSome then 4 else 2) d en (res &&& firstBytes cnt) w x.vUnit.val)

/-! ## Logic, shifts, select, move (R185) -/

/-- A masked operation on 128 lanes of 32 bits with two sources. -/
def lanes3 (n : BitVec 1) (d a b : BitVec 6) (f : Nat → Nat → Nat) : Op :=
  vectorOp (okV3 n d a b) 2 false n d [{ j := 1, f := a }, { j := 2, f := b }]
    (lanewise 4 fun l e => f (lane (src l 0) 32 e) (lane (src l 1) 32 e))

def opVand (n : BitVec 1) (d a b : BitVec 6) : Op := lanes3 n d a b fun x y => x &&& y
def opVor (n : BitVec 1) (d a b : BitVec 6) : Op := lanes3 n d a b fun x y => x ||| y
def opVxor (n : BitVec 1) (d a b : BitVec 6) : Op := lanes3 n d a b fun x y => x ^^^ y
def opVshl (n : BitVec 1) (d a b : BitVec 6) : Op := lanes3 n d a b fun x y => x <<< (y % 32)
def opVshr (n : BitVec 1) (d a b : BitVec 6) : Op := lanes3 n d a b fun x y => x >>> (y % 32)
def opVsar (n : BitVec 1) (d a b : BitVec 6) : Op := lanes3 n d a b fun x y => ofInt 32 (toInt 32 x / 2 ^ (y % 32))
def opVmov (n : BitVec 1) (d a : BitVec 6) : Op :=
  vectorOp (okV2 n d a) 2 false n d [{ j := 1, f := a }] (lanewise 4 fun l e => lane (src l 0) 32 e)
/-- VSEL writes every lane and takes the active mask only to choose (R185). -/
def opVsel (n : BitVec 1) (d a b : BitVec 6) : Op :=
  vectorOp (okV3 n d a b) 2 false n d [{ j := 1, f := a }, { j := 2, f := b }] fun s l =>
    (vecOf 32 fun e => if s.fr.active.getLsbD e then lane (src l 0) 32 e else lane (src l 1) 32 e, allBytes)

/-! ## Conversions (R92, R186-R189) -/

/-- From and to of a conversion code, as arithmetic type codes (R186). -/
def cvtTypes (k : Nat) : Nat × Nat :=
  [(0, 1), (0, 2), (1, 0), (2, 0), (1, 2), (2, 1), (0, 3), (3, 0), (0, 6), (6, 0), (0, 4), (4, 0), (3, 4), (4, 3),
   (6, 7), (7, 6)].getD k (0, 0)

/-- convert(x, t, m) of the table in R92, between arithmetic type codes. -/
def convert (rz : Bool) (src dst x : Nat) : Nat :=
  match typeFloat src, typeFloat dst with
  | some a, some b => b.round rz (a.decode x)
  | some a, none => (typeInt dst).ofFloat rz (a.decode x)
  | none, some b => b.round rz (FVal.ofInt ((typeInt src).decode x))
  | none, none => (typeInt dst).sat ((typeInt src).decode x)

/-- VCVT and VCVTZ. -/
def cvtOp (rz : Bool) (n : BitVec 1) (d a : BitVec 6) (k : BitVec 4) (h : BitVec 1) : Op :=
  let (st, dt) := cvtTypes k.toNat
  let sb := typeBytes st
  let db := typeBytes dt
  let first := if sb < db then 128 * h.toNat else 0
  let off := if db < sb then 256 * h.toNat else 0
  vectorOp (okCvt n d a k h) 3 false n d [{ j := 1, f := a, b := sb, isF32 := st == 0 }] fun s l =>
    (lanesAt 128 (8 * db) off fun e => convert rz st dt (lane (src l 0) (8 * sb) (first + e)),
     activeAt s.fr.active 128 db off)

def opVcvt (n : BitVec 1) (d a : BitVec 6) (k : BitVec 4) (h : BitVec 1) : Op := cvtOp false n d a k h
def opVcvtz (n : BitVec 1) (d a : BitVec 6) (k : BitVec 4) (h : BitVec 1) : Op := cvtOp true n d a k h

/-- f32 into an 8-bit type: 0 e4m3, 1 e5m2, 2 i8, 3 n8 (R187). -/
def pack8 (rz : Bool) (t x : Nat) : Nat :=
  let v := f32.decode x
  match t with
  | 0 => e4m3.round rz v
  | 1 => e5m2.round rz v
  | 2 => IFmt.ofFloat { w := 8, signed := true } rz v
  | _ => IFmt.ofFloat { w := 8, signed := false } rz v
/-- An 8-bit element widened to 32 bits (R187). -/
def unpack8 (t x : Nat) : Nat :=
  match t with
  | 0 => f32.rne (e4m3.decode x)
  | 1 => f32.rne (e5m2.decode x)
  | 2 => ofInt 32 (toInt 8 x)
  | _ => x % 256

def opVpack8 (n : BitVec 1) (d a : BitVec 6) (z : BitVec 1) (t q : BitVec 2) : Op :=
  vectorOp (okV2 n d a) 3 false n d [{ j := 1, f := a, isF32 := true }] fun s l =>
    (lanesAt 128 8 (128 * q.toNat) fun e => pack8 (z == 1) t.toNat (lane (src l 0) 32 e),
     activeAt s.fr.active 128 1 (128 * q.toNat))
def opVunpk8 (n : BitVec 1) (d a : BitVec 6) (t q : BitVec 2) : Op :=
  vectorOp (okV2 n d a) 3 false n d [{ j := 1, f := a, b := 1 }]
    (lanewise 4 fun l e => unpack8 t.toNat (lane (src l 0) 8 (128 * q.toNat + e)))

/-- The row record of VQNT4: 64 code bytes and four scale bytes (R188). -/
def rowRecord (ty : Nat) (v : Vec) : Vec :=
  let blocks := (List.range 4).map fun j => q4Quantise ty ((List.range 32).map fun i => f32.decode (lane v 32 (32 * j + i)))
  let code (e : Nat) : Nat := ((blocks.getD (e / 32) (0, [])).2).getD (e % 32) 0
  let scale (j : Nat) : Nat := (blocks.getD j (0, [])).1
  BitVec.ofNat 4096 (buildNat 4 code 128 + buildNat 8 scale 4 <<< 512)
def opVqnt4 (n : BitVec 1) (d a : BitVec 6) (t : BitVec 2) : Op :=
  vectorOp (okV2 n d a) 6 false n d [{ j := 1, f := a, isF32 := true }] fun _ l =>
    (rowRecord t.toNat (src l 0), firstBytes 68)

/-- VDQ4: F = 0 gives f32, F = 1 bf16 in half h (R189). -/
def opVdq4 (n : BitVec 1) (d a : BitVec 6) (h f : BitVec 1) : Op :=
  vectorOp (okDq4 n d a h f) 3 false n d [{ j := 1, f := a }] fun s l =>
    let v (e : Nat) : FVal := q4Decode (lane (src l 0) 8 (64 + e / 32)) (lane (src l 0) 4 e)
    if f = 0 then (vecOf 32 fun e => f32.rne (v e), s.fr.enables 4)
    else (lanesAt 128 16 (256 * h.toNat) fun e => bf16.rne (v e), activeAt s.fr.active 128 2 (256 * h.toNat))

/-! ## Special functions (R190) -/

/-- A special function of f32 lanes: latency 16, a permit of PMT_SFU. -/
def specialOp (n : BitVec 1) (d a : BitVec 6) (f : FVal → Nat) : Op :=
  vectorOp (okV2 n d a) 16 true n d [{ j := 1, f := a, isF32 := true }]
    (lanewise 4 fun l e => f (f32.decode (lane (src l 0) 32 e)))

def opVrcp (n : BitVec 1) (d a : BitVec 6) : Op := specialOp n d a sfRcp
def opVrsq (n : BitVec 1) (d a : BitVec 6) : Op := specialOp n d a sfRsq
def opVexp2 (n : BitVec 1) (d a : BitVec 6) : Op := specialOp n d a sfExp2
def opVlog2 (n : BitVec 1) (d a : BitVec 6) : Op := specialOp n d a sfLog2
def opVtanh (n : BitVec 1) (d a : BitVec 6) : Op := specialOp n d a sfTanh
def opVsigm (n : BitVec 1) (d a : BitVec 6) : Op := specialOp n d a sfSigm
def opVsin (n : BitVec 1) (d a : BitVec 6) : Op := specialOp n d a (sfTrig 0)
def opVcos (n : BitVec 1) (d a : BitVec 6) : Op := specialOp n d a (sfTrig 1)

/-! ## Reductions and scans (R96, R97, R191, R192) -/

/-- The levels of the tree for 512 / b elements. -/
def treeDepth (b : Nat) : Nat := match b with
  | 1 => 9
  | 2 => 8
  | _ => 7

/-- The elements of a source under the active mask, an identity standing for the inactive. -/
def activeElems (s : State) (v : Vec) (b cnt identity : Nat) : List Nat :=
  (List.range cnt).map fun e => if s.fr.active.getLsbD e then lane v (8 * b) e else identity

/-- VRED.add: f32 for floats, a 32-bit wrapped sum for integers (R191). -/
def redAdd (t : Nat) (s : State) (v : Vec) : Nat :=
  let b := typeBytes t
  let l := (List.range (512 / b)).map fun e =>
    match typeFloat t with
    | some ft => if s.fr.active.getLsbD e then f32.rne (ft.decode (lane v (8 * b) e)) else 0x80000000
    | none => if s.fr.active.getLsbD e then ofInt 32 ((typeInt t).decode (lane v (8 * b) e)) else 0
  (treeReduce (if (typeFloat t).isSome then addF32 else fun x y => (x + y) % 2 ^ 32) (treeDepth b) l).headD 0

/-- VRED.max and VRED.min in the element type (R191). -/
def redExt (isMax : Bool) (t : Nat) (s : State) (v : Vec) : Nat :=
  let b := typeBytes t
  let op := if isMax then 5 else 4
  let identity := match typeFloat t with
    | some ft => ft.rne (.inf isMax)
    | none => ofInt (8 * b) (if isMax then (typeInt t).lo else (typeInt t).hi)
  (treeReduce (fun x y => typedElem op t x y 0) (treeDepth b) (activeElems s v b (512 / b) identity)).headD 0

/-- A reduction: the result in the low bytes, unmasked. -/
def redOp (w : Nat) (n : BitVec 1) (d a : BitVec 6) (t : BitVec 3) (f : State → Vec → Nat) : Op :=
  vectorOp (okV2 n d a) 9 false n d [typedSrc 1 a t] fun s l => (BitVec.ofNat 4096 (f s (src l 0)), firstBytes w)

def opVredAdd (n : BitVec 1) (d a : BitVec 6) (t : BitVec 3) : Op := redOp 4 n d a t (redAdd t.toNat)
def opVredMax (n : BitVec 1) (d a : BitVec 6) (t : BitVec 3) : Op := redOp (typeBytes t.toNat) n d a t (redExt true t.toNat)
def opVredMin (n : BitVec 1) (d a : BitVec 6) (t : BitVec 3) : Op := redOp (typeBytes t.toNat) n d a t (redExt false t.toNat)

def opVscanAdd (n : BitVec 1) (d a : BitVec 6) (t : BitVec 3) : Op :=
  vectorOp (okScan n d a t) 9 false n d [typedSrc 1 a t] fun s l =>
    let isF := t == 0
    let xs := activeElems s (src l 0) 4 128 (if isF then 0x80000000 else 0)
    let ys := match xs with
      | [] => []
      | x :: r => x :: scanList (if isF then addF32 else fun x y => (x + y) % 2 ^ 32) x r
    (vecOf 32 fun e => ys.getD e 0, s.fr.enables 4)

/-! ## Routing (R193, R194) -/

def opVgmax (n : BitVec 1) (d a : BitVec 6) (g : BitVec 3) : Op :=
  vectorOp (okGmax n d a g) 6 false n d [{ j := 1, f := a, isF32 := true }] fun s l =>
    let size := 2 ^ g.toNat
    let cnt := 128 / size
    let xs := activeElems s (src l 0) 4 128 0xFF800000
    let best (i : Nat) : Nat :=
      -- an inactive element enters as -inf beside active ones, and a group of active NaNs alone gives a NaN
      let act := (List.range size).filter fun j => s.fr.active.getLsbD (size * i + j)
      let vals := if act.isEmpty then [] else act.map fun j => f32.decode (xs.getD (size * i + j) 0)
      match vals with
      | [] => 0xFF800000
      | v :: vs => f32.rne (vs.foldl FVal.max v)
    (lanesAt cnt 32 0 best, firstBytes (4 * cnt))

/-- Insertion in descending order, an equal value after those already there (R194). -/
def rankIn (x : Nat × FVal × Nat) : List (Nat × FVal × Nat) → List (Nat × FVal × Nat)
  | [] => [x]
  | y :: ys => if y.2.1.lt x.2.1 then x :: y :: ys else y :: rankIn x ys

/-- The candidates of VTOPK in rank order: index, value, bits. -/
def topCandidates (s : State) (v : Vec) : List (Nat × FVal × Nat) :=
  (((List.range 128).filter fun e => s.fr.active.getLsbD e).map fun e => (e, f32.decode (lane v 32 e), lane v 32 e))
    |>.filter (fun x => !x.2.1.isNan) |>.foldl (fun acc x => rankIn x acc) []

def opVtopk (n : BitVec 1) (d a : BitVec 6) (k : BitVec 3) : Op :=
  vectorOp (okV2 n d a) 12 false n d [{ j := 1, f := a, isF32 := true }] fun s l =>
    let cs := (topCandidates s (src l 0)).take (k.toNat + 1)
    let ix (j : Nat) : Nat := match cs[j]? with
      | some x => x.1
      | none => 0xFFFFFFFF
    let val (j : Nat) : Nat := match cs[j]? with
      | some x => x.2.2
      | none => 0xFF800000
    (lanesAt 8 32 0 ix ||| lanesAt 8 32 256 val, firstBytes 32 ||| (firstBytes 32 <<< 256))

/-! ## Moving elements (R180, R196-R200) -/

/-- ctl(f): the 32-bit element 0 of a control source (R180). -/
def ctlWord (v : Vec) : Nat := lane v 32 0
/-- The element that a control word names, and its width in bytes (R196). -/
def ctlElem (v : Vec) (c : Nat) : Nat × Nat :=
  let b := 2 ^ field c 9 2
  (lane v (8 * b) (field c 0 9 % (512 / b)), b)

def opVperm (n : BitVec 1) (d a b : BitVec 6) : Op :=
  vectorOp (okV3 n d a b) 4 false n d [{ j := 1, f := a }, { j := 2, f := b }]
    (lanewise 4 fun l e =>
      let x := lane (src l 1) 32 e
      if x.testBit 31 then 0 else lane (src l 0) 32 (x % 128))
def opViota (n : BitVec 1) (d a : BitVec 6) : Op :=
  vectorOp (okV2 n d a) 2 false n d [{ j := 1, f := a }] (lanewise 4 fun l e => ctlWord (src l 0) + e)
def opVbcast (n : BitVec 1) (d a b : BitVec 6) : Op :=
  vectorOp (okBcast n d a b) 2 false n d [{ j := 1, f := a }, { j := 2, f := b }] fun _ l =>
    let x := ctlElem (src l 0) (ctlWord (src l 1))
    (broadcast x.2 x.1, allBytes)
/-- VEXTR: a scalar result of a vector unit, latency 4 (R199). -/
def opVextr (n : BitVec 1) (d a b : BitVec 6) : Op where
  legal _ := okExtr n d a b
  sregs _ := [d]
  ofs := [vOpd {} 1 a, vOpd {} 2 b]
  uses c s := vUses c s 1 0 [{ j := 1, f := a }, { j := 2, f := b }]
  vec := 1
  sem c s0 w := do
    let (l, _, w) ← readSrcs c s0 [{ j := 1, f := a }, { j := 2, f := b }] ([], w)
    let cw := ctlWord (src l 1)
    let x := ctlElem (src l 0) cw
    let v := if cw.testBit 11 then sext x.1 (8 * x.2) else zext x.1 (8 * x.2)
    .ok (w.result c.slot 4 (if n = 1 then .none else .s d.toNat) (if n = 1 then 0 else firstBytes 8) (v.setWidth 4096)
      (some c.vUnit))
def opVmkc (d : BitVec 3) (a : BitVec 6) (w : BitVec 2) : Op where
  legal _ := okMkc a w
  ofs := [vOpd {} 1 a]
  uses c s := vUses c s 1 0 [{ j := 1, f := a }]
  vec := 1
  sem c s0 st := do
    let (l, _, st) ← readSrcs c s0 [{ j := 1, f := a }] ([], st)
    let m := 512 >>> w.toNat
    .ok (maskResult c 2 d allBytes (firstBytes (min (ctlWord (src l 0)) m)) st c.vUnit.val)

/-! ## The instructions -/

/-- VADD (R183). -/
def execVadd (p : BitVec 3) (t : BitVec 3) (n : BitVec 1) (d : BitVec 6) (a : BitVec 6) (b : BitVec 6) (s : State) : Out :=
  issueOne s p 1 (opVadd t n d a b)
/-- VSUB (R183). -/
def execVsub (p : BitVec 3) (t : BitVec 3) (n : BitVec 1) (d : BitVec 6) (a : BitVec 6) (b : BitVec 6) (s : State) : Out :=
  issueOne s p 1 (opVsub t n d a b)
/-- VMUL (R183). -/
def execVmul (p : BitVec 3) (t : BitVec 3) (n : BitVec 1) (d : BitVec 6) (a : BitVec 6) (b : BitVec 6) (s : State) : Out :=
  issueOne s p 1 (opVmul t n d a b)
/-- VMIN (R183). -/
def execVmin (p : BitVec 3) (t : BitVec 3) (n : BitVec 1) (d : BitVec 6) (a : BitVec 6) (b : BitVec 6) (s : State) : Out :=
  issueOne s p 1 (opVmin t n d a b)
/-- VMAX (R183). -/
def execVmax (p : BitVec 3) (t : BitVec 3) (n : BitVec 1) (d : BitVec 6) (a : BitVec 6) (b : BitVec 6) (s : State) : Out :=
  issueOne s p 1 (opVmax t n d a b)
/-- VNEG (R183). -/
def execVneg (p : BitVec 3) (t : BitVec 3) (n : BitVec 1) (d : BitVec 6) (a : BitVec 6) (s : State) : Out :=
  issueOne s p 1 (opVneg t n d a)
/-- VABS (R183). -/
def execVabs (p : BitVec 3) (t : BitVec 3) (n : BitVec 1) (d : BitVec 6) (a : BitVec 6) (s : State) : Out :=
  issueOne s p 1 (opVabs t n d a)
/-- VFMA (R183). -/
def execVfma (p : BitVec 3) (t : BitVec 3) (n : BitVec 1) (d : BitVec 6) (a : BitVec 6) (b : BitVec 6) (s : State) : Out :=
  issueOne s p 1 (opVfma t n d a b)
/-- VCMP (R184). -/
def execVcmp (p : BitVec 3) (c : BitVec 3) (t : BitVec 2) (d : BitVec 3) (a : BitVec 6) (b : BitVec 6) (s : State) : Out :=
  issueOne s p 1 (opVcmp c t d a b)
/-- VAND (R185). -/
def execVand (p : BitVec 3) (n : BitVec 1) (d : BitVec 6) (a : BitVec 6) (b : BitVec 6) (s : State) : Out :=
  issueOne s p 1 (opVand n d a b)
/-- VOR (R185). -/
def execVor (p : BitVec 3) (n : BitVec 1) (d : BitVec 6) (a : BitVec 6) (b : BitVec 6) (s : State) : Out :=
  issueOne s p 1 (opVor n d a b)
/-- VXOR (R185). -/
def execVxor (p : BitVec 3) (n : BitVec 1) (d : BitVec 6) (a : BitVec 6) (b : BitVec 6) (s : State) : Out :=
  issueOne s p 1 (opVxor n d a b)
/-- VSHL (R185). -/
def execVshl (p : BitVec 3) (n : BitVec 1) (d : BitVec 6) (a : BitVec 6) (b : BitVec 6) (s : State) : Out :=
  issueOne s p 1 (opVshl n d a b)
/-- VSHR (R185). -/
def execVshr (p : BitVec 3) (n : BitVec 1) (d : BitVec 6) (a : BitVec 6) (b : BitVec 6) (s : State) : Out :=
  issueOne s p 1 (opVshr n d a b)
/-- VSAR (R185). -/
def execVsar (p : BitVec 3) (n : BitVec 1) (d : BitVec 6) (a : BitVec 6) (b : BitVec 6) (s : State) : Out :=
  issueOne s p 1 (opVsar n d a b)
/-- VMOV (R185). -/
def execVmov (p : BitVec 3) (n : BitVec 1) (d : BitVec 6) (a : BitVec 6) (s : State) : Out :=
  issueOne s p 1 (opVmov n d a)
/-- VSEL (R185). -/
def execVsel (p : BitVec 3) (n : BitVec 1) (d : BitVec 6) (a : BitVec 6) (b : BitVec 6) (s : State) : Out :=
  issueOne s p 1 (opVsel n d a b)
/-- VCVT (R186). -/
def execVcvt (p : BitVec 3) (n : BitVec 1) (d : BitVec 6) (a : BitVec 6) (k : BitVec 4) (h : BitVec 1) (s : State) : Out :=
  issueOne s p 1 (opVcvt n d a k h)
/-- VCVTZ (R186). -/
def execVcvtz (p : BitVec 3) (n : BitVec 1) (d : BitVec 6) (a : BitVec 6) (k : BitVec 4) (h : BitVec 1) (s : State) : Out :=
  issueOne s p 1 (opVcvtz n d a k h)
/-- VPACK8 (R187). -/
def execVpack8 (p : BitVec 3) (n : BitVec 1) (d : BitVec 6) (a : BitVec 6) (z : BitVec 1) (t : BitVec 2) (q : BitVec 2) (s : State) : Out :=
  issueOne s p 1 (opVpack8 n d a z t q)
/-- VUNPK8 (R187). -/
def execVunpk8 (p : BitVec 3) (n : BitVec 1) (d : BitVec 6) (a : BitVec 6) (t : BitVec 2) (q : BitVec 2) (s : State) : Out :=
  issueOne s p 1 (opVunpk8 n d a t q)
/-- VQNT4 (R188). -/
def execVqnt4 (p : BitVec 3) (n : BitVec 1) (d : BitVec 6) (a : BitVec 6) (t : BitVec 2) (s : State) : Out :=
  issueOne s p 1 (opVqnt4 n d a t)
/-- VDQ4 (R189). -/
def execVdq4 (p : BitVec 3) (n : BitVec 1) (d : BitVec 6) (a : BitVec 6) (h : BitVec 1) (f : BitVec 1) (s : State) : Out :=
  issueOne s p 1 (opVdq4 n d a h f)
/-- VRCP (R190). -/
def execVrcp (p : BitVec 3) (n : BitVec 1) (d : BitVec 6) (a : BitVec 6) (s : State) : Out :=
  issueOne s p 1 (opVrcp n d a)
/-- VRSQ (R190). -/
def execVrsq (p : BitVec 3) (n : BitVec 1) (d : BitVec 6) (a : BitVec 6) (s : State) : Out :=
  issueOne s p 1 (opVrsq n d a)
/-- VEXP2 (R190). -/
def execVexp2 (p : BitVec 3) (n : BitVec 1) (d : BitVec 6) (a : BitVec 6) (s : State) : Out :=
  issueOne s p 1 (opVexp2 n d a)
/-- VLOG2 (R190). -/
def execVlog2 (p : BitVec 3) (n : BitVec 1) (d : BitVec 6) (a : BitVec 6) (s : State) : Out :=
  issueOne s p 1 (opVlog2 n d a)
/-- VTANH (R190). -/
def execVtanh (p : BitVec 3) (n : BitVec 1) (d : BitVec 6) (a : BitVec 6) (s : State) : Out :=
  issueOne s p 1 (opVtanh n d a)
/-- VSIGM (R190). -/
def execVsigm (p : BitVec 3) (n : BitVec 1) (d : BitVec 6) (a : BitVec 6) (s : State) : Out :=
  issueOne s p 1 (opVsigm n d a)
/-- VSIN (R190). -/
def execVsin (p : BitVec 3) (n : BitVec 1) (d : BitVec 6) (a : BitVec 6) (s : State) : Out :=
  issueOne s p 1 (opVsin n d a)
/-- VCOS (R190). -/
def execVcos (p : BitVec 3) (n : BitVec 1) (d : BitVec 6) (a : BitVec 6) (s : State) : Out :=
  issueOne s p 1 (opVcos n d a)
/-- VRED_ADD (R191). -/
def execVredAdd (p : BitVec 3) (n : BitVec 1) (d : BitVec 6) (a : BitVec 6) (t : BitVec 3) (s : State) : Out :=
  issueOne s p 1 (opVredAdd n d a t)
/-- VRED_MAX (R191). -/
def execVredMax (p : BitVec 3) (n : BitVec 1) (d : BitVec 6) (a : BitVec 6) (t : BitVec 3) (s : State) : Out :=
  issueOne s p 1 (opVredMax n d a t)
/-- VRED_MIN (R191). -/
def execVredMin (p : BitVec 3) (n : BitVec 1) (d : BitVec 6) (a : BitVec 6) (t : BitVec 3) (s : State) : Out :=
  issueOne s p 1 (opVredMin n d a t)
/-- VSCAN_ADD (R192). -/
def execVscanAdd (p : BitVec 3) (n : BitVec 1) (d : BitVec 6) (a : BitVec 6) (t : BitVec 3) (s : State) : Out :=
  issueOne s p 1 (opVscanAdd n d a t)
/-- VGMAX (R193). -/
def execVgmax (p : BitVec 3) (n : BitVec 1) (d : BitVec 6) (a : BitVec 6) (g : BitVec 3) (s : State) : Out :=
  issueOne s p 1 (opVgmax n d a g)
/-- VTOPK (R194). -/
def execVtopk (p : BitVec 3) (n : BitVec 1) (d : BitVec 6) (a : BitVec 6) (k : BitVec 3) (s : State) : Out :=
  issueOne s p 1 (opVtopk n d a k)
/-- VPERM (R197). -/
def execVperm (p : BitVec 3) (n : BitVec 1) (d : BitVec 6) (a : BitVec 6) (b : BitVec 6) (s : State) : Out :=
  issueOne s p 1 (opVperm n d a b)
/-- VIOTA (R198). -/
def execViota (p : BitVec 3) (n : BitVec 1) (d : BitVec 6) (a : BitVec 6) (s : State) : Out :=
  issueOne s p 1 (opViota n d a)
/-- VBCAST (R196). -/
def execVbcast (p : BitVec 3) (n : BitVec 1) (d : BitVec 6) (a : BitVec 6) (b : BitVec 6) (s : State) : Out :=
  issueOne s p 1 (opVbcast n d a b)
/-- VEXTR (R199). -/
def execVextr (p : BitVec 3) (n : BitVec 1) (d : BitVec 6) (a : BitVec 6) (b : BitVec 6) (s : State) : Out :=
  issueOne s p 1 (opVextr n d a b)
/-- VMKC (R200). -/
def execVmkc (p : BitVec 3) (d : BitVec 3) (a : BitVec 6) (w : BitVec 2) (s : State) : Out :=
  issueOne s p 1 (opVmkc d a w)

end Sys2Proof.Machine
end

