-- ==== Sys2Proof/Machine/Slots.lean ====
section
/-! DEFINITION. The operation that each slot instruction stands for: its guarding predicate, its class and its
meaning within a bundle (R40). -/

namespace Sys2Proof.Machine

open Sys2Proof

/-- Predicate, class and operation of an instruction that a slot holds; none for a nop and for an event. -/
def opOf (i : Instr) : Option (BitVec 3 × Nat × Op) :=
  match i with
  | .add p n d a b => some (p, 0, opAdd n d a b)
  | .sub p n d a b => some (p, 0, opSub n d a b)
  | .mul p n d a b => some (p, 0, opMul n d a b)
  | .mulh p n d a b => some (p, 0, opMulh n d a b)
  | .mulhn p n d a b => some (p, 0, opMulhn n d a b)
  | .div p n d a b => some (p, 0, opDiv n d a b)
  | .divn p n d a b => some (p, 0, opDivn n d a b)
  | .rem p n d a b => some (p, 0, opRem n d a b)
  | .remn p n d a b => some (p, 0, opRemn n d a b)
  | .andR p n d a b => some (p, 0, opAndR n d a b)
  | .orR p n d a b => some (p, 0, opOrR n d a b)
  | .xor p n d a b => some (p, 0, opXor n d a b)
  | .andn p n d a b => some (p, 0, opAndn n d a b)
  | .shl p n d a b => some (p, 0, opShl n d a b)
  | .shr p n d a b => some (p, 0, opShr n d a b)
  | .sar p n d a b => some (p, 0, opSar n d a b)
  | .rotr p n d a b => some (p, 0, opRotr n d a b)
  | .min p n d a b => some (p, 0, opMin n d a b)
  | .max p n d a b => some (p, 0, opMax n d a b)
  | .minn p n d a b => some (p, 0, opMinn n d a b)
  | .maxn p n d a b => some (p, 0, opMaxn n d a b)
  | .clz p n d a => some (p, 0, opClz n d a)
  | .popc p n d a => some (p, 0, opPopc n d a)
  | .abs p n d a => some (p, 0, opAbs n d a)
  | .ext p n d a b => some (p, 0, opExt n d a b)
  | .ins p n d a b => some (p, 0, opIns n d a b)
  | .lea1 p n d a b => some (p, 0, opLea1 n d a b)
  | .lea2 p n d a b => some (p, 0, opLea2 n d a b)
  | .lea4 p n d a b => some (p, 0, opLea4 n d a b)
  | .lea8 p n d a b => some (p, 0, opLea8 n d a b)
  | .mov p n d a => some (p, 0, opMov n d a)
  | .cmp p c d a b => some (p, 0, opCmp c d a b)
  | .addi p n d a i => some (p, 0, opAddi n d a i)
  | .muli p n d a i => some (p, 0, opMuli n d a i)
  | .andi p n d a i => some (p, 0, opAndi n d a i)
  | .ori p n d a i => some (p, 0, opOri n d a i)
  | .xori p n d a i => some (p, 0, opXori n d a i)
  | .shli p n d a i => some (p, 0, opShli n d a i)
  | .shri p n d a i => some (p, 0, opShri n d a i)
  | .sari p n d a i => some (p, 0, opSari n d a i)
  | .movi p n d i => some (p, 0, opMovi n d i)
  | .movhi p n d a i => some (p, 0, opMovhi n d a i)
  | .cmpi p c d a i => some (p, 0, opCmpi c d a i)
  | .lds p w n d a o m => some (p, 0, opLds w n d a o m)
  | .sts p w d a o m => some (p, 0, opSts w d a o m)
  | .vset p v a => some (p, 0, opVset v a)
  | .vget p n d v => some (p, 0, opVget n d v)
  | .csrr p n d c => some (p, 0, opCsrr n d c)
  | .csrw p h a l => some (p, 0, opCsrw h a l)
  | .trap p t => some (p, 0, opTrap t)
  | .tret p => some (p, 0, opTret)
  | .dchk p a b => some (p, 0, opDchk a b)
  | .dchkV p a b => some (p, 0, opDchkV a b)
  | .dchkA p a b => some (p, 0, opDchkA a b)
  | .join p n d a => some (p, 0, opJoin n d a)
  | .leave p a => some (p, 0, opLeave a)
  | .yield p => some (p, 0, opYield)
  | .yieldEv p => some (p, 0, opYieldEv)
  | .step p a => some (p, 0, opStep a)
  | .mirror p e a => some (p, 0, opMirror e a)
  | .prep p t i => some (p, 5, opPrep t i)
  | .xfer p t => some (p, 5, opXfer t)
  | .xfere p t w => some (p, 5, opXfere t w)
  | .xfera p t w => some (p, 5, opXfera t w)
  | .call p t l => some (p, 5, opCall t l)
  | .ret p a => some (p, 5, opRet a)
  | .halt p => some (p, 5, opHalt)
  | .loop p c o => some (p, 5, opLoop c o)
  | .loops p c s o => some (p, 5, opLoops c s o)
  | .lbrk p => some (p, 5, opLbrk)
  | .lbrkD p => some (p, 5, opLbrkD)
  | .pand p d a b => some (p, 5, opPand d a b)
  | .por p d a b => some (p, 5, opPor d a b)
  | .pxor p d a b => some (p, 5, opPxor d a b)
  | .pnot p d a => some (p, 5, opPnot d a)
  | .pmov p d a => some (p, 5, opPmov d a)
  | .pall p d a w => some (p, 5, opPall d a w)
  | .pany p d a w => some (p, 5, opPany d a w)
  | .mpush p a => some (p, 5, opMpush a)
  | .mpushIn p a => some (p, 5, opMpushIn a)
  | .minv p => some (p, 5, opMinv)
  | .mpop p => some (p, 5, opMpop)
  | .mget p d => some (p, 5, opMget d)
  | .vadd p t n d a b => some (p, 1, opVadd t n d a b)
  | .vsub p t n d a b => some (p, 1, opVsub t n d a b)
  | .vmul p t n d a b => some (p, 1, opVmul t n d a b)
  | .vfma p t n d a b => some (p, 1, opVfma t n d a b)
  | .vmin p t n d a b => some (p, 1, opVmin t n d a b)
  | .vmax p t n d a b => some (p, 1, opVmax t n d a b)
  | .vneg p t n d a => some (p, 1, opVneg t n d a)
  | .vabs p t n d a => some (p, 1, opVabs t n d a)
  | .vcmp p c t d a b => some (p, 1, opVcmp c t d a b)
  | .vsel p n d a b => some (p, 1, opVsel n d a b)
  | .vand p n d a b => some (p, 1, opVand n d a b)
  | .vor p n d a b => some (p, 1, opVor n d a b)
  | .vxor p n d a b => some (p, 1, opVxor n d a b)
  | .vshl p n d a b => some (p, 1, opVshl n d a b)
  | .vshr p n d a b => some (p, 1, opVshr n d a b)
  | .vsar p n d a b => some (p, 1, opVsar n d a b)
  | .vmov p n d a => some (p, 1, opVmov n d a)
  | .vcvt p n d a k h => some (p, 1, opVcvt n d a k h)
  | .vcvtz p n d a k h => some (p, 1, opVcvtz n d a k h)
  | .vpack8 p n d a z t q => some (p, 1, opVpack8 n d a z t q)
  | .vunpk8 p n d a t q => some (p, 1, opVunpk8 n d a t q)
  | .vqnt4 p n d a t => some (p, 1, opVqnt4 n d a t)
  | .vdq4 p n d a h f => some (p, 1, opVdq4 n d a h f)
  | .vrcp p n d a => some (p, 1, opVrcp n d a)
  | .vrsq p n d a => some (p, 1, opVrsq n d a)
  | .vexp2 p n d a => some (p, 1, opVexp2 n d a)
  | .vlog2 p n d a => some (p, 1, opVlog2 n d a)
  | .vtanh p n d a => some (p, 1, opVtanh n d a)
  | .vsigm p n d a => some (p, 1, opVsigm n d a)
  | .vsin p n d a => some (p, 1, opVsin n d a)
  | .vcos p n d a => some (p, 1, opVcos n d a)
  | .vredAdd p n d a t => some (p, 1, opVredAdd n d a t)
  | .vredMax p n d a t => some (p, 1, opVredMax n d a t)
  | .vredMin p n d a t => some (p, 1, opVredMin n d a t)
  | .vscanAdd p n d a t => some (p, 1, opVscanAdd n d a t)
  | .vtopk p n d a k => some (p, 1, opVtopk n d a k)
  | .vgmax p n d a g => some (p, 1, opVgmax n d a g)
  | .vperm p n d a b => some (p, 1, opVperm n d a b)
  | .viota p n d a => some (p, 1, opViota n d a)
  | .vbcast p n d a b => some (p, 1, opVbcast n d a b)
  | .vextr p n d a b => some (p, 1, opVextr n d a b)
  | .vmkc p d a w => some (p, 1, opVmkc d a w)
  | .mmaAcc p f d a b => some (p, 2, opMmaAcc f d a b)
  | .mmaOvw p f d a b => some (p, 2, opMmaOvw f d a b)
  | .mmaDec p f d a b => some (p, 2, opMmaDec f d a b)
  | .mdecay p a => some (p, 2, opMdecay a)
  | .mzero p d => some (p, 2, opMzero d)
  | .mcvt p d a z t => some (p, 2, opMcvt d a z t)
  | .mtrn p d a => some (p, 2, opMtrn d a)
  | .mldt p d a b => some (p, 2, opMldt d a b)
  | .mrel p t => some (p, 2, opMrel t)
  | .mstt p d a b => some (p, 2, opMstt d a b)
  | .mnest p l => some (p, 2, opMnest l)
  | .mnwaitN p => some (p, 2, opMnwaitN)
  | .mnwaitT p => some (p, 2, opMnwaitT)
  | .mnwaitNt p => some (p, 2, opMnwaitNt)
  | .mrag p a => some (p, 2, opMrag a)
  | .mscale p d a b => some (p, 2, opMscale d a b)
  | .ldv p d a o m => some (p, 3, opLdv d a o m)
  | .stv p d a o m => some (p, 3, opStv d a o m)
  | .ldvg p d a b => some (p, 3, opLdvg d a b)
  | .stvs p d a b => some (p, 3, opStvs d a b)
  | .ldvb p d a o m => some (p, 3, opLdvb d a o m)
  | .aadd p d a o m => some (p, 3, opAadd d a o m)
  | .amin p d a o m => some (p, 3, opAmin d a o m)
  | .amax p d a o m => some (p, 3, opAmax d a o m)
  | .aand p d a o m => some (p, 3, opAand d a o m)
  | .aor p d a o m => some (p, 3, opAor d a o m)
  | .axch p d a o m => some (p, 3, opAxch d a o m)
  | .acas p d a o m => some (p, 3, opAcas d a o m)
  | .aaddf p d a o m => some (p, 3, opAaddf d a o m)
  | .vaadd p d a b => some (p, 3, opVaadd d a b)
  | .fence p k => some (p, 3, opFence k)
  | .acq p s => some (p, 3, opAcq s)
  | .rel p s => some (p, 3, opRel s)
  | .flush p s a b => some (p, 3, opFlush s a b)
  | .invl p a b => some (p, 3, opInvl a b)
  | .cpy p d a b => some (p, 3, opCpy d a b)
  | .cpym p d a b => some (p, 3, opCpym d a b)
  | .cpyw p d a b => some (p, 3, opCpyw d a b)
  | .sbind p d a m q => some (p, 3, opSbind d a m q)
  | .sunb p d => some (p, 3, opSunb d)
  | .sdrn p d => some (p, 3, opSdrn d)
  | .owntCore p a b => some (p, 3, opOwntCore a b)
  | .owntEng p a b => some (p, 3, opOwntEng a b)
  | .owntF p a b => some (p, 3, opOwntF a b)
  | .ownw p a b => some (p, 3, opOwnw a b)
  | .evpop p d => some (p, 3, opEvpop d)
  | .evpost p a b => some (p, 3, opEvpost a b)
  | .bara p b => some (p, 3, opBara b)
  | .barw p b => some (p, 3, opBarw b)
  | .barx p d a b => some (p, 3, opBarx d a b)
  | .whpre p a => some (p, 3, opWhpre a)
  | .whwait p d a => some (p, 3, opWhwait d a)
  | .whpin p d a => some (p, 3, opWhpin d a)
  | .whunp p a => some (p, 3, opWhunp a)
  | .whqry p d a => some (p, 3, opWhqry d a)
  | .whmap p d a => some (p, 3, opWhmap d a)
  | .snlook p d a => some (p, 3, opSnlook d a)
  | .snsave p a b => some (p, 3, opSnsave a b)
  | .snload p a b => some (p, 3, opSnload a b)
  | .snrel p a => some (p, 3, opSnrel a)
  | .snhash p d a b => some (p, 3, opSnhash d a b)
  | .rtpred p a b => some (p, 3, opRtpred a b)
  | .rtdisp p a b => some (p, 3, opRtdisp a b)
  | .tinvr p d a b => some (p, 3, opTinvr d a b)
  | .tinva p a => some (p, 3, opTinva a)
  | .prfl p l a o m => some (p, 3, opPrfl l a o m)
  | _ => none

end Sys2Proof.Machine
end

