-- ==== Sys2Proof/Machine/Bundle.lean ====
section
/-! DEFINITION. The issue of the head bundle (R62, R147, R150, R159, R276). -/

namespace Sys2Proof.Machine

open Sys2Proof

/-! ## The operations of a bundle -/

/-- The operation in a slot: none for a header or a nop; a word that names none raises illegal instruction (R42, R61). -/
def slotOp (b : Bundle) (k : Fin 4) : List SlotOp :=
  let w := slotWord b k
  if [0, 1, 2, 3, 5].contains (wordCls w) then
    match decodeSlot w with
    | .ok i => match opOf i with
      | some (p, cls, op) => [{ ctx := slotCtx b k, pred := p, cls := cls, op := op }]
      | none => []
    | .error _ => [{ ctx := slotCtx b k, pred := w.extractLsb' 26 3, cls := wordCls w, op := { legal := fun _ => false } }]
  else []

/-- The operations of a bundle in slot order. -/
def bundleOps (b : Bundle) : List SlotOp := allSlots.flatMap (slotOp b)

/-- The head bundle: a copy that the sequencer holds, or a fetch (R147, R150, R159). A fetch of the next bundle in sequence takes no time of its own,
whether or not the line is near: the manual gives it no length, and this is the model's choice (log 75). -/
def headBundle (s : State) : Except Trap (Bundle × State) :=
  let f := s.fr
  match (if f.id.codeOk f.ctl.pc then f.ctl.fetched.find? fun e => e.1 == f.ctl.pc.toNat else none) with
  | some e => .ok (e.2, s)
  | none => match fetchAt s s.cur s.here.run f.ctl.pc with
    | .error t => .error t
    | .ok (b, w) => .ok (b, s.learnFetch s.cur w)

/-! ## Issue of the head bundle -/

/-- The state in which a bundle's operations issue: its slot context is that of the first of them. -/
def State.under (s : State) (b : Bundle) : State := { s with ctx := ((bundleOps b).head?.map SlotOp.ctx).getD (slotCtx b 0) }

/-- A fetched bundle: illegal, or its operations issue together (R62). -/
def State.issueBundle (s : State) (b : Bundle) : State :=
  match illegalSlot b with
  | some k => s.takeTrap { cause := Cause.illegalBundle, slot := k.val } s.fr.ctl.pc
  | none => issue (s.under b) (bundleOps b) (headerWeight b) (hasHeader b)

/-- Whether the bundle that issued last invalidates translations under which it sent accesses that have not all performed (R383). -/
def State.draining (s : State) : Bool :=
  match s.fr.ctl.draining with
  | some id => s.invals.any (·.id == id)
  | none => false
/-- Whether the sequencer waits before it fetches: a refetch, a loop buffer, or the rest of an earlier bundle's release or acquire (R111, R112,
R153, R158, R159, R274), or an invalidation that waits for its own bundle's accesses (R383). -/
def State.fetchHeld (s : State) : Bool :=
  let c := s.fr.ctl
  decide (s.cyc s.cur < c.notBefore) || c.refetch || s.ordering s.cur || s.draining || match c.loopWait with
    | some v => !(c.lv.get v).filled
    | none => false

/-- The copies of a loop buffer taken over at a back edge or exit (R159). -/
def State.takeLoopBuffer (s : State) : State :=
  s.updCtl fun c => match c.loopWait with
    | some v => { c with loopWait := none, fetched := (c.lv.get v).buf }
    | none => c

/-- BUNDLE_ISSUE (R62, R276, R378): the head bundle is checked and issues, holds, or traps. One that has met a quiesced stack holds until its place
there is free; with `u` 1 that has come. -/
def execBundleIssue (s : State) : Out :=
  if s.arg.u = 1 ∧ !s.resumes .bundleIssue then .next s else
  if s.fetchHeld ∨ s.placed s.cur .bundleIssue then .next s.held else
  let s := s.takeLoopBuffer
  match headBundle s with
  | .error t => .next (s.takeTrap t s.fr.ctl.pc)
  | .ok (b, w) => .next (if w.closed then { s with closed := true } else w.issueBundle b)

/-- NOP (R40): a bundle of nops alone issues and advances. -/
def execNop (s : State) : Out := .next (issue s [] s.ctx.ew s.ctx.hasHdr)

end Sys2Proof.Machine
end

