-- ==== Sys2Proof/Machine/Hbm.lean ====
section
/-! DEFINITION. The HBM controllers: quiescing and remapping, the clearing of counts, the tracker's window, uncorrectable lines, LLC
partitions, format windows, and the writing of handles (R376-R379, R426-R433). -/

namespace Sys2Proof.Machine

open Sys2Proof

/-! ## Quiescing and remapping (R378) -/

/-- HCTL_QUIESCE: the home slice admits no new access. -/
def execHctlQuiesce (s : State) : Out :=
  let d := s.arg.d
  .next ((s.updHbm d fun x => { x with hctl := remask x.hctl 0 1 }).postLater 1 .hctlQuiesceComplete { d := d })

/-- The bytes of a stack. -/
def inStack (d : DieId) (pa : Nat) : Bool := pa / 2 ^ 36 == d.val
/-- Dirty L2 bytes of a stack go home, and the L2 copies are invalidated. -/
def State.flushStack (s : State) (d : DieId) : State :=
  let t := allDies.foldl (fun (s : State) i =>
    (s.flushDie i (inStack d)).updDie i fun x => { x with lines := x.lines.filter fun a => !inStack d a }) s
  { t with closed := s.closed }

/-- HCTL_QUIESCE_COMPLETE: L2 copies are written back and invalidated (`u` 0), and once no admitted access is under way the LLC's lines too. -/
def execHctlQuiesceComplete (s : State) : Out :=
  let d := s.arg.d
  if !bit (s.hbm d).hctl 0 then .next s
  else if s.arg.u = 0 then .next ((s.flushStack d).post 2 .hctlQuiesceComplete { s.arg with u := 1 })
  else if s.agenda.any fun e => e.row == .hbmActivation && e.arg.d == d then .next (s.post 1 .hctlQuiesceComplete s.arg)
  else
    let out := (s.hbm d).llc
    let s := out.foldl (fun (s : State) l => s.llcDrop d l) (s.updHbm d fun x => { x with llc := [], captured := [] })
    .next (s.updHbm d fun x => { x with hctl := remask x.hctl 0 2, llc := [], captured := [] })

/-- HCTL_UNQUIESCE: held accesses go on in their order of arrival, against the stack as it stands; a remap that runs refuses it. -/
def execHctlUnquiesce (s : State) : Out :=
  let d := s.arg.d
  if bit (s.hbm d).hctl 4 then .next (s.updHbm d fun x => { x with hctl := remask x.hctl 0 0x20 })
  else .next { (s.updHbm d fun x => { x with hctl := remask x.hctl 3 0 }) with freed := s.freed ++ s.barred, barred := [] }

/-- HCTL_REMAP: the masks govern the stack, and its zeroing begins; refused unless QUIESCED and not BUSY. -/
def execHctlRemap (s : State) : Out :=
  let d := s.arg.d
  if bit (s.hbm d).hctl 1 && !bit (s.hbm d).hctl 4 then
    .next (((s.updHbm d fun x => { x with hctl := remask x.hctl 0 0x10, inForce := x.hmask }).post (1 + s.extra % 120000000)
      .hctlRemapComplete { d := d }).tick)
  else .next (s.updHbm d fun x => { x with hctl := remask x.hctl 0 0x20 })

/-- HCTL_REMAP_COMPLETE: the stack reads zero, the tracker and the counts are clear. -/
def execHctlRemapComplete (s : State) : Out :=
  let d := s.arg.d
  if !bit (s.hbm d).hctl 4 then .next s else
  let s := { s with mem := s.mem.filter fun (c : Host.Cell) => !inStack d c.1,
                    poison := s.poison.filter fun (p : Nat × Nat) => !inStack d p.1,
                    tags := s.tags.filter fun t => !inStack d t.pa }
  .next (s.updHbm d fun x => { x with hctl := remask x.hctl 0x10 0, tracker := [], pcstat := Vector.replicate 64 0 })

/-- HCTL_CLRSTAT. -/
def execHctlClrstat (s : State) : Out := .next (s.updHbm s.arg.d fun x => { x with pcstat := Vector.replicate 64 0 })

/-! ## The tracker (R428, R429) -/

/-- TRACKER_RESET (R428, R429): every counter is zero; captured rows that were accessed less than T1 times leave, and their dirty lines are
written back. -/
def execTrackerReset (s : State) : Out :=
  let d := s.arg.d
  let old := (s.hbm d).captured
  let s := s.updHbm d fun x =>
    { x with tracker := [],
             captured := (x.captured.filter fun (y : Nat × Nat × Nat) => decide (bits x.rhctl 0 24 ≤ y.2.2)).map
               fun (y : Nat × Nat × Nat) => (y.1, y.2.1, 0) }
  .next ((s.rowsMoved d old).post (ticksOfUs 32000) .trackerReset { d := d })

/-- HBM_UNCORRECTABLE (R420, R427): the line is poisoned, counted and recorded. -/
def execHbmUncorrectable (s : State) : Out :=
  let pa := s.arg.n / 64 * 64
  match physClass pa with
  | .hbm k =>
    .next ((s.addPoison pa 64 0).updHbm (Fin.ofNat 8 k) fun x => { x with herr := count2 x.herr 0 1, herra := wd pa })
  | _ => .next s

/-! ## Errors of the fabric and of on-chip arrays (R418-R420) -/

/-- Bytes of [pa, pa+n) poisoned where they stand (R418, R420): with `level` 1 in the lines that the L1 of a core holds, with 2 in those that the L2 of a
die holds, else at their home: the register space, the local store, the LLC, or HBM. -/
def State.poisonAt (s : State) (level : Nat) (c : CoreId) (d : DieId) (pa n src : Nat) : State :=
  match level with
  | 1 => s.updCore c fun x => { x with l1Poison := keptPoison x.l1 (markPoison x.l1Poison pa n src) }
  | 2 => s.updDie d fun x =>
      let held (a : Nat) : Bool := x.lines.contains a || x.l2.any fun b => b.1 / 64 * 64 == a
      { x with poison := (markPoison x.poison pa n src).filter fun p => held p.1 }
  | _ => s.addPoison pa n src

/-- SRAM_UNCORRECTABLE: the line or granule that holds byte `n` of the physical map is poisoned in the array that `id` names. -/
def execSramUncorrectable (s : State) : Out := .next (s.poisonAt s.arg.id s.arg.c s.arg.d s.arg.n 1 3)
/-- FLIT_CRC_FAIL: the link replays; after eight replays (`u`), every line of the payload is delivered poisoned, to the level that `id` names. With
`bytes`, the flit carried a group of partial sums whose CRC holds: it is a link error only when the group is malformed (R99). -/
def execFlitCrcFail (s : State) : Out :=
  if s.arg.u < 8 ∨ (s.arg.bytes ≠ [] ∧ (psDecode (natOf s.arg.bytes)).isSome) then .next s
  else .next (s.poisonAt s.arg.id s.arg.c s.arg.d s.arg.n (max 1 s.arg.w0.toNat) 2)

/-! ## Partitions and windows (R323, R426, R430, R431) -/

/-- LLCPART_WRITE: a lowered limit demotes handles or releases captured rows, oldest first, and what was demoted is then of the general part; a raised
one changes nothing at once (R426). A value outside the limits is refused. -/
def execLlcpartWrite (s : State) : Out :=
  let d := s.arg.d
  let v := s.arg.w0
  if bits v 16 48 ≠ 0 ∨ 16 < bits v 0 8 ∨ 112 < bits v 8 8 + bits v 0 8 then
    .next (s.updHbm d fun x => { x with hctl := remask x.hctl 0 0x20 })
  else
    let old := (s.hbm d).captured
    let low : Bool := bits v 8 8 < bits (s.hbm d).llcpart 8 8
    let s := (s.updHbm d fun x =>
      let x := { x with llcpart := v }
      { x with captured := x.captured.drop (x.captured.length - x.capacity) }).rowsMoved d old
    .next (if low then (demoteTo s d (s.llcLimit d) (s.llcHandles d)).llcShrink d else s)

/-- A loader, handle, Nolnus or window write refused (R424). -/
def State.refuseLoad (s : State) : State := { s with ld := { s.ld with refused := true } }

/-- Code and scale ranges of a format window as base and length. -/
def FmtWin.ranges (w : FmtWin) : List (Nat × Nat) :=
  [(bits w.code 12 40 * 4096, bits w.len 12 28 * 4096), (bits w.scl 8 44 * 256, bits w.len 12 28 * 256)]
/-- Whether a range lies in one stack; the stack. -/
def stackOfRange (x : Nat × Nat) : Option Nat :=
  if x.2 = 0 ∨ 8 ≤ x.1 / 2 ^ 36 ∨ x.1 / 2 ^ 36 ≠ (x.1 + x.2 - 1) / 2 ^ 36 then none else some (x.1 / 2 ^ 36)
/-- Whether a window may become valid beside the others (R430). -/
def windowFits (w : FmtWin) (others : List FmtWin) : Bool :=
  match w.ranges with
  | [c, f] => (stackOfRange c).isSome && stackOfRange c == stackOfRange f && !meets c.1 c.2 f.1 f.2
      && others.all fun o => !bit o.code 0 || o.ranges.all fun r => !meets r.1 r.2 c.1 c.2 && !meets r.1 r.2 f.1 f.2
  | _ => false

/-- FORMAT_WINDOW_WRITE (R430, R431): FWCODE of window `u` becomes `w0`, once the LLC lines of the code range are written back and
invalidated. -/
def execFormatWindowWrite (s : State) : Out :=
  let v := s.arg.w0
  if h : s.arg.u < 64 then
    let w := s.ld.windows.get ⟨s.arg.u, h⟩
    let n := { w with code := v }
    let others := (s.ld.windows.toList.take s.arg.u) ++ (s.ld.windows.toList.drop (s.arg.u + 1))
    if bits v 52 12 ≠ 0 ∨ bits v 1 11 ≠ 0 then .next s.refuseLoad
    else if bit w.code 0 ∧ bit v 0 then .next s.refuseLoad
    else if bit v 0 ∧ !windowFits n others then .next s.refuseLoad
    else
      let codes := w.ranges.take 1 ++ n.ranges.take 1
      let t := allDies.foldl (fun (t : State) d => ((t.hbm d).llc.filter fun l => inParts codes l.pa).foldl (fun t l => t.llcDrop d l) t) s
      .next { t with ld := { t.ld with windows := s.ld.windows.set s.arg.u n h } }
  else .next s.refuseLoad

/-! ## Writing a handle (R330, R433) -/

/-- The home die of a handle in the current expert map. -/
def State.currentDie (s : State) (h : BitVec 16) : Option DieId :=
  (s.mapVer s.ld.mapcur).bind fun m => (m.layers.flatten.find? fun w => w.setWidth 16 == h).map mapDie

/-- HSET_GO: VERSION, LFA and SIZE, `w1` and `w2`, go to the handle of HSET0 = `w0` in one step, which reloads a FAULTED one; a refused write leaves
HSET0 as it is (R424). -/
def execHsetGo (s : State) : Out :=
  let h : BitVec 16 := s.arg.w0.setWidth 16
  let size : BitVec 16 := s.arg.w2.setWidth 16
  let e := s.handle h
  let wide : Bool := match s.currentDie h with
    | some d => decide (bits (s.base d).hslot 32 16 < size.toNat)
    | none => false
  if (e.st ≠ 0 ∧ e.st ≠ 6) ∨ e.flipp ∨ wide ∨ (size = 0 ∧ (s.residentDie h).isSome) then .next s.refuseLoad
  else
    let s := { s with ld := { s.ld with hset0 := s.arg.w0 &&& wd 0xFFFF } }
    .next ((s.updHandle h fun e => { e with version := BitVec.ofNat 32 (bits s.arg.w1 32 32), lfa := s.arg.w1.setWidth 32, size := size,
                                            st := 0, cause := 0, shape := none }).wakeWaiters)

end Sys2Proof.Machine
end

