-- ==== Sys2Proof/Machine/Flash.lean ====
section
/-! DEFINITION. Nolnus: blocks and pages of flash, its commands, relocation, wear levelling and failures (R434-R439). -/

namespace Sys2Proof.Machine

open Sys2Proof

/-! ## Blocks (R434, R437, R438) -/

/-- Nolnus of a stack changed. -/
def State.updNl (s : State) (d : DieId) (f : Nolnus → Nolnus) : State := s.updBase d fun b => { b with nl := f b.nl }
/-- Physical blocks of a stack. -/
def physBlocks : Nat := 131072
/-- Logical blocks that a stack can hold. -/
def stackBlocks : Nat := 104800
/-- Logical blocks of the package. -/
def logicalBlocks : Nat := 838400

/-- The free block of highest erase count. -/
def Nolnus.mostWorn (n : Nolnus) : Option Nat :=
  let l := n.freePhys
  let m := (l.map (countOf n.erases)).foldl max 0
  l.find? fun p => countOf n.erases p == m
/-- A logical block mapped to another physical block. -/
def Nolnus.remap (n : Nolnus) (lb p : Nat) : Nolnus :=
  { n with blocks := updWhere (fun (b : LogBlock) => b.lb == lb) (fun b => { b with phys := p }) n.blocks, reads := setCount n.reads p 0 }
/-- A logical block is switched to another physical block; the old one is erased once no page read uses it (R437 steps 3 to 5), which ends a
read-disturb relocation where `counts` says so. -/
def State.moveBlock (s : State) (d : DieId) (b : LogBlock) (p : Nat) (counts : Bool) : State :=
  (s.updNl d fun n =>
    let n := n.remap b.lb p
    { n with stale := n.stale ++ [(b.phys, counts)], moving := n.moving.filter (·.1 != b.lb) }.settle).checkWear d
/-- A relocation to the least worn free block; none when there is none. -/
def State.relocate (s : State) (d : DieId) (b : LogBlock) : Option State := ((s.base d).nl.leastWorn).map fun p => s.moveBlock d b p true

/-- The block that holds a page, with its stack. -/
def State.blockOf (s : State) (lfa : Nat) : Option (DieId × LogBlock) :=
  (s.flashStack (lfa / 512)).bind fun d => ((s.base d).nl.block (lfa / 512)).map fun b => (d, b)
/-- Whether every page of a run lies in an allocated block. -/
def State.runAllocated (s : State) (lfa n : Nat) : Bool := (List.range n).all fun j => (s.blockOf (lfa + j)).isSome

/-- Fresh consecutive blocks on a stack (R434, R436 ALLOC): which of the free runs is left open. -/
def State.flashAlloc (s : State) (d : DieId) (n : Nat) : Option (Nat × State) :=
  let nl := (s.base d).nl
  let room := min stackBlocks (physBlocks - nl.retired.length - nl.moving.length - nl.stale.length)
  let free (lb : Nat) : Bool := (s.flashStack lb).isNone
  let starts := (List.range (logicalBlocks + 1 - n)).filter fun b => (List.range n).all fun j => free (b + j)
  if room < nl.blocks.length + n ∨ starts.isEmpty then none else
  let first := starts.getD (s.pick starts.length) 0
  let s := (List.range n).foldl (fun (s : State) j => s.updNl d fun n =>
    match n.leastWorn with
    | some p => { n with blocks := n.blocks ++ [{ lb := first + j, phys := p }] }
    | none => n) s.tick
  some (first, s.checkWear d)

/-- A page programmed with a number of 32 KiB; a poisoned source leaves a page that cannot be read. -/
def State.programPage (s : State) (lfa v : Nat) (bad : Bool) : State :=
  match s.blockOf lfa with
  | none => s
  | some (d, b) =>
    let p := lfa % 512
    let left := (List.range p).filter fun j => decide (b.written ≤ j)
    let b := { b with written := p + 1, blank := b.blank ++ left, failed := if bad then b.failed ++ [p] else b.failed }
    s.updNl d fun n => { n with blocks := updWhere (fun (x : LogBlock) => x.lb == b.lb) (fun _ => b) n.blocks,
                                pages := Memory.write n.pages (lfa * pageSize) pageSize v }

/-- Blocks freed and erased. -/
def State.flashFree (s : State) (lb n : Nat) : State :=
  (List.range n).foldl (fun (s : State) j =>
    match s.blockOf ((lb + j) * 512) with
    | none => s
    | some (d, b) => (s.updNl d fun n =>
        { n with blocks := n.blocks.filter fun (x : LogBlock) => x.lb != b.lb,
                 pages := dropRange n.pages (b.lb * 512 * pageSize) (512 * pageSize) }.erase b.phys).checkWear d) s

/-- Pages of a handle's fill. -/
def State.fillPages (s : State) (e : HandleEnt) : Nat :=
  ceilDiv (s.fillBytes (Fin.ofNat 8 e.rdie.toNat) e.slot.toNat e) pageSize
/-- Whether a block is named by a handle or read by a fill (R436 BUSY). -/
def State.blockBusy (s : State) (lb : Nat) : Bool :=
  s.bases.toList.any (fun b => b.nl.open_.any fun r => r.lfa / 512 == lb) || s.handles.any fun x =>
    (x.2.size != 0 && x.2.lfa.toNat / 512 == lb) || ((x.2.staged.map fun (y : BitVec 32 × BitVec 32 × Option (Nat × Bool)) => y.2.1.toNat / 512 == lb).getD false)
      || (x.2.st == 1 && decide (x.2.lfa.toNat / 512 ≤ lb) && decide (lb * 512 < x.2.lfa.toNat + s.fillPages x.2))

/-! ## The command ring (R435, R436) -/

/-- Whether a physical range lies in HBM. -/
def inHbm (pa n : Nat) : Bool := decide (pa + n ≤ 0x8000000000)
/-- The row of an operation. -/
def nolnusRow : Nat → Option Instr
  | 1 => some .nolnusRead
  | 2 => some .nolnusWrite
  | 3 => some .nolnusAlloc
  | 4 => some .nolnusFree
  | 5 => some .nolnusDigest
  | 6 => some .nolnusReloc
  | _ => none
/-- The address of a ring entry. -/
def Nolnus.entryPa (n : Nolnus) (i : Nat) : Nat := bits n.nlring 6 51 * 64 + 32 * (i % 2 ^ bits n.nlring 0 5)
/-- The next command of a stack's ring starts; it keeps the place of its entry, since NLRING may change once the last one has started (R435, R436).
An entry that no memory holds is no command (R423); flash without power starts none (R461). -/
def State.nlStart (s : State) (d : DieId) : State :=
  let n := (s.base d).nl
  if n.busy ∨ n.nlhead = n.nltail ∨ !s.flashOn then s else
  let i := n.nlhead.toNat
  let pa := n.entryPa i
  let v := if inMemory pa 32 then s.homeRead pa 24 else 0
  let s := (s.arrive pa 32).updNl d fun n => { n with busy := true, nlhead := n.nlhead + 1 }
  let a : Arg := { d := d, u := i, w0 := wd (field v 0 64), w1 := wd (field v 64 64), w2 := wd (field v 128 64), w3 := wd pa }
  match nolnusRow (v % 256) with
  | some row => s.postLater 1 row a
  | none => s.postLater 1 .nolnusCommandDone { a with n := 1, w0 := 0 }

/-- A command's effect, its RESULT and STATUS. -/
structure NlDone where
  s : State
  result : Nat := 0
  status : Nat := 0
/-- Whether one of the blocks of a run of pages is under relocation: a command that reads them waits (R437). -/
def State.runMoves (s : State) (lfa n : Nat) : Bool := s.bases.toList.any fun b => b.nl.moving.any fun x =>
  decide (lfa / 512 ≤ x.1) && decide (x.1 * 512 < lfa + n)

/-- COUNT of a command. -/
def nlCount (a : Arg) : Nat := bits a.w0 16 16
/-- LFA of a command. -/
def nlLfa (a : Arg) : Nat := bits a.w0 32 32
/-- OP of a command. -/
def nlOp (a : Arg) : Nat := a.w0.toNat % 256
/-- Whether a command, other than ALLOC, touches a block under relocation, or a READ comes after other reads of its stack (R437), or the
flash has lost its power (R461). -/
def State.nlWaits (s : State) (a : Arg) : Bool :=
  !s.flashOn || (nlOp a != 3 && s.runMoves (nlLfa a) (if nlOp a = 4 then nlCount a * 512 else nlCount a))
    || (nlOp a == 1 && (s.flashStack (nlLfa a / 512)).any fun d => s.readsAhead d 2)

/-- A command with its fields checked (R436): its end is to come. One that touches a block under relocation waits for the switch. -/
def nolnusCommand (s : State) (legal : Arg → Bool) (f : State → Arg → NlDone) : Out :=
  let a := s.arg
  if s.nlWaits a then .next (s.postLater 1 ((nolnusRow (nlOp a)).getD .nolnusRead) a) else
  let r : NlDone := if legal a then f s a else { s := s, status := 1 }
  .next (r.s.postLater 1 .nolnusCommandDone { a with n := r.status, w0 := wd r.result })
/-- COUNT from 1 to 512 and the byte above OP zero. -/
def nlPlain (a : Arg) : Bool := bits a.w0 8 8 == 0 && decide (1 ≤ nlCount a) && decide (nlCount a ≤ 512)

/-- NOLNUS_COMMAND_DONE (R436): W3 is written, and the next command starts. -/
def execNolnusCommandDone (s : State) : Out :=
  let d := s.arg.d
  let pa := s.arg.w3.toNat
  let w3 := 2 ^ 63 + s.arg.w0.toNat % 2 ^ 32 * 256 + s.arg.n % 256
  let y := baseWriter d 10
  let s := if !inMemory pa 32 then s else (s.homeWrite (s.stamp y) (pa + 24) 8 w3).publish y 4
  .next ((s.updNl d fun n => { n with busy := false }).nlStart d)

/-- NOLNUS_READ (R436, R439). -/
def execNolnusRead (s : State) : Out :=
  nolnusCommand s (fun a => nlPlain a && a.w1.toNat % 4096 == 0 && inHbm a.w1.toNat (nlCount a * pageSize) && bits a.w2 32 32 == 0) fun s a =>
    let lfa := nlLfa a
    let n := nlCount a
    if !s.runAllocated lfa n then { s := s, status := 2 } else
    let failed (j : Nat) : Bool := ((s.blockOf (lfa + j)).map fun x => x.2.failed.contains ((lfa + j) % 512)).getD false
    let bad := (List.range n).find? failed
    let y := s.stamp (baseWriter a.d 10)
    let t := (List.range n).foldl (fun (t : State) j =>
      let dst := a.w1.toNat + j * pageSize
      if failed j then (t.arrive dst pageSize).addPoison dst pageSize 1
      else if s.pageOk (lfa + j) then t.homeWrite y dst pageSize (s.flashRead (lfa + j) pageSize)
      else (t.homeWrite y dst pageSize (Config.blankPage t.freeCtr)).tick) (s.countPages lfa n)
    { s := t, result := bad.getD 0, status := if bad.isSome then 4 else 0 }

/-- NOLNUS_WRITE (R436). -/
def execNolnusWrite (s : State) : Out :=
  nolnusCommand s (fun a => nlPlain a && a.w1.toNat % 4096 == 0 && inHbm a.w1.toNat (nlCount a * pageSize) && bits a.w2 32 32 == 0) fun s a =>
    let lfa := nlLfa a
    let n := nlCount a
    if !s.runAllocated lfa n then { s := s, status := 2 }
    else if (List.range n).any fun j => ((s.blockOf (lfa + j)).map fun x => x.1).any fun d => (s.base d).nl.spare == 0 then { s := s, status := 7 }
    else if (List.range n).any fun j => ((s.blockOf (lfa + j)).map fun x => decide ((lfa + j) % 512 < x.2.written)).getD false then
      { s := s, status := 3 }
    else
      { s := (List.range n).foldl (fun (t : State) j =>
          let src := a.w1.toNat + j * pageSize
          (t.arrive src pageSize).programPage (lfa + j) (s.homeRead src pageSize) (s.poisoned src pageSize)) s }

/-- NOLNUS_ALLOC (R436). -/
def execNolnusAlloc (s : State) : Out :=
  nolnusCommand s (fun a => nlPlain a && a.w1 == 0 && bits a.w2 35 29 == 0) fun s a =>
    let d : DieId := Fin.ofNat 8 (bits a.w2 32 3)
    if (s.base d).nl.spare = 0 then { s := s, status := 7 } else
    match s.flashAlloc d (nlCount a) with
    | none => { s := s, status := 5 }
    | some (lb, s) => { s := s, result := lb }

/-- NOLNUS_FREE (R436). -/
def execNolnusFree (s : State) : Out :=
  nolnusCommand s (fun a => nlPlain a && nlLfa a % 512 == 0 && a.w1 == 0 && bits a.w2 32 32 == 0) fun s a =>
    let lb := nlLfa a / 512
    let l := (List.range (nlCount a)).map (lb + ·)
    if !l.all fun b => (s.flashStack b).isSome then { s := s, status := 2 }
    else if l.any s.blockBusy then { s := s, status := 6 }
    else { s := s.flashFree lb (nlCount a) }

/-- NOLNUS_DIGEST (R436). -/
def execNolnusDigest (s : State) : Out :=
  nolnusCommand s (fun a => nlPlain a && a.w1.toNat % 64 == 0 && inHbm a.w1.toNat 64 && decide (1 ≤ bits a.w2 32 32)
      && decide (bits a.w2 32 32 ≤ nlCount a * pageSize)) fun s a =>
    let lfa := nlLfa a
    let len := bits a.w2 32 32
    let pages := ceilDiv len pageSize
    if !s.runAllocated lfa (nlCount a) then { s := s, status := 2 } else
    let t := s.countPages lfa pages
    if (List.range pages).any fun j => ((s.blockOf (lfa + j)).map fun x => x.2.failed.contains ((lfa + j) % 512)).getD false then
      { s := t, status := 4 }
    else
      let page (j : Nat) : Nat := if s.pageOk (lfa + j) then s.flashRead (lfa + j) pageSize else Config.blankPage (s.freeCtr + j) % 2 ^ (8 * pageSize)
      let v := (List.range pages).foldl (fun acc j => acc + page j * 2 ^ (8 * pageSize * j)) 0
      { s := { (t.homeWrite (t.stamp (baseWriter a.d 10)) a.w1.toNat 64 (sha3 v len)) with freeCtr := t.freeCtr + pages } }

/-- NOLNUS_RELOC (R436, R437). -/
def execNolnusReloc (s : State) : Out :=
  nolnusCommand s (fun a => bits a.w0 8 8 == 0 && nlCount a == 1 && a.w1 == 0 && bits a.w2 32 32 == 0) fun s a =>
    match s.blockOf (nlLfa a) with
    | none => { s := s, status := 2 }
    | some (d, b) =>
      if (s.base d).nl.spare = 0 then { s := s, status := 7 } else
      match s.relocate d b with
      | none => { s := s, status := 5 }
      | some s => { s := s }

/-! ## Relocation, wear and failures (R437-R439) -/

/-- READ_DISTURB_RELOCATION (R437): the switch of logical block `n` of stack `d` to the block taken for it; without a
spare it stops (R439). -/
def execReadDisturbRelocation (s : State) : Out :=
  let d := s.arg.d
  match (s.base d).nl.block s.arg.n, (s.base d).nl.moving.find? (·.1 == s.arg.n), (s.base d).nl.spare != 0 with
  | some b, some m, true => .next (s.moveBlock d b m.2 true)
  | _, _, _ => .next (s.updNl d fun n => { n with moving := n.moving.filter (·.1 != s.arg.n) })

/-- WEAR_LEVEL_MOVE (R437, R438): after every other read of the stack. -/
def execWearLevelMove (s : State) : Out :=
  let d := s.arg.d
  let n := (s.base d).nl
  if !s.flashOn ∨ s.readsAhead d 4 then .next (s.post 1 .wearLevelMove s.arg) else
  match n.leastErased, n.mostWorn with
  | some b, some p => if n.spread then .next ((s.updNl d fun n => { n with wearMove := n.wearMove + 1 }).moveBlock d b p false) else .next s
  | _, _ => .next s

/-- A physical block retired (R439). -/
def Nolnus.retire (n : Nolnus) (p : Nat) : Nolnus :=
  { n with retired := n.retired ++ [p], bad := n.bad + 1, spare := if n.spare = 0 then 0 else n.spare - 1 }

/-- FLASH_PROGRAM_FAILURE (R439): `u` 0 a program of logical block `n` of stack `d` fails and is repeated on a spare; 1 the erase of
free physical block `n` fails. -/
def execFlashProgramFailure (s : State) : Out :=
  let d := s.arg.d
  let n := (s.base d).nl
  if s.arg.u = 0 then
    match n.block s.arg.n, n.leastWorn.filter fun _ => n.spare != 0 with
    | some b, some p => .next ((s.updNl d fun n => (n.remap b.lb p).retire b.phys).checkWear d)
    | some b, none => .next (s.updNl d fun n => n.retire b.phys)
    | none, _ => .next s
  else if n.retired.contains s.arg.n || n.blocks.any (·.phys == s.arg.n) then .next s
  else .next (s.updNl d fun n => n.retire s.arg.n)

/-- FLASH_UNCORRECTABLE (R332, R435, R439): a read of the page at logical address `n` needs retries; with `u` 1 they correct it, and it is only
counted. Otherwise it fails. One under way at a block that the page has left since fails there and is issued again. Else the page is failed, the other
pages of its block go to a spare and the block is retired; without a spare they stay, since relocation has stopped. A page that is recorded as failed
is delivered at once and not counted again. -/
def execFlashUncorrectable (s : State) : Out :=
  match s.blockOf s.arg.n with
  | none => .next s
  | some (d, b) =>
    let p := s.arg.n % 512
    let left (r : PageRead) : Bool := r.lfa == s.arg.n && r.phys != b.phys && !r.failed
    if b.failed.contains p && !(s.base d).nl.open_.any left then .next s
    else if s.arg.u = 1 then .next (s.updNl d fun n => { n with retry := n.retry + 1 })
    else if (s.base d).nl.open_.any left then
      .next (s.updNl d fun n => { n with retry := n.retry + 1, open_ := updWhere left (fun r => { r with failed := true }) n.open_ })
    else
    .next ((s.updNl d fun n =>
      let n := { n with uncorr := n.uncorr + 1, retry := n.retry + 1, moving := n.moving.filter (·.1 != b.lb),
                        blocks := updWhere (fun (x : LogBlock) => x.lb == b.lb) (fun x => { x with failed := x.failed ++ [p] }) n.blocks }
      if n.spare = 0 then n else
      match n.leastWorn with
      | some q => (n.remap b.lb q).retire b.phys
      | none => n.retire b.phys).checkWear d)

end Sys2Proof.Machine
end

