-- ==== Sys2Proof/Machine/Loading.lean ====
section
/-! DEFINITION. The loader: manifests, staging, flips and aborts; expert maps, their migration and retirement (R327, R343, R344,
R440-R446, R465). -/

namespace Sys2Proof.Machine

open Sys2Proof

/-- The loader changed. -/
def State.updLd (s : State) (f : Loader → Loader) : State := { s with ld := f s.ld }
/-- VEC is raised when PHASE reaches 5 or 6 (R441). -/
def State.loaderDone (s : State) (phase : Nat) : State :=
  { (s.updLd fun x => { x with phase := phase }) with out := s.out ++ [Output.interrupt (bits s.ld.ldctl 16 11)] }

/-! ## Manifests (R440, R443, R465) -/

/-- A shard entry's fields, when its own limits hold. -/
def shardOf (v nlayer : Nat) : Option Shard :=
  let at_ (o n : Nat) : Nat := field v (8 * o) (8 * n)
  if at_ 2 2 < nlayer ∧ at_ 6 2 ≤ 1 ∧ at_ 8 8 % 512 = 0 ∧ at_ 0x10 8 % 4096 = 0 ∧ at_ 0x18 40 = 0 then
    some { handle := BitVec.ofNat 16 (at_ 0 2), layer := at_ 2 2, scaled := at_ 6 2 == 1, codelen := at_ 8 8, src := at_ 0x10 8,
           digest := at_ 0x40 64 }
  else none
/-- Bytes of a shard. -/
def Shard.bytes (x : Shard) : Nat := x.codelen + if x.scaled then x.codelen / 16 else 0
/-- Pages of a shard. -/
def Shard.pages (x : Shard) : Nat := ceilDiv x.bytes pageSize
/-- Whether a signature block verifies for manifest use (R464, R465). -/
def State.manifestSigned (s : State) (digest blk : Nat) : Bool :=
  let i := field blk 0 32
  let k := s.sec.keys.toList.getD i {}
  decide (4 ≤ i) && decide (i < 32) && field blk 32 32 == 4627 && k.used && !k.revoked && k.usage.getLsbD 1
    && field blk (8 * 4635) 40 == 0 && Config.mldsaVerify k.digest digest (field blk 64 (8 * 4627))

/-- Whether a shard fits its home die: SLOTSZ, and a valid window over the pool of a scaled one (R443). -/
def State.shardFits (s : State) (x : Shard) : Bool :=
  match s.residentDie x.handle with
  | none => false
  | some d =>
    let b := s.base d
    let pool := (b.hpool.toNat, b.slots.length * b.slotSize)
    decide (x.codelen ≤ b.slotSize) && (!x.scaled || s.ld.windows.toList.any fun w =>
      match w.ranges with
      | c :: _ => bit w.code 0 && decide (c.1 ≤ pool.1) && decide (pool.1 + pool.2 ≤ c.1 + c.2)
      | [] => false)

/-- The manifest at an address: version, layers, digest and shards; none when any check of R443 fails. -/
def State.readManifest (s : State) (pa : Nat) : Option (Nat × Nat × Nat × List Shard) :=
  let hd := s.homeRead pa 256
  let at_ (o n : Nat) : Nat := field hd (8 * o) (8 * n)
  let n := at_ 0x10 4
  let nlayer := at_ 0x0C 2
  let size := 256 + 128 * n + 4640
  let table := s.homeRead (pa + 256) (128 * n)
  let digest := sha3 (at_ 0 0x40 + table * 2 ^ 512) (0x40 + 128 * n)
  let shards := (List.range n).map fun i => shardOf (field table (1024 * i) 1024) nlayer
  let l := shards.filterMap id
  let named := l.map fun x => x.handle.toNat
  let full := (s.handles.filter fun x => x.2.size != 0).map (·.1)
  if !inHbm pa 256 || !inHbm pa size || s.poisoned pa size then none
  else if at_ 0 4 ≠ 0x444C4D46 ∨ at_ 4 2 ≠ 1 ∨ at_ 6 2 ≠ 0 ∨ at_ 0x0E 2 ≠ 0 ∨ at_ 0x14 44 ≠ 0 ∨ at_ 0x80 128 ≠ 0 then none
  else if at_ 8 4 ≤ s.ld.cur.toNat ∨ nlayer = 0 ∨ 4096 < nlayer ∨ n = 0 ∨ 65536 < n ∨ at_ 0x40 64 ≠ digest then none
  else if !s.manifestSigned digest (s.homeRead (pa + 256 + 128 * n) 4640) then none
  else if shards.any (·.isNone) || named.length != full.length || !full.all named.contains || !named.all full.contains
      || !l.all s.shardFits then none
  else some (at_ 8 4, nlayer, digest, l)

/-! ## Staging and aborts (R443) -/

/-- abort(r): staged blocks are freed, staged values cleared; no handle flips. -/
def State.abortLoad (s : State) (reason : Nat) (shard : Nat) : State :=
  let s := s.ld.shards.foldl (fun (s : State) x => match x.staged with
    | some lfa => s.flashFree (lfa / 512) (ceilDiv x.pages 512)
    | none => s) s
  let s := s.ld.shards.foldl (fun (s : State) x => s.updHandle x.handle fun e => { e with staged := none }) s
  (s.updLd fun x => { x with reason := BitVec.ofNat 8 reason, shardIx := if reason = 2 ∨ reason = 3 then BitVec.ofNat 16 shard else x.shardIx,
                             shards := [] }).loaderDone 6

/-- Every shard is staged: the flip begins by MODE as it stands now (R444). -/
def State.beginFlip (s : State) : State :=
  let s := s.updLd fun x => { x with roll := bit x.ldctl 2 }
  if s.ld.roll then
    (s.updLd fun x => { x with phase := 4, layer := 0 }).post 0 .loaderFlip { u := 1, id := s.ld.gen }
  else
    let s := s.updLd fun x => { x with phase := 3, gate := true }
    (s.post (ticksOfUs (bits s.ld.ldtime 32 32 * 1000000)) .draintExpiry { id := s.ld.gen }).post 0 .loaderFlip {}

/-- One try to stage shard `i` (R443): its source is read in full, programmed into fresh blocks on its home die's stack, read
back and compared. -/
def State.stageShard (s : State) (i : Nat) (x : Shard) : State :=
  let again (s : State) : State := s.post (ticksOfUs 1) .loaderGo { u := i + 1, id := s.ld.gen }
  if !inHbm x.src x.bytes ∨ s.poisoned x.src x.bytes then again s else
  let d := (s.residentDie x.handle).getD 0
  let blocks := ceilDiv x.pages 512
  match (if (s.base d).nl.spare = 0 then none else s.flashAlloc d blocks) with
  | none => s.abortLoad 4 i
  | some (lb, s) =>
    let lfa := lb * 512
    let v := s.homeRead x.src x.bytes
    let s := (List.range x.pages).foldl (fun (t : State) j =>
      t.programPage (lfa + j) (field v (8 * pageSize * j) (8 * pageSize)) false) (s.arrive x.src x.bytes)
    let ok := (List.range x.pages).all (fun j => s.pageOk (lfa + j)) && sha3 (s.flashRead lfa x.bytes) x.bytes == x.digest
    let s := s.countPages lfa x.pages
    if ok then
      let e := s.handle x.handle
      let old := s.fillPages e
      let s := s.updLd fun y => { y with shards := updNth y.shards i fun z => { z with staged := some lfa, old := e.lfa.toNat, oldLen := old } }
      let s := s.updHandle x.handle fun e =>
        { e with staged := some (s.ld.newver, BitVec.ofNat 32 lfa, some (x.codelen, x.scaled)) }
      if s.ld.shards.all fun z => z.staged.isSome then s.beginFlip else s
    else
      let s := s.flashFree lb blocks
      let s := s.updLd fun y => { y with retries := if y.retries = 255 then 255 else y.retries + 1,
                                         shards := updNth y.shards i fun z => { z with tries := z.tries + 1 } }
      if 3 ≤ x.tries then s.abortLoad 2 i else again s

/-- LOADER_GO (R443): `u` 0 checks the manifest and begins to stage every shard; `u` = i + 1 is a try of shard i. -/
def execLoaderGo (s : State) : Out :=
  if s.arg.u = 0 then
    if s.ld.phase ≠ 0 ∧ s.ld.phase ≠ 5 ∧ s.ld.phase ≠ 6 then .next s else
    let gen := s.ld.gen + 1
    let s := s.updLd fun x => { x with phase := 1, reason := 0, retries := 0, shardIx := 0, gen := gen, shards := [] }
    let s := s.arrive s.ld.ldman.toNat 256
    match s.readManifest s.ld.ldman.toNat with
    | none => .next (s.abortLoad 1 0)
    | some (ver, nlayer, digest, l) =>
      let s := s.updLd fun x => { x with phase := 2, newver := BitVec.ofNat 32 ver, nlayer := nlayer, manNext := digest, shards := l }
      let s := s.post (ticksOfUs (bits s.ld.ldtime 0 32 * 1000000)) .stagetExpiry { id := gen }
      .next ((List.range l.length).foldl (fun (s : State) i => s.postLater 1 .loaderGo { u := i + 1, id := gen }) s)
  else
    let i := s.arg.u - 1
    if s.ld.phase ≠ 2 ∨ s.ld.gen ≠ s.arg.id then .next s else
    match s.ld.shards[i]? with
    | none => .next s
    | some x => if x.staged.isSome then .next s else .next (s.stageShard i x)

/-- LOADER_ABORT (R441, R443): in PHASE 1 or 2. -/
def execLoaderAbort (s : State) : Out := if s.ld.phase = 1 ∨ s.ld.phase = 2 then .next (s.abortLoad 5 0) else .next s

/-- STAGET_EXPIRY (R443): a shard is missing. -/
def execStagetExpiry (s : State) : Out :=
  if s.ld.phase ≠ 2 ∨ s.ld.gen ≠ s.arg.id then .next s else
  match (List.range s.ld.shards.length).find? fun i => (((s.ld.shards[i]?).map fun x => x.staged.isNone).getD false) with
  | some i => .next (s.abortLoad 3 i)
  | none => .next s

/-! ## Flips (R444) -/

/-- The shards that flip now: all of them, or a layer's in roll mode. -/
def State.flipSet (s : State) : List Shard :=
  if s.ld.roll then s.ld.shards.filter fun x => x.layer == s.ld.layer.toNat else s.ld.shards
/-- Those handles flip in one step (R330). -/
def State.flipAll (s : State) : State :=
  (s.flipSet.foldl (fun (s : State) x => s.post 0 .handleFlip { h := x.handle }) s).post 1 .loaderFlip { u := 2, id := s.ld.gen }
/-- The blocks that only the old version used: those of its pages that no page of the new one lies in. -/
def State.oldBlocks (s : State) : List Nat :=
  let fresh := s.ld.shards.flatMap fun x => match x.staged with
    | some lfa => (List.range (ceilDiv x.pages 512)).map fun j => lfa / 512 + j
    | none => []
  (dedup (s.ld.shards.flatMap fun x => (List.range x.oldLen).map fun j => (x.old + j) / 512)).filter fun b => !fresh.contains b
/-- The end of a replacement (R444). -/
def State.endLoad (s : State) : State :=
  let l := s.oldBlocks.filter fun b => (s.flashStack b).isSome
  if l.any s.blockBusy then s.post (ticksOfUs 1) .loaderFlip { u := 3, id := s.ld.gen } else
  (l.foldl (fun (s : State) b => s.flashFree b 1) s).loaderDone 5
/-- Whether a task of an admitted group is still there. -/
def State.admittedRun (s : State) : Bool := s.tasks.any fun t => t.tokgrp != 0 && (s.admitted t.tokgrp).isSome

/-- LOADER_FLIP (R444): `u` 0 looks whether a drain is over; 1 flips the set; 2 waits until every flip of the set has been applied
and goes on; 3 waits to free the old blocks. -/
def execLoaderFlip (s : State) : Out :=
  let s0 := s
  match s.arg.u with
  | 0 => if s.ld.phase ≠ 3 ∨ s.admittedRun then .next s else .next ((s.updLd fun x => { x with phase := 4 }).flipAll)
  | 1 => if s.ld.phase ≠ 4 ∨ s.ld.gen ≠ s.arg.id then .next s else .next s.flipAll
  | 2 =>
    if s.ld.phase ≠ 4 ∨ s.ld.gen ≠ s.arg.id then .next s
    else if s.flipSet.any fun x => (s0.handle x.handle).staged.isSome then .next (s.post 1 .loaderFlip s.arg)
    else if s.ld.roll ∧ s.ld.layer.toNat + 1 < s.ld.nlayer then
      .next ((s.updLd fun x => { x with layer := x.layer + 1 }).flipAll)
    else
      .next (((s.updLd fun x => { x with cur := x.newver, manDigest := x.manNext, gate := false }).wakeWaiters).endLoad)
  | _ => if s.ld.phase ≠ 4 ∨ s.ld.gen ≠ s.arg.id then .next s else .next s.endLoad

/-- DRAINT_EXPIRY (R444): groups that still run may see the new weights. -/
def execDraintExpiry (s : State) : Out :=
  if s.ld.phase ≠ 3 ∨ s.ld.gen ≠ s.arg.id then .next s else .next ((s.updLd fun x => { x with phase := 4 }).flipAll)

/-! ## Expert maps (R327, R343-R346, R445, R446) -/

/-- The map version at an address; none when it is not in order. -/
def State.readMap (s : State) (pa : Nat) : Option MapVer :=
  let hd := s.homeRead pa 64
  let n := field hd 32 16
  let table := field hd 64 64
  let layers := (List.range n).map fun i =>
    let e := s.homeRead (table + 16 * i) 16
    let words := (List.range (field e 0 32)).map fun j => BitVec.ofNat 32 (s.homeRead (field e 64 64 + 4 * j) 4)
    (field e 32 32, words)
  let entries := (List.range n).map fun i => let e := s.homeRead (table + 16 * i) 16; (field e 64 64, 4 * field e 0 32)
  if !inHbm pa 64 || !inHbm table (16 * n) || !entries.all (fun e => inMemory e.1 e.2) || field hd 48 16 != 0 || field hd 128 384 != 0
      || layers.any fun l => l.1 != 0 || l.2.any fun w => w.toNat / 2 ^ 19 != 0 then none
  else some { ver := BitVec.ofNat 32 hd, layers := layers.map (·.2) }

/-- The words of a map with their layer and expert. -/
def MapVer.places (m : MapVer) : List (Nat × Nat × BitVec 32) :=
  ((List.range m.layers.length).zip m.layers).flatMap fun (l : Nat × List (BitVec 32)) =>
    ((List.range l.2.length).zip l.2).map fun (x : Nat × BitVec 32) => (l.1, x.1, x.2)

/-- MAPNEXT_INSTALL (R446): the version at `w0` is installed in one step, and MAPNEXT holds its address, or the write is refused and changes nothing
(R424); the fresh handles may be filled from the old copies. -/
def execMapnextInstall (s : State) : Out :=
  if 1 ≤ s.ld.phase ∧ s.ld.phase ≤ 4 then .next s.refuseLoad else
  match s.readMap (bits s.arg.w0 6 51 * 64) with
  | none => .next s.refuseLoad
  | some m =>
    if m.ver ≠ s.ld.mapcur + 1 ∨ m.layers.flatten.any (fun w => (s.handle (w.setWidth 16)).size == 0) then .next s.refuseLoad else
    let old := s.mapVer s.ld.mapcur
    let known (h : BitVec 16) : Bool := s.ld.maps.any fun v => v.layers.flatten.any fun w => w.setWidth 16 == h
    let fresh := m.places.filterMap fun (p : Nat × Nat × BitVec 32) =>
      let h : BitVec 16 := p.2.2.setWidth 16
      match (old.bind fun o => o.word p.1 p.2.1) with
      | some w => if known h then none else some (h, w)
      | none => none
    let s := (s.arrive (bits s.arg.w0 6 51 * 64) 64).updLd fun x => { x with mapnext := s.arg.w0 &&& ~~~1#64, maps := x.maps ++ [m], mapcur := m.ver }
    let s := fresh.foldl (fun (s : State) (p : BitVec 16 × BitVec 32) =>
      if s.pick 2 = 0 then s.tick else s.tick.post 0 .migrationFill { h := p.1, w0 := p.2.setWidth 64 }) s
    .next (s.post 0 .mapRetire {})

/-- Where the scale bytes of a slot stand. -/
def State.slotScales (s : State) (d : DieId) (i : Nat) (e : HandleEnt) : Option Nat := (s.fillShape d i e).2

/-- MIGRATION_FILL (R446): `u` 0 the fresh handle takes a free slot of its home die and is FILLING; `u` 1 the resident copy of the
old handle, the low half of `w0`, stands in it. Without a copy the flash serves the fill. -/
def execMigrationFill (s : State) : Out :=
  let h := s.arg.h
  let o : BitVec 16 := s.arg.w0.setWidth 16
  let e := s.handle h
  let x := s.handle o
  let same := x.st == 2 && x.version == e.version && x.lfa == e.lfa
  if s.arg.u = 0 then
    match s.residentDie h with
    | none => .next s
    | some d =>
      if e.st ≠ 0 ∨ e.size = 0 ∨ e.flipp ∨ (s.base d).awaits h ∨ !same then .next s else
      match (List.range (s.base d).slots.length).find? fun i => ((s.base d).slot i).st == .free with
      | none => .next s
      | some i =>
        let s := s.updSlot d i fun y => { y with st := .filling, handle := h, reserved := none }
        let s := s.updHandle h fun e => { e with st := 1, slot := BitVec.ofNat 16 i, rdie := BitVec.ofNat 3 d.val, shape := x.shape }
        .next ((s.postLater 1 .migrationFill { s.arg with d := d, n := i, u := 1 }).pokeDie d)
  else
    let d := s.arg.d
    let i := s.arg.n
    if ((s.base d).slot i).st ≠ .filling ∨ ((s.base d).slot i).handle ≠ h ∨ e.st ≠ 1 then .next s
    else if !same then .next (s.post 0 .handleFillComplete { d := d, u := i, h := h })
    else
      let od : DieId := Fin.ofNat 8 x.rdie.toNat
      let oi := x.slot.toNat
      let n := (s.fillShape d i e).1
      let from_ := (s.base od).slotPa oi
      let move (s : State) (dst src n : Nat) : State :=
        let s := s.partyReads (baseWriter d 7) [(src, n)]
        (s.homeWrite (s.stamp (baseWriter d 7)) dst n (s.homeRead src n) .line).publish (baseWriter d 7) 3
      let scales := (s.slotScales d i e).bind fun dst => (s.slotScales od oi x).map fun src => (dst, src)
      if s.poisoned from_ n || (scales.any fun p => s.poisoned p.2 (n / 16)) then
        .next (s.post 0 .handleFillFault { d := d, u := i, h := h })
      else
        let s := move s ((s.base d).slotPa i) from_ n
        let s := match scales with
          | some p => move s p.1 p.2 (n / 16)
          | none => s
        .next (s.finishFill d i h)

/-- MAP_RETIRE (R446): a version that is not the current one and that no admitted group holds is live no more. -/
def execMapRetire (s : State) : Out :=
  .next (s.updLd fun x => { x with maps := x.maps.filter fun (m : MapVer) =>
                              m.ver == x.mapcur || x.admitted.any fun a => a.mapver == m.ver })

end Sys2Proof.Machine
end

