-- ==== Sys2Proof/Machine/Power.lean ====
section
/-! DEFINITION. Levels and boost, sensors and the throttle, emergency save, trip, power states and staged start (R368-R372,
R448-R462). -/

namespace Sys2Proof.Machine

open Sys2Proof

/-- The power block changed. -/
def State.updPw (s : State) (f : Power → Power) : State := { s with pw := f s.pw }
/-- A write to a power register refused (R453). -/
def State.refusePower (s : State) : State := s.updPw fun x => { x with refused := true }
/-- All islands. -/
def allIslands : List (Fin 128) := (List.range 128).map (Fin.ofNat 128)
/-- The level of an island set now. -/
def State.setLevel (s : State) (i : Fin 128) (l : Nat) : State :=
  let t := s.time
  s.updIsland i fun x => if x.level = l then x else x.setLevel t l
/-- Every island at a level. -/
def State.setLevels (s : State) (l : Nat) : State := allIslands.foldl (fun (s : State) i => s.setLevel i l) s

/-! ## The ladder (R448) -/

/-- Levels of the ladder. -/
def ladder : List Nat := [4, 8, 12, 14, 15, 16]
/-- One place up. -/
def stepUp (l : Nat) : Nat := (ladder.find? fun x => decide (l < x)).getD 16
/-- One place down, not below 4. -/
def stepDown (l : Nat) : Nat := (ladder.reverse.find? fun x => decide (x < l)).getD 4

/-! ## Claims (R369) -/

/-- The cores of an island. -/
def islandCores (i : Fin 128) : List CoreId := everyCore.filter fun c => islandOf c == i
/-- The boost claims of the tasks that run on an island, with their priority. -/
def State.claims (s : State) (i : Fin 128) : List (Nat × Nat) :=
  (islandCores i).filterMap fun c =>
    let f := (s.core c).frame (s.core c).run
    if !f.resident then none else
    (s.task f.id.task).map fun t => (14 + (t.flags.toNat >>> 5) % 4, s.effPrio t)
/-- The island's claim: the highest, or 14; no claim stands during an emergency save (R458). -/
def State.claim (s : State) (i : Fin 128) : Nat := if s.pw.save ≠ 0 then 14 else ((s.claims i).map (·.1)).foldl max 14
/-- Priority of the claiming task. -/
def State.claimPrio (s : State) (i : Fin 128) : Nat :=
  (((s.claims i).filter fun x => x.1 == s.claim i).map (·.2)).foldl max 0

/-! ## Boundaries (R368, R370-R372, R449, R450) -/

/-- The proposal lowered while the budget does not cover it (R370). -/
def afford (b : Nat) : Nat → Nat → Nat
  | 0, x => x
  | n + 1, x => if 14 < x ∧ b < (x - 14) + (x - 15) then afford b n (x - 1) else x
/-- R370. -/
def propose (l w b : Nat) : Nat := afford b 4 (if l < w then l + 1 else if w < l then l - 1 else l)

/-- Whether a staged start or wake has not released the islands yet: not all of them have started (R450, R462). -/
def State.staging (s : State) : Bool :=
  s.pw.waking && (decide (s.pw.started < 128) || allIslands.any fun i => (s.island i).level == 0)

/-- Steps 1 to 5 of R450: the level that they settle, or none when R370 and R371 apply. -/
def State.forcedLevel (s : State) (i : Fin 128) : Option Nat :=
  let x := s.island i
  if s.staging then some (if i.val < s.pw.started then 8 else 0)
  else if !s.pw.waking && (s.pw.save == 3 || decide (2 ≤ s.pw.pstate)) then some 0
  else if !s.pw.waking && s.pw.pstate == 1 then some 4
  else if x.hold then some 8
  else if s.pw.save = 1 then some (min x.level 8)
  else if x.caplvl < x.level then some (stepDown x.level)
  else if x.level < 14 ∧ x.level < x.caplvl then some (stepUp x.level)
  else none

/-- The proposal of an island (R370, R450 step 6). -/
def State.proposal (s : State) (i : Fin 128) : Nat :=
  let x := s.island i
  (s.forcedLevel i).getD (propose x.level (min (s.claim i) x.caplvl) x.budget)

/-- Islands that ask for a higher level, by priority of the claiming task and then by number. -/
def State.risers (s : State) : List (Fin 128) :=
  let l := allIslands.filter fun i => (s.forcedLevel i).isNone && decide ((s.island i).level < s.proposal i)
  l.foldl (fun (acc : List (Fin 128)) i =>
    let before (j : Fin 128) : Bool := decide (s.claimPrio i ≤ s.claimPrio j)
    acc.takeWhile before ++ [i] ++ acc.dropWhile before) []

/-- R371: the levels of the coming interval, by island. -/
def State.settle (s : State) : List Nat :=
  let up := s.risers
  let first := allIslands.map fun i => if up.contains i then (s.island i).level else s.proposal i
  let used := (first.map (· - 14)).foldl (· + ·) 0
  (up.foldl (fun (acc : List Nat × Nat) i =>
    let x := s.island i
    if acc.2 + 1 ≤ bits s.pw.pwctl 23 9 then (updNth acc.1 i.val fun _ => s.proposal i, acc.2 + 1)
    else if 14 < x.level ∧ x.budget < (x.level - 14) + (x.level - 15) then (updNth acc.1 i.val fun _ => x.level - 1, acc.2)
    else acc) (first, used)).1

/-- Ticks of a boost interval, by PWCTL. -/
def boostTicks (pwctl : Word) : Nat := ticksOfUs (max 1 (bits pwctl 8 8))

/-- BOOST_BOUNDARY (R316, R371, R372, R449): `u` 0, 200 ns ahead, decides the levels, by PWCTL as it is then (`w0` of the boundary); `u` 1 is the
boundary: idle islands gain permits, the levels change, the interval is charged; the cores of an island that leaves level 0 are zeroed. -/
def execBoostBoundary (s : State) : Out :=
  if s.arg.u = 0 then
    let l := s.settle
    .next ((allIslands.foldl (fun (s : State) i => s.updIsland i fun x => { x with next := l.getD i.val 14 }) s).post 960 .boostBoundary { u := 1, w0 := s.pw.pwctl })
  else
    let t := s.time
    let refill := bits s.arg.w0 32 8
    let top := bits s.arg.w0 40 8
    let up := allIslands.filter fun i => (s.island i).level == 0 && (s.island i).next != 0
    let s := (up.flatMap islandCores).foldl State.zeroCore s
    let s := allIslands.foldl (fun (s : State) i =>
      s.updIsland i fun x =>
        let b := if x.level = 14 ∧ !x.issued then max x.budget (min top (x.budget + refill)) else x.budget
        let x := if x.level = x.next then x else x.setLevel t x.next
        { x with budget := b - (x.level - 14), issued := false, cutThis := false }) s
    let n := boostTicks s.arg.w0
    .next (s.post (n - s.time % n - 960) .boostBoundary {})

/-! ## Sensors (R455-R457) -/

/-- The sensors of a sample, T0-T3, C0, C1. -/
def Sample.list (x : Sample) : List Int := [x.t0, x.t1, x.t2, x.t3, x.c0, x.c1]
/-- An island's latest sample. -/
def Island.latest (x : Island) : List Int := ((x.hist.head?.map fun (h : Sample × Nat × Nat) => h.1).getD {}).list
/-- Islands of the clusters one row or one column away on the die. -/
def nearIslands (i : Fin 128) : List (Fin 128) :=
  let die := i.val / 16 * 16
  let r := i.val / 4 % 4
  let c := i.val % 4
  let at_ (r c : Nat) : Fin 128 := Fin.ofNat 128 (die + r * 4 + c)
  (if 0 < r then [at_ (r - 1) c] else []) ++ (if r < 3 then [at_ (r + 1) c] else [])
    ++ (if 0 < c then [at_ r (c - 1)] else []) ++ (if c < 3 then [at_ r (c + 1)] else [])
/-- Readings of the good neighbours of a sensor (R455): an island without a sample gives none. -/
def State.goodNear (s : State) (i : Fin 128) (v : List Int) (k : Nat) : List Int :=
  let susp := (s.island i).susp
  let own (l : List Nat) : List Int := (l.filter fun j => j != k && !susp.getLsbD j).map fun j => v.getD j 0
  if k < 4 then
    own [0, 1, 2, 3] ++ ((nearIslands i).filter fun j => !(s.island j).susp.getLsbD k && !(s.island j).hist.isEmpty).map fun j => (s.island j).latest.getD k 0
  else own [4, 5]
/-- A value placed in rising order. -/
def insertInt (x : Int) : List Int → List Int
  | [] => [x]
  | y :: ys => if x ≤ y then x :: y :: ys else y :: insertInt x ys
/-- Twice the median. -/
def median2 (l : List Int) : Int :=
  let q := l.foldr insertInt []
  let n := q.length
  if n % 2 = 1 then 2 * q.getD (n / 2) 0 else q.getD (n / 2 - 1) 0 + q.getD (n / 2) 0
/-- Whether a sensor is stuck over 256 samples (R456). -/
def stuck (h : List (Sample × Nat × Nat)) (k : Nat) : Bool :=
  let v := h.map fun (x : Sample × Nat × Nat) => x.1.list.getD k 0
  let base := v.getLast?.getD 0
  let still := v.all fun x => if k < 4 then decide ((x - base).natAbs ≤ 50) else decide ((x - base).natAbs * 100 ≤ 2 * base.natAbs)
  let levels := h.map fun (x : Sample × Nat × Nat) => x.2.1
  let new := ((h.take 128).map fun (x : Sample × Nat × Nat) => x.2.2).foldl (· + ·) 0
  let old := ((h.drop 128).map fun (x : Sample × Nat × Nat) => x.2.2).foldl (· + ·) 0
  decide (256 ≤ h.length) && still
    && (levels.any (fun l => l != levels.headD 0) || decide (old ≤ 4 * (if new ≤ old then old - new else new - old) ∧ new ≠ old))
/-- Whether a sensor becomes suspect (R456). -/
def State.suspect (s : State) (i : Fin 128) (h : List (Sample × Nat × Nat)) (v : List Int) (k : Nat) : Bool :=
  let x := v.getD k 0
  let near := s.goodNear i v k
  let far := if near.isEmpty then false
    else if k < 4 then decide (2400 < (2 * x - median2 near).natAbs)
    else decide (20 * (median2 near).natAbs < 100 * (2 * x - median2 near).natAbs)
  (if k < 4 then decide (x < -4000) || decide (15000 < x) else decide (x < 0) || decide (6400 < x)) || stuck h k || far
/-- The reading that is used: a suspect sensor's is replaced (R456). -/
def State.reading (s : State) (i : Fin 128) (v : List Int) (k : Nat) : Int :=
  if !(s.island i).susp.getLsbD k then v.getD k 0 else
  let near := s.goodNear i v k
  if k < 4 then (if near.isEmpty then (bits s.pw.pwthr 24 8 : Int) * 100 else near.foldl max (near.headD 0) + 500)
  else match near with
    | [] => (bits s.pw.pwthr 0 16 : Int) * 25
    | y :: _ => y * 6 / 5

/-- Both cores of an island take a new limit. -/
def State.setLimit (s : State) (i : Fin 128) (f : Core → Nat) : State :=
  (islandCores i).foldl (fun (s : State) c => s.updCore c fun x => x.setLimit (s.cyc c) (f x)) s
/-- An event for the Belfry's firmware. -/
def State.tellFirmware (s : State) (code : Nat) : State := { s with out := s.out ++ [Output.event code] }

/-- The list of tasks that a save must save, in its order (R458). -/
def State.saveOrder (s : State) : List (BitVec 32) :=
  let l := s.tasks.filter (·.st == .resident)
  let before (a b : Task) : Bool := decide (s.effPrio b < s.effPrio a) || (s.effPrio a == s.effPrio b && decide (a.tid.toNat ≤ b.tid.toNat))
  (l.foldl (fun (acc : List Task) t => acc.takeWhile (fun x => before x t) ++ [t] ++ acc.dropWhile (fun x => before x t)) []).map (·.tid)
/-- The save goes on in the next tick. -/
def State.saveOn (s : State) : State :=
  if s.agenda.any fun e => e.row == .emergencySaveComplete then s else s.post 1 .emergencySaveComplete {}
/-- Every running and parked task is to be saved (R458, R461). -/
def State.beginSaving (s : State) (reason : Nat) : State :=
  (s.updPw fun x => { x with saving := s.saveOrder, reason := reason }).saveOn
/-- Whether the compute dies have power (R459, R461): they start, or neither a trip nor the off state has taken it. -/
def State.diePower (s : State) : Bool := s.pw.waking || (s.pw.save != 3 && s.pw.pstate != 3)
/-- An emergency save begins, unless one is under way or done, a trip stands, or the dies have no power. -/
def State.beginEmergency (s : State) : State :=
  if s.pw.save = 1 ∨ s.pw.save = 3 ∨ (s.pw.save = 2 ∧ !s.pw.waking) ∨ !s.diePower then s
  else (s.updPw fun x => { x with save := 1 }).beginSaving 7

/-- The throttle's rules for a sample (R457, R458). -/
def State.throttle (s : State) (i : Fin 128) (temp cur : Nat) : State :=
  let thr := bits s.pw.pwthr 24 8
  let lim := bits s.pw.pwthr 0 16
  let s := s.updIsland i fun x =>
    { x with caplvl := if thr ≤ temp ∧ !x.cutThis then stepDown x.level else x.caplvl, cutThis := x.cutThis || decide (thr ≤ temp),
             coolFor := if temp + 5 < thr then x.coolFor + 1 else 0,
             calmFor := if 10 * cur < 9 * lim then x.calmFor + 1 else 0 }
  let s := if lim < cur then s.setLimit i fun x => if x.ewlim ≤ 64 then x.ewlim else max 64 (x.ewlim / 2) else s
  let s := if 1000 ≤ (s.island i).coolFor then (s.updIsland i fun x => { x with coolFor := 0 }).post 0 .throttleRecover { isl := i } else s
  let s := if 10 ≤ (s.island i).calmFor then (s.updIsland i fun x => { x with calmFor := 0 }).post 0 .currentLimitRecover { isl := i } else s
  if bits s.pw.pwthr 32 8 ≤ temp then s.beginEmergency else s

/-- The next island's sample is to come: the islands in ascending order, each once in a µs. -/
def State.nextSample (s : State) (i : Fin 128) : State :=
  let j : Fin 128 := i + 1
  let v (k : Nat) : Int := Config.sensor s.freeCtr j.val k
  let dt := if j = 0 then ticksOfUs 1 else 0
  (s.post dt .sensorSample { isl := j, smp := { t0 := v 0, t1 := v 1, t2 := v 2, t3 := v 3, c0 := v 4, c1 := v 5, diode := v 6 } }).tick

/-- SENSOR_SAMPLE (R455-R459): island `isl` reads `smp`; `n` 1 begins the sampling. -/
def execSensorSample (s : State) : Out :=
  if s.arg.n = 1 then .next (s.nextSample 127) else
  let i := s.arg.isl
  let v := s.arg.smp.list
  let c := (islandCores i).headD 0
  let h := ((s.arg.smp, (s.island i).level, s.ewsum c (s.cyc c)) :: (s.island i).hist).take 256
  let bad := (List.range 6).filter fun k => !(s.island i).susp.getLsbD k && s.suspect i h v k
  let s := s.updIsland i fun x =>
    { x with hist := h, diode := s.arg.smp.diode, susp := bad.foldl (fun (m : BitVec 6) k => m ||| (1#6 <<< k)) x.susp }
  let s := bad.foldl (fun (s : State) k => s.tellFirmware (i.val * 8 + k)) s
  let susp := (s.island i).susp
  let good := ((List.range 4).filter fun k => !susp.getLsbD k).length
  let s := if good < 2 ∨ susp.getLsbD 4 ∨ susp.getLsbD 5 then s.updIsland i fun x => { x with hold := true } else s
  let temp := ((((List.range 4).map (s.reading i v)).foldl max (-100000)) / 100).toNat
  let cur := ((max (s.reading i v 4) (s.reading i v 5)) / 25).toNat
  let s := s.updIsland i fun x => { x with tmax := BitVec.ofNat 8 (min temp 255), imax := BitVec.ofNat 8 (min cur 255) }
  let s := s.throttle i temp cur
  let s := if (bits s.pw.pwthr 40 8 : Int) * 100 ≤ s.arg.smp.diode ∧ s.diePower then
      (s.post (s.extra % 4800) .hardTrip { isl := i }).tick else s
  .next (s.nextSample i)

/-- THROTTLE_RECOVER (R457). -/
def execThrottleRecover (s : State) : Out :=
  .next (s.updIsland s.arg.isl fun x => { x with caplvl := if 16 ≤ x.caplvl then 16 else stepUp x.caplvl })
/-- CURRENT_LIMIT_RECOVER (R457). -/
def execCurrentLimitRecover (s : State) : Out :=
  .next (s.setLimit s.arg.isl fun x => min x.ewgrant (x.ewlim + x.ewgrant / 8))

/-- Whether two sensors of each kind are good (R454). -/
def State.mayClearHold (s : State) (i : Fin 128) : Bool :=
  let susp := (s.island i).susp
  decide (2 ≤ ((List.range 4).filter fun k => !susp.getLsbD k).length) && !susp.getLsbD 4 && !susp.getLsbD 5
/-- CLRHOLD (R454). -/
def execClrhold (s : State) : Out :=
  let i := s.arg.isl
  if s.mayClearHold i then
    .next (s.updIsland i fun x => { x with hold := false })
  else .next s.refusePower
/-- CLRSUSP (R454): the sensors are judged afresh. -/
def execClrsusp (s : State) : Out := .next (s.updIsland s.arg.isl fun x => { x with susp := 0, hist := [] })

/-! ## Emergency save and trip (R458-R460) -/

/-- PWCMD_SAVE (R453, R458). -/
def execPwcmdSave (s : State) : Out := .next s.beginEmergency

/-- The next task of a save is stopped, its gang as a whole with it (R458); one that is being saved already is saved for the save's reason. -/
def State.saveNext (s : State) (t : Task) : State :=
  let r := s.pw.reason
  if s.haltIssued t || t.restoring then s
  else if t.preempt.isSome then
    s.updTask t.tid fun t => { t with preempt := some r, saved := t.saved.map fun v => { v with reason := r } }
  else match t.gang.bind fun h => s.gangs.find? (·.gid == h) with
  | some g => s.saveGang g false r
  | none => s.post 0 .preemptTask { tid := t.tid, u := r }

/-- The steps of a staged start or a wake still to come are dropped: the dies lose their power (R458, R459). -/
def State.endWake (s : State) : State :=
  { s.updPw fun x => { x with waking := false, started := 0 } with agenda := s.agenda.filter fun e => e.row != .powerUp }

/-- EMERGENCY_SAVE_COMPLETE (R458, R461): the tasks are saved one after another; when every one is stamped, the package is in retention, and
the islands enter level 0 (R450), whatever start was under way. -/
def execEmergencySaveComplete (s : State) : Out :=
  if s.pw.reason = 0 ∨ s.pw.save = 3 then .next s else
  match s.pw.saving with
  | [] => .next (s.endWake.updPw fun x => { x with save := if x.reason = 7 then 2 else x.save, pstate := 2, reason := 0 })
  | t :: rest =>
    match (s.task t).filter fun x => x.place.isSome with
    | none => .next (s.updPw fun x => { x with saving := rest }).saveOn
    | some x => .next (s.saveNext x).saveOn

/-- A core without power (R459): nothing of it is left but what its place fixes. -/
def Core.dead (x : Core) (i : Nat) : Core := { Core.reset i with rng := x.rng, prioBit := x.prioBit }

/-- A task after a trip: it keeps its saved context if it had one; what it holds in the snapshot tree stays held (R288, R347). -/
def Task.trip (t : Task) (holds : List (BitVec 32)) : Task :=
  if t.st = TaskSt.resident then
    { t with msg := { t.msg with holds := holds }, st := TaskSt.saved, place := none, preempt := none, claim := none, holdsCut := false, stepHold := none,
             saved := if t.restoring then t.saved else none, restoring := false }
  else { t with claim := none, bound := none }

/-- The compute dies are without power: nothing is left on a core, which has the profile of a core without a task (R451). -/
def State.deadCores (s : State) : State :=
  let s := { s with cores := Vector.ofFn fun i : Fin 256 => (s.core i).dead i.val }
  everyCore.foldl (fun (s : State) c => (s.grantTo c).grantLimit c) s

/-- Whether the prefix engine, on the base die, goes on with a command without the compute dies: its task is saved, and its ranges have been
read or written (R296, R459). -/
def State.snapStays (s : State) (q : SnCmd) : Bool :=
  q.words != 0 && q.spans.isEmpty && ((s.task q.tid).map fun t => t.place.isNone).getD false
/-- The commands that end with the power of the compute dies create no node (R296, R349). -/
def State.tripSnaps (s : State) : State :=
  (s.tree.cmds.filter fun q => !s.snapStays q).foldl (fun s q =>
    (match q.built with
      | some i => (s.freeTree i).lowPool
      | none => s).removeSnap q) s

/-- HARD_TRIP (R459): the compute dies lose power; the base dies, the queues and the save areas stand, and no island starts by itself. A task
whose context stood on a core has none left. Of two diodes that reach TTRIP together, one trips the dies. -/
def execHardTrip (s : State) : Out :=
  if !s.diePower then .next s else
  let s := s.tripSnaps.endWake.updPw fun x =>
    { x with trips := x.trips + 1, tripisl := BitVec.ofNat 8 s.arg.isl.val, save := 3, saving := [], reason := 0 }
  let keep (pa : Nat) : Bool := physClass pa != .window
  let holds (t : Task) : List (BitVec 32) := (s.msgOf t.tid).holds.filter fun h => (s.tree.named h).isSome
  let s := { s with
    dies := Vector.replicate 8 {},
    mem := s.mem.filter fun (c : Host.Cell) => keep c.1,
    poison := s.poison.filter fun (p : Nat × Nat) => keep p.1,
    wins := [], disps := [],
    gangs := s.gangs.map fun (g : Gang) => { g with cutAt := none, saved := true, started := false },
    tasks := s.tasks.map fun (t : Task) => t.trip (holds t) }
  .next (allIslands.foldl (fun (s : State) i => (s.setLevel i 0).updIsland i fun x => { x with next := 0 }) s.deadCores)

/-- At the restart after a trip each task with a context is examined: its stamp vouches for it, or it is lost, and its successors are
told of it (R294, R460). -/
def State.examineTasks (s : State) : State :=
  s.tasks.foldl (fun (s : State) t =>
    if t.st ≠ .saved then s
    else if t.saved.isSome && s.stampOk t then s.markReady t.tid
    else s.endTask t 4 0 t.tid 4) s

/-! ## Power states and staged start (R460-R463) -/

/-- What holds after package reset, and what the reset leaves as it was: time and outputs aside, the flash and its counts, keys,
lifecycle, trips, host memory (R435, R453, R459, R464, R466). -/
def State.afterReset (s : State) : State :=
  let r := State.reset
  let keepNl (n : Nolnus) : Nolnus :=
    { spare := n.spare, bad := n.bad, maxErase := n.maxErase, meanErase := n.meanErase, wearMove := n.wearMove, rdReloc := n.rdReloc,
      retry := n.retry, uncorr := n.uncorr, blocks := n.blocks, erases := n.erases, allErased := n.allErased, reads := n.reads, retired := n.retired, pages := n.pages }
  { r with
    mem := s.mem.filter fun (c : Host.Cell) => decide (hostStart ≤ c.1),
    poison := s.poison.filter fun (p : Nat × Nat) => decide (hostStart ≤ p.1),
    bases := Vector.ofFn fun d : Fin 8 => { r.base d with nl := keepNl (s.base d).nl },
    pw := { r.pw with trips := s.pw.trips, tripisl := s.pw.tripisl },
    sec := { r.sec with life := if s.sec.life = 2 then 1 else s.sec.life, keys := s.sec.keys, copies := s.sec.copies, clnonce := Config.nonce s.freeCtr },
    out := s.out, freeCtr := s.freeCtr, nextId := s.nextId }

/-- MODULE_RESET (R459). -/
def execModuleReset (s : State) : Out := .next s.afterReset

/-- The digest of a firmware copy. -/
def Firmware.digest (f : Firmware) : Nat := sha3 f.image f.len
/-- The boot ROM's rule (R463): the signature over the digest verifies with a vendor root, and the version is not too low. -/
def Firmware.verifies (f : Firmware) : Bool :=
  decide (f.root < 4) && Config.mldsaVerify (Config.vendorRoot f.root) f.digest f.sig && decide (Config.minFirmware.toNat ≤ f.version)
/-- The copy of the boot area that the ROM starts: A, or B when A fails. -/
def State.bootCopy (s : State) : Option (Fin 2) := [0, 1].find? fun i => (s.sec.copies.get i).verifies
/-- Verified firmware runs: the start goes on with the base dies. -/
def State.runFirmware (s : State) (f : Firmware) (b : Bool) : State :=
  { s with sec := { s.sec with fw := some f.digest, bootFail := false, bootb := b } }.post (ticksOfUs 100) .powerUp { u := 1 }
/-- The flash stacks have power again, and each goes on with its commands (R461, R462). -/
def State.flashStarts (s : State) : State := allDies.foldl (fun (s : State) d => s.nlStart d) s

/-- A staged start of the islands and the stacks begins (R462); where the start after power-up never ended, the base dies and the flash stacks
start too. -/
def State.beginWake (s : State) : State :=
  (s.updPw fun x => { x with waking := true, started := 0 }).post 0 .powerUp (if s.pw.ready then { u := 8, n := 1 } else if s.sec.fw.isSome then { u := 1 } else {})

/-- The package is active: READY tasks are placed. -/
def State.goActive (s : State) : State := (s.updPw fun x => { x with pstate := 0 }).pokePlace

/-- The end of a staged start or of a wake: the queues act, and after a trip the tasks are examined (R460, R462). -/
def State.started (s : State) : State :=
  let tripped := s.pw.save = 3
  let s := s.updPw fun x => { x with waking := false, ready := true, save := if x.save = 1 then 1 else 0, pstate := 1 }
  let s := if tripped then s.examineTasks else s
  let s := s.flashStarts.post 0 .submissionEntryStart {}
  if bits s.pw.pwctl 0 2 = 0 then s.goActive else s

/-- POWER_UP (R462, R463, R466): `u` 0 secure boot, after which claims are accepted; 1-7 the base dies; 8-135 the islands; 136-143 the stacks;
144-151 the flash stacks, which a wake (`n` 1) leaves out. Where neither firmware copy verifies, the start waits for a recovery image. -/
def execPowerUp (s : State) : Out :=
  let u := s.arg.u
  let next (s : State) (us : Nat) : State := s.post (ticksOfUs us) .powerUp { s.arg with u := u + 1 }
  if u = 0 then
    let s := s.updPw fun x => { x with waking := true, started := 0, ready := false }
    let sec := { s.sec with life := if s.sec.life = 2 then 1 else s.sec.life, dbg := 0, fw := none, clnonce := Config.nonce s.freeCtr }
    let s := { s with sec := sec, freeCtr := s.freeCtr + 1 }
    match s.bootCopy with
    | some i => .next (s.runFirmware (s.sec.copies.get i) (i == 1))
    | none => .next { s with sec := { s.sec with bootFail := true } }
  else if u < 8 then .next (next s (if u = 7 then 0 else 100))
  else if u < 136 then
    .next (next (s.updPw fun x => { x with started := u - 7 }) (if u = 135 then 1000 else 2))
  else if u < 144 then
    if u = 143 ∧ s.arg.n = 1 then .next s.started else .next (next s 1000)
  else if u < 151 then .next (next s 1000)
  else if u = 151 then .next s.started
  else .next s

/-- Whether the package holds a running or parked task. -/
def State.anyResident (s : State) : Bool := s.tasks.any fun t => t.st == .resident

/-- Whether every island's diode reads below TREST (R460). -/
def State.cooled (s : State) : Bool := allIslands.all fun i => decide ((s.island i).diode < (bits s.pw.pwthr 16 8 : Int) * 100)
/-- Whether a request is refused (R460, R461, R472). -/
def State.psreqRefused (s : State) (v : Nat) : Bool :=
  (s.sec.life == 3 && (v == 0 || v == 2)) || s.pw.waking || s.pw.reason != 0 || (v == 3 && !s.tasks.isEmpty)
    || (v != 3 && s.pw.save == 3 && !(v == 0 && s.cooled)) || (v == 2 && s.pw.pstate == 3)
/-- The power goes: memory is lost, with the caches before it (R461); that the dies have tripped stands until they restart (R460). -/
def State.powerOff (s : State) : State :=
  let s := { s.deadCores with mem := s.mem.filter fun (c : Host.Cell) => decide (hostStart ≤ c.1),
                              tags := [],
                              dies := Vector.replicate 8 {},
                              poison := s.poison.filter fun (p : Nat × Nat) => decide (hostStart ≤ p.1) }
  s.updPw fun x => { x with pstate := 3, ready := false, save := if x.save = 3 then 3 else 0 }
/-- PSREQ_WRITE (R453, R460, R461, R472): PSREQ becomes the low bits of `w0`, and the state follows; `u` 1 looks again whether the idle
state may be entered. -/
def execPsreqWrite (s : State) : Out :=
  let v := bits s.arg.w0 0 2
  if s.arg.u = 1 then
    if bits s.pw.pwctl 0 2 ≠ 1 ∨ s.pw.pstate ≠ 0 then .next s
    else if s.anyResident then .next (s.post (ticksOfUs 1) .psreqWrite s.arg)
    else .next (s.updPw fun x => { x with pstate := 1 })
  else if s.psreqRefused v then .next s.refusePower
  else
    let t := s.updPw fun x => { x with pwctl := (x.pwctl &&& ~~~3#64) ||| wd v }
    if v = 3 then .next t.powerOff
    else if s.pw.pstate = 3 then .next (t.post 0 .powerUp {})
    else if s.pw.save = 3 then .next t.beginWake
    else if s.pw.pstate = 2 then .next (if v = 2 then t else t.beginWake)
    else if v = 2 then .next (t.beginSaving 6)
    else if v = 1 then .next (t.post 0 .psreqWrite { u := 1 })
    else .next (if s.pw.pstate = 1 then t.goActive else t.pokePlace)

end Sys2Proof.Machine
end

