-- ==== Sys2Proof/Machine/Security.lean ====
section
/-! DEFINITION. The security block: signed commands, attestation, mailboxes, claims, leases and handovers (R464-R472). -/

namespace Sys2Proof.Machine

open Sys2Proof

/-- The security block changed. -/
def State.updSec (s : State) (f : Security → Security) : State := { s with sec := f s.sec }
/-- `n` bytes of a request from an offset. -/
def reqField (r off n : Nat) : Nat := field r (8 * off) (8 * n)
/-- Bytes of an ML-DSA-87 public key, and of a signature (R467, R468). -/
def publicKeyBytes : Nat := 2592
/-- Bytes of a signature. -/
def signatureBytes : Nat := 4627

/-! ## Keys (R464) -/

/-- What stands for an entry's public key: a fused root digest or the owner key's digest. -/
def State.keyDigest (s : State) (i : Nat) : Nat := if i < 4 then Config.vendorRoot i else (s.sec.keys.toList.getD i {}).digest
/-- Whether an entry holds an unrevoked owner key. -/
def State.ownerKey (s : State) (i : Nat) : Bool :=
  let k := s.sec.keys.toList.getD i {}
  decide (4 ≤ i) && decide (i < 32) && k.used && !k.revoked
/-- The unrevoked owner keys. -/
def State.ownerKeys (s : State) : List Nat := (List.range 32).filter s.ownerKey
/-- Whether an entry holds an unrevoked owner key with a usage bit. -/
def State.keyFor (s : State) (i usage : Nat) : Bool := s.ownerKey i && (s.sec.keys.toList.getD i {}).usage.getLsbD usage
/-- Whether the signature over the first `n` bytes from `off` verifies with the key of an entry. -/
def State.verifies (s : State) (key r off n sig : Nat) : Bool :=
  Config.mldsaVerify (s.keyDigest key) (sha3 (reqField r off n) n) (reqField r sig signatureBytes)
/-- An entry of the key table changed. -/
def State.updKey (s : State) (i : Nat) (f : Key → Key) : State :=
  s.updSec fun x => { x with keys := Vector.ofFn fun j : Fin 32 => if j.val = i then f (x.keys.get j) else x.keys.get j }

/-! ## Reports (R468) -/

/-- The owner key table as one number, from which its digest is taken. -/
def State.keyTable (s : State) : Nat :=
  (List.range 28).foldl (fun acc i =>
    let k := s.sec.keys.toList.getD (i + 4) {}
    acc + (k.digest % 2 ^ 512 + k.usage.toNat * 2 ^ 512 + (if k.revoked then 2 ^ 516 else 0) + (if k.used then 2 ^ 517 else 0)) * 2 ^ (518 * i)) 0
/-- Length of a report. -/
def reportBytes : Nat := 0x1378
/-- The signed part of a report over a nonce: 0x160 bytes. -/
def State.reportBody (s : State) (nonce : Nat) : Nat :=
  let put (off n v : Nat) : Nat := (v % 2 ^ (8 * n)) <<< (8 * off)
  put 0 4 0x444C4154 + put 4 1 s.sec.life.toNat + put 5 1 s.sec.dbg.toNat + put 8 4 s.ld.cur.toNat + put 0xC 4 s.ld.mapcur.toNat
    + put 0x10 8 s.ns + put 0x20 64 nonce + put 0x60 64 Config.identityDigest + put 0xA0 64 (s.sec.fw.getD 0)
    + put 0xE0 64 (Config.keyTableDigest s.keyTable) + put 0x120 64 s.ld.manDigest
/-- A report over a nonce. -/
def State.report (s : State) (nonce : Nat) : Nat :=
  let b := s.reportBody nonce
  b + (Config.mldsaSign (sha3 b 0x160) % 2 ^ (8 * signatureBytes)) <<< (8 * 0x160)

/-! ## Commands (R466, R467) -/

/-- Status codes of SECRES. -/
inductive SecStatus where
  | ok | badRequest | badSignature | wrongState | tableFull
  deriving DecidableEq, Repr, Inhabited
/-- SECRES.STATUS. -/
def SecStatus.code : SecStatus → Nat
  | .ok => 0
  | .badRequest => 1
  | .badSignature => 2
  | .wrongState => 3
  | .tableFull => 4

/-- The request that SECARG names. -/
def State.secRequest (s : State) (n : Nat) : Nat := s.homeRead s.sec.secarg.toNat n
/-- The header's checks: the OP copy, its zero byte, LEN, the nonce, and a request that HBM holds. -/
def State.headerGood (s : State) (r op need : Nat) (nonce : Word) : Bool :=
  reqField r 0 1 == op && reqField r 1 1 == 0 && decide (need ≤ reqField r 4 4) && reqField r 8 8 == nonce.toNat
    && inHbm s.sec.secarg.toNat need && !s.poisoned s.sec.secarg.toNat need
/-- SIGNER. -/
def signerOf (r : Nat) : Nat := reqField r 2 2
/-- Whether the device is debug-authorised in full (R466). -/
def State.fullDebug (s : State) : Bool := s.sec.life == 2 && s.sec.dbg == 2
/-- Whether the package acts as active or idle does: at full debug retention does so too (R472). -/
def State.actsAwake (s : State) : Bool := decide (s.pw.pstate < 2) || (s.pw.pstate == 2 && s.fullDebug)
/-- Whether a command but ATTEST is permitted in this lifecycle and power state (R472). -/
def State.commandsAct (s : State) : Bool := s.sec.life != 3 && s.actsAwake
/-- The status is written, and the nonce is renewed after a signed command. -/
def State.finishSec (s : State) (st : SecStatus) (signed : Bool) : State :=
  let s := s.updSec fun x => { x with secres := wd (2 ^ 63 + st.code) }
  if signed then { (s.updSec fun x => { x with clnonce := Config.nonce s.freeCtr }) with freeCtr := s.freeCtr + 1 } else s
/-- A write of a reserved one to a register of the security block changes nothing and shows as BAD_REQUEST (R7, log 60). -/
def State.badSecurity (s : State) : State := s.finishSec .badRequest false
/-- A signed command judged: its request's form, its signatures, its states and the table, then its effect. -/
def State.judge (s : State) (form sig state room : Bool) (act : State → State) : State :=
  if !form then s.finishSec .badRequest true
  else if !sig then s.finishSec .badSignature true
  else if !state then s.finishSec .wrongState true
  else if !room then s.finishSec .tableFull true
  else (act s).finishSec .ok true

/-- The writer identifier under which the security engine's report stands: that of BD0's Belfry core 0, for R405 numbers no engine for it
(log 59). -/
def securityWriter : Nat := baseWriter 0 0

/-- ATTEST (R466-R468). -/
def execAttest (s : State) : Out :=
  let r := s.secRequest 0x80
  let a := s.sec.secarg.toNat
  if s.headerGood r 1 0x80 0 && signerOf r == 0xFFFF && reqField r 0x10 0x30 == 0 && inHbm (a + 0x80) reportBytes then
    .next (((s.homeWrite (s.stamp securityWriter) (a + 0x80) reportBytes (s.report (reqField r 0x40 64))).publish securityWriter 4).finishSec
      .ok false)
  else .next (s.finishSec .badRequest false)

/-- KEYADD (R466, R467). -/
def execKeyadd (s : State) : Out :=
  let r := s.secRequest (0xA60 + signatureBytes)
  let i := reqField r 0x10 1
  let signer := signerOf r
  let bare := signer == 0xFFFF
  .next (s.judge
    (s.headerGood r 2 (0xA60 + if bare then 0 else signatureBytes) s.sec.clnonce && decide (4 ≤ i) && decide (i < 32)
      && decide (reqField r 0x11 1 < 16) && reqField r 0x12 0x2E == 0)
    (if bare then s.ownerKeys.isEmpty else s.ownerKey signer && s.verifies signer r 0 0xA60 0xA60)
    s.commandsAct
    (!s.ownerKey i)
    fun s => s.updKey i fun _ =>
      { digest := sha3 (reqField r 0x40 publicKeyBytes) publicKeyBytes, usage := BitVec.ofNat 4 (reqField r 0x11 1), used := true })

/-- KEYREVOKE (R466, R467): the last unrevoked key is refused. -/
def execKeyrevoke (s : State) : Out :=
  let r := s.secRequest (0x40 + signatureBytes)
  let i := reqField r 0x10 1
  let signer := signerOf r
  .next (s.judge
    (s.headerGood r 3 (0x40 + signatureBytes) s.sec.clnonce && decide (4 ≤ i) && decide (i < 32)
      && reqField r 0x11 0x2F == 0 && (s.sec.keys.toList.getD i {}).used)
    (s.ownerKey signer && s.verifies signer r 0 0x40 0x40)
    (s.commandsAct && s.ownerKeys != [i])
    true
    fun s => s.updKey i fun k => { k with revoked := true })

/-- HBM zeroed (R466); the bytes that the dies hold of it go too. -/
def State.zeroHbm (s : State) : State :=
  let above (a : Nat) : Bool := !inHbm a 1
  { s with mem := s.mem.filter fun (c : Host.Cell) => above c.1,
           poison := s.poison.filter fun (p : Nat × Nat) => above p.1,
           tags := s.tags.filter fun t => above t.pa,
           dies := s.dies.map fun (d : Die) => { d with l2 := d.l2.filter (fun (c : Host.Cell) => above c.1), lines := d.lines.filter above } }

/-- DEBUG (R466, R467): debug-authorised at a level, by a vendor certificate and an owner's consent. -/
def execDebugAuth (s : State) : Out :=
  let r := s.secRequest (0x1300 + signatureBytes)
  let level := reqField r 0x10 1
  let root := reqField r 0x11 1
  let signer := signerOf r
  .next (s.judge
    (s.headerGood r 4 (0x1300 + signatureBytes) s.sec.clnonce && (level == 1 || level == 2) && decide (root < 4)
      && reqField r 0x12 0x2E == 0 && reqField r 0x40 64 == Config.identityDigest && reqField r 0x80 1 == level
      && reqField r 0x81 63 == 0)
    (s.verifies root r 0x40 0x80 0xC0 && s.keyFor signer 3 && s.verifies signer r 0 0x1300 0x1300)
    (s.commandsAct && s.sec.life != 0)
    true
    fun s => (if level = 2 then s.zeroHbm else s).updSec fun x => { x with life := 2, dbg := BitVec.ofNat 2 level })

/-- SECURE (R466, R467). -/
def execSecure (s : State) : Out :=
  let r := s.secRequest (0x80 + signatureBytes)
  let root := reqField r 0x10 1
  .next (s.judge
    (s.headerGood r 5 (0x80 + signatureBytes) s.sec.clnonce && decide (root < 4) && reqField r 0x11 0x2F == 0
      && reqField r 0x40 64 == Config.identityDigest)
    (signerOf r == root && s.verifies root r 0 0x80 0x80)
    (s.commandsAct && s.sec.life == 0)
    true
    fun s => s.updSec fun x => { x with life := 1 })

/-- Every block of a stack is erased (R466): all counts rise by one, and nothing is allocated. -/
def Nolnus.eraseAll (n : Nolnus) : Nolnus :=
  { n with allErased := n.allErased + 1, maxErase := n.maxErase + 1, meanErase := n.meanErase + 1, blocks := [], pages := [], reads := [],
           moving := [], stale := [] }

/-- DECOMMISSION (R466, R467, R472): one way; an active package is asked to leave the active state. -/
def execDecommission (s : State) : Out :=
  let r := s.secRequest (0x80 + signatureBytes)
  let signer := signerOf r
  .next (s.judge
    (s.headerGood r 6 (0x80 + signatureBytes) s.sec.clnonce && reqField r 0x10 0x30 == 0 && reqField r 0x40 64 == Config.identityDigest)
    (s.ownerKey signer && s.verifies signer r 0 0x80 0x80)
    s.commandsAct
    true
    fun s =>
      let s := allDies.foldl (fun (s : State) d => s.updNl d Nolnus.eraseAll) s.zeroHbm
      let s := s.updSec fun x => { x with life := 3, dbg := 0, keys := Vector.replicate 32 {} }
      if s.pw.pstate = 0 then
        (s.updPw fun x => { x with pwctl := (x.pwctl &&& ~~~3#64) ||| 1#64 }).post 0 .psreqWrite { u := 1 }
      else s)

/-! ## Mailboxes (R469, R470) -/

/-- The number of a master; a core is none (R469). -/
def Master.number : Master → Option (Fin 3)
  | .host => some 0
  | .peer => some 1
  | .mgmt => some 2
  | .core => none
/-- The master of a number. -/
def masterOf : Nat → Option Master
  | 0 => some .host
  | 1 => some .peer
  | 2 => some .mgmt
  | _ => none
/-- Bytes of a mailbox. -/
def State.mboxRead (s : State) (m : Fin 3) (off n : Nat) : Nat := Memory.read (s.sec.mboxes.get m) off n
/-- Bytes written to a mailbox. -/
def State.mboxWrite (s : State) (m : Fin 3) (off n v : Nat) : State :=
  s.updSec fun x => { x with mboxes := x.mboxes.set m.val (Memory.write (x.mboxes.get m) off n v) m.isLt }
/-- The device answers a request: STATUS with DONE, and DOOR cleared. -/
def State.mboxAnswer (s : State) (m : Fin 3) (code : Nat) : State :=
  (s.mboxWrite m 0x1F00 8 (2 ^ 63 + code)).mboxWrite m 0x1F08 8 0
/-- The request's common checks: MAGIC, KIND, MASTER, the bytes that every kind leaves zero, and DOOR, which holds nothing but its one. -/
def State.requestGood (s : State) (m : Fin 3) (kind : Nat) : Bool :=
  let z (off n : Nat) : Bool := s.mboxRead m off n == 0
  s.mboxRead m 0 4 == 0x444C4D42 && s.mboxRead m 4 1 == kind && s.mboxRead m 5 1 == m.val
    && z 0xC 4 && z 0x58 168 && z 0x1313 3053 && s.mboxRead m 0x1F08 8 == 1 && z 0x1F10 240

/-- Ticks of a number of milliseconds. -/
def ticksOfMs (n : Nat) : Nat := n * 4800000
/-- A lease begins or is renewed. -/
def State.lease (s : State) (ms : Nat) : State :=
  let to_ := s.time + ticksOfMs ms
  (s.updSec fun x => { x with leaseTo := to_ }).post (ticksOfMs ms) .leaseExpiry { n := to_ }
/-- Whether a lease has an allowed length. -/
def leaseOk (ms : Nat) : Bool := decide (100 ≤ ms) && decide (ms ≤ 3600000)

/-- A claim's judgement: its status, or none for a claim that is granted (R469, R470). -/
def State.judgeClaim (s : State) (who : Master) (m : Fin 3) : Option Nat :=
  let key := s.mboxRead m 6 2
  let bare := key == 0xFFFF
  let needsKey := s.sec.keys.toList.drop 4 |>.any fun k => k.used && k.usage.getLsbD 2
  if !(s.requestGood m 1 && leaseOk (s.mboxRead m 8 4) && s.mboxRead m 0x10 8 == s.sec.clnonce.toNat
      && s.mboxRead m 0x18 64 == 0 && (!bare || s.mboxRead m 0x100 signatureBytes == 0)) then some 1
  else if !(if bare then !needsKey
      else s.keyFor key 2 && Config.mldsaVerify (s.keyDigest key) (sha3 (s.mboxRead m 0 0x100) 0x100) (s.mboxRead m 0x100 signatureBytes)) then some 2
  else if s.sec.owner.isSome && !(s.sec.hand.any fun (h : Master × Nat) => h.1 == who) then some 3
  else none

/-- OWNERSHIP_CLAIM (R469-R472): the claim of master `m` is judged; a granted one elects its master. A decommissioned device, and one whose firmware
has not been verified (R462), refuses it. -/
def execOwnershipClaim (s : State) : Out :=
  match s.arg.m.number with
  | none => .next s
  | some m =>
    if s.sec.life = 3 ∨ s.sec.fw.isNone then .next (s.mboxAnswer m 3) else
    let v := s.judgeClaim s.arg.m m
    let fresh (s : State) : State :=
      { (s.updSec fun x => { x with clnonce := Config.nonce s.freeCtr }) with freeCtr := s.freeCtr + 1 }
    match v with
    | some code => .next (fresh (s.mboxAnswer m code))
    | none =>
      let ms := s.mboxRead m 8 4
      let s := (s.updSec fun x => { x with owner := some s.arg.m, hand := none }).lease ms
      .next (fresh (s.mboxAnswer m 0))

/-- The recovery image in the management master's mailbox (R463): how it stands there the manual does not say (log 86). -/
def State.recovery (s : State) : Firmware :=
  let f := Config.recoveryImage (s.mboxRead 2 0 0x1F00)
  { root := f 0, version := f 1, len := f 2, image := f 3, sig := f 4 }

/-- ATTESTATION_REQUEST (R463, R468, R470): master `m` receives a report over its nonce. A request of a KIND that is neither is answered
here; where neither firmware copy has verified, the management master's loads a recovery image, which starts when it verifies by the same rule. -/
def execAttestationRequest (s : State) : Out :=
  match s.arg.m.number with
  | none => .next s
  | some m =>
    if s.sec.bootFail ∧ m = 2 ∧ s.mboxRead m 4 1 ≠ 2 then
      let f := s.recovery
      if f.verifies then .next ((s.runFirmware f false).mboxAnswer m 0) else .next (s.mboxAnswer m 2)
    else if s.requestGood m 2 && s.mboxRead m 6 2 == 0xFFFF && s.mboxRead m 8 4 == 0 && s.mboxRead m 0x10 8 == 0
        && s.mboxRead m 0x100 signatureBytes == 0 then
      let nonce := s.mboxRead m 0x18 64
      .next ((s.mboxWrite m 0x100 reportBytes (s.report nonce)).mboxAnswer m 0)
    else .next (s.mboxAnswer m 1)

/-! ## Leases and handovers (R471) -/

/-- OWNLEASE_RENEW (R471): the owner `m` renews its lease to the ms in `w0`. -/
def execOwnleaseRenew (s : State) : Out :=
  let ms := bits s.arg.w0 0 32
  if s.sec.owner ≠ some s.arg.m then .next s
  else if bits s.arg.w0 32 32 ≠ 0 then .next s.badSecurity
  else if leaseOk ms then .next (s.lease ms) else .next s

/-- OWNHAND (R471): the owner `m` hands over to the target in `w0`, which has 1 s to claim. -/
def execOwnhand (s : State) : Out :=
  if s.sec.owner = some s.arg.m ∧ (bits s.arg.w0 2 6 ≠ 0 ∨ bits s.arg.w0 9 55 ≠ 0) then .next s.badSecurity else
  match masterOf (bits s.arg.w0 0 2) with
  | some t =>
    if s.sec.owner = some s.arg.m ∧ bit s.arg.w0 8 then
      let to_ := s.time + ticksOfMs 1000
      .next ((s.updSec fun x => { x with hand := some (t, to_) }).post (ticksOfMs 1000) .handoverLapse { n := to_ })
    else .next s
  | none => .next s

/-- LEASE_EXPIRY (R471): the lease that ran to tick `n` is over, and nobody owns the device. -/
def execLeaseExpiry (s : State) : Out :=
  if s.sec.owner.isSome ∧ s.sec.leaseTo = s.arg.n then .next (s.updSec fun x => { x with owner := none, hand := none, leaseTo := 0 })
  else .next s

/-- HANDOVER_LAPSE (R471): a handover whose target made no valid claim by tick `n` lapses. -/
def execHandoverLapse (s : State) : Out :=
  if s.sec.hand.any (fun (h : Master × Nat) => h.2 == s.arg.n) then .next (s.updSec fun x => { x with hand := none }) else .next s

end Sys2Proof.Machine
end

