-- ==== Sys2Proof/Machine/Registers.lean ====
section
/-! DEFINITION. Reading the base-die control spaces: the register maps (R327, R339, R355, R376-R379, R386, R388, R403, R407, R425,
R426, R430, R432, R433, R435, R441, R446, R452-R454, R466, R470, R471, R474, R480). -/

namespace Sys2Proof.Machine

open Sys2Proof

/-- A word of two 32-bit halves. -/
def halves (hi lo : BitVec 32) : Word := hi ++ lo
/-- A 32-bit value as a word. -/
def low32 (x : BitVec 32) : Word := x.setWidth 64
/-- A bit at a place. -/
def flagAt (b : Bool) (i : Nat) : Nat := if b then 2 ^ i else 0

/-- A queue's registers (R388). -/
def Queue.word (x : Queue) (o : Nat) : Word :=
  match o with
  | 0x00 => x.qring
  | 0x08 => x.qctxa
  | 0x10 => x.qctl
  | 0x18 => low32 x.qtail
  | 0x20 => low32 x.qhead
  | 0x28 => halves x.origin (BitVec.ofNat 32 (x.cause.toNat * 65536 + x.st))
  | 0x38 => low32 x.qchead
  | _ => 0

/-- HWMAPu (R425): its reset value stands where the list has none. -/
def Belfry.unit (b : Belfry) (u : Nat) : Word := ((b.hwmap.find? fun x => x.1 == u).map (·.2)).getD (wd (u * 2 ^ 28 + 1))

/-- The Belfry block (R403, R407, R425). -/
def State.belfryWord (s : State) (o : Nat) : Word :=
  let b := s.bel
  match o with
  | 0x000 => b.bfctl
  | 0x008 => wd s.ns
  | 0x010 => wd (flagAt b.refused 0)
  | 0x018 => b.evdisc
  | 0x020 => b.gangov
  | 0x028 => b.cuts
  | 0x030 => b.unal
  | 0x040 => b.dpar0
  | 0x048 => b.dpar1
  | 0x050 => b.dpar2
  | 0x058 => b.dsteal
  | 0x060 => b.flogbase
  | 0x068 => halves b.floglost (BitVec.ofNat 32 b.floglogn)
  | 0x070 => halves b.flogcons b.flogprod
  | _ =>
    if 0x1000 ≤ o ∧ o < 0x2000 then (s.queue (Fin.ofNat 64 ((o - 0x1000) / 64))).word (o % 64)
    else if 0x2000 ≤ o ∧ o < 0x2800 then b.unit ((o - 0x2000) / 8)
    else 0

/-- The Lantern block (R339). -/
def BaseDie.lanternWord (b : BaseDie) (o : Nat) : Word :=
  match o with
  | 0x00 => b.lnctl
  | 0x08 => low32 b.lnage
  | 0x10 => b.lnsub
  | 0x18 => b.lndisc
  | 0x20 => b.lndrop
  | 0x28 => b.lnpf
  | 0x30 => b.lnhit
  | 0x38 => b.lnwaste
  | 0x40 => b.lndem
  | _ => 0

/-- The snapshot-tree block (R355). -/
def Tree.word (t : Tree) (o : Nat) : Word :=
  match o with
  | 0x00 => t.pxctl
  | 0x08 => t.pxbase
  | 0x10 => t.pxnodes.setWidth 64
  | 0x18 => t.pxpool
  | 0x20 => t.pxpsize.setWidth 64
  | 0x28 => t.pxlow.setWidth 64
  | 0x30 => wd t.used
  | 0x38 => wd t.free
  | 0x40 => t.pxlook
  | 0x48 => t.pxhit
  | 0x50 => t.pxmism
  | 0x58 => t.pxevict
  | 0x60 => t.pxfull
  | _ => 0

/-- The HBM controller block (R377-R379, R426). -/
def HbmCtl.word (x : HbmCtl) (o : Nat) : Word :=
  match o with
  | 0x000 => x.hctl
  | 0x008 => x.herr
  | 0x010 => x.herra
  | 0x018 => x.rhctl
  | 0x020 => x.rhstat
  | 0x028 => x.llcpart
  | _ =>
    if 0x100 ≤ o ∧ o < 0x158 then x.hmask.toList.getD ((o - 0x100) / 8) 0
    else if 0x400 ≤ o ∧ o < 0x600 then x.pcstat.toList.getD ((o - 0x400) / 8) 0
    else 0

/-- The handle block (R432). -/
def BaseDie.handleWord (b : BaseDie) (o : Nat) : Word :=
  match o with
  | 0x00 => b.hpool
  | 0x08 => b.hslot
  | 0x10 => b.hpar0
  | 0x18 => b.hpar1
  | 0x20 => b.hcnt
  | _ => 0

/-- A handle entry's 128 bits (R327). -/
def State.handleEntry (s : State) (h : BitVec 16) : Nat :=
  let e := s.handle h
  let waits := (s.base (Fin.ofNat 8 e.rdie.toNat)).pinq.contains h || s.bases.toList.any fun b => b.pinq.contains h
  e.version.toNat * 2 ^ 96 + e.lfa.toNat * 2 ^ 64 + e.size.toNat * 2 ^ 48 + e.slot.toNat * 2 ^ 32 + e.rdie.toNat * 2 ^ 29
    + (e.pins % 8192) * 2 ^ 16 + flagAt e.flipp 15 + flagAt waits 14 + flagAt e.used 13 + flagAt e.pref 12 + flagAt e.llch 11
    + e.cause.toNat * 8 + e.code % 8
/-- The handle-table window of a table die (R433). -/
def State.handleWindow (s : State) (d : DieId) (o : Nat) : Word :=
  wd (field (s.handleEntry (BitVec.ofNat 16 (o / 16 * 8 + d.val))) (64 * (o / 8 % 2)) 64)

/-- The Nolnus block (R435). -/
def Nolnus.word (n : Nolnus) (o : Nat) : Word :=
  match o with
  | 0x00 => n.nlctl
  | 0x08 => halves n.spare n.bad
  | 0x10 => halves n.maxErase n.meanErase
  | 0x18 => halves n.wearMove n.rdReloc
  | 0x20 => halves n.retry n.uncorr
  | 0x28 => n.nlring
  | 0x30 => low32 n.nltail
  | 0x38 => low32 n.nlhead
  | _ => 0

/-- A format window's registers (R430). -/
def FmtWin.word (w : FmtWin) (o : Nat) : Word :=
  match o with
  | 0x00 => w.code
  | 0x08 => w.len
  | 0x10 => w.scl
  | _ => 0

/-- The loader block (R430, R433, R441, R446). -/
def Loader.word (x : Loader) (o : Nat) : Word :=
  match o with
  | 0x000 => x.ldctl
  | 0x008 => x.ldman
  | 0x010 => wd (x.shardIx.toNat * 2 ^ 48 + x.retries.toNat * 2 ^ 40 + x.reason.toNat * 2 ^ 32 + flagAt x.refused 5 + x.phase)
  | 0x018 => x.ldtime
  | 0x020 => halves x.newver x.cur
  | 0x028 => x.layer.setWidth 64
  | 0x030 => x.mixbase
  | 0x038 => halves x.mixcons x.mixprod
  | 0x040 => x.hset0
  | 0x048 => x.hset1
  | 0x050 => x.hset2
  | 0x058 => x.mapnext
  | 0x060 => low32 x.mapcur
  | _ => if 0x800 ≤ o ∧ o < 0x1000 then (x.windows.get (Fin.ofNat 64 ((o - 0x800) / 32))).word (o % 32) else 0

/-- ISLSTAT (R454). -/
def Island.stat (x : Island) : Word :=
  wd (x.tmax.toNat * 2 ^ 48 + x.imax.toNat * 2 ^ 40 + x.susp.toNat * 2 ^ 24 + flagAt x.hold 16 + x.caplvl * 2 ^ 8 + x.level)

/-- The power block of a die (R452-R454). -/
def State.powerWord (s : State) (d : DieId) (o : Nat) : Word :=
  let p := s.pw
  if 0x100 ≤ o ∧ o < 0x200 then
    if o % 16 = 0 then (s.island (Fin.ofNat 128 (d.val * 16 + (o - 0x100) / 16))).stat else 0
  else if d ≠ 0 then 0
  else match o with
  | 0x000 => p.pwctl
  | 0x008 => p.pwthr
  | 0x010 => wd (p.trips.toNat * 2 ^ 32 + p.tripisl.toNat * 2 ^ 24 + flagAt p.refused 12 + p.save * 2 ^ 10 + flagAt p.ready 9 + p.pstate)
  | _ =>
    if 0x040 ≤ o ∧ o < 0x0C0 then
      let h : Fin 4 := Fin.ofNat 4 ((o - 0x40) / 32)
      match o % 32 with
      | 0x00 => p.prof0.get h
      | 0x08 => p.prof1.get h
      | 0x10 => p.prof2.get h
      | _ => 0
    else 0

/-- OWNSTAT (R471). -/
def State.ownstat (s : State) : Word :=
  let left := (s.sec.leaseTo - s.time) / ticksOfMs 1
  let num (m : Master) : Nat := ((m.number).map (·.val)).getD 3
  match s.sec.owner with
  | none => 0
  | some m => wd (left * 2 ^ 32 + (match s.sec.hand with
      | some h => 2 ^ 8 + num h.1 * 2 ^ 6
      | none => 0) + 4 + num m)

/-- The security block (R466, R470, R471). -/
def State.securityWord (s : State) (o : Nat) : Word :=
  match o with
  | 0x000 => wd (Config.minFirmware.toNat * 2 ^ 32 + flagAt s.sec.bootb 5 + flagAt s.sec.usig 4 + s.sec.dbg.toNat * 4 + s.sec.life.toNat)
  | 0x010 => s.sec.secarg
  | 0x018 => s.sec.secres
  | 0x020 => s.sec.clnonce
  | 0x030 => s.ownstat
  | 0x048 => s.sec.ownref
  | _ => if 0x1000 ≤ o ∧ o < 0x7000 then wd (s.mboxRead (Fin.ofNat 3 ((o - 0x1000) / 0x2000)) ((o - 0x1000) % 0x2000) 8) else 0

/-- The network block (R474). -/
def Net.word (n : Net) (o : Nat) : Word :=
  match o with
  | 0x000 => n.netctl
  | 0x008 => halves n.reject n.recdrop
  | _ =>
    if 0x100 ≤ o ∧ o < 0x900 then
      let p := n.peers.get (Fin.ofNat 64 ((o - 0x100) / 32))
      match o % 32 with
      | 0x00 => p.addrh
      | 0x08 => p.addrl
      | 0x10 => p.npq
      | _ => p.npctl
    else 0

/-- The blocks of a control space (R386, R424, R453, R466, R474). -/
inductive Block where
  | belfry | lantern | tree | hbm | handles | table | nolnus | loader | power | security | network | empty
  deriving DecidableEq, Repr, Inhabited

/-- The block at an offset of a die's control space, and the offset in it. -/
def blockAt (d : DieId) (o : Nat) : Block × Nat :=
  let bd0 (b : Block) : Block := if d = 0 then b else .empty
  if o < 0x10000 then (bd0 .belfry, o)
  else if o < 0x11000 then (.lantern, o - 0x10000)
  else if 0x20000 ≤ o ∧ o < 0x21000 then (bd0 .tree, o - 0x20000)
  else if 0x30000 ≤ o ∧ o < 0x31000 then (.hbm, o - 0x30000)
  else if 0x40000 ≤ o ∧ o < 0x41000 then (.handles, o - 0x40000)
  else if 0x50000 ≤ o ∧ o < 0x70000 then (.table, o - 0x50000)
  else if 0x70000 ≤ o ∧ o < 0x71000 then (.nolnus, o - 0x70000)
  else if 0x80000 ≤ o ∧ o < 0x81000 then (bd0 .loader, o - 0x80000)
  else if 0x90000 ≤ o ∧ o < 0x91000 then (.power, o - 0x90000)
  else if 0xA0000 ≤ o ∧ o < 0xA8000 then (bd0 .security, o - 0xA0000)
  else if 0xB0000 ≤ o ∧ o < 0xB1000 then (bd0 .network, o - 0xB0000)
  else (.empty, o)

/-- The die and offset of a control-space address. -/
def ctlDie (pa : Nat) : DieId := Fin.ofNat 8 ((pa - ctlStart) / 0x10000000)
/-- The offset in the die's control space. -/
def ctlOff (pa : Nat) : Nat := (pa - ctlStart) % 0x10000000

/-- The register at an 8-byte aligned control-space address (R480). -/
def State.ctlReg (s : State) (pa : Nat) : Word :=
  let d := ctlDie pa
  let b := s.base d
  match blockAt d (ctlOff pa) with
  | (.belfry, o) => s.belfryWord o
  | (.lantern, o) => b.lanternWord o
  | (.tree, o) => s.tree.word o
  | (.hbm, o) => b.hbm.word o
  | (.handles, o) => b.handleWord o
  | (.table, o) => s.handleWindow d o
  | (.nolnus, o) => b.nl.word o
  | (.loader, o) => s.ld.word o
  | (.power, o) => s.powerWord d o
  | (.security, o) => s.securityWord o
  | (.network, o) => s.net.word o
  | (.empty, _) => 0

/-- Whether a read of `n` bytes has a form that returns data (R480). -/
def readForm (pa n : Nat) : Bool := [1, 2, 4, 8].contains n && pa % n == 0
/-- The bytes that such a read returns. -/
def State.ctlRead (s : State) (pa n : Nat) : Nat := field (s.ctlReg (pa / 8 * 8)).toNat (8 * (pa % 8)) (8 * n)

end Sys2Proof.Machine
end

