-- ==== Sys2Proof/Machine/RegWrites.lean ====
section
/-! DEFINITION. Writing the base-die control spaces: each block's refusals, plain registers stored, and the rows that a write of a
register with behaviour of its own sets going (R339, R355, R377, R378, R388, R399, R403, R407, R424-R435, R441, R446, R452-R454, R466,
R470-R472, R474, R480). A write outside every register sets reserved bits unless it is zero. -/

namespace Sys2Proof.Machine

open Sys2Proof

/-- Whether a value sets only bits of the mask. -/
def within (v : Word) (mask : Nat) : Bool := v &&& ~~~(wd mask) == 0
/-- Whether a number lies in a range. -/
def between (x lo hi : Nat) : Bool := decide (lo ≤ x) && decide (x ≤ hi)
/-- A written value where it passes its checks, else the refusal. -/
def accept (ok : Bool) (s refused : State) : State := if ok then s else refused

/-! ## Belfry block -/

/-- The package registers and the queues changed. -/
def State.updBel (s : State) (f : Belfry → Belfry) : State := { s with bel := f s.bel }

/-- A queue's registers (R388, R399). -/
def State.writeQueue (s : State) (q : Fin 64) (o : Nat) (v : Word) : State :=
  let x := s.queue q
  let still : Bool := !bit x.qctl 0 && x.st == 0
  let no := s.refuseBelfry
  match o with
  | 0x00 => accept (within v 0x01FFFFFFFFFFFFC0 && still) (s.updQueue q fun x => { x with qring := v }) no
  | 0x08 => accept (within v 0x000FFFFFFFFFFFC0 && still) (s.updQueue q fun x => { x with qctxa := v }) no
  | 0x10 =>
    let ok := within v 0xFFFFFFFF00001FF1 && between (bits v 8 5) 1 16 && (still || bits v 8 5 == bits x.qctl 8 5)
    let starts : Bool := bit v 0 && !bit x.qctl 0
    accept ok
      ((s.updQueue q fun x => { x with qctl := v, stale := x.stale || starts, recCount := if starts then 0 else x.recCount }).post 0
        .submissionEntryStart {}) no
  | 0x18 => s.post 0 .queueDoorbell { q := q, w0 := v }
  | 0x20 => s
  | 0x28 => accept (within v 0xFFFFFFFF00FF0003) s no
  | 0x30 =>
    if x.st ≠ 2 then no
    else if v = 1 then s.post 0 .qackResume { q := q }
    else if v = 2 then s.post 0 .qackDiscard { q := q }
    else no
  | _ => accept (within v 0xFFFFFFFF) ((s.updQueue q fun x => { x with qchead := v.setWidth 32 }).post 0 .completionRecordWrite { q := q }) no

/-- The Belfry block (R403, R407, R425). -/
def State.writeBelfry (s : State) (m : Master) (o : Nat) (v : Word) : State :=
  let no := s.refuseBelfry
  match o with
  | 0x000 => accept (within v 1) ((s.updBel fun b => { b with bfctl := v }).post 0 .submissionEntryStart {}) no
  | 0x010 => accept (within v 1) (if bit v 0 then s.updBel fun b => { b with refused := false } else s) no
  | 0x008 | 0x018 | 0x020 | 0x028 | 0x030 => s
  | 0x040 => accept (between (bits v 32 32) 1 100000 && between (bits v 0 32) 64 (2 ^ 20)) (s.updBel fun b => { b with dpar0 := v }) no
  | 0x048 => accept (within v 0xFFFFFFFFFFFF && between (bits v 32 16) 1 10000 && between (bits v 0 32) 1 100000)
      (s.updBel fun b => { b with dpar1 := v }) no
  | 0x050 => accept (within v 0xFFFFFFFF && between v.toNat 100 10000000) (s.updBel fun b => { b with dpar2 := v }) no
  | 0x058 => accept (within v 1) (s.updBel fun b => { b with dsteal := v }) no
  | 0x060 => accept (within v 0x000FFFFFFFFFF000) (s.updBel fun b => { b with flogbase := v }) no
  | 0x068 => accept (within v 0xFFFFFFFF0000001F && between (bits v 0 5) 6 20) (s.updBel fun b => { b with floglogn := bits v 0 5 }) no
  | 0x070 => s.updBel fun b => { b with flogcons := BitVec.ofNat 32 (bits v 32 32) }
  | 0x078 => accept (within v 0x1FFFFFFFF) (if bit v 32 then s.post 0 .preemptGo { w0 := v } else s) no
  | _ =>
    if 0x1000 ≤ o ∧ o < 0x2000 then s.writeQueue (Fin.ofNat 64 ((o - 0x1000) / 64)) (o % 64) v
    else if 0x2000 ≤ o ∧ o < 0x2800 then s.post 0 .hwmapWrite { u := (o - 0x2000) / 8, w0 := v, m := m }
    else accept (v == 0) s no

/-! ## Lantern and snapshot tree -/

/-- The Lantern block (R338, R339). -/
def State.writeLantern (s : State) (d : DieId) (o : Nat) (v : Word) : State :=
  match o with
  | 0x00 =>
    accept (within v 0x80FF0FFF && between (bits v 8 4) 1 8 && between (bits v 0 8) 1 255)
      ((s.updBase d fun b => { b with lnctl := v }).postOnce .lanternPrefetchSend d) s
  | 0x08 =>
    if within v 0xFFFFFFFF then
      let s := s.updBase d fun b => { b with lnage := v.setWidth 32 }
      if v = 0 then s else
      (s.base d).lnq.foldl (fun (s : State) (x : LnEntry) => s.post 0 .lanternAgeExpiry { d := d, h := x.handle }) s
    else s
  | _ => s

/-- The snapshot-tree block (R355). -/
def State.writeTree (s : State) (o : Nat) (v : Word) : State :=
  let t := s.tree
  let free : Bool := t.used == 0
  let put (f : Tree → Tree) : State := { s with tree := f s.tree }
  match o with
  | 0x00 =>
    if within v 0xC000000F && between (bits v 0 4) 4 10 && (free || bits v 0 4 == bits t.pxctl 0 4) then
      let s := put fun t => { t with pxctl := v &&& ~~~(wd 0x40000000) }
      if bit v 30 then s.post 0 .pxctlClr {} else s
    else s
  | 0x08 => accept (within v 0x000FFFFFFFFF0000 && (free || v == t.pxbase)) (put fun t => { t with pxbase := v }) s
  | 0x10 => accept (within v 0xFFFFFF && (free || v == t.pxnodes.setWidth 64)) (put fun t => { t with pxnodes := v.setWidth 24 }) s
  | 0x18 => accept (within v 0x000FFFFFFFFF0000 && (free || v == t.pxpool)) (put fun t => { t with pxpool := v }) s
  | 0x20 => accept (within v 0xFFFFFFFFFF) (put fun t => { t with pxpsize := v.setWidth 40 }).lowPool s
  | 0x28 => accept (within v 0xFFFFFFFFFF) (put fun t => { t with pxlow := v.setWidth 40 }).lowPool s
  | _ => s

/-! ## HBM controller -/

/-- HREF (R378). -/
def State.refuseHbm (s : State) (d : DieId) : State := s.updHbm d fun x => { x with hctl := remask x.hctl 0 0x20 }

/-- HCTL (R378): refused whole, or its actions in turn. -/
def State.writeHctl (s : State) (d : DieId) (v : Word) : State :=
  let h := (s.hbm d).hctl
  if bits v 6 58 ≠ 0 ∨ (bit v 2 ∧ !(bit v 0 && bit h 1 && !bit h 4)) ∨ (!bit v 0 ∧ bit h 4) then s.refuseHbm d else
  let s := if bit v 5 then s.updHbm d fun x => { x with hctl := remask x.hctl 0x20 0 } else s
  let s := if bit v 3 then s.post 0 .hctlClrstat { d := d } else s
  let s := if bit v 2 then s.post 0 .hctlRemap { d := d } else s
  if bit v 0 && !bit h 0 then s.post 0 .hctlQuiesce { d := d }
  else if !bit v 0 && bit h 0 then s.post 0 .hctlUnquiesce { d := d }
  else s

/-- Whether a hash mask keeps its limits (R377). -/
def maskOk (n : Nat) (v : Word) : Bool :=
  within v 0xFFFFFFFC0 && (if n < 6 then bits v 6 6 == 2 ^ n else bits v 6 11 == 2 ^ n)

/-- The HBM controller block (R377, R378, R426). -/
def State.writeHbm (s : State) (d : DieId) (o : Nat) (v : Word) : State :=
  let no := s.refuseHbm d
  match o with
  | 0x000 => s.writeHctl d v
  | 0x008 | 0x020 => s
  | 0x010 => accept (within v 0x000FFFFFFFFFFFC0) s no
  | 0x018 => accept (within v 0x00FFFFFF00FFFFFF && between (bits v 0 24) 64 (2 ^ 24 - 2) && decide (bits v 0 24 < bits v 32 24))
      (s.updHbm d fun x => { x with rhctl := v }) no
  | 0x028 => s.post 0 .llcpartWrite { d := d, w0 := v }
  | _ =>
    if 0x400 ≤ o ∧ o < 0x600 then s else
    let n := (o - 0x100) / 8
    if h : 0x100 ≤ o ∧ n < 11 then
      accept (maskOk n v && bit (s.hbm d).hctl 1 && !bit (s.hbm d).hctl 4)
        (s.updHbm d fun x => { x with hmask := x.hmask.set n v h.2 }) no
    else accept (v == 0) s no

/-! ## Handles, Nolnus and the loader -/

/-- Whether HPOOL and HSLOT of a die may be written (R432). -/
def State.poolFree (s : State) (d : DieId) : Bool :=
  s.handles.all fun (x : Nat × HandleEnt) => x.2.rdie.toNat != d.val || x.2.st == 0 || x.2.st == 6
/-- Whether a pool lies in its die's stack. -/
def poolFits (d : DieId) (pool slot : Word) : Bool :=
  pool.toNat / 2 ^ 36 == d.val && decide (pool.toNat + bits slot 0 16 * (bits slot 32 16 * 65536) ≤ (d.val + 1) * 2 ^ 36)

/-- The handle block (R432). -/
def State.writeHandles (s : State) (d : DieId) (o : Nat) (v : Word) : State :=
  let b := s.base d
  let no := s.refuseLoad
  match o with
  | 0x00 => accept (within v 0x000FFFFFFFFF0000 && s.poolFree d && poolFits d v b.hslot) (s.updBase d fun b => { b with hpool := v }) no
  | 0x08 =>
    accept (within v 0x0000FFFF0000FFFF && decide (1 ≤ bits v 32 16) && s.poolFree d && (bits v 0 16 == 0 || poolFits d b.hpool v))
      ((s.updBase d fun b => { b with hslot := v, slots := List.replicate (bits v 0 16) {} }).pokeDie d) no
  | 0x10 => accept (between (bits v 32 32) 0 1000 && between (bits v 0 32) 1 1000) (s.updBase d fun b => { b with hpar0 := v }) no
  | 0x18 =>
    accept (within v 0xFFFFFFFF0000FFFF && between (bits v 32 32) 10 10000 && decide (4 * bits v 0 16 ≤ bits b.hslot 0 16))
      ((s.updBase d fun b => { b with hpar1 := v }).pokeDie d) no
  | 0x20 => accept (within v 0x000FFFFFFFFFFFC0) (s.updBase d fun b => { b with hcnt := v }) no
  | _ => accept (v == 0) s no

/-- The Nolnus block (R435). -/
def State.writeNolnus (s : State) (d : DieId) (o : Nat) (v : Word) : State :=
  let n := (s.base d).nl
  let no := s.refuseLoad
  match o with
  | 0x00 => accept (between (bits v 32 32) 100 100000 && between (bits v 0 32) 1000 10000000)
      ((s.updNl d fun n => { n with nlctl := v }).checkWear d) no
  | 0x08 | 0x10 | 0x18 | 0x20 => s
  | 0x28 => accept (within v 0x01FFFFFFFFFFFFDF && between (bits v 0 5) 4 12 && n.nlhead == n.nltail) (s.updNl d fun n => { n with nlring := v }) no
  | 0x30 => accept (within v 0xFFFFFFFF) ((s.updNl d fun n => { n with nltail := v.setWidth 32 }).nlStart d) no
  | 0x38 => accept (within v 0xFFFFFFFF) s no
  | _ => accept (v == 0) s no

/-- A format window (R430). -/
def State.writeWindow (s : State) (w : Fin 64) (o : Nat) (v : Word) : State :=
  let x := s.ld.windows.get w
  let no := s.refuseLoad
  let put (f : FmtWin → FmtWin) : State := { s with ld := { s.ld with windows := s.ld.windows.set w.val (f x) w.isLt } }
  match o with
  | 0x00 => s.post 0 .formatWindowWrite { u := w.val, w0 := v }
  | 0x08 => accept (!bit x.code 0 && within v 0x000000FFFFFFF000 && between (bits v 12 28) 1 (2 ^ 24)) (put fun x => { x with len := v }) no
  | 0x10 => accept (!bit x.code 0 && within v 0x000FFFFFFFFFFF00) (put fun x => { x with scl := v }) no
  | _ => accept (!bit x.code 0 && v == 0) s no

/-- The loader block (R430, R433, R441, R446). The loader acts only when READY is 1: GO and the install bit do nothing before (R462). A write that
sets one of them is judged whole by its row, which stores the register where it does not refuse (R424). -/
def State.writeLoader (s : State) (o : Nat) (v : Word) : State :=
  let no := s.refuseLoad
  match o with
  | 0x000 =>
    if within v 0x07FF000D then
      let s := s.updLd fun x => { x with ldctl := v &&& wd 0x07FF0004 }
      let s := if bit v 3 then s.post 0 .loaderAbort {} else s
      if bit v 0 && s.pw.ready then s.post 0 .loaderGo {} else s
    else no
  | 0x008 => accept (within v 0x01FFFFFFFFFFFFC0) (s.updLd fun x => { x with ldman := v }) no
  | 0x010 => accept (within v 0xFFFFFFFF0000002F) (if bit v 5 then s.updLd fun x => { x with refused := false } else s) no
  | 0x018 => accept (between (bits v 32 32) 1 3600 && between (bits v 0 32) 10 86400) (s.updLd fun x => { x with ldtime := v }) no
  | 0x020 => s
  | 0x028 => accept (within v 0xFFFF) s no
  | 0x030 => accept (within v 0x000FFFFFFFFFF01F && between (bits v 0 5) 8 20) (s.updLd fun x => { x with mixbase := v }) no
  | 0x038 => s.updLd fun x => { x with mixcons := BitVec.ofNat 32 (bits v 32 32) }
  | 0x040 =>
    if within v 0x8000FFFF then
      if !bit v 31 then s.updLd fun x => { x with hset0 := v }
      else if s.pw.ready then s.post 0 .hsetGo { w0 := v, w1 := s.ld.hset1, w2 := s.ld.hset2 } else s
    else no
  | 0x048 => s.updLd fun x => { x with hset1 := v }
  | 0x050 => accept (within v 0xFFFF) (s.updLd fun x => { x with hset2 := v }) no
  | 0x058 =>
    if within v 0x01FFFFFFFFFFFFC1 then
      if !bit v 0 then s.updLd fun x => { x with mapnext := v }
      else if s.pw.ready then s.post 0 .mapnextInstall { w0 := v } else s
    else no
  | 0x060 => accept (within v 0xFFFFFFFF) s no
  | _ => if 0x800 ≤ o ∧ o < 0x1000 then s.writeWindow (Fin.ofNat 64 ((o - 0x800) / 32)) (o % 32) v else accept (v == 0) s no

/-! ## Power -/

/-- PWCTL (R453): the whole write is refused where its PSREQ is; else its fields are stored and the request goes to the power
controller. While a start or a save runs, a write that leaves PSREQ alone only stores the others. -/
def State.writePwctl (s : State) (v : Word) : State :=
  let req := bits v 0 2
  let busy : Bool := s.pw.waking || s.pw.reason != 0
  if !(within v 0x0000FFFFFF80FF03 && between (bits v 40 8) 1 255 && between (bits v 23 9) 0 256 && between (bits v 8 8) 1 200) then s.refusePower
  else if s.psreqRefused req && !(busy && req == bits s.pw.pwctl 0 2 && s.pw.save != 3) then s.refusePower
  else
    let s := s.updPw fun x => { x with pwctl := (v &&& ~~~3#64) ||| (x.pwctl &&& 3#64) }
    if busy then s else s.post 0 .psreqWrite { w0 := v }

/-- PWTHR (R453): TTRIP is fused. -/
def State.writePwthr (s : State) (v : Word) : State :=
  let trip := bits s.pw.pwthr 40 8
  let save := bits v 32 8
  let thr := bits v 24 8
  accept (bits v 48 16 == 0 && between save (thr + 5) (trip - 5) && between thr 60 (save - 5) && between (bits v 16 8) 40 (thr - 10)
      && between (bits v 0 16) 16 256)
    (s.updPw fun x => { x with pwthr := (v &&& wd 0xFFFFFFFFFF) ||| (x.pwthr &&& wd 0xFF0000000000) }) s.refusePower

/-- Whether a CAP and a RATE keep their limits (R452). -/
def capRate (v : Word) (lo least : Nat) : Bool := between (bits v (lo + 16) 16) least 1024 && between (bits v lo 16) 1 128

/-- A class's profile has changed: the cores of the class receive it, and the islands whose higher class it is its EWLIM, from the next cycle on
(R451, log 84). -/
def State.grantClass (s : State) (h : Fin 4) : State :=
  everyCore.foldl (fun (s : State) c =>
    let s := if s.heatOf c = h.val then s.grantTo c else s
    if max (s.heatOf c) (s.heatOf (partnerOf c)) = h.val ∧ c.val % 2 = 0 then s.grantLimit c else s) s

/-- A word of a profile (R452). -/
def State.writeProfile (s : State) (h : Fin 4) (o : Nat) (v : Word) : State :=
  let no := s.refusePower
  match o with
  | 0x00 => accept (capRate v 32 2 && capRate v 0 2) ((s.updPw fun x => { x with prof0 := x.prof0.set h.val v h.isLt }).grantClass h) no
  | 0x08 => accept (capRate v 32 3 && capRate v 0 2) ((s.updPw fun x => { x with prof1 := x.prof1.set h.val v h.isLt }).grantClass h) no
  | 0x10 => accept (within v 0x3FFFF && decide (bits v 16 2 < 3) && between (bits v 0 16) 16 65535)
      ((s.updPw fun x => { x with prof2 := x.prof2.set h.val v h.isLt }).grantClass h) no
  | _ => accept (v == 0) s no

/-- ISLCMD (R454). -/
def State.writeIslcmd (s : State) (i : Fin 128) (v : Word) : State :=
  if !within v 3 ∨ (bit v 1 ∧ !s.mayClearHold i) then s.refusePower else
  let s := if bit v 1 then s.post 0 .clrhold { isl := i } else s
  if bit v 0 then s.post 0 .clrsusp { isl := i } else s

/-- The power block of a die (R452-R454). -/
def State.writePower (s : State) (d : DieId) (o : Nat) (v : Word) : State :=
  let no := s.refusePower
  if 0x100 ≤ o ∧ o < 0x200 then
    if o % 16 = 0 then accept (within v 0x00FFFF003F011F1F) s no
    else s.writeIslcmd (Fin.ofNat 128 (d.val * 16 + (o - 0x100) / 16)) v
  else if d ≠ 0 then accept (v == 0) s no
  else match o with
  | 0x000 => s.writePwctl v
  | 0x008 => s.writePwthr v
  | 0x010 => accept (within v 0xFFFFFFFFFF001E03) (if bit v 12 then s.updPw fun x => { x with refused := false } else s) no
  | 0x018 => accept (within v 1) (if bit v 0 then s.post 0 .pwcmdSave {} else s) no
  | _ =>
    if 0x040 ≤ o ∧ o < 0x0C0 then s.writeProfile (Fin.ofNat 4 ((o - 0x40) / 32)) (o % 32) v else accept (v == 0) s no

/-! ## Security and network -/

/-- An operation of a peer answered with an error, and counted (R474, R475). -/
def State.reject (s : State) : State :=
  { s with out := s.out ++ [Output.error],
           net := { s.net with reject := if s.net.reject = BitVec.allOnes 32 then s.net.reject else s.net.reject + 1 } }
/-- A write of a master that is not the owner (R471): counted, and answered as its port answers. -/
def State.notOwner (s : State) (who : Master) : State :=
  let s := s.updSec fun x => { x with ownref := x.ownref + 1 }
  match who with
  | .peer => s.reject
  | .mgmt => { s with out := s.out ++ [Output.nack] }
  | _ => s

/-- The row of a security command (R466). -/
def secRow : Nat → Option Instr
  | 1 => some .attest
  | 2 => some .keyadd
  | 3 => some .keyrevoke
  | 4 => some .debugAuth
  | 5 => some .secure
  | 6 => some .decommission
  | _ => none

/-- Eight bytes of a mailbox from its own master (R470): dropped while DOOR is 1; STATUS is the device's; DOOR submits. A claim is
judged with those that arrive in the same tick. A DOOR with a reserved one is a request too, which its judgement refuses (R7). -/
def State.writeMbox (s : State) (who : Master) (m : Fin 3) (o : Nat) (v : Word) : State :=
  if s.mboxRead m 0x1F08 8 ≠ 0 ∨ o = 0x1F00 then s else
  let s := s.mboxWrite m o 8 v.toNat
  if o = 0x1F08 ∧ v ≠ 0 then
    let s := s.mboxWrite m 0x1F00 8 0
    if s.mboxRead m 4 1 = 1 then s.post 1 .ownershipClaim { m := who } else s.post 1 .attestationRequest { m := who }
  else s

/-- The security block (R466, R470, R471): what the owner alone may write, a core may not. A one
written where the block has no register is refused as a reserved one is (R7). -/
def State.writeSecurity (s : State) (who : Master) (o : Nat) (v : Word) : State :=
  match o with
  | 0x000 => if who = .core then s.notOwner who else
    if bits v 48 16 ≠ 0 ∨ bits v 6 26 ≠ 0 then s.badSecurity else s.updSec fun x => { x with usig := bit v 4 }
  | 0x008 =>
    if who = .core then s.notOwner who else
    if bits v 8 56 ≠ 0 then s.badSecurity else
    match secRow (bits v 0 8) with
    | some row => (s.updSec fun x => { x with secres := 0 }).post 0 row {}
    | none => s.finishSec .badRequest false
  | 0x010 => if who = .core then s.notOwner who else
    accept (onlyBits v 0x000FFFFFFFFFFFC0) (s.updSec fun x => { x with secarg := v }) s.badSecurity
  | 0x038 => s.post 0 .ownleaseRenew { m := who, w0 := v }
  | 0x040 => s.post 0 .ownhand { m := who, w0 := v }
  | _ =>
    if 0x1000 ≤ o ∧ o < 0x7000 then
      let m : Fin 3 := Fin.ofNat 3 ((o - 0x1000) / 0x2000)
      if who.number = some m then s.writeMbox who m ((o - 0x1000) % 0x2000) v else s
    else if o = 0x18 ∨ o = 0x20 ∨ o = 0x30 ∨ o = 0x48 ∨ v = 0 then s
    else s.badSecurity

/-- The network block (R474). -/
def State.writeNet (s : State) (o : Nat) (v : Word) : State :=
  let no := s.refuseLoad
  match o with
  | 0x000 => accept (within v 1) { s with net := { s.net with netctl := v } } no
  | 0x008 => s
  | _ =>
    if 0x100 ≤ o ∧ o < 0x900 then
      let p : Fin 64 := Fin.ofNat 64 ((o - 0x100) / 32)
      let put (f : Peer → Peer) : State :=
        { s with net := { s.net with peers := s.net.peers.set p.val (f (s.net.peers.get p)) p.isLt } }
      match o % 32 with
      | 0x00 => put fun x => { x with addrh := v }
      | 0x08 => put fun x => { x with addrl := v }
      | 0x10 => put fun x => { x with npq := v }
      | _ =>
        let other := (List.range 64).any fun i => i != p.val && (let x := s.net.peers.get (Fin.ofNat 64 i); bit x.npctl 0 && bit x.npctl 2)
        accept (within v 0x0000FFFF00000007 && decide (bits v 40 8 + bits v 32 8 ≤ 256) && !(bit v 2 && other)) (put fun x => { x with npctl := v }) no
    else accept (v == 0) s no

/-! ## Any control space -/

/-- A refusal of the block (R480): its refusal bit, where it has one. -/
def State.refuseBlock (s : State) (d : DieId) (b : Block) : State :=
  match b with
  | .belfry => s.refuseBelfry
  | .hbm => s.refuseHbm d
  | .handles | .table | .nolnus | .loader | .network => s.refuseLoad
  | .power => s.refusePower
  | .lantern | .tree | .security | .empty => s

/-- A write of eight bytes by a party that may write (R480); the handle-table window is read-only, and a write of it has no effect (R6, R433). -/
def State.ctlWrite (s : State) (who : Master) (pa : Nat) (v : Word) : State :=
  let d := ctlDie pa
  match blockAt d (ctlOff pa) with
  | (.belfry, o) => s.writeBelfry who o v
  | (.lantern, o) => s.writeLantern d o v
  | (.tree, o) => s.writeTree o v
  | (.hbm, o) => s.writeHbm d o v
  | (.handles, o) => s.writeHandles d o v
  | (.table, _) => s
  | (.nolnus, o) => s.writeNolnus d o v
  | (.loader, o) => s.writeLoader o v
  | (.power, o) => s.writePower d o v
  | (.security, o) => s.writeSecurity who o v
  | (.network, o) => s.writeNet o v
  | (.empty, _) => s

/-- Whether a party may write control registers (R471): the owner, and cores through the mappings that system software builds. -/
def State.mayWrite (s : State) (who : Master) : Bool := who == .core || s.sec.owner == some who

/-- Whether a write is to the party's own mailbox, which works once firmware runs; where none has verified, the management master's alone (R462,
R463, R470). -/
def State.ownMailbox (s : State) (who : Master) (pa : Nat) : Bool :=
  match blockAt (ctlDie pa) (ctlOff pa), who.number with
  | (.security, o), some m => decide (0x1000 ≤ o) && decide (o < 0x7000) && (o - 0x1000) / 0x2000 == m.val && (s.sec.fw.isSome || (s.sec.bootFail && m == 2))
  | _, _ => false

/-- Registers that act in retention and with power off: ownership, ATTEST, PSREQ; after decommissioning ownership does not (R472). -/
def State.restrictedOk (s : State) (pa : Nat) (v : Word) : Bool :=
  match blockAt (ctlDie pa) (ctlOff pa) with
  | (.security, o) => o == 0x10 || (o == 8 && bits v 0 8 == 1) || (s.sec.life != 3 && (o == 0x38 || o == 0x40))
  | (.power, o) => ctlDie pa == 0 && o == 0
  | _ => false
/-- Whether only those registers act. -/
def State.restricted (s : State) : Bool := !s.actsAwake && !s.pw.waking || s.sec.life == 3
/-- Whether the boot ROM found firmware that verifies, or has not yet looked (R463). -/
def State.booted (s : State) : Bool := !s.sec.bootFail

/-- Whether only firmware in system context may write the block, and the party is not that (R355). -/
def firmwareOnly (who : Master) (user : Bool) (pa : Nat) : Bool :=
  (blockAt (ctlDie pa) (ctlOff pa)).1 == .tree && (who != .core || user)

/-- A write of `n` bytes from a party to a control space (R355, R471, R472, R480); `user` tells of a user-mode task. -/
def State.regWrite (s : State) (who : Master) (pa n : Nat) (v : Word) (user : Bool := false) : State :=
  let mine := s.ownMailbox who pa
  if !mine ∧ !s.mayWrite who ∨ firmwareOnly who user pa then s.notOwner who
  else if n ≠ 8 ∨ pa % 8 ≠ 0 then s.refuseBlock (ctlDie pa) (blockAt (ctlDie pa) (ctlOff pa)).1
  else if !s.booted ∧ !(mine && who == .mgmt) then s
  else if !mine ∧ s.restricted ∧ !s.restrictedOk pa v then s
  else s.ctlWrite who pa v

/-- A read that returns no data (R480), or an operation turned away. -/
def State.noData (s : State) (who : Master) : State :=
  match who with
  | .host => { s with out := s.out ++ [Output.poisoned] }
  | .peer => s.reject
  | _ => { s with out := s.out ++ [Output.nack] }

/-- A read of `n` bytes from a party outside the cores (R480). -/
def State.regRead (s : State) (who : Master) (pa n : Nat) : State :=
  if readForm pa n then { s with out := s.out ++ [Output.data (bytesOf (s.ctlRead pa n) n)] } else s.noData who

/-- Whether the network port serves a party: the peers' one only while it accepts operations and a valid entry is master 1 (R474). -/
def State.served1 (s : State) (who : Master) : Bool :=
  who != .peer || (bit s.net.netctl 0 && (List.range 64).any fun i =>
    let x := s.net.peers.get (Fin.ofNat 64 i)
    bit x.npctl 0 && bit x.npctl 2)

/-- REGISTER_WRITE (R474, R480): party `m` accesses `id` bytes at control-space address `n`: `u` 0 writes `w0`, `u` 1 reads. -/
def execRegisterWrite (s : State) : Out :=
  let a := s.arg
  if physClass a.n ≠ .control ∨ !s.served1 a.m then .next (s.noData a.m)
  else if a.u = 1 then .next (s.regRead a.m a.n a.id)
  else .next (s.regWrite a.m a.n a.id a.w0)

/-- HWMAP_WRITE (R425): HWMAP of unit `u` becomes `w0`, when every access by the old value has performed. -/
def execHwmapWrite (s : State) : Out :=
  let a := s.arg
  let v := a.w0
  if s.sec.owner ≠ some a.m then .next (s.notOwner a.m)
  else if a.u < 256 ∧ within v 0x000FFFFFF0000001 ∧ (v &&& ~~~1#64).toNat < 0x8000000000 then
    .next (s.updBel fun b => { b with hwmap := (a.u, v) :: b.hwmap.filter fun (x : Nat × Word) => x.1 != a.u })
  else .next s.refuseBelfry

end Sys2Proof.Machine
end

