-- ==== Sys2Proof/Machine/Ports.lean ====
section
/-! DEFINITION. Accesses from outside the cores' own memory: host and network accesses to the HBM window, the network's operations, debug
reads, and accesses that arrive at a window or a control space (R126, R128, R319, R425, R472-R475, R480). -/

namespace Sys2Proof.Machine

open Sys2Proof

/-! ## The host window (R425) -/

/-- A piece of a window access: where it lies, none where its unit is not mapped; its offset in the access; its length. -/
structure UnitSeg where
  pa  : Option Nat := none
  off : Nat := 0
  len : Nat := 0
  deriving DecidableEq, Repr, Inhabited

/-- The pieces of [o, o+n) of the window, one for each unit that it touches. -/
def Belfry.unitSegs (b : Belfry) (o n : Nat) : List UnitSeg :=
  (List.range (n / 2 ^ 28 + 2)).filterMap fun i =>
    let u := o / 2 ^ 28 + i
    let lo := max o (u * 2 ^ 28)
    let hi := min (o + n) ((u + 1) * 2 ^ 28)
    if lo < hi then
      let w := b.unit u
      some { pa := if bit w 0 then some ((w &&& ~~~1#64).toNat + lo % 2 ^ 28) else none, off := lo - o, len := hi - lo }
    else none

/-- Bytes of the window, and whether one of them is unmapped or poisoned. -/
def State.unitsRead (s : State) (l : List UnitSeg) : Nat × Bool :=
  l.foldl (fun (acc : Nat × Bool) x => match x.pa with
    | some pa => (acc.1 + s.homeRead pa x.len <<< (8 * x.off), acc.2 || s.poisoned pa x.len)
    | none => (acc.1, true)) (0, false)
/-- The network engine's writer identifier (R102, R405). -/
def netWriter : Nat := baseWriter 0 9
/-- The pieces are read at their home slices by a party (R128). -/
def State.unitsArrive (s : State) (w : Nat) (l : List UnitSeg) : State :=
  s.partyReads w (l.filterMap fun x => x.pa.map fun pa => (pa, x.len))
/-- Bytes that a party writes through the window (R128, R129); a piece of an unmapped unit is dropped. -/
def State.unitsWrite (s : State) (w : Nat) (l : List UnitSeg) (v : Nat) : State :=
  let y := s.stamp w
  (l.foldl (fun (s : State) x => match x.pa with
    | some pa => s.homeWrite y pa x.len (field v (8 * x.off) (8 * x.len))
    | none => s) s).publish w 4

/-- An answer to a party. -/
def State.answer (s : State) (o : Output) : State := { s with out := s.out ++ [o] }

/-! ## Debug reads (R472) -/

/-- Whether the physical range lies in the window footprint of a user-mode task. -/
def State.userWindow (s : State) (pa n : Nat) : Bool :=
  let x := s.core (winCore pa)
  let o := winOff pa
  allSlots.any fun k => let f := x.frame k
    f.resident && !f.id.mode && (decide (f.id.base * 512 ≤ o) && decide (o + n ≤ (f.id.base + f.id.foot) * 512))
/-- Whether the physical range lies in the save area of a task: with `user`, of a user-mode one. -/
def State.areaHolds (s : State) (user : Bool) (pa n : Nat) : Bool :=
  s.tasks.any fun (t : Task) => !(user && t.flags.getLsbD 3) && (
    let x := s.sysOf t.tid
    let pages := ((((s.queue t.q).areas.find? fun (y : Nat × Nat × BitVec 32) => y.2.2 == t.tid).map (·.2.1)).getD 0)
    (List.range pages).any fun i =>
      match lookup s 0 [] x.asid x.ptroot (va57 x.ctxsave + i * 65536) with
      | .ok w => let a := w.leaf.phys (va57 x.ctxsave + i * 65536); decide (a ≤ pa) && decide (pa + n ≤ a + 65536)
      | .error _ => false)

/-- Whether the management master may read the range for debugging (R472); a lent core's window it may not (R127). In retention what the compute
dies hold is read at full debug only, and a device in manufacturing shows its save areas; with power off nothing is read. -/
def State.debugReads (s : State) (pa n : Nat) : Bool :=
  let awake := decide (s.pw.pstate < 2)
  let userOnly := s.sec.life == 2 && s.sec.dbg == 1
  physClass pa == physClass (pa + n - 1) && decide (s.pw.pstate < 3) && match physClass pa with
    | .window => (s.core (winCore pa)).lentTo.isNone &&
        (s.fullDebug || (s.sec.life == 0 && awake) || (userOnly && awake && s.userWindow pa n))
    | .hbm _ => s.fullDebug || (s.sec.life == 0 && (awake || s.areaHolds false pa n)) || (userOnly && s.areaHolds true pa n)
    | _ => false

/-- Whether HBM takes accesses from outside (R461, R472): not with its power off, in retention at full debug only, and never once the device is
decommissioned. -/
def State.hbmServes (s : State) : Bool := s.sec.life != 3 && s.actsAwake

/-- HOST_WINDOW_ACCESS (R425, R471, R472): the host's access at window offset `u`, writing `bytes` or, with none, reading `n` bytes; for
the management master a debug read at physical address `u`. Where HBM takes none, the host's acts as one to a unit that is not mapped (log 85). -/
def execHostWindowAccess (s : State) : Out :=
  let a := s.arg
  match a.m with
  | .host =>
    let n := if a.bytes.isEmpty then a.n else a.bytes.length
    if 2 ^ 36 < a.u + n ∨ !s.hbmServes then .next (if a.bytes.isEmpty then s.answer .poisoned else s) else
    let l := s.bel.unitSegs a.u n
    if a.bytes.isEmpty then
      let r := s.unitsRead l
      .next ((s.unitsArrive hostWriter l).answer (if r.2 then .poisoned else .data (bytesOf r.1 n)))
    else if s.sec.owner = some .host then .next (s.unitsWrite hostWriter l (natOf a.bytes))
    else .next (s.notOwner .host)
  | .mgmt =>
    if s.debugReads a.u a.n then
      let v := match physClass a.u with
        | .window => s.windowRead (winCore a.u) (winOff a.u) a.n
        | _ => s.homeRead a.u a.n
      .next ((s.arrive a.u a.n .touch).answer (if s.poisoned a.u a.n then .poisoned else .data (bytesOf v a.n)))
    else .next (s.answer .nack)
  | _ => .next s

/-! ## The network (R473-R476) -/

/-- The valid entry of a peer's address. -/
def State.peerAt (s : State) (h l : Word) : Option (Fin 64) :=
  ((List.range 64).map (Fin.ofNat 64)).find? fun p =>
    let x := s.net.peers.get p
    bit x.npctl 0 && x.addrh == h && x.addrl == l
/-- The peer that an operation comes from, while the port accepts operations: `w0` and `w1` are its address. -/
def State.netPeer (s : State) : Option (Fin 64) := if bit s.net.netctl 0 then s.peerAt s.arg.w0 s.arg.w1 else none
/-- Whether a range of the window lies inside a peer's units (R474). -/
def Peer.reaches (p : Peer) (o n : Nat) : Bool :=
  let first := bits p.npctl 40 8
  let count := bits p.npctl 32 8
  decide (1 ≤ n) && decide (first * 2 ^ 28 ≤ o) && decide (o + n ≤ (first + count) * 2 ^ 28)

/-- A packet that requests a part of Ultra Ethernet that the port lacks (R473): an error response, and nothing changes. `k` of an operation's event
is not 0 for such a packet. -/
def unsupported (s : State) (op : State → Out) : Out := if s.arg.k = 0 then op s else .next (s.answer .error)

/-- NET_WRITE (R473-R475): `bytes` at window offset `u`, or for master 1 at control-space address `u`. -/
def execNetWrite (s : State) : Out := unsupported s fun s =>
  let a := s.arg
  match s.netPeer with
  | none => .next s.reject
  | some p =>
    let x := s.net.peers.get p
    if bit x.npctl 2 ∧ physClass a.u = .control then .next (s.regWrite .peer a.u a.bytes.length (wd (natOf a.bytes)))
    else if x.reaches a.u a.bytes.length ∧ !bit x.npctl 1 ∧ s.hbmServes then
      let l := s.bel.unitSegs a.u a.bytes.length
      .next ((s.unitsWrite netWriter l (natOf a.bytes)).answer .ack)
    else .next s.reject

/-- NET_READ (R425, R473-R475): `n` bytes at window offset `u`, or for master 1 at control-space address `u`. -/
def execNetRead (s : State) : Out := unsupported s fun s =>
  let a := s.arg
  match s.netPeer with
  | none => .next s.reject
  | some p =>
    let x := s.net.peers.get p
    if bit x.npctl 2 ∧ physClass a.u = .control then .next (s.regRead .peer a.u a.n)
    else if x.reaches a.u a.n ∧ s.hbmServes then
      let l := s.bel.unitSegs a.u a.n
      let r := s.unitsRead l
      if l.any (fun y => y.pa.isNone) then .next s.reject
      else .next ((s.unitsArrive netWriter l).answer (if r.2 then .poisoned else .data (bytesOf r.1 a.n)))
    else .next s.reject

/-- Entries appended to a queue's ring from an index on, 16 bytes each; none when one cannot be written. -/
def State.appendEntries (s : State) (q : Fin 64) (i v : Nat) : Nat → Option State
  | 0 => some s
  | n + 1 =>
    let x := s.queue q
    match s.belfryWrite q (canon57 (x.qring + wd (16 * (i % 2 ^ bits x.qctl 8 5)))) 16 (v % 2 ^ 128) with
    | some s => s.appendEntries q ((i + 1) % 2 ^ 32) (v >>> 128) n
    | none => none

/-- NET_SEND (R472, R473, R475, R476): `bytes` are submission entries for queue `u`. -/
def execNetSend (s : State) : Out := unsupported s fun s =>
  let a := s.arg
  match s.netPeer with
  | none => .next s.reject
  | some p =>
    if h : a.u < 64 then
      let q : Fin 64 := ⟨a.u, h⟩
      let x := s.queue q
      let k := a.bytes.length / 16
      let room := 2 ^ bits x.qctl 8 5 - (x.qtail - x.qhead).toNat
      if bit x.qctl 7 ∧ bit (s.net.peers.get p).npq a.u ∧ a.bytes.length % 16 = 0 ∧ 1 ≤ k ∧ k ≤ 64 ∧ k ≤ room ∧ s.hbmServes then
        let t := s.updQueue q fun x => { x with ctx := if x.stale then s.readContext q else x.ctx }
        match t.appendEntries q x.qtail.toNat (natOf a.bytes) k with
        | none => .next s.reject
        | some t =>
          let t := t.updQueue q fun y =>
            { y with qtail := y.qtail + BitVec.ofNat 32 k,
                     peers := y.peers ++ (List.range k).map fun j => (p, (x.qtail + BitVec.ofNat 32 j).toNat) }
          .next ((t.post 0 .submissionEntryStart {}).answer .ack)
      else .next s.reject
    else .next s.reject

/-! ## Accesses that arrive at a window or a control space (R126, R319, R480) -/

/-- The access is no longer outstanding. -/
def State.dropAccess (s : State) (id : Nat) : State := { s with wins := s.wins.filter fun (a : WinAcc) => a.id != id }

/-- The bytes of a read reach their load, which lands when none is missing. -/
def State.accessData (s : State) (a : WinAcc) (v : Nat) (poison : Option Nat) : State :=
  match (s.frameAt a.c a.k).loads.find? fun p => p.id == a.load && decide (0 < p.parts) with
  | none => s
  | some p =>
    let put (p : Pending) : Pending :=
      { p with data := p.data ||| BitVec.ofNat 4096 (v <<< (8 * a.off)), parts := p.parts - 1,
               poison := if p.poison.isSome then p.poison else poison }
    let s := s.updFrameAt a.c a.k fun f =>
      { f with loads := updWhere (fun p => p.id == a.load && decide (0 < p.parts)) put f.loads }
    if p.parts = 1 then
      s.postCore a.c (s.cyc a.c) (if p.form < 2 then .loadComplete else .vectorLoadLand) { k := a.k, id := a.load }
    else s

/-- What stands behind an access in the order of its core: the older accesses that are outstanding. -/
def State.older (s : State) (a : WinAcc) : List WinAcc := s.wins.filter fun b => b.c == a.c && decide (b.id < a.id)
/-- The older atomics of the core. -/
def State.olderAtoms (s : State) (a : WinAcc) : List Atomic := (s.core a.c).atomics.filter fun b => decide (b.id < a.id)
/-- Whether an older access, or an older atomic, of the core touches some of its tiles. -/
def State.olderTouch (s : State) (a : WinAcc) (l : List Nat) : Bool :=
  ((s.older a).any fun b => b.order.isNone && (lsTiles a.c [(b.pa, b.n)]).any l.contains)
    || (s.olderAtoms a).any fun b => (lsTiles a.c [(b.pa, atomSize b.op)]).any l.contains

/-- Whether an access must still wait for one that it follows: by class or FENCE or a byte they share (R108, R109); a release for every
earlier access, an acquire for every earlier read (R111, R112); a change of tiles or roles for those that touch the tiles (R119, R315). -/
def State.accessWaits (s : State) (a : WinAcc) : Bool :=
  let x := s.core a.c
  match a.order with
  | none => s.mustWait a.c a.id a.oc a.pa a.n
  | some (.release _) => !(s.older a).isEmpty || !(s.olderAtoms a).isEmpty || x.spaceBusy a.seq || x.matrixBusy (a.seq / 4)
  | some (.acquire _) =>
    ((s.older a).any fun b => b.order.isSome || !b.write) || !(s.olderAtoms a).isEmpty || x.matrixBusy (a.seq / 4)
  | some (.own l) => s.olderTouch a l
  | some (.roles x) => s.olderTouch a ((s.frameAt a.c a.k).sys.gainedTiles x)

/-- The rest of an operation takes its place among its bundle's accesses (R111, R112, R119, R315). -/
def State.performOrder (s : State) (a : WinAcc) (o : Order) : State :=
  let onSys (f : SysRegs → SysRegs) : State := s.updFrameAt a.c a.k fun x => { x with sys := f x.sys }
  match o with
  | .release n => (s.release a.c n).postAll a.then_
  | .acquire n => s.acquire a.c n
  | .own l => onSys fun x => x.setOwn l true
  | .roles v => onSys fun x => { x with bankrole := v }

/-- An access performs at its target, or is refused there; one that waited for an earlier access of its core, or at its home, performs at
the core. -/
def State.performAccess (s : State) (a : WinAcc) : State :=
  match placeOf a.c a.pa with
  | .window t off =>
    match s.windowRefuses t off a.n a.write (some a.asid) with
    | some cause =>
      let s := s.raiseAsync a.c a.k { cause := cause, evaddr := wd a.va }
      if a.write then s else s.accessData a 0 none
    | none =>
      if a.write then (s.chipWrite { by_ := s.nextWrite (coreWriter a.c) a.oc } a.pa a.n a.v.toNat a.ben.toNat).wrote (coreWriter a.c)
      else (s.observe (coreWriter a.c) (s.marksAt a.pa a.n)).accessData a (s.windowRead t off a.n) ((s.poisonOf a.pa a.n).map (·.2))
  | .control =>
    if a.write then s.regWrite .core a.pa a.n (a.v.setWidth 64) a.user else s.accessData a (s.ctlRead a.pa a.n) none
  | _ =>
    if a.write then s.nearWrite a.c a.oc a.pa a.n a.v.toNat a.ben.toNat
    else
      let (s, v, poison) := s.nearRead a.c a.pa a.n
      s.accessData a v poison

/-- The banks of the target that an access to register space needs in this cycle (R278): none tells that it waits for them. -/
def State.accessBank (s : State) (a : WinAcc) (waited : Nat) : Option State :=
  match placeOf a.c a.pa with
  | .window t off =>
    if off < 0x400000 && (s.windowRefuses t off a.n a.write (some a.asid)).isNone then s.engineBank t a.pa a.n a.write waited else some s
  | _ => some s

/-- WINDOW_ACCESS_ARRIVE (R108, R109, R126, R278, R319, R480): access `id`, after those of its core that it follows; `n` counts the cycles
in which its banks were taken. -/
def execWindowAccessArrive (s : State) : Out :=
  match s.wins.find? fun a => a.id == s.arg.id with
  | none => .next s
  | some a =>
    if s.accessWaits a then .next (s.carry a) else
    match a.order with
    | some o => .next (((s.dropAccess a.id).performOrder a o).settleDrains)
    | none => match s.accessBank a s.arg.n with
      | none => match placeOf a.c a.pa with
        | .window t _ => .next (s.postCore t (s.cyc t) .windowAccessArrive { s.arg with n := s.arg.n + 1 })
        | _ => .next s
      | some s => .next (((s.dropAccess a.id).performAccess a).settleDrains)

end Sys2Proof.Machine
end

