-- ==== Sys2Proof/Machine/Sequencer.lean ====
section
/-! DEFINITION. The sequencer's own events: results and loads that complete, fetches that arrive, traps that are taken
(R64, R65, R141, R147, R159, R229, R271, R272, R420). -/

namespace Sys2Proof.Machine

open Sys2Proof

/-- RESULT_COMPLETE (R22, R64, R65): the frame's next result in order of completion reaches its destination and its
unit's latch. -/
def execResultComplete (s : State) : Out :=
  let c := s.arg.c
  let k := s.arg.k
  match firstResult (s.frameAt c k).infl with
  | none => .next s
  | some r =>
    .next ((s.updFrameAt c k fun f => { f with infl := dropFirst (· == r) f.infl }).complete c k r)

/-- The value a load delivers, from the bytes it read (R140, R230). -/
def Pending.value (p : Pending) : Vec :=
  match p.form with
  | 0 => BitVec.ofNat 4096 (p.data.toNat % 2 ^ (8 * p.n))
  | 1 => (sext p.data.toNat (8 * p.n)).setWidth 4096
  | 3 => broadcast 4 p.data.toNat
  | _ => p.data

/-- A destination marked as poisoned (R420). -/
def State.poisonDest (s : State) (c : CoreId) (k : Fin 4) (dest : Dest) (src : Nat) : State :=
  let onR (f : Regs → Regs) : State := s.updFrameAt c k fun x => { x with r := f x.r }
  match dest with
  | .s r => if r = 0 then s else onR fun x => { x with sPoison := x.sPoison ++ [(r, src)] }
  | .rs off => s.addPoison (s.rsPa c k off) 512 src
  | .lent off => s.addPoison (lentPa (s.frameAt c k) off) 512 src
  | .ofe n => onR fun x => { x with oPoison := x.oPoison ++ [(n, src)] }
  | .ofHead n tag =>
    let mark (q : Stream) : Stream :=
      { q with queue := updWhere (fun e => e.tag == tag) (fun e => { e with fault := some { cause := Cause.dataPoison, src := src } }) q.queue }
    if h : n < 16 then (onR fun x => { x with streams := x.streams.set n (mark (x.streams.get ⟨n, h⟩)) h }).updCore c (·.landOut k n mark)
    else s
  | .bp => onR fun x => { x with bpPoison := some src }
  | _ => s

/-- A pending load lands (R141, R229): its destination is written, its latch records it, poison marks it; a load whose
window bytes have not all arrived stays. -/
def State.landLoad (s : State) (c : CoreId) (k : Fin 4) (id : Nat) : State :=
  match (s.frameAt c k).loads.find? fun p => p.id == id && p.parts == 0 with
  | none => s
  | some p =>
    let s := s.updFrameAt c k fun f => { f with loads := dropFirst (· == p) f.loads }
    -- the mark goes before the value so that a stream element still carries its tag
    let mark (s : State) : State := match p.poison with
      | some src => if p.ben = 0 then s else s.poisonDest c k p.dest src
      | none => s
    let s := match p.dest with
      | .ofHead _ _ => mark s
      | _ => s
    let s := s.complete c k { due := s.cyc c - 1, dest := p.dest, ben := p.ben, data := p.value, lat := p.lat }
    match p.dest with
    | .ofHead _ _ => s
    | _ => mark s

/-- LOAD_COMPLETE (R141). -/
def execLoadComplete (s : State) : Out := .next (s.landLoad s.arg.c s.arg.k s.arg.id)
/-- VECTOR_LOAD_LAND (R229). -/
def execVectorLoadLand (s : State) : Out := .next (s.landLoad s.arg.c s.arg.k s.arg.id)

/-- The bundles at the addresses, as far as they can be fetched under the table and address space of the operation that asked, with the
translations cached (R260). -/
def fetchAll (s : State) (x : Arg) : List Word → List (Nat × Bundle) × State
  | [] => ([], s)
  | a :: as => match fetchUnder s x.c x.k x.w1 x.h a with
    | .error _ => fetchAll s x as
    | .ok (b, w) =>
      let r := fetchAll (s.learnFetch x.c w) x as
      ((a.toNat, b) :: r.1, r.2)

/-- PREP_FETCH_COMPLETE (R147): the entry holds T and T + 16; a fetch that failed leaves the transfer to fetch T. -/
def execPrepFetchComplete (s : State) : Out :=
  let c := s.arg.c
  let k := s.arg.k
  let a := s.arg.w0
  if h : s.arg.u < 8 then
    let t := (s.frameAt c k).ctl.tg.get ⟨s.arg.u, h⟩
    if t.valid && t.addr == a then
      let (code, w) := fetchAll s s.arg [a, a + 16]
      .next (w.updFrameAt c k fun f =>
        { f with ctl := { f.ctl with tg := f.ctl.tg.set s.arg.u { t with filled := true, code := code } h } })
    else .next s
  else .next s

/-- LOOP_BUFFER_FILL (R159): the four bundles that a back edge or an exit may need. -/
def execLoopBufferFill (s : State) : Out :=
  let c := s.arg.c
  let k := s.arg.k
  if h : s.arg.u < 6 then
    let x := (s.frameAt c k).ctl.lv.get ⟨s.arg.u, h⟩
    if x.lstart = s.arg.w0 + 16 then
      let (code, w) := fetchAll s s.arg [x.lstart, x.lstart + 16, x.lstop + 16, x.lstop + 32]
      .next (w.updFrameAt c k fun f =>
        { f with ctl := { f.ctl with lv := f.ctl.lv.set s.arg.u { x with filled := true, buf := code } h } })
    else .next s
  else .next s

/-- BUNDLE_FETCH (R153): the bundle that a refetch waits for is in the sequencer. -/
def execBundleFetch (s : State) : Out :=
  .next (s.updFrameAt s.arg.c s.arg.k fun f =>
    if f.ctl.notBefore = s.arg.id then { f with ctl := { f.ctl with refetch := false } } else f)

/-- TRAP_ENTRY (R271, R272): the oldest trap due on the running task is taken at this boundary; a TRAP's bundle issued in the cycle
before. -/
def execTrapEntry (s : State) : Out :=
  match s.fr.tr.due with
  | [] => .next s
  | t :: ts => .next ((s.updFr fun f => { f with tr := { f.tr with due := ts } }).takeTrapAt s.cur s.here.run t s.fr.ctl.pc
      (if t.async then 0 else 1))

end Sys2Proof.Machine
end

