-- ==== Sys2Proof/Machine/Dispatch.lean ====
section
/-! DEFINITION. One arm per constructor of Instr: a direct call of its meaning. -/

namespace Sys2Proof.Machine

open Sys2Proof

def exec (i : Instr) (s : State) : Host.Outcome State Fault Refusal :=
  match i with
  | .bundleIssue => Sys2Proof.Machine.execBundleIssue s
  | .resultComplete => Sys2Proof.Machine.execResultComplete s
  | .loadComplete => Sys2Proof.Machine.execLoadComplete s
  | .prepFetchComplete => Sys2Proof.Machine.execPrepFetchComplete s
  | .loopBufferFill => Sys2Proof.Machine.execLoopBufferFill s
  | .trapEntry => Sys2Proof.Machine.execTrapEntry s
  | .matrixOpStart => Sys2Proof.Machine.execMatrixOpStart s
  | .matrixOpComplete => Sys2Proof.Machine.execMatrixOpComplete s
  | .tileFetchLand => Sys2Proof.Machine.execTileFetchLand s
  | .tileFetchFault => Sys2Proof.Machine.execTileFetchFault s
  | .tileStorePerformed => Sys2Proof.Machine.execTileStorePerformed s
  | .nestBundleIssue => Sys2Proof.Machine.execNestBundleIssue s
  | .nestEnd => Sys2Proof.Machine.execNestEnd s
  | .copyPiecePerformed => Sys2Proof.Machine.execCopyPiecePerformed s
  | .copyComplete => Sys2Proof.Machine.execCopyComplete s
  | .engineFault => Sys2Proof.Machine.execEngineFault s
  | .multicastPieceLand => Sys2Proof.Machine.execMulticastPieceLand s
  | .streamFillArrive => Sys2Proof.Machine.execStreamFillArrive s
  | .streamDrainWrite => Sys2Proof.Machine.execStreamDrainWrite s
  | .barrierArrival => Sys2Proof.Machine.execBarrierArrival s
  | .eventRecordPost => Sys2Proof.Machine.execEventRecordPost s
  | .windowAccessArrive => Sys2Proof.Machine.execWindowAccessArrive s
  | .tableWalk => Sys2Proof.Machine.execTableWalk s
  | .taskPlace => Sys2Proof.Machine.execTaskPlace s
  | .lentWindowZeroed => Sys2Proof.Machine.execLentWindowZeroed s
  | .swthrExpiry => Sys2Proof.Machine.execSwthrExpiry s
  | .sliceExpiry => Sys2Proof.Machine.execSliceExpiry s
  | .taskComplete => Sys2Proof.Machine.execTaskComplete s
  | .completionRecordWrite => Sys2Proof.Machine.execCompletionRecordWrite s
  | .errorToken => Sys2Proof.Machine.execErrorToken s
  | .deadlineExpiry => Sys2Proof.Machine.execDeadlineExpiry s
  | .priorityAging => Sys2Proof.Machine.execPriorityAging s
  | .h3waitExpiry => Sys2Proof.Machine.execH3waitExpiry s
  | .stealRequest => Sys2Proof.Machine.execStealRequest s
  | .stealBackoffExpiry => Sys2Proof.Machine.execStealBackoffExpiry s
  | .gangStart => Sys2Proof.Machine.execGangStart s
  | .scheduleSelect => Sys2Proof.Machine.execScheduleSelect s
  | .transferWindowOpen => Sys2Proof.Machine.execTransferWindowOpen s
  | .transferWindowClose => Sys2Proof.Machine.execTransferWindowClose s
  | .gangCut => Sys2Proof.Machine.execGangCut s
  | .gangGraceExpiry => Sys2Proof.Machine.execGangGraceExpiry s
  | .gsliceExpiry => Sys2Proof.Machine.execGsliceExpiry s
  | .gangResume => Sys2Proof.Machine.execGangResume s
  | .preemptTask => Sys2Proof.Machine.execPreemptTask s
  | .contextSave => Sys2Proof.Machine.execContextSave s
  | .contextRestore => Sys2Proof.Machine.execContextRestore s
  | .hungExpiry => Sys2Proof.Machine.execHungExpiry s
  | .handleFillAllocation => Sys2Proof.Machine.execHandleFillAllocation s
  | .evictorVictim => Sys2Proof.Machine.execEvictorVictim s
  | .handleFillComplete => Sys2Proof.Machine.execHandleFillComplete s
  | .handleFillFault => Sys2Proof.Machine.execHandleFillFault s
  | .evictionDrainComplete => Sys2Proof.Machine.execEvictionDrainComplete s
  | .handleFlip => Sys2Proof.Machine.execHandleFlip s
  | .pinWaitRetry => Sys2Proof.Machine.execPinWaitRetry s
  | .hwaitExpiry => Sys2Proof.Machine.execHwaitExpiry s
  | .rgraceExpiry => Sys2Proof.Machine.execRgraceExpiry s
  | .pinwaitExpiry => Sys2Proof.Machine.execPinwaitExpiry s
  | .lanternSubmission => Sys2Proof.Machine.execLanternSubmission s
  | .lanternPrefetchSend => Sys2Proof.Machine.execLanternPrefetchSend s
  | .lanternAgeExpiry => Sys2Proof.Machine.execLanternAgeExpiry s
  | .ingressAppend => Sys2Proof.Machine.execIngressAppend s
  | .dispatchComplete => Sys2Proof.Machine.execDispatchComplete s
  | .snsaveComplete => Sys2Proof.Machine.execSnsaveComplete s
  | .snloadComplete => Sys2Proof.Machine.execSnloadComplete s
  | .snapshotEngineFault => Sys2Proof.Machine.execSnapshotEngineFault s
  | .snapshotEvict => Sys2Proof.Machine.execSnapshotEvict s
  | .pxctlClr => Sys2Proof.Machine.execPxctlClr s
  | .queueDoorbell => Sys2Proof.Machine.execQueueDoorbell s
  | .submissionEntryStart => Sys2Proof.Machine.execSubmissionEntryStart s
  | .nopc => Sys2Proof.Machine.execNopc s
  | .launch => Sys2Proof.Machine.execLaunch s
  | .launchi => Sys2Proof.Machine.execLaunchi s
  | .gang => Sys2Proof.Machine.execGang s
  | .wait => Sys2Proof.Machine.execWait s
  | .loopc => Sys2Proof.Machine.execLoopc s
  | .ifc => Sys2Proof.Machine.execIfc s
  | .write => Sys2Proof.Machine.execWrite s
  | .signal => Sys2Proof.Machine.execSignal s
  | .chain => Sys2Proof.Machine.execChain s
  | .endC => Sys2Proof.Machine.execEndC s
  | .qackResume => Sys2Proof.Machine.execQackResume s
  | .qackDiscard => Sys2Proof.Machine.execQackDiscard s
  | .preemptGo => Sys2Proof.Machine.execPreemptGo s
  | .registerWrite => Sys2Proof.Machine.execRegisterWrite s
  | .hostWindowAccess => Sys2Proof.Machine.execHostWindowAccess s
  | .hwmapWrite => Sys2Proof.Machine.execHwmapWrite s
  | .hctlQuiesce => Sys2Proof.Machine.execHctlQuiesce s
  | .hctlQuiesceComplete => Sys2Proof.Machine.execHctlQuiesceComplete s
  | .hctlUnquiesce => Sys2Proof.Machine.execHctlUnquiesce s
  | .hctlRemap => Sys2Proof.Machine.execHctlRemap s
  | .hctlRemapComplete => Sys2Proof.Machine.execHctlRemapComplete s
  | .hctlClrstat => Sys2Proof.Machine.execHctlClrstat s
  | .hbmActivation => Sys2Proof.Machine.execHbmActivation s
  | .trackerReset => Sys2Proof.Machine.execTrackerReset s
  | .hbmUncorrectable => Sys2Proof.Machine.execHbmUncorrectable s
  | .llcpartWrite => Sys2Proof.Machine.execLlcpartWrite s
  | .formatWindowWrite => Sys2Proof.Machine.execFormatWindowWrite s
  | .hsetGo => Sys2Proof.Machine.execHsetGo s
  | .nolnusRead => Sys2Proof.Machine.execNolnusRead s
  | .nolnusWrite => Sys2Proof.Machine.execNolnusWrite s
  | .nolnusAlloc => Sys2Proof.Machine.execNolnusAlloc s
  | .nolnusFree => Sys2Proof.Machine.execNolnusFree s
  | .nolnusDigest => Sys2Proof.Machine.execNolnusDigest s
  | .nolnusReloc => Sys2Proof.Machine.execNolnusReloc s
  | .readDisturbRelocation => Sys2Proof.Machine.execReadDisturbRelocation s
  | .wearLevelMove => Sys2Proof.Machine.execWearLevelMove s
  | .flashProgramFailure => Sys2Proof.Machine.execFlashProgramFailure s
  | .flashUncorrectable => Sys2Proof.Machine.execFlashUncorrectable s
  | .loaderGo => Sys2Proof.Machine.execLoaderGo s
  | .loaderAbort => Sys2Proof.Machine.execLoaderAbort s
  | .stagetExpiry => Sys2Proof.Machine.execStagetExpiry s
  | .loaderFlip => Sys2Proof.Machine.execLoaderFlip s
  | .draintExpiry => Sys2Proof.Machine.execDraintExpiry s
  | .mapnextInstall => Sys2Proof.Machine.execMapnextInstall s
  | .migrationFill => Sys2Proof.Machine.execMigrationFill s
  | .mapRetire => Sys2Proof.Machine.execMapRetire s
  | .boostBoundary => Sys2Proof.Machine.execBoostBoundary s
  | .sensorSample => Sys2Proof.Machine.execSensorSample s
  | .throttleRecover => Sys2Proof.Machine.execThrottleRecover s
  | .currentLimitRecover => Sys2Proof.Machine.execCurrentLimitRecover s
  | .pwcmdSave => Sys2Proof.Machine.execPwcmdSave s
  | .emergencySaveComplete => Sys2Proof.Machine.execEmergencySaveComplete s
  | .hardTrip => Sys2Proof.Machine.execHardTrip s
  | .moduleReset => Sys2Proof.Machine.execModuleReset s
  | .psreqWrite => Sys2Proof.Machine.execPsreqWrite s
  | .powerUp => Sys2Proof.Machine.execPowerUp s
  | .clrhold => Sys2Proof.Machine.execClrhold s
  | .clrsusp => Sys2Proof.Machine.execClrsusp s
  | .attest => Sys2Proof.Machine.execAttest s
  | .keyadd => Sys2Proof.Machine.execKeyadd s
  | .keyrevoke => Sys2Proof.Machine.execKeyrevoke s
  | .debugAuth => Sys2Proof.Machine.execDebugAuth s
  | .secure => Sys2Proof.Machine.execSecure s
  | .decommission => Sys2Proof.Machine.execDecommission s
  | .ownershipClaim => Sys2Proof.Machine.execOwnershipClaim s
  | .attestationRequest => Sys2Proof.Machine.execAttestationRequest s
  | .ownleaseRenew => Sys2Proof.Machine.execOwnleaseRenew s
  | .ownhand => Sys2Proof.Machine.execOwnhand s
  | .leaseExpiry => Sys2Proof.Machine.execLeaseExpiry s
  | .handoverLapse => Sys2Proof.Machine.execHandoverLapse s
  | .netWrite => Sys2Proof.Machine.execNetWrite s
  | .netRead => Sys2Proof.Machine.execNetRead s
  | .netSend => Sys2Proof.Machine.execNetSend s
  | .flitCrcFail => Sys2Proof.Machine.execFlitCrcFail s
  | .nop => Sys2Proof.Machine.execNop s
  | .add p n d a b => Sys2Proof.Machine.execAdd p n d a b s
  | .sub p n d a b => Sys2Proof.Machine.execSub p n d a b s
  | .mul p n d a b => Sys2Proof.Machine.execMul p n d a b s
  | .mulh p n d a b => Sys2Proof.Machine.execMulh p n d a b s
  | .mulhn p n d a b => Sys2Proof.Machine.execMulhn p n d a b s
  | .div p n d a b => Sys2Proof.Machine.execDiv p n d a b s
  | .divn p n d a b => Sys2Proof.Machine.execDivn p n d a b s
  | .rem p n d a b => Sys2Proof.Machine.execRem p n d a b s
  | .remn p n d a b => Sys2Proof.Machine.execRemn p n d a b s
  | .andR p n d a b => Sys2Proof.Machine.execAndR p n d a b s
  | .orR p n d a b => Sys2Proof.Machine.execOrR p n d a b s
  | .xor p n d a b => Sys2Proof.Machine.execXor p n d a b s
  | .andn p n d a b => Sys2Proof.Machine.execAndn p n d a b s
  | .shl p n d a b => Sys2Proof.Machine.execShl p n d a b s
  | .shr p n d a b => Sys2Proof.Machine.execShr p n d a b s
  | .sar p n d a b => Sys2Proof.Machine.execSar p n d a b s
  | .rotr p n d a b => Sys2Proof.Machine.execRotr p n d a b s
  | .min p n d a b => Sys2Proof.Machine.execMin p n d a b s
  | .max p n d a b => Sys2Proof.Machine.execMax p n d a b s
  | .minn p n d a b => Sys2Proof.Machine.execMinn p n d a b s
  | .maxn p n d a b => Sys2Proof.Machine.execMaxn p n d a b s
  | .clz p n d a => Sys2Proof.Machine.execClz p n d a s
  | .popc p n d a => Sys2Proof.Machine.execPopc p n d a s
  | .abs p n d a => Sys2Proof.Machine.execAbs p n d a s
  | .ext p n d a b => Sys2Proof.Machine.execExt p n d a b s
  | .ins p n d a b => Sys2Proof.Machine.execIns p n d a b s
  | .lea1 p n d a b => Sys2Proof.Machine.execLea1 p n d a b s
  | .lea2 p n d a b => Sys2Proof.Machine.execLea2 p n d a b s
  | .lea4 p n d a b => Sys2Proof.Machine.execLea4 p n d a b s
  | .lea8 p n d a b => Sys2Proof.Machine.execLea8 p n d a b s
  | .mov p n d a => Sys2Proof.Machine.execMov p n d a s
  | .cmp p c d a b => Sys2Proof.Machine.execCmp p c d a b s
  | .addi p n d a imm => Sys2Proof.Machine.execAddi p n d a imm s
  | .muli p n d a imm => Sys2Proof.Machine.execMuli p n d a imm s
  | .andi p n d a imm => Sys2Proof.Machine.execAndi p n d a imm s
  | .ori p n d a imm => Sys2Proof.Machine.execOri p n d a imm s
  | .xori p n d a imm => Sys2Proof.Machine.execXori p n d a imm s
  | .shli p n d a imm => Sys2Proof.Machine.execShli p n d a imm s
  | .shri p n d a imm => Sys2Proof.Machine.execShri p n d a imm s
  | .sari p n d a imm => Sys2Proof.Machine.execSari p n d a imm s
  | .movi p n d imm => Sys2Proof.Machine.execMovi p n d imm s
  | .movhi p n d a imm => Sys2Proof.Machine.execMovhi p n d a imm s
  | .cmpi p c d a imm => Sys2Proof.Machine.execCmpi p c d a imm s
  | .lds p w n d a o m => Sys2Proof.Machine.execLds p w n d a o m s
  | .sts p w d a o m => Sys2Proof.Machine.execSts p w d a o m s
  | .vset p v a => Sys2Proof.Machine.execVset p v a s
  | .vget p n d v => Sys2Proof.Machine.execVget p n d v s
  | .csrr p n d c => Sys2Proof.Machine.execCsrr p n d c s
  | .csrw p h a l => Sys2Proof.Machine.execCsrw p h a l s
  | .trap p t => Sys2Proof.Machine.execTrap p t s
  | .tret p => Sys2Proof.Machine.execTret p s
  | .dchk p a b => Sys2Proof.Machine.execDchk p a b s
  | .dchkV p a b => Sys2Proof.Machine.execDchkV p a b s
  | .dchkA p a b => Sys2Proof.Machine.execDchkA p a b s
  | .join p n d a => Sys2Proof.Machine.execJoin p n d a s
  | .leave p a => Sys2Proof.Machine.execLeave p a s
  | .yield p => Sys2Proof.Machine.execYield p s
  | .yieldEv p => Sys2Proof.Machine.execYieldEv p s
  | .step p a => Sys2Proof.Machine.execStep p a s
  | .mirror p e a => Sys2Proof.Machine.execMirror p e a s
  | .prep p t imm => Sys2Proof.Machine.execPrep p t imm s
  | .xfer p t => Sys2Proof.Machine.execXfer p t s
  | .xfere p t w => Sys2Proof.Machine.execXfere p t w s
  | .xfera p t w => Sys2Proof.Machine.execXfera p t w s
  | .call p t l => Sys2Proof.Machine.execCall p t l s
  | .ret p a => Sys2Proof.Machine.execRet p a s
  | .halt p => Sys2Proof.Machine.execHalt p s
  | .loop p c o => Sys2Proof.Machine.execLoop p c o s
  | .loops p c sf o => Sys2Proof.Machine.execLoops p c sf o s
  | .lbrk p => Sys2Proof.Machine.execLbrk p s
  | .lbrkD p => Sys2Proof.Machine.execLbrkD p s
  | .pand p d a b => Sys2Proof.Machine.execPand p d a b s
  | .por p d a b => Sys2Proof.Machine.execPor p d a b s
  | .pxor p d a b => Sys2Proof.Machine.execPxor p d a b s
  | .pnot p d a => Sys2Proof.Machine.execPnot p d a s
  | .pmov p d a => Sys2Proof.Machine.execPmov p d a s
  | .pall p d a w => Sys2Proof.Machine.execPall p d a w s
  | .pany p d a w => Sys2Proof.Machine.execPany p d a w s
  | .mpush p a => Sys2Proof.Machine.execMpush p a s
  | .mpushIn p a => Sys2Proof.Machine.execMpushIn p a s
  | .minv p => Sys2Proof.Machine.execMinv p s
  | .mpop p => Sys2Proof.Machine.execMpop p s
  | .mget p d => Sys2Proof.Machine.execMget p d s
  | .vadd p t n d a b => Sys2Proof.Machine.execVadd p t n d a b s
  | .vsub p t n d a b => Sys2Proof.Machine.execVsub p t n d a b s
  | .vmul p t n d a b => Sys2Proof.Machine.execVmul p t n d a b s
  | .vfma p t n d a b => Sys2Proof.Machine.execVfma p t n d a b s
  | .vmin p t n d a b => Sys2Proof.Machine.execVmin p t n d a b s
  | .vmax p t n d a b => Sys2Proof.Machine.execVmax p t n d a b s
  | .vneg p t n d a => Sys2Proof.Machine.execVneg p t n d a s
  | .vabs p t n d a => Sys2Proof.Machine.execVabs p t n d a s
  | .vcmp p c t d a b => Sys2Proof.Machine.execVcmp p c t d a b s
  | .vsel p n d a b => Sys2Proof.Machine.execVsel p n d a b s
  | .vand p n d a b => Sys2Proof.Machine.execVand p n d a b s
  | .vor p n d a b => Sys2Proof.Machine.execVor p n d a b s
  | .vxor p n d a b => Sys2Proof.Machine.execVxor p n d a b s
  | .vshl p n d a b => Sys2Proof.Machine.execVshl p n d a b s
  | .vshr p n d a b => Sys2Proof.Machine.execVshr p n d a b s
  | .vsar p n d a b => Sys2Proof.Machine.execVsar p n d a b s
  | .vmov p n d a => Sys2Proof.Machine.execVmov p n d a s
  | .vcvt p n d a k h => Sys2Proof.Machine.execVcvt p n d a k h s
  | .vcvtz p n d a k h => Sys2Proof.Machine.execVcvtz p n d a k h s
  | .vpack8 p n d a z t q => Sys2Proof.Machine.execVpack8 p n d a z t q s
  | .vunpk8 p n d a t q => Sys2Proof.Machine.execVunpk8 p n d a t q s
  | .vqnt4 p n d a t => Sys2Proof.Machine.execVqnt4 p n d a t s
  | .vdq4 p n d a h f => Sys2Proof.Machine.execVdq4 p n d a h f s
  | .vrcp p n d a => Sys2Proof.Machine.execVrcp p n d a s
  | .vrsq p n d a => Sys2Proof.Machine.execVrsq p n d a s
  | .vexp2 p n d a => Sys2Proof.Machine.execVexp2 p n d a s
  | .vlog2 p n d a => Sys2Proof.Machine.execVlog2 p n d a s
  | .vtanh p n d a => Sys2Proof.Machine.execVtanh p n d a s
  | .vsigm p n d a => Sys2Proof.Machine.execVsigm p n d a s
  | .vsin p n d a => Sys2Proof.Machine.execVsin p n d a s
  | .vcos p n d a => Sys2Proof.Machine.execVcos p n d a s
  | .vredAdd p n d a t => Sys2Proof.Machine.execVredAdd p n d a t s
  | .vredMax p n d a t => Sys2Proof.Machine.execVredMax p n d a t s
  | .vredMin p n d a t => Sys2Proof.Machine.execVredMin p n d a t s
  | .vscanAdd p n d a t => Sys2Proof.Machine.execVscanAdd p n d a t s
  | .vtopk p n d a k => Sys2Proof.Machine.execVtopk p n d a k s
  | .vgmax p n d a g => Sys2Proof.Machine.execVgmax p n d a g s
  | .vperm p n d a b => Sys2Proof.Machine.execVperm p n d a b s
  | .viota p n d a => Sys2Proof.Machine.execViota p n d a s
  | .vbcast p n d a b => Sys2Proof.Machine.execVbcast p n d a b s
  | .vextr p n d a b => Sys2Proof.Machine.execVextr p n d a b s
  | .vmkc p d a w => Sys2Proof.Machine.execVmkc p d a w s
  | .mmaAcc p f d a b => Sys2Proof.Machine.execMmaAcc p f d a b s
  | .mmaOvw p f d a b => Sys2Proof.Machine.execMmaOvw p f d a b s
  | .mmaDec p f d a b => Sys2Proof.Machine.execMmaDec p f d a b s
  | .mdecay p a => Sys2Proof.Machine.execMdecay p a s
  | .mzero p d => Sys2Proof.Machine.execMzero p d s
  | .mcvt p d a z t => Sys2Proof.Machine.execMcvt p d a z t s
  | .mtrn p d a => Sys2Proof.Machine.execMtrn p d a s
  | .mldt p d a b => Sys2Proof.Machine.execMldt p d a b s
  | .mrel p t => Sys2Proof.Machine.execMrel p t s
  | .mstt p d a b => Sys2Proof.Machine.execMstt p d a b s
  | .mnest p l => Sys2Proof.Machine.execMnest p l s
  | .mnwaitN p => Sys2Proof.Machine.execMnwaitN p s
  | .mnwaitT p => Sys2Proof.Machine.execMnwaitT p s
  | .mnwaitNt p => Sys2Proof.Machine.execMnwaitNt p s
  | .mrag p a => Sys2Proof.Machine.execMrag p a s
  | .mscale p d a b => Sys2Proof.Machine.execMscale p d a b s
  | .ldv p d a o m => Sys2Proof.Machine.execLdv p d a o m s
  | .stv p d a o m => Sys2Proof.Machine.execStv p d a o m s
  | .ldvg p d a b => Sys2Proof.Machine.execLdvg p d a b s
  | .stvs p d a b => Sys2Proof.Machine.execStvs p d a b s
  | .ldvb p d a o m => Sys2Proof.Machine.execLdvb p d a o m s
  | .aadd p d a o m => Sys2Proof.Machine.execAadd p d a o m s
  | .amin p d a o m => Sys2Proof.Machine.execAmin p d a o m s
  | .amax p d a o m => Sys2Proof.Machine.execAmax p d a o m s
  | .aand p d a o m => Sys2Proof.Machine.execAand p d a o m s
  | .aor p d a o m => Sys2Proof.Machine.execAor p d a o m s
  | .axch p d a o m => Sys2Proof.Machine.execAxch p d a o m s
  | .acas p d a o m => Sys2Proof.Machine.execAcas p d a o m s
  | .aaddf p d a o m => Sys2Proof.Machine.execAaddf p d a o m s
  | .vaadd p d a b => Sys2Proof.Machine.execVaadd p d a b s
  | .fence p k => Sys2Proof.Machine.execFence p k s
  | .acq p sf => Sys2Proof.Machine.execAcq p sf s
  | .rel p sf => Sys2Proof.Machine.execRel p sf s
  | .flush p sf a b => Sys2Proof.Machine.execFlush p sf a b s
  | .invl p a b => Sys2Proof.Machine.execInvl p a b s
  | .cpy p d a b => Sys2Proof.Machine.execCpy p d a b s
  | .cpym p d a b => Sys2Proof.Machine.execCpym p d a b s
  | .cpyw p d a b => Sys2Proof.Machine.execCpyw p d a b s
  | .sbind p d a m q => Sys2Proof.Machine.execSbind p d a m q s
  | .sunb p d => Sys2Proof.Machine.execSunb p d s
  | .sdrn p d => Sys2Proof.Machine.execSdrn p d s
  | .owntCore p a b => Sys2Proof.Machine.execOwntCore p a b s
  | .owntEng p a b => Sys2Proof.Machine.execOwntEng p a b s
  | .owntF p a b => Sys2Proof.Machine.execOwntF p a b s
  | .ownw p a b => Sys2Proof.Machine.execOwnw p a b s
  | .evpop p d => Sys2Proof.Machine.execEvpop p d s
  | .evpost p a b => Sys2Proof.Machine.execEvpost p a b s
  | .bara p b => Sys2Proof.Machine.execBara p b s
  | .barw p b => Sys2Proof.Machine.execBarw p b s
  | .barx p d a b => Sys2Proof.Machine.execBarx p d a b s
  | .whpre p a => Sys2Proof.Machine.execWhpre p a s
  | .whwait p d a => Sys2Proof.Machine.execWhwait p d a s
  | .whpin p d a => Sys2Proof.Machine.execWhpin p d a s
  | .whunp p a => Sys2Proof.Machine.execWhunp p a s
  | .whqry p d a => Sys2Proof.Machine.execWhqry p d a s
  | .whmap p d a => Sys2Proof.Machine.execWhmap p d a s
  | .snlook p d a => Sys2Proof.Machine.execSnlook p d a s
  | .snsave p a b => Sys2Proof.Machine.execSnsave p a b s
  | .snload p a b => Sys2Proof.Machine.execSnload p a b s
  | .snrel p a => Sys2Proof.Machine.execSnrel p a s
  | .snhash p d a b => Sys2Proof.Machine.execSnhash p d a b s
  | .rtpred p a b => Sys2Proof.Machine.execRtpred p a b s
  | .rtdisp p a b => Sys2Proof.Machine.execRtdisp p a b s
  | .tinvr p d a b => Sys2Proof.Machine.execTinvr p d a b s
  | .tinva p a => Sys2Proof.Machine.execTinva p a s
  | .prfl p l a o m => Sys2Proof.Machine.execPrfl p l a o m s
  | .l1WriteBack => Sys2Proof.Machine.execL1WriteBack s
  | .atomicComplete => Sys2Proof.Machine.execAtomicComplete s
  | .vectorLoadLand => Sys2Proof.Machine.execVectorLoadLand s
  | .sramUncorrectable => Sys2Proof.Machine.execSramUncorrectable s
  | .nolnusCommandDone => Sys2Proof.Machine.execNolnusCommandDone s
  | .bundleFetch => Sys2Proof.Machine.execBundleFetch s

end Sys2Proof.Machine
end

