-- ==== Sys2Proof/Machine/Schedule.lean ====
section
/-! DEFINITION. What moves next: the package's due events before the cores, the cores of a tick in order, and in each core what has
come to its cycle, then its sequencer (R8, R65, R271, R285, R290, R292, R331). Log 5 gives the order among parties. -/

namespace Sys2Proof.Machine

open Sys2Proof

/-- The next thing to happen. -/
inductive Move where
  | package (e : Event) | core (c : CoreId) (e : Event) | result (c : CoreId) (k : Fin 4) | trap (c : CoreId) | nest (c : CoreId)
  | switch (c : CoreId) (j : Fin 4) | swthr (c : CoreId) | slice (c : CoreId) | bundle (c : CoreId) | tick
  deriving DecidableEq, Repr, Inhabited

/-- The rank of an event among those that fall due together: in a core, window accesses, then loads, then the rest (R22, R126); in the
package the order of R331 and R354, and claims by ascending master (R469). -/
def Event.rank (e : Event) : Nat :=
  match e.row with
  | .windowAccessArrive | .handleFillComplete | .handleFillFault => 0
  | .snsaveComplete => if e.arg.u = 1 then 10 else 0
  | .handleFlip | .loadComplete | .vectorLoadLand => 1
  | .ownershipClaim => match e.arg.m with
    | .host => 2
    | .peer => 3
    | .mgmt => 4
    | .core => 5
  | .lanternPrefetchSend => 6
  | .pinWaitRetry => if e.arg.u = 1 then 0 else 7
  | .evictorVictim => 8
  | .handleFillAllocation => 9
  | .snapshotEvict => 11
  | .pxctlClr => 12
  | _ => 2

/-- Whether the package's engines apply an event after what the cores of the tick do: prefetches, the choices of victims, and the holds of saves
(R331, R352, R354). -/
def Event.late (e : Event) : Bool := decide (6 ≤ e.rank)

/-- When something falls due: its time, its rank then, and for a result or load its place in the order of issue. -/
abbrev Due := Nat × Nat × Nat
/-- Whether a thing falls due before another. -/
def Due.before (a b : Due) : Bool := a.1 < b.1 || (a.1 == b.1 && (a.2.1 < b.2.1 || (a.2.1 == b.2.1 && a.2.2 < b.2.2)))
/-- When an event falls due. -/
def Event.due (e : Event) : Due := (e.at_, e.rank, if e.rank = 1 then e.arg.id else 0)

/-- The first event of a list that satisfies the test, in order of falling due and then of the list. -/
def firstEvent (p : Event → Bool) : List Event → Option Event
  | [] => none
  | e :: es =>
    if p e then match firstEvent p es with
      | some x => if Due.before x.due e.due then some x else some e
      | none => some e
    else firstEvent p es

/-- The slot whose next result completes first, and when: by cycle and order of issue (R22). -/
def Core.firstDue (x : Core) : Option (Due × Fin 4) :=
  allSlots.foldl (fun (best : Option (Due × Fin 4)) k =>
    match firstResult (x.frame k).infl with
    | none => best
    | some r => match best with
      | none => some ((r.due, 1, r.seq), k)
      | some b => if Due.before (r.due, 1, r.seq) b.1 then some ((r.due, 1, r.seq), k) else some b) none

/-- What has come to a core by its cycle, before the cycle's issue: results and loads in order of issue, after the window accesses that
arrive with them and before other events (R22, R64, R65, R126). -/
def State.coreDue (s : State) (c : CoreId) : Option Move :=
  let n := s.cyc c
  let x := s.core c
  let ev := firstEvent (fun e => e.at_ < n) x.events
  match x.firstDue.filter (fun d => d.1.1 < n), ev with
  | some d, some e => if Due.before e.due d.1 then some (.core c e) else some (.result c d.2)
  | some d, none => some (.result c d.2)
  | none, some e => some (.core c e)
  | none, none => none

/-- What the sequencer of a core does in its cycle. A HALT that waits keeps the core to its task (R154, R290); a trap that is due on a task
whose results replay waits for them, and no bundle goes before it (R275). -/
def State.seqMove (s : State) (c : CoreId) : Option Move :=
  let x := s.core c
  let f := x.frame x.run
  if s.nestDue c then some (.nest c)
  else if f.id.valid && f.ctl.halted then none
  else if !f.ready then x.nextReady.map fun j => .switch c j
  else if !f.tr.due.isEmpty then if f.ctl.replay && !f.infl.isEmpty then none else some (.trap c)
  else if s.swthrDue c then some (.swthr c)
  else if s.sliceDue c then some (.slice c)
  else if s.bundleDue c then some (.bundle c)
  else none

/-- The core served at a place of the tick's order: a cluster's priority core first (R285). -/
def State.served (s : State) (i : Nat) : CoreId :=
  let a : CoreId := Fin.ofNat 256 (i / 2 * 2)
  let b : CoreId := Fin.ofNat 256 (i / 2 * 2 + 1)
  if (s.core a).first (s.cyc a) == (i % 2 == 0) then a else b

/-- The next move among the cores from a place on: `n` places are left. -/
def State.coresFrom (s : State) (i : Nat) : Nat → Option (Nat × Move)
  | 0 => none
  | n + 1 =>
    let c := s.served i
    if s.pulse c then
      match s.coreDue c with
      | some m => some (i, m)
      | none => match s.seqMove c with
        | some m => some (i, m)
        | none => s.coresFrom (i + 1) n
    else s.coresFrom (i + 1) n

/-- The next move and the place among the cores at which it stands: accesses that a stack releases, in their order of arrival (R378); the
package's events but the late ones; the cores; the late events. -/
def State.nextMove (s : State) : Nat × Move :=
  match s.freed with
  | (none, e) :: _ => (s.turn, .package e)
  | (some c, e) :: _ => (s.turn, .core c e)
  | [] =>
    match firstEvent (fun e => e.at_ ≤ s.time && !e.late) s.agenda with
    | some e => (s.turn, .package e)
    | none => match s.coresFrom s.turn (256 - s.turn) with
      | some m => m
      | none => match firstEvent (fun e => e.at_ ≤ s.time) s.agenda with
        | some e => (256, .package e)
        | none => (256, .tick)

/-- The row of a move. -/
def Move.row : Move → Instr
  | .package e => e.row
  | .core _ e => e.row
  | .result _ _ => .resultComplete
  | .trap _ => .trapEntry
  | .nest _ => .nestBundleIssue
  | .swthr _ => .swthrExpiry
  | .slice _ => .sliceExpiry
  | _ => .bundleIssue

/-- An event taken off its list: that of the released accesses, or its core's, or the package's. -/
def State.take (s : State) (c : Option CoreId) (e : Event) : State :=
  if s.freed.head? = some (c, e) then { s with freed := s.freed.tail } else
  match c with
  | none => { s with agenda := dropFirst (· == e) s.agenda }
  | some c => s.updCore c fun x => { x with events := dropFirst (· == e) x.events }

/-- The state in which a move's row runs: its operands in place, its event off its list, its core the one that moves; a core that has
issued has had its turn. -/
def State.prepare (s : State) (i : Nat) (m : Move) : State :=
  let s := { s with closed := false }
  match m with
  | .package e => { s.take none e with arg := e.arg, turn := i }
  | .core c e => { s.take (some c) e with cur := c, arg := e.arg, turn := i }
  | .result c k => { s with cur := c, arg := { c := c, k := k }, turn := i }
  | .bundle c => { s with cur := c, arg := { c := c }, turn := i + 1 }
  | .trap c | .nest c | .swthr c | .slice c | .switch c _ => { s with cur := c, arg := { c := c }, turn := i }
  | .tick => s

/-- What met a quiesced stack holds there in order of arrival: an event, or the place of a bundle or of a nest's operation, whose core holds (R378). -/
def State.bar (s : State) (i : Nat) (m : Move) : Option State :=
  match m with
  | .package e => some { s.take none e with barred := s.barred ++ [(none, e)] }
  | .core c e => some { s.take (some c) e with barred := s.barred ++ [(some c, e)] }
  | .nest c => some ({ s.updCore c fun x => { x with nestAt := some (s.cyc c) } with barred := s.barred ++ [s.placeHeld c .nestBundleIssue] })
  | .bundle c => some { (s.prepare i m).held with barred := s.barred ++ [s.placeHeld c .bundleIssue] }
  | _ => none

/-- What a move leaves: its row's next state, unless an access in it met a quiesced stack. -/
def State.conclude (s : State) (i : Nat) (m : Move) (o : Out) : Out :=
  match o with
  | .next t => match (if t.closed then s.bar i m else none) with
    | some u => .next u
    | none => .next { t with closed := false }
  | o => o

/-- Time moves to the next pulse of the master clock; cores that have nothing to run look for it (R310). -/
def State.passTick (s : State) : State := everyCore.foldl State.startSteal { s with time := s.time + 1, turn := 0 }

/-- A bundle of one instruction word and three nops. -/
def wordBundle (w : Nat) : Bundle := 0xE0000000#32 ++ 0xE0000000#32 ++ 0xE0000000#32 ++ BitVec.ofNat 32 w

/-- The page at which a placed instruction stands. -/
def placedAt : Nat := 0x100000

/-- One instruction word placed where the step fetches next: a bundle in memory, and core 0's first slot running a task whose head
bundle it is, with the page's translation in the core's cache (log 11). -/
def State.placeWord (s : State) (w : Nat) : State :=
  let s := { s with mem := Memory.write s.mem placedAt 16 (wordBundle w).toNat }
  s.updCore 0 fun x =>
    { x.updFrame 0 (fun f => { f with id := { f.id with valid := true, codebase := wd placedAt, codelim := wd (placedAt + 16) },
                                      ctl := { f.ctl with pc := wd placedAt } }) with
      run := 0, cond := .active,
      l1tlb := [{ asid := (x.frame 0).sys.asid, va := placedAt, log := 16, pa := placedAt, flags := 0x37#8 }] }

end Sys2Proof.Machine
end

