-- ==== Sys2Proof/Machine/Step.lean ====
section
/-! DEFINITION. The step of the package, and the placing of one instruction where the step fetches (log 11). -/

namespace Sys2Proof.Machine

open Sys2Proof

/-- One step: the next move runs its row; a core turns to another of its tasks; or time passes. -/
def step (s : State) : Host.Outcome State Fault Refusal :=
  match s.nextMove with
  | (_, .tick) => .next s.passTick
  | (i, .switch c j) => .next ((s.prepare i (.switch c j)).switchTo c j)
  | (i, m) => s.conclude i m (exec m.row (s.prepare i m))

/-- `s` with the instruction of the given bits placed where the step fetches its next one. -/
def State.withFetchWord (s : State) (nbits w : Nat) : State := s.placeWord (w % 2 ^ nbits)

end Sys2Proof.Machine
end

