-- ==== Sys2Proof/Safety.lean ====
section
/-! DEFINITION. What the statements about runs speak of: the memory invariant, the conditions under which one operation issues, the
state that its issue leaves, and what a step may leave unchanged. -/

namespace Sys2Proof.Machine

open Sys2Proof

/-- The invariant of every step: home memory is in its canonical form (rising addresses, no entry that reads as an unlisted one). -/
def State.MemOk (s : State) : Prop := Memory.wf s.mem = true

/-- An operation alone in its bundle, in the slot and under the header of the context. -/
def State.alone (s : State) (p : BitVec 3) (cls : Nat) (op : Op) : SlotOp := { ctx := s.ctx, pred := p, cls := cls, op := op }

/-- The energy weight of a bundle that holds one operation of a class (R44). -/
def State.weightOf (s : State) (cls : Nat) : Nat := bundleWeight s.fr.id.ewtab s.ctx.ew s.ctx.hasHdr [cls]

/-- The conditions on state and operands under which an operation alone in its bundle issues: legal bits (R61, R62), its mode, a true
predicate (R64), no operand pending and no foreign matrix work (R141, R204, R290), its banks free of an engine's access that goes ahead and
its bank and hold cycles served (R268, R277, R278), its permits and the energy window (R282, R284). `isOpen`: no access of this step has met
a quiesced stack (R378). -/
structure Ready (s : State) (p : BitVec 3) (cls : Nat) (op : Op) : Prop where
  legal : op.legal s.ctx = true
  mode  : op.priv = true → s.fr.id.mode = true
  pred  : s.fr.pval p.toNat = true
  free  : operandsPending s [s.alone p cls op] = false
  banks : (bankNow s [s.alone p cls op]).any (s.agedBanks s.cur).contains = false
  slow  : slowHold s [s.alone p cls op] ≤ s.fr.ctl.bankHold
  perm  : (s.here.refillTo (s.cyc s.cur)).covers op.mx op.vec op.sfu op.memp = true
  window : s.admits s.cur (s.weightOf cls) = true
  isOpen : s.closed = false

/-- The conditions under which a bundle of one operation with a false predicate issues: the same, but for its operands (R64). -/
structure ReadyOff (s : State) (p : BitVec 3) (cls : Nat) (op : Op) : Prop where
  legal : op.legal s.ctx = true
  mode  : op.priv = true → s.fr.id.mode = true
  pred  : s.fr.pval p.toNat = false
  window : s.admits s.cur (s.weightOf cls) = true
  isOpen : s.closed = false

/-- The state that the issue of a bundle leaves, `w` being the state that its slots worked: its reads' ports taken, permits drawn, weight
logged, the bundle committed (R160, R278, R282, R284). -/
def State.issued (s : State) (cls mx vec sfu memp : Nat) (reads : List Nat) (w : State) : State :=
  ((w.takePorts reads).updCore s.cur fun y => ((y.refillTo (s.cyc s.cur)).draw mx vec sfu memp).logWeight (s.cyc s.cur) (s.weightOf cls)).commit

/-- A slot's instruction is ready to issue alone in its bundle. -/
def SlotReady (i : Instr) (s : State) : Prop :=
  match opOf i with
  | some (p, cls, op) => Ready s p cls op
  | none => False

/-- The state after a slot's instruction has issued alone in its bundle, `w` being the state that its meaning worked; the core has then read the
on-chip bytes that its operands stand in, with the writes that they hold (R111, R113). -/
def State.after (s : State) (i : Instr) (w : State) : State :=
  match opOf i with
  | some (p, cls, op) => s.issued cls op.mx op.vec op.sfu op.memp (bankNow s [s.alone p cls op]) (w.observeUses s [s.alone p cls op])
  | none => w

/-- Wherever the instruction is ready, and no write of it to a mirrored granule finds one of its two banks' ports taken (R29), it completes,
and its own effect is the working state `w`. -/
def CompletesAs (s : State) (i : Instr) (w : State) : Prop :=
  SlotReady i s → mirrorHold s w = false → exec i s = .next (s.after i w)

/-- Wherever the instruction is ready, it takes the trap at its own bundle (R63, R271), with the values of `t` and its slot. -/
def TrapsWith (s : State) (i : Instr) (t : Trap) : Prop :=
  SlotReady i s → exec i s = .next (s.takeTrap { t with slot := s.ctx.slot } s.fr.ctl.pc)

/-- The state after a cycle in which the head bundle holds for something that counts toward a switch: the hold keeps the limit with which it
began (R290, R403). -/
def State.heldLong (s : State) : State :=
  (s.updCtl fun c => { c with swHeld := c.swHeld + 1, swLim := if c.swHeld = 0 then bits s.bel.dpar0 0 32 else c.swLim }).held

/-- No stack is quiesced, so no access is held at a home slice (R378). -/
def State.AllOpen (s : State) : Prop := ∀ pa, s.stackClosed pa = false

/-- No outstanding access of the core must perform before an access of class `oc` to the pieces (R108, R109). -/
def State.FreeFor (s : State) (oc : Nat) (l : List (Seg × Walked)) : Prop := ∀ x ∈ l, s.mustWait s.cur s.nextId oc x.1.pa x.1.len = false

/-- The L2 of the core's die holds no dirty byte of an address. -/
def State.CleanAt (s : State) (b : Nat) : Prop := ∀ e ∈ (s.dies.get (dieOf s.cur)).l2, e.1 ≠ b

/-- A scalar source field that reads without a poison trap (R420). -/
def Readable (s : State) (f : BitVec 6) : Prop := s.fr.r.sPoison.find? (·.1 == f.toNat) = none

/-- The working state of a scalar operation: its result of the latency is in flight to the register, or to the latch alone (R53, R133). -/
def State.scalarOut (s : State) (n : BitVec 1) (d : BitVec 6) (lat : Nat) (v : Word) : State := sResult s.ctx n d lat v s.settled

/-! ## Vector results -/

/-- A 512-byte value has these elements of `b` bytes, as far as their bytes go (R180). -/
def ElementsAre (b : Nat) (r : Vec) (f : Nat → Nat) : Prop := ∀ e, e < 512 / b → lane r (8 * b) e = f e % 2 ^ (8 * b)

/-- Byte enables that follow the active mask in elements of `b` bytes (R25, R181). -/
def FollowsMask (s : State) (b : Nat) (en : Mask) : Prop := ∀ j, j < 512 → en.getLsbD j = s.fr.active.getLsbD (j / b)

/-- Byte enables of the elements from 0 on of `b` bytes that stand from byte `off` on, `n` of them, under the active mask (R181, R186). -/
def FollowsMaskAt (s : State) (b n off : Nat) (en : Mask) : Prop :=
  ∀ j, j < 512 → en.getLsbD j = (decide (off ≤ j) && decide (j < off + n * b) && s.fr.active.getLsbD ((j - off) / b))

/-- A vector instruction completes: whenever its sources can be read, in the order of `srcs`, there are a whole result that is as `res`
says and byte enables that are as `ens` says, and, where the destination takes the result, it enters flight with the latency, recorded by
the unit's latch, and the bundle issues (R180-R182, R53, R66). -/
def VectorGives (s : State) (i : Instr) (lat : Nat) (n : BitVec 1) (d : BitVec 6) (srcs : List VSrc) (res : List Vec → Vec → Prop)
    (ens : Mask → Prop) : Prop :=
  ∀ l seen v, readSrcs s.ctx s srcs ([], s.settled) = .ok (l, seen, v) → ∃ r en, res l r ∧ ens en
    ∧ ∀ u, writeV s.ctx s (vDest s.ctx n d) seen lat en r (some s.ctx.vUnit) v = .ok u → u.closed = s.closed → CompletesAs s i u

end Sys2Proof.Machine
end

