-- ==== Sys2Proof/WellFormed.lean ====
section
/-! DEFINITION. Well-formed instructions: every field holds a value its entry allows, judged by the bits of the slot
alone (R62 step 3). An ill-formed operation is decoded and raises the illegal-instruction trap; an event has no
fields. -/

namespace Sys2Proof

open Sys2Proof.Machine

/-- The fields of an operation are legal. -/
def Instr.wf : Instr → Bool
  | .bundleIssue => true
  | .resultComplete => true
  | .loadComplete => true
  | .prepFetchComplete => true
  | .loopBufferFill => true
  | .trapEntry => true
  | .matrixOpStart => true
  | .matrixOpComplete => true
  | .tileFetchLand => true
  | .tileFetchFault => true
  | .tileStorePerformed => true
  | .nestBundleIssue => true
  | .nestEnd => true
  | .copyPiecePerformed => true
  | .copyComplete => true
  | .engineFault => true
  | .multicastPieceLand => true
  | .streamFillArrive => true
  | .streamDrainWrite => true
  | .barrierArrival => true
  | .eventRecordPost => true
  | .windowAccessArrive => true
  | .tableWalk => true
  | .taskPlace => true
  | .lentWindowZeroed => true
  | .swthrExpiry => true
  | .sliceExpiry => true
  | .taskComplete => true
  | .completionRecordWrite => true
  | .errorToken => true
  | .deadlineExpiry => true
  | .priorityAging => true
  | .h3waitExpiry => true
  | .stealRequest => true
  | .stealBackoffExpiry => true
  | .gangStart => true
  | .scheduleSelect => true
  | .transferWindowOpen => true
  | .transferWindowClose => true
  | .gangCut => true
  | .gangGraceExpiry => true
  | .gsliceExpiry => true
  | .gangResume => true
  | .preemptTask => true
  | .contextSave => true
  | .contextRestore => true
  | .hungExpiry => true
  | .handleFillAllocation => true
  | .evictorVictim => true
  | .handleFillComplete => true
  | .handleFillFault => true
  | .evictionDrainComplete => true
  | .handleFlip => true
  | .pinWaitRetry => true
  | .hwaitExpiry => true
  | .rgraceExpiry => true
  | .pinwaitExpiry => true
  | .lanternSubmission => true
  | .lanternPrefetchSend => true
  | .lanternAgeExpiry => true
  | .ingressAppend => true
  | .dispatchComplete => true
  | .snsaveComplete => true
  | .snloadComplete => true
  | .snapshotEngineFault => true
  | .snapshotEvict => true
  | .pxctlClr => true
  | .queueDoorbell => true
  | .submissionEntryStart => true
  | .nopc => true
  | .launch => true
  | .launchi => true
  | .gang => true
  | .wait => true
  | .loopc => true
  | .ifc => true
  | .write => true
  | .signal => true
  | .chain => true
  | .endC => true
  | .qackResume => true
  | .qackDiscard => true
  | .preemptGo => true
  | .registerWrite => true
  | .hostWindowAccess => true
  | .hwmapWrite => true
  | .hctlQuiesce => true
  | .hctlQuiesceComplete => true
  | .hctlUnquiesce => true
  | .hctlRemap => true
  | .hctlRemapComplete => true
  | .hctlClrstat => true
  | .hbmActivation => true
  | .trackerReset => true
  | .hbmUncorrectable => true
  | .llcpartWrite => true
  | .formatWindowWrite => true
  | .hsetGo => true
  | .nolnusRead => true
  | .nolnusWrite => true
  | .nolnusAlloc => true
  | .nolnusFree => true
  | .nolnusDigest => true
  | .nolnusReloc => true
  | .readDisturbRelocation => true
  | .wearLevelMove => true
  | .flashProgramFailure => true
  | .flashUncorrectable => true
  | .loaderGo => true
  | .loaderAbort => true
  | .stagetExpiry => true
  | .loaderFlip => true
  | .draintExpiry => true
  | .mapnextInstall => true
  | .migrationFill => true
  | .mapRetire => true
  | .boostBoundary => true
  | .sensorSample => true
  | .throttleRecover => true
  | .currentLimitRecover => true
  | .pwcmdSave => true
  | .emergencySaveComplete => true
  | .hardTrip => true
  | .moduleReset => true
  | .psreqWrite => true
  | .powerUp => true
  | .clrhold => true
  | .clrsusp => true
  | .attest => true
  | .keyadd => true
  | .keyrevoke => true
  | .debugAuth => true
  | .secure => true
  | .decommission => true
  | .ownershipClaim => true
  | .attestationRequest => true
  | .ownleaseRenew => true
  | .ownhand => true
  | .leaseExpiry => true
  | .handoverLapse => true
  | .netWrite => true
  | .netRead => true
  | .netSend => true
  | .flitCrcFail => true
  | .nop => true
  | .add _ n d a b => okS3 n d a b
  | .sub _ n d a b => okS3 n d a b
  | .mul _ n d a b => okS3 n d a b
  | .mulh _ n d a b => okS3 n d a b
  | .mulhn _ n d a b => okS3 n d a b
  | .div _ n d a b => okS3 n d a b
  | .divn _ n d a b => okS3 n d a b
  | .rem _ n d a b => okS3 n d a b
  | .remn _ n d a b => okS3 n d a b
  | .andR _ n d a b => okS3 n d a b
  | .orR _ n d a b => okS3 n d a b
  | .xor _ n d a b => okS3 n d a b
  | .andn _ n d a b => okS3 n d a b
  | .shl _ n d a b => okS3 n d a b
  | .shr _ n d a b => okS3 n d a b
  | .sar _ n d a b => okS3 n d a b
  | .rotr _ n d a b => okS3 n d a b
  | .min _ n d a b => okS3 n d a b
  | .max _ n d a b => okS3 n d a b
  | .minn _ n d a b => okS3 n d a b
  | .maxn _ n d a b => okS3 n d a b
  | .clz _ n d a => okS2 n d a
  | .popc _ n d a => okS2 n d a
  | .abs _ n d a => okS2 n d a
  | .ext _ n d a b => okS3 n d a b
  | .ins _ n d a b => okS3 n d a b
  | .lea1 _ n d a b => okS3 n d a b
  | .lea2 _ n d a b => okS3 n d a b
  | .lea4 _ n d a b => okS3 n d a b
  | .lea8 _ n d a b => okS3 n d a b
  | .mov _ n d a => okS2 n d a
  | .cmp _ c d a b => okCmp c d a b
  | .addi _ n d a _ => okS2 n d a
  | .muli _ n d a _ => okS2 n d a
  | .andi _ n d a _ => okS2 n d a
  | .ori _ n d a _ => okS2 n d a
  | .xori _ n d a _ => okS2 n d a
  | .shli _ n d a _ => okS2 n d a
  | .shri _ n d a _ => okS2 n d a
  | .sari _ n d a _ => okS2 n d a
  | .movi _ n d _ => okS1 n d
  | .movhi _ n d a _ => okS2 n d a
  | .cmpi _ c d a _ => okCmpI c d a
  | .lds _ w n d a _ m => okLds w n d a m
  | .sts _ _ d a _ m => okSts d a m
  | .vset _ _ a => sSrc a
  | .vget _ n d _ => okS1 n d
  | .csrr _ n d c => okCsrr n d c
  | .csrw _ h a l => okCsrw h a l
  | .trap _ _ => true
  | .tret _ => true
  | .dchk _ a b => okSS a b
  | .dchkV _ a b => okSS a b
  | .dchkA _ a b => okSS a b
  | .join _ n d a => okS2 n d a
  | .leave _ a => sSrc a
  | .yield _ => true
  | .yieldEv _ => true
  | .step _ a => sSrc a
  | .mirror _ _ a => sSrc a
  | .prep _ _ _ => true
  | .xfer _ _ => true
  | .xfere _ _ w => widthOk w
  | .xfera _ _ w => widthOk w
  | .call _ _ l => sDst l
  | .ret _ a => sSrc a
  | .halt _ => true
  | .loop _ c _ => sSrc c
  | .loops _ c _ _ => sSrc c
  | .lbrk _ => true
  | .lbrkD _ => true
  | .pand _ d _ _ => pDst d
  | .por _ d _ _ => pDst d
  | .pxor _ d _ _ => pDst d
  | .pnot _ d _ => pDst d
  | .pmov _ d _ => pDst d
  | .pall _ d _ w => pDst d && widthOk w
  | .pany _ d _ w => pDst d && widthOk w
  | .mpush _ _ => true
  | .mpushIn _ _ => true
  | .minv _ => true
  | .mpop _ => true
  | .mget _ _ => true
  | .vadd _ _ n d a b => okV3 n d a b
  | .vsub _ _ n d a b => okV3 n d a b
  | .vmul _ _ n d a b => okV3 n d a b
  | .vfma _ _ n d a b => okV3 n d a b
  | .vmin _ _ n d a b => okV3 n d a b
  | .vmax _ _ n d a b => okV3 n d a b
  | .vneg _ _ n d a => okV2 n d a
  | .vabs _ _ n d a => okV2 n d a
  | .vcmp _ c _ _ a b => decide (c.toNat ≤ 5) && vSrc a && vSrc b
  | .vsel _ n d a b => okV3 n d a b
  | .vand _ n d a b => okV3 n d a b
  | .vor _ n d a b => okV3 n d a b
  | .vxor _ n d a b => okV3 n d a b
  | .vshl _ n d a b => okV3 n d a b
  | .vshr _ n d a b => okV3 n d a b
  | .vsar _ n d a b => okV3 n d a b
  | .vmov _ n d a => okV2 n d a
  | .vcvt _ n d a k h => okCvt n d a k h
  | .vcvtz _ n d a k h => okCvt n d a k h
  | .vpack8 _ n d a _ _ _ => okV2 n d a
  | .vunpk8 _ n d a _ _ => okV2 n d a
  | .vqnt4 _ n d a _ => okV2 n d a
  | .vdq4 _ n d a h f => okDq4 n d a h f
  | .vrcp _ n d a => okV2 n d a
  | .vrsq _ n d a => okV2 n d a
  | .vexp2 _ n d a => okV2 n d a
  | .vlog2 _ n d a => okV2 n d a
  | .vtanh _ n d a => okV2 n d a
  | .vsigm _ n d a => okV2 n d a
  | .vsin _ n d a => okV2 n d a
  | .vcos _ n d a => okV2 n d a
  | .vredAdd _ n d a _ => okV2 n d a
  | .vredMax _ n d a _ => okV2 n d a
  | .vredMin _ n d a _ => okV2 n d a
  | .vscanAdd _ n d a t => okScan n d a t
  | .vtopk _ n d a _ => okV2 n d a
  | .vgmax _ n d a g => okGmax n d a g
  | .vperm _ n d a b => okV3 n d a b
  | .viota _ n d a => okV2 n d a
  | .vbcast _ n d a b => okBcast n d a b
  | .vextr _ n d a b => okExtr n d a b
  | .vmkc _ _ a w => okMkc a w
  | .mmaAcc _ _ d a b => okMma d a b
  | .mmaOvw _ _ d a b => okMma d a b
  | .mmaDec _ f d a b => okMma d a b && f != 3
  | .mdecay _ a => okMdecay a
  | .mzero _ d => tileF d
  | .mcvt _ d a _ _ => tileF d && tileF a
  | .mtrn _ d a => tileF d && tileF a
  | .mldt _ d a b => okTss a d b
  | .mrel _ _ => true
  | .mstt _ d a b => okTss d a b
  | .mnest _ _ => true
  | .mnwaitN _ => true
  | .mnwaitT _ => true
  | .mnwaitNt _ => true
  | .mrag _ a => okMrag a
  | .mscale _ d a b => tileF d && okFactor a && okFactor b
  | .ldv _ d a _ m => okVmem d a m
  | .stv _ d a _ m => okStv d a m
  | .ldvg _ d a b => okGather d a b
  | .stvs _ d a b => okGather d a b
  | .ldvb _ d a _ m => okVmem d a m
  | .aadd _ d a _ m => okAtom d a m
  | .amin _ d a _ m => okAtom d a m
  | .amax _ d a _ m => okAtom d a m
  | .aand _ d a _ m => okAtom d a m
  | .aor _ d a _ m => okAtom d a m
  | .axch _ d a _ m => okAtom d a m
  | .acas _ d a _ m => okAcas d a m
  | .aaddf _ d a _ m => okAtom d a m
  | .vaadd _ d a b => okGather d a b
  | .fence _ _ => true
  | .acq _ s => scopeOk s
  | .rel _ s => scopeOk s
  | .flush _ s a b => scopeOk s && okSS a b
  | .invl _ a b => okSS a b
  | .cpy _ d a b => okSSS d a b
  | .cpym _ d a b => okSSS d a b
  | .cpyw _ d a b => sSrc d && sSrc a && sPair b
  | .sbind _ d a m q => okSbind d a m q
  | .sunb _ d => ofOnly d
  | .sdrn _ d => ofOnly d
  | .owntCore _ a b => okSS a b
  | .owntEng _ a b => okSS a b
  | .owntF _ a b => okSS a b
  | .ownw _ a b => okSS a b
  | .evpop _ d => sPair d
  | .evpost _ a b => okSS a b
  | .bara _ _ => true
  | .barw _ _ => true
  | .barx _ d a _ => okSS d a
  | .whpre _ a => sSrc a
  | .whwait _ d a => okDS d a
  | .whpin _ d a => okDS d a
  | .whunp _ a => sSrc a
  | .whqry _ d a => okDS d a
  | .whmap _ d a => okDS d a
  | .snlook _ d a => okDS d a
  | .snsave _ a b => okSS a b
  | .snload _ a b => okSS a b
  | .snrel _ a => sSrc a
  | .snhash _ d a b => sDst d && okSS a b
  | .rtpred _ a b => xData a && sSrc b
  | .rtdisp _ a b => xData a && sSrc b
  | .tinvr _ d a b => okSSS d a b
  | .tinva _ a => sSrc a
  | .prfl _ _ a _ m => sSrc a && modeExists m
  | .l1WriteBack => true
  | .atomicComplete => true
  | .vectorLoadLand => true
  | .sramUncorrectable => true
  | .nolnusCommandDone => true
  | .bundleFetch => true

/-- An instruction whose fields are legal. -/
abbrev Instr.WellFormed (i : Instr) : Prop := i.wf = true

end Sys2Proof
end

