-- ==== Sys2Proof/Certificates/Slice0/Obligations.lean ====
section
/-! DEFINITION. The statements about this model, from the rules of spec/: what instructions and events do, what they leave unchanged,
traps, encodings, and the invariant of every step. -/

open Sys2Proof Sys2Proof.Machine

/-- Register-register arithmetic, logic and bit counts complete with the result of their table row. With a and b the two sources,
ADD, SUB, MUL, MULH, MULHN, AND, OR, XOR, ANDN, SHL, SHR, SAR, ROTR, MIN, MAX, MINN, MAXN, ABS, LEA1, LEA2, LEA4, LEA8, MOV, CLZ and
POPC complete wherever they are ready, with the result of R134's row in flight to their destination: latency 3 for the multiplies, 1
for the others (R133). Shift and rotate amounts are b[5:0]; signed rows compare and multiply as two's complement. CLZ counts the
positions i with a < 2^i, POPC the positions that hold a one. S0 as a destination and the latch alone (NW = 1) are among the forms.
(R133, R134, R75) -/
def Obligations.ScalarArithmetic : Prop :=
∀ (s : State) (p : BitVec 3) (n : BitVec 1) (d a b : BitVec 6), Readable s a → Readable s b →
    let x := s.rdS a
    let y := s.rdS b
    let k := y.toNat % 64
    CompletesAs s (.add p n d a b) (s.scalarOut n d 1 (x + y))
    ∧ CompletesAs s (.sub p n d a b) (s.scalarOut n d 1 (x - y))
    ∧ CompletesAs s (.mul p n d a b) (s.scalarOut n d 3 (BitVec.ofNat 64 (x.toNat * y.toNat)))
    ∧ CompletesAs s (.mulh p n d a b) (s.scalarOut n d 3 (((x.signExtend 128 * y.signExtend 128) >>> 64).setWidth 64))
    ∧ CompletesAs s (.mulhn p n d a b) (s.scalarOut n d 3 (((x.setWidth 128 * y.setWidth 128) >>> 64).setWidth 64))
    ∧ CompletesAs s (.andR p n d a b) (s.scalarOut n d 1 (x &&& y))
    ∧ CompletesAs s (.orR p n d a b) (s.scalarOut n d 1 (x ||| y))
    ∧ CompletesAs s (.xor p n d a b) (s.scalarOut n d 1 (x ^^^ y))
    ∧ CompletesAs s (.andn p n d a b) (s.scalarOut n d 1 (x &&& ~~~y))
    ∧ CompletesAs s (.shl p n d a b) (s.scalarOut n d 1 (x <<< k))
    ∧ CompletesAs s (.shr p n d a b) (s.scalarOut n d 1 (x >>> k))
    ∧ CompletesAs s (.sar p n d a b) (s.scalarOut n d 1 (x.sshiftRight k))
    ∧ CompletesAs s (.rotr p n d a b) (s.scalarOut n d 1 ((x >>> k) ||| (x <<< (64 - k))))
    ∧ CompletesAs s (.min p n d a b) (s.scalarOut n d 1 (if x.sle y then x else y))
    ∧ CompletesAs s (.max p n d a b) (s.scalarOut n d 1 (if x.sle y then y else x))
    ∧ CompletesAs s (.minn p n d a b) (s.scalarOut n d 1 (if x.ule y then x else y))
    ∧ CompletesAs s (.maxn p n d a b) (s.scalarOut n d 1 (if x.ule y then y else x))
    ∧ CompletesAs s (.abs p n d a) (s.scalarOut n d 1 (if x.msb then -x else x))
    ∧ CompletesAs s (.lea1 p n d a b) (s.scalarOut n d 1 (x + y))
    ∧ CompletesAs s (.lea2 p n d a b) (s.scalarOut n d 1 (x + (y <<< 1)))
    ∧ CompletesAs s (.lea4 p n d a b) (s.scalarOut n d 1 (x + (y <<< 2)))
    ∧ CompletesAs s (.lea8 p n d a b) (s.scalarOut n d 1 (x + (y <<< 3)))
    ∧ CompletesAs s (.mov p n d a) (s.scalarOut n d 1 x)
    ∧ CompletesAs s (.clz p n d a)
        (s.scalarOut n d 1 (BitVec.ofNat 64 ((List.range 64).countP fun i => decide (x.toNat < 2 ^ i))))
    ∧ CompletesAs s (.popc p n d a) (s.scalarOut n d 1 (BitVec.ofNat 64 ((List.range 64).countP fun i => x.getLsbD i)))

/-- The divides truncate toward zero, with the corners of R135. When the divider is free, DIV, DIVN, REM and REMN complete with
latency 18 and the divider is busy from then on for 18 cycles. There are q and r with a = q * b + r for b not 0, the signed ones
truncated toward zero with the sign of the dividend on r, but for the pair of the most negative number and -1, whose quotient is the
dividend; by zero the quotient is all ones and the remainder the dividend. While the divider is busy the bundle holds. (R135) -/
def Obligations.ScalarDivide : Prop :=
∀ (s : State) (p : BitVec 3) (n : BitVec 1) (d a b : BitVec 6), Readable s a → Readable s b →
    let x := s.rdS a
    let y := s.rdS b
    let minus : Word := BitVec.allOnes 64
    let least : Word := BitVec.intMin 64
    let busy (w : State) : State := w.updCore s.cur fun k => { k with divFree := s.cyc s.cur + 18 }
    ∃ q r qn rn : Word,
      (y = 0 → q = minus ∧ r = x ∧ qn = minus ∧ rn = x)
      ∧ (y ≠ 0 → x = q * y + r ∧ x = qn * y + rn ∧ qn.toNat = x.toNat / y.toNat ∧ rn.toNat < y.toNat)
      ∧ (x = least → y = minus → q = x ∧ r = 0)
      ∧ (y ≠ 0 → ¬ (x = least ∧ y = minus) → q.toInt = x.toInt.tdiv y.toInt ∧ r.toInt = x.toInt.tmod y.toInt)
      ∧ (s.here.divFree ≤ s.cyc s.cur →
          CompletesAs s (.div p n d a b) (sResult s.ctx n d 18 q (busy s.settled))
          ∧ CompletesAs s (.divn p n d a b) (sResult s.ctx n d 18 qn (busy s.settled))
          ∧ CompletesAs s (.rem p n d a b) (sResult s.ctx n d 18 r (busy s.settled))
          ∧ CompletesAs s (.remn p n d a b) (sResult s.ctx n d 18 rn (busy s.settled)))
      ∧ (s.cyc s.cur < s.here.divFree → ∀ i ∈ [Instr.div p n d a b, .divn p n d a b, .rem p n d a b, .remn p n d a b],
          SlotReady i s → exec i s = .next s.held)

/-- EXT extracts and INS inserts the field that the control word names. The control word c gives the position c[5:0] and the width
c[13:8] + 1, cut at bit 63. EXT's result is the field, sign-extended when c[16] is one; INS replaces the field of its destination
register by the low bits of its source, and with NW = 1 the replaced word is zero, since DST is then S0. Latency 1. (R133, R136) -/
def Obligations.ScalarBitFields : Prop :=
∀ (s : State) (p : BitVec 3) (n : BitVec 1) (d a b : BitVec 6), Readable s a → Readable s b →
    let x := s.rdS a
    let c := s.rdS b
    let pos := (c.extractLsb' 0 6).toNat
    let len := min ((c.extractLsb' 8 6).toNat + 1) (64 - pos)
    let mask : Word := BitVec.ofNat 64 ((2 ^ len - 1) * 2 ^ pos)
    let f : Word := (x &&& mask) >>> pos
    CompletesAs s (.ext p n d a b) (s.scalarOut n d 1
      (if c.getLsbD 16 = true ∧ f.getLsbD (len - 1) = true then f ||| BitVec.ofNat 64 (2 ^ 64 - 2 ^ len) else f))
    ∧ (Readable s d → CompletesAs s (.ins p n d a b) (s.scalarOut n d 1 ((s.rdS d &&& ~~~mask) ||| ((x <<< pos) &&& mask))))
    ∧ (n = 1 → okS3 n d a b = true → s.rdS d = 0)

/-- The immediate forms compute on imm(), six bits alone or 26 with a header. ADDI, MULI, ANDI, ORI, XORI compute on the
sign-extended immediate; SHLI, SHRI and SARI on the raw six-bit amount; MOVI gives imm(), MOVHI (a << 26) | imm()[25:0]. Without a
header for the slot imm() is the six-bit field sign-extended, and with one the 26 bits of HX and the field. A shift immediate under
a header with HX not zero raises illegal instruction. (R54, R133, R137, R138) -/
def Obligations.ScalarImmediates : Prop :=
∀ (s : State) (p : BitVec 3) (n : BitVec 1) (d a i : BitVec 6), Readable s a →
    let x := s.rdS a
    let imm : Word := match s.ctx.hx with
      | none => i.signExtend 64
      | some h => (BitVec.ofNat 26 (h * 64 + i.toNat)).signExtend 64
    CompletesAs s (.addi p n d a i) (s.scalarOut n d 1 (x + imm))
    ∧ CompletesAs s (.muli p n d a i) (s.scalarOut n d 3 (x * imm))
    ∧ CompletesAs s (.andi p n d a i) (s.scalarOut n d 1 (x &&& imm))
    ∧ CompletesAs s (.ori p n d a i) (s.scalarOut n d 1 (x ||| imm))
    ∧ CompletesAs s (.xori p n d a i) (s.scalarOut n d 1 (x ^^^ imm))
    ∧ CompletesAs s (.shli p n d a i) (s.scalarOut n d 1 (x <<< i.toNat))
    ∧ CompletesAs s (.shri p n d a i) (s.scalarOut n d 1 (x >>> i.toNat))
    ∧ CompletesAs s (.sari p n d a i) (s.scalarOut n d 1 (x.sshiftRight i.toNat))
    ∧ CompletesAs s (.movi p n d i) (s.scalarOut n d 1 imm)
    ∧ CompletesAs s (.movhi p n d a i) (s.scalarOut n d 1 ((x <<< 26) ||| (imm &&& 0x3FFFFFF#64)))
    ∧ (∀ h, s.ctx.hx = some h → h ≠ 0 → ∀ j ∈ [Instr.shli p n d a i, .shri p n d a i, .sari p n d a i],
        exec j s = .next (s.takeTrap { cause := Cause.illegalInstruction, slot := s.ctx.slot } s.fr.ctl.pc))

/-- CMP and CMPI set a predicate; VSET and VGET write and read a view register. CMP and CMPI set Pd to (a cc b), signed for lt, le,
gt, ge and unsigned for ltn, len, gtn, gen, in flight with latency 1, when Pd is not driven; a driven P4-P7 raises illegal
instruction. VSET stores the image in VWn at issue when R16 allows it and raises illegal instruction otherwise; VGET's result is the
image as stored. Codes above 9 are no condition of the table and are illegal by the slot's bits. (R16, R24, R133, R139, R144, R145) -/
def Obligations.ScalarComparesAndViews : Prop :=
∀ (s : State) (p : BitVec 3) (n : BitVec 1) (cc : BitVec 4) (pd v : BitVec 3) (d a b i : BitVec 6), Readable s a → Readable s b →
    let x := s.rdS a
    let imm : Word := immS s.ctx i
    let holds (u w : Word) : Bool := match cc.toNat with
      | 0 => u == w
      | 1 => u != w
      | 2 => u.slt w
      | 3 => u.sle w
      | 4 => w.slt u
      | 5 => w.sle u
      | 6 => u.ult w
      | 7 => u.ule w
      | 8 => w.ult u
      | _ => w.ule u
    (s.fr.predWritable pd.toNat = true →
      CompletesAs s (.cmp p cc pd a b) (predResult s.ctx pd (holds x (s.rdS b)) s.settled)
      ∧ CompletesAs s (.cmpi p cc pd a i) (predResult s.ctx pd (holds x imm) s.settled))
    ∧ (s.fr.predWritable pd.toNat = false →
      TrapsWith s (.cmp p cc pd a b) { cause := Cause.illegalInstruction }
      ∧ TrapsWith s (.cmpi p cc pd a i) { cause := Cause.illegalInstruction })
    ∧ (viewOk x = true → CompletesAs s (.vset p v a) (s.settled.updRegs fun r => { r with vw := r.vw.set v.toNat x v.isLt }))
    ∧ (viewOk x = false → TrapsWith s (.vset p v a) { cause := Cause.illegalInstruction })
    ∧ CompletesAs s (.vget p n d v) (s.scalarOut n d 1 (s.fr.r.vw.get ⟨v.toNat, v.isLt⟩))

/-- Predicate operations and mask tests set their predicate. PAND, POR, PXOR, PNOT and PMOV put the operation on the values their
sources have at issue in flight to Pd, PALL and PANY whether all or any of the first 512 >> width bits of the named mask register
are one; latency 1. A driven destination raises illegal instruction. (R24, R155, R156) -/
def Obligations.PredicateLogic : Prop :=
∀ (s : State) (p d a b : BitVec 3) (w : BitVec 6),
    let u := s.fr.pval a.toNat
    let v := s.fr.pval b.toNat
    let tested := List.range (512 >>> w.toNat)
    let mk := s.fr.r.mks.get ⟨a.toNat, a.isLt⟩
    (s.fr.predWritable d.toNat = true →
      CompletesAs s (.pand p d a b) (predResult s.ctx d (u && v) s.settled)
      ∧ CompletesAs s (.por p d a b) (predResult s.ctx d (u || v) s.settled)
      ∧ CompletesAs s (.pxor p d a b) (predResult s.ctx d (u ^^ v) s.settled)
      ∧ CompletesAs s (.pnot p d a) (predResult s.ctx d (!u) s.settled)
      ∧ CompletesAs s (.pmov p d a) (predResult s.ctx d u s.settled)
      ∧ CompletesAs s (.pall p d a w) (predResult s.ctx d (tested.all fun i => mk.getLsbD i) s.settled)
      ∧ CompletesAs s (.pany p d a w) (predResult s.ctx d (tested.any fun i => mk.getLsbD i) s.settled))
    ∧ (s.fr.predWritable d.toNat = false →
      ∀ i ∈ [Instr.pand p d a b, .por p d a b, .pxor p d a b, .pnot p d a, .pmov p d a, .pall p d a w, .pany p d a w],
        TrapsWith s i { cause := Cause.illegalInstruction })

/-- The mask stack: push, push in place, invert, pop, get. With d the visible depth and act the active mask, MPUSH puts act & MKa on
the stack when it holds fewer than 16 entries, MPUSH.in replaces the top by it, MINV the top by the entry below (all ones when there
is none) without the top's lanes, MPOP drops the top, and MGET puts act in flight to its mask register with latency 1. A full stack,
or one with no visible entry, raises the mask-stack trap and the stack stays. The operation changes the stack and nothing else of
the working state. (R175) -/
def Obligations.MaskStackOperations : Prop :=
∀ (s : State) (p a : BitVec 3),
    let act := s.fr.active
    let mk := s.fr.r.mks.get ⟨a.toNat, a.isLt⟩
    let onStack (f : List Mask → List Mask) : State := s.settled.updRegs fun r => { r with mstack := f r.mstack }
    (s.fr.r.mstack.length < 16 → CompletesAs s (.mpush p a) (onStack fun l => (act &&& mk) :: l))
    ∧ (16 ≤ s.fr.r.mstack.length → TrapsWith s (.mpush p a) { cause := Cause.maskStack })
    ∧ (∀ top rest, s.fr.visible = top :: rest → act = top
        ∧ CompletesAs s (.mpushIn p a) (onStack fun l => (top &&& mk) :: l.tail)
        ∧ CompletesAs s (.minv p) (onStack fun l => (rest.headD (allBytes) &&& ~~~top) :: l.tail)
        ∧ CompletesAs s (.mpop p) (onStack List.tail))
    ∧ (s.fr.visible = [] → act = allBytes
        ∧ ∀ i ∈ [Instr.mpushIn p a, .minv p, .mpop p], TrapsWith s i { cause := Cause.maskStack })
    ∧ CompletesAs s (.mget p a) (maskResult s.ctx 1 a (allBytes) act s.settled)

/-- PREP prepares a target; a taken transfer goes to it, an untaken one changes nothing. PREP sets the entry valid with the address
A + 16 imm, and out of range when that is outside the code; a fetch fills it later. XFER is taken always, XFERE when the mask stack
is not empty and the tested bits of the active mask are all zero, XFERA when it is empty or they are all one. A taken transfer
through a valid entry whose bundles are there makes its address the next bundle, clears latches and pointers, keeps every result in
flight but none for a latch, and closes the levels above the floor whose body does not hold it; through an invalid entry it raises
the target-buffer trap; through one still being fetched it holds. An untaken transfer leaves the working state as it was. (R23,
R147, R148, R149, R151) -/
def Obligations.TransfersTaken : Prop :=
∀ (s : State) (p t : BitVec 3) (w : BitVec 6) (imm : BitVec 12),
    let e := s.fr.ctl.tg.get ⟨t.toNat, t.isLt⟩
    let low := s.fr.active.toNat % 2 ^ (512 >>> w.toNat)
    let a := s.fr.ctl.pc + BitVec.ofInt 64 (immL s.ctx imm * 16)
    let goes (i : Instr) : Prop :=
      (e.valid = false → TrapsWith s i { cause := Cause.targetBuffer })
      ∧ (e.valid = true → e.outRange = false → e.filled = false → SlotReady i s → exec i s = .next s.held)
      ∧ (e.valid = true → (e.outRange = true ∨ e.filled = true) → SlotReady i s → ∃ u, exec i s = .next u
          ∧ u.cur = s.cur ∧ u.fr.ctl.pc = e.addr ∧ u.fr.ctl.fetched = e.code ∧ u.fr.r.lat = {}
          ∧ u.fr.infl = s.fr.infl.map (fun r => { r with lat := none })
          ∧ u.fr.ctl.lv = (s.fr.leaveLevels e.addr).ctl.lv ∧ u.fr.ctl.depth = (s.fr.leaveLevels e.addr).ctl.depth
          ∧ u.fr.r.s = s.fr.r.s ∧ u.fr.r.mstack = s.fr.r.mstack ∧ u.mem = s.mem)
    (s.fr.id.codeOk a = true → CompletesAs s (.prep p t imm)
      ((s.settled.updCtl fun x => { x with tg := x.tg.set t.toNat { valid := true, addr := a } t.isLt }).postFree s.cur 3
        .prepFetchComplete (s.fr.fetchArg s.here.run t.toNat a)))
    ∧ (s.fr.id.codeOk a = false → CompletesAs s (.prep p t imm)
      (s.settled.updCtl fun x =>
        { x with tg := x.tg.set t.toNat { valid := true, addr := a, outRange := true, filled := true } t.isLt }))
    ∧ goes (.xfer p t)
    ∧ ((s.fr.visible ≠ [] ∧ low = 0) → goes (.xfere p t w))
    ∧ (¬ (s.fr.visible ≠ [] ∧ low = 0) → CompletesAs s (.xfere p t w) s.settled)
    ∧ ((s.fr.visible = [] ∨ low = 2 ^ (512 >>> w.toNat) - 1) → goes (.xfera p t w))
    ∧ (¬ (s.fr.visible = [] ∨ low = 2 ^ (512 >>> w.toNat) - 1) → CompletesAs s (.xfera p t w) s.settled)

/-- CALL links and raises the floor, RET checks and returns, HALT ends the task. A taken CALL puts the address of its next bundle
with the caller's floor in flight to its link register, makes the depth the floor, and goes to the entry's address with latches
cleared and every level kept, since none is above the new floor; through an entry still being fetched it holds. RET whose link is
canonical with bit 3 zero, with no level open above the floor and a link floor within the depth, sets the floor and makes the link's
bundle the next one, seven cycles later at the earliest; of the levels above the new floor it closes every one whose body does not
hold that bundle, with those that stand above it, and no other; else it raises the loop-nesting or address trap in the order of
R153. HALT stops issue and posts the task's completion. (R23, R152, R153, R154, R169, R170) -/
def Obligations.CallsAndReturns : Prop :=
∀ (s : State) (p t : BitVec 3) (l a : BitVec 6), Readable s a →
    let e := s.fr.ctl.tg.get ⟨t.toNat, t.isLt⟩
    let v := s.rdS a
    let wellFormed : Prop := canonical v = true ∧ v.getLsbD 3 = false
    (e.valid = true → (e.outRange = true ∨ e.filled = true) → SlotReady (.call p t l) s →
      ∃ u, exec (.call p t l) s = .next u ∧ u.fr.ctl.pc = e.addr ∧ u.fr.ctl.floor = s.fr.ctl.depth ∧ u.fr.ctl.depth = s.fr.ctl.depth
        ∧ u.fr.ctl.lv = s.fr.ctl.lv ∧ u.fr.r.lat = {} ∧ u.mem = s.mem
        ∧ ∃ r ∈ u.fr.infl, r.dest = .s l.toNat ∧ r.due = s.cyc s.cur
            ∧ r.data.setWidth 64 = (s.fr.ctl.pc + 16) ||| BitVec.ofNat 64 s.fr.ctl.floor)
    ∧ (e.valid = false → TrapsWith s (.call p t l) { cause := Cause.targetBuffer })
    ∧ (e.valid = true → e.outRange = false → e.filled = false → SlotReady (.call p t l) s → exec (.call p t l) s = .next s.held)
    ∧ (s.fr.ctl.floor < s.fr.ctl.depth → TrapsWith s (.ret p a) { cause := Cause.loopNesting })
    ∧ (s.fr.ctl.depth ≤ s.fr.ctl.floor → ¬ wellFormed →
        TrapsWith s (.ret p a) { cause := Cause.address, evaddr := BitVec.ofNat 64 (v.toNat % 2 ^ 57) })
    ∧ (s.fr.ctl.depth ≤ s.fr.ctl.floor → wellFormed → s.fr.ctl.depth < v.toNat % 8 →
        TrapsWith s (.ret p a) { cause := Cause.loopNesting })
    ∧ (s.fr.ctl.depth ≤ s.fr.ctl.floor → wellFormed → v.toNat % 8 ≤ s.fr.ctl.depth → SlotReady (.ret p a) s →
        ∃ u, exec (.ret p a) s = .next u ∧ u.fr.ctl.pc = (v >>> 4) <<< 4 ∧ u.fr.ctl.floor = v.toNat % 8
          ∧ u.fr.ctl.notBefore = s.cyc s.cur + 7 ∧ u.fr.ctl.refetch = true ∧ u.fr.r.lat = {} ∧ u.fr.r.s = s.fr.r.s ∧ u.mem = s.mem
          ∧ let holds (i : Fin 6) : Prop := (s.fr.ctl.lv.get i).lstart.toNat ≤ ((v >>> 4) <<< 4).toNat
              ∧ ((v >>> 4) <<< 4).toNat ≤ (s.fr.ctl.lv.get i).lstop.toNat
            ∃ m, v.toNat % 8 ≤ m ∧ m ≤ s.fr.ctl.depth ∧ u.fr.ctl.depth = m
              ∧ (∀ i : Fin 6, v.toNat % 8 ≤ i.val → i.val < m → holds i)
              ∧ (∀ i : Fin 6, i.val = m → m < s.fr.ctl.depth → ¬ holds i)
              ∧ (∀ i : Fin 6, i.val < m ∨ s.fr.ctl.depth ≤ i.val → u.fr.ctl.lv.get i = s.fr.ctl.lv.get i)
              ∧ (∀ i : Fin 6, m ≤ i.val → i.val < s.fr.ctl.depth → (u.fr.ctl.lv.get i).isOpen = false ∧ (u.fr.ctl.lv.get i).lcnt = 0))
    ∧ (SlotReady (.halt p) s → ∃ u, exec (.halt p) s = .next u ∧ u.fr.ctl.halted = true ∧ u.fr.mat.pins = []
        ∧ (∃ ev ∈ u.agenda, ev.row = .taskComplete ∧ ev.arg.tid = s.fr.id.task ∧ ev.arg.u = 0)
        ∧ u.fr.r.s = s.fr.r.s ∧ u.mem = s.mem)

/-- LOOP and LOOPS open a level, or skip a loop of no iteration; LBRK closes the innermost one, and LBRK.d ends it at the iterations
started. With the checks of R158 passed in their order, a positive count opens the level at the depth: LCNT the count plus the
stages less one, LIDX and LROTC zero, the body from the next bundle to the stop bundle, P4-P7 saved by LOOPS; the next bundle is the
one after. A count of zero or less opens nothing and makes the bundle after the stop the next. A stop beyond the code, a seventh
level, a body that ends after the enclosing one, and a count of 2^47 or more raise their traps. With no level open above the floor
LBRK and LBRK.d raise loop nesting. LBRK closes the innermost one, clears latches and pointers and runs the steps of R160 with that
level's LSTOP for the enclosing levels, which give the next bundle. LBRK.d sets LCNT to min(LIDX + 1, n) + S - 1 - LIDX, with n the
level's trip count, and closes nothing. (R23, R157, R158, R159, R160, R161, R166, R167) -/
def Obligations.LoopsOpenAndBreak : Prop :=
(∀ (s : State) (p : BitVec 3) (c : BitVec 6) (o : BitVec 12) (g : BitVec 2) (o' : BitVec 10), Readable s c →
    let x := s.fr.ctl
    let count := (s.rdS c).toInt
    let v := x.depth
    let acts (i : Instr) (off : Int) (stages : Nat) (pipe : Bool) : Prop :=
      let stop := x.pc + BitVec.ofInt 64 (16 * off)
      (s.fr.id.codelim.toNat ≤ stop.toNat → TrapsWith s i { cause := Cause.fetchLimit })
      ∧ (stop.toNat < s.fr.id.codelim.toNat → 6 ≤ v → TrapsWith s i { cause := Cause.loopNesting })
      ∧ (∀ h : v < 6, stop.toNat < s.fr.id.codelim.toNat →
          (x.floor < v → (x.lv.get ⟨v - 1, by omega⟩).lstop.toNat < stop.toNat → TrapsWith s i { cause := Cause.loopNesting })
          ∧ ((x.floor < v → stop.toNat ≤ (x.lv.get ⟨v - 1, by omega⟩).lstop.toNat) →
              (2 ^ 47 ≤ count → TrapsWith s i { cause := Cause.loopCount })
              ∧ (count ≤ 0 → SlotReady i s → ∃ u, exec i s = .next u ∧ u.fr.ctl.pc = stop + 16 ∧ u.fr.ctl.lv = x.lv
                  ∧ u.fr.ctl.depth = v ∧ u.fr.r.lat = s.fr.r.lat ∧ u.mem = s.mem)
              ∧ (0 < count → count < 2 ^ 47 → ∃ lev : Level,
                  lev.lcnt = count.toNat + stages - 1 ∧ lev.lidx = 0 ∧ lev.lrotc = 0 ∧ lev.lstart = x.pc + 16 ∧ lev.lstop = stop
                  ∧ lev.stages = stages ∧ lev.pipe = pipe ∧ lev.nest = false ∧ lev.isOpen = true
                  ∧ (∀ b, b < 4 → lev.savedp.getLsbD b = (pipe && s.fr.pval (4 + b)))
                  ∧ CompletesAs s i ((s.settled.updCtl fun y => { y with lv := y.lv.set v lev h, depth := v + 1 }).postFree s.cur 3
                      .loopBufferFill (s.fr.fetchArg s.here.run v x.pc)))))
    acts (.loop p c o) (immL s.ctx o) 1 false
    ∧ acts (.loops p c g o') (match s.ctx.hx with
        | some h => ((h * 1024 + o'.toNat : Nat) : Int)
        | none => (o'.toNat : Int)) (g.toNat + 1) true)
  ∧ (∀ (s : State) (p : BitVec 3),
    let x := s.fr.ctl
    (x.depth ≤ x.floor → TrapsWith s (.lbrk p) { cause := Cause.loopNesting } ∧ TrapsWith s (.lbrkD p) { cause := Cause.loopNesting })
    ∧ (∀ (h : x.depth ≤ 6) (h' : x.floor < x.depth),
        let v : Fin 6 := ⟨x.depth - 1, by omega⟩
        let y := x.lv.get v
        let r := (s.settled.fr.closeLevel v).backEdge y.lstop 6
        let n := y.lidx + y.lcnt + 1 - y.stages
        (SlotReady (.lbrk p) s → ∃ u, exec (.lbrk p) s = .next u ∧ u.fr.ctl.pc = r.2.1 ∧ u.fr.ctl.lv = r.1.ctl.lv
            ∧ u.fr.ctl.depth = r.1.ctl.depth ∧ u.fr.r.lat = {} ∧ u.fr.r.s = s.fr.r.s ∧ u.fr.r.mstack = s.fr.r.mstack ∧ u.mem = s.mem)
        ∧ CompletesAs s (.lbrkD p) (s.settled.updCtl fun z =>
            { z with lv := z.lv.set v.val { y with lcnt := min (y.lidx + 1) n + y.stages - 1 - y.lidx } v.isLt })))

/-- The steps of R160 after a bundle: back edge, close, next bundle, at no cost in cycles. A bundle of NOPs alone issues when the
energy window admits it, and R160's steps then give the next bundle: where the innermost level above the floor does not end at this
bundle, or there is none, the following bundle and no level changes; where it ends here with LCNT above 1, its LSTART, with LIDX and
LROTC one up and LCNT one down; where its last iteration ends here, it counts LIDX and LROTC up, closes, and the same steps go on
with the level around it. The cycle from which the next bundle may issue stays what it was. (R160) -/
def Obligations.BackEdges : Prop :=
(∀ s : State, s.closed = false → s.admits s.cur (bundleWeight s.fr.id.ewtab s.ctx.ew s.ctx.hasHdr []) = true →
    ∃ u, exec .nop s = .next u ∧ u.fr.ctl.pc = (s.fr.backEdge s.fr.ctl.pc 6).2.1 ∧ u.fr.ctl.lv = (s.fr.backEdge s.fr.ctl.pc 6).1.ctl.lv
      ∧ u.fr.ctl.depth = (s.fr.backEdge s.fr.ctl.pc 6).1.ctl.depth ∧ u.fr.ctl.notBefore = s.fr.ctl.notBefore ∧ u.fr.r.lat = s.fr.r.lat ∧ u.fr.r.s = s.fr.r.s ∧ u.mem = s.mem)
  ∧ (∀ (f : Frame) (b : Word) (n : Nat), f.ctl.depth ≤ 6 → n ≠ 0 →
    (f.ctl.depth ≤ f.ctl.floor → f.backEdge b n = (f, b + 16, none))
    ∧ (∀ h : f.ctl.floor < f.ctl.depth, ∀ hd : f.ctl.depth ≤ 6,
        let v : Fin 6 := ⟨f.ctl.depth - 1, by omega⟩
        let x := f.ctl.lv.get v
        let up : Level := { x with lidx := x.lidx + 1, lrotc := x.lrotc + 1 }
        let g : Frame := { f with ctl := { f.ctl with lv := f.ctl.lv.set v.val up v.isLt } }
        (x.lstop ≠ b → f.backEdge b n = (f, b + 16, none))
        ∧ (x.lstop = b → 1 < x.lcnt → (f.backEdge b n).2.1 = x.lstart ∧ (f.backEdge b n).1.ctl.depth = f.ctl.depth
            ∧ (f.backEdge b n).1.ctl.lv = f.ctl.lv.set v.val { up with lcnt := x.lcnt - 1 } v.isLt)
        ∧ (x.lstop = b → x.lcnt ≤ 1 → (f.backEdge b n).1 = ((g.closeLevel v).backEdge b (n - 1)).1
            ∧ (f.backEdge b n).2.1 = ((g.closeLevel v).backEdge b (n - 1)).2.1)))

/-- The effective address of a memory form and its address fault. Mode 00 gives the base register, 01 the base plus HI sign-extended
from 22 bits, 10 the base plus the register that HX names; the sum wraps at 64 bits. It is good exactly when bits 63 to 57 equal bit
56, and otherwise the form raises the address trap with the low 57 bits. A poisoned address register raises DATA_POISON with its
source. (R55, R51, R420) -/
def Obligations.EffectiveAddresses : Prop :=
∀ (c : SlotCtx) (s : State) (a : BitVec 6) (m : BitVec 2) (hi : BitVec 22) (ix : BitVec 6), m ≠ 3 →
    (m = 1 → c.hdr = .hi hi) → (m = 2 → c.hx = some ix.toNat) →
    (∀ q, s.fr.r.sPoison.find? (·.1 == a.toNat) = some q →
      effAddr c s a m = .error (.trap { cause := Cause.dataPoison, src := q.2 }))
    ∧ (Readable s a → (m = 2 → Readable s ix) →
        let ea : Word := s.rdS a + (if m = 1 then hi.signExtend 64 else if m = 2 then s.rdS ix else 0)
        ((∀ i, 57 ≤ i → i < 64 → ea.getLsbD i = ea.getLsbD 56) → effAddr c s a m = .ok ea)
        ∧ (∀ i, 57 ≤ i → i < 64 → ea.getLsbD i ≠ ea.getLsbD 56 →
            effAddr c s a m = .error (.trap { cause := Cause.address, evaddr := ea &&& BitVec.ofNat 64 (2 ^ 57 - 1) })))

/-- A classed access is checked whole, in the order of R142, before any byte moves. A range that leaves the canonical addresses
raises the address trap; then a translation or permission failure raises its own trap; then a control space that the form may not
reach the address trap; then a lent window, or the own local store of a lent core, the window-lent trap; then an engine-owned tile
of the own local store the owner trap. A scalar load or store that fails a check takes that trap at its own bundle and nothing else
of it happens. (R63, R118, R127, R142, R480) -/
def Obligations.AccessChecksInOrder : Prop :=
(∀ (s : State) (va n : Nat) (k : Access) (ctl : Bool),
    let pieces := xlate s (dieOf s.cur) s.here.l1tlb s.fr.space k 0 (n / 0x10000 + 2) va n
    let lent (g : Seg) : Bool := match placeOf s.cur g.pa with
      | .ownLs _ => s.here.lentTo.isSome
      | .window t o => decide (o < 0x600000) && (s.core t).lentTo.isSome
      | _ => false
    let closedTile (g : Seg) : Bool := match placeOf s.cur g.pa with
      | .ownLs o => (tilesOf o g.len).any fun t => !s.fr.sys.coreMay t
      | _ => false
    (inRange57 va n = false → checkAccess s va n k ctl = .error (.trap { cause := Cause.address, evaddr := BitVec.ofNat 64 (va % 2 ^ 57) }))
    ∧ (inRange57 va n = true → ∀ t, pieces = .error t → checkAccess s va n k ctl = .error (.trap t))
    ∧ (inRange57 va n = true → ∀ l, pieces = .ok l →
        (ctl = false → (∃ x ∈ l, placeOf s.cur x.1.pa = .control) → ∃ t : Trap, t.cause = Cause.address ∧ checkAccess s va n k ctl = .error (.trap t))
        ∧ ((ctl = true ∨ ∀ x ∈ l, placeOf s.cur x.1.pa ≠ .control) →
            ((∃ x ∈ l, lent x.1 = true) → ∃ t : Trap, t.cause = Cause.windowLent ∧ checkAccess s va n k ctl = .error (.trap t))
            ∧ ((∀ x ∈ l, lent x.1 = false) →
                ((∃ x ∈ l, closedTile x.1 = true) → ∃ t : Trap, t.cause = Cause.owner ∧ checkAccess s va n k ctl = .error (.trap t))
                ∧ ((∀ x ∈ l, closedTile x.1 = false) → checkAccess s va n k ctl = .ok l)))))
  ∧ (∀ (s : State) (p w : BitVec 3) (w' : BitVec 2) (n : BitVec 1) (d a : BitVec 6) (o : BitVec 4) (m : BitVec 2) (ea : Word) (t : Trap),
    effAddr s.ctx s a m = .ok ea →
      (checkAccess s (va57 ea) (2 ^ (w.toNat % 4)) .read (va57 ea % 2 ^ (w.toNat % 4) == 0) = .error (.trap t) →
        TrapsWith s (.lds p w n d a o m) t)
      ∧ (Readable s d → checkAccess s (va57 ea) (2 ^ w'.toNat) .write (2 ^ w'.toNat == 8 && va57 ea % 8 == 0) = .error (.trap t) →
        TrapsWith s (.sts p w' d a o m) t))

/-- LDS binds the bytes it reads and leaves its register pending. When its checks pass and no outstanding access holds it, LDS
completes: it enters flight to its register, or to the latch alone. Where its bytes lie in one page of memory and no stack is
quiesced, the pending entry holds the bytes as the core reads them (in one line, or where the die's L2 holds none of them dirty),
zero-extended for b8 to b64 and sign-extended for i8 to i32 when they land; registers are unchanged at issue, and so is home memory,
but for dirty bytes that leave the die's L2 for room. (R105, R108, R133, R140, R141) -/
def Obligations.ScalarLoads : Prop :=
∀ (s : State) (p w : BitVec 3) (n : BitVec 1) (d a : BitVec 6) (o : BitVec 4) (m : BitVec 2) (ea : Word) (l : List (Seg × Walked)),
    let size := 2 ^ (w.toNat % 4)
    let entry : Pending := { dest := .s d.toNat, ben := firstBytes 8, lat := some 0, form := if w.toNat < 4 then 0 else 1, n := size }
    let u := bindLoad s.ctx s.settled l o.toNat entry 5 .loadComplete
    effAddr s.ctx s a m = .ok ea → checkAccess s (va57 ea) size .read (va57 ea % size == 0) = .ok l →
    s.FreeFor o.toNat l →
    (u.closed = false → CompletesAs s (.lds p w n d a o m) u)
    ∧ (∀ g walk, l = [(g, walk)] → placeOf s.cur g.pa = .mem → s.AllOpen → SlotReady (.lds p w n d a o m) s →
        ∃ t, exec (.lds p w n d a o m) s = .next t ∧ t.fr.r.s = s.fr.r.s
          ∧ (∀ b, s.CleanAt b → Memory.read t.mem b 1 = Memory.read s.mem b 1)
          ∧ ∃ q ∈ t.fr.loads, q.dest = .s d.toNat ∧ q.parts = 0 ∧ q.n = size ∧ q.form = entry.form
              ∧ (((linesOf g.pa g.len).length = 1 ∨ ∀ b, g.pa ≤ b → b < g.pa + g.len → s.CleanAt b) →
                  q.data = BitVec.ofNat 4096 (s.coreRead s.cur g.pa g.len <<< (8 * g.off))))

/-- STS writes the low bytes of its source and no other byte. When its checks pass and no outstanding access holds it, STS
completes. Where its bytes lie in one page of memory and no stack is quiesced, the core then reads the source's low bytes at the
physical address of the access, and every other byte that the die's L2 does not hold dirty as before; home memory is unchanged there
too (the bytes stand in the L1). Where they lie in the own local store, exactly those bytes of the local store change. No register
changes. (R105, R106, R140, R142) -/
def Obligations.ScalarStores : Prop :=
∀ (s : State) (p : BitVec 3) (w : BitVec 2) (d a : BitVec 6) (o : BitVec 4) (m : BitVec 2) (ea : Word) (l : List (Seg × Walked)),
    let size := 2 ^ w.toNat
    let u := storeAt s.settled l o.toNat (s.rdS d).toNat (2 ^ size - 1)
    Readable s d → effAddr s.ctx s a m = .ok ea → checkAccess s (va57 ea) size .write (size == 8 && va57 ea % 8 == 0) = .ok l →
    s.FreeFor o.toNat l →
    (u.closed = false → CompletesAs s (.sts p w d a o m) u)
    ∧ (∀ g walk, l = [(g, walk)] → g.off = 0 → g.len = size → placeOf s.cur g.pa = .mem → s.AllOpen → SlotReady (.sts p w d a o m) s →
        ∃ t, exec (.sts p w d a o m) s = .next t ∧ t.fr.r.s = s.fr.r.s
          ∧ (∀ b, g.pa ≤ b → b < g.pa + size → t.coreRead s.cur b 1 = getByte (s.rdS d).toNat (b - g.pa))
          ∧ (∀ b, s.CleanAt b → Memory.read t.mem b 1 = Memory.read s.mem b 1
              ∧ ((b < g.pa ∨ g.pa + size ≤ b) → t.coreRead s.cur b 1 = s.coreRead s.cur b 1)))
    ∧ (∀ g walk off, l = [(g, walk)] → g.off = 0 → g.len = size → placeOf s.cur g.pa = .ownLs off → s.AllOpen →
        SlotReady (.sts p w d a o m) s →
        ∃ t, exec (.sts p w d a o m) s = .next t ∧ t.fr.r.s = s.fr.r.s
          ∧ ∀ b, Memory.read t.mem b 1 = if lsBase s.cur + off ≤ b ∧ b < lsBase s.cur + off + size
              then getByte (s.rdS d).toNat (b - (lsBase s.cur + off)) else Memory.read s.mem b 1)

/-- LDV, LDVB, STV, LDVG and STVS complete over their pieces. When the destination takes a load, the address is good, the checks
pass and no outstanding access holds it, LDV enters flight with 512 bytes and LDVB with four bytes to be broadcast, under the active
mask in four-byte elements; STV stores 512 bytes of its source under it. LDVG and STVS access four bytes at base plus index for each
active lane, checked lowest lane first. (R228, R229, R230, R231) -/
def Obligations.VectorLoadsAndStores : Prop :=
∀ (s : State) (p : BitVec 3) (d a b : BitVec 6) (o : BitVec 4) (m : BitVec 2),
    let x := xOpd s.ctx 0 d
    let en := s.fr.enables 4
    (∀ (ea : Word) (l : List (Seg × Walked)), effAddr s.ctx s a m = .ok ea → s.FreeFor o.toNat l →
      (∀ dest v, loadDest s.ctx s x [] s.settled = .ok (dest, v) →
        (checkAccess s (va57 ea) 512 .read false = .ok l → ∀ u, u = bindLoad s.ctx v l o.toNat { dest := dest, ben := en, form := 2, n := 512 } 6 .vectorLoadLand →
          u.closed = s.closed → CompletesAs s (.ldv p d a o m) u)
        ∧ (checkAccess s (va57 ea) 4 .read false = .ok l → ∀ u, u = bindLoad s.ctx v l o.toNat { dest := dest, ben := en, form := 3, n := 4 } 6 .vectorLoadLand →
          u.closed = s.closed → CompletesAs s (.ldvb p d a o m) u))
      ∧ (∀ val seen v, readV s.ctx s x 4 false ([], s.settled) = .ok (val, seen, v) → checkAccess s (va57 ea) 512 .write false = .ok l →
          ∀ u, u = storeAt v l o.toNat val.toNat en.toNat → u.closed = s.closed → CompletesAs s (.stv p d a o m) u))
    ∧ (∀ idx seen v l, readV s.ctx s (xOpd s.ctx 2 b) 4 false ([], s.settled) = .ok (idx, seen, v) → Readable s a →
        laneSegs s .read false (s.rdS a) idx 128 = .ok l → s.FreeFor 0 l → ∀ dest v', loadDest s.ctx s (xOpd s.ctx 0 d) seen v = .ok (dest, v') →
        ∀ u, u = bindLoad s.ctx v' l 0 { dest := dest, ben := en } 10 .vectorLoadLand → u.closed = s.closed → CompletesAs s (.ldvg p d a b) u)
    ∧ (∀ val idx v l, scatterSrcs s.ctx s s.settled d b = .ok (val, idx, v) → Readable s a →
        laneSegs s .write false (s.rdS a) idx 128 = .ok l → s.FreeFor 0 l →
        ∀ u, u = storeAt v l 0 val.toNat (2 ^ 512 - 1) → u.closed = s.closed → CompletesAs s (.stvs p d a b) u)

/-- A scalar atomic leaves for its home with its operands, or traps when it is not aligned. Each of AADD, AMIN, AMAX, AAND, AOR,
AXCH, ACAS and AADDF whose address is good and aligned to its word and whose checks pass starts its atomic with the source
register's value (ACAS with the pair's), to return to DST; a misaligned word raises the address trap. VAADD starts one four-byte
floating add for each active lane in lane order. (R116, R117, R231, R232) -/
def Obligations.AtomicsLeaveTheCore : Prop :=
∀ (s : State) (p : BitVec 3) (d a b : BitVec 6) (o : BitVec 4) (m : BitVec 2) (ea : Word), Readable s d →
    let go (i : Instr) (op : Nat) (new : Word) : Prop :=
      let size := if op = 7 then 4 else 8
      (va57 ea % size ≠ 0 → TrapsWith s i { cause := Cause.address, evaddr := BitVec.ofNat 64 (va57 ea) })
      ∧ (va57 ea % size = 0 → ∀ g walk, checkAccess s (va57 ea) size .atomic false = .ok [(g, walk)] →
          s.FreeFor o.toNat [(g, walk)] →
          ∀ u, u = (s.settled.learn [(g, walk)]).startAtomic s.ctx
              { op := op, pa := g.pa, va := g.va, oc := o.toNat, x := s.rdS d, new := new, dest := d.toNat } →
            u.closed = s.closed → CompletesAs s i u)
    (effAddr s.ctx s a m = .ok ea →
      go (.aadd p d a o m) 0 0 ∧ go (.amin p d a o m) 1 0 ∧ go (.amax p d a o m) 2 0 ∧ go (.aand p d a o m) 3 0
      ∧ go (.aor p d a o m) 4 0 ∧ go (.axch p d a o m) 5 0 ∧ (Readable s (d + 1) → go (.acas p d a o m) 6 (s.rdS (d + 1)))
      ∧ go (.aaddf p d a o m) 7 0)
    ∧ (∀ val idx v l, scatterSrcs s.ctx s s.settled d b = .ok (val, idx, v) → Readable s a →
        laneSegs s .atomic true (s.rdS a) idx 128 = .ok l → s.FreeFor 0 l →
        ∀ u, u = l.foldl (fun (w : State) g =>
            w.startAtomic s.ctx { op := 7, pa := g.1.pa, va := g.1.va, x := BitVec.ofNat 64 (lane val 32 (g.1.off / 4)) }) (v.learn l) →
          u.closed = s.closed → CompletesAs s (.vaadd p d a b) u)

/-- ATOMIC_COMPLETE reads, computes and writes the word at its home as one step. When no outstanding atomic or window access must
come first, the atomic's word in memory becomes what its opcode gives for the old word and the operand, signed for AMIN and AMAX,
unchanged by an ACAS whose expected value differs; the destination register takes the old word; every other byte of memory is
unchanged, and the atomic is outstanding no more. Stated where no die and not the core's L1 holds a newer copy, the word is not
poisoned and no stack is quiesced, and no invalidation waits for accesses. (R116, R232, R420) -/
def Obligations.AtomicsPerformAtHome : Prop :=
∀ (s : State) (x : Atomic),
    let c := s.arg.c
    let k := s.arg.k
    let f := s.frameAt c k
    let size := if x.op = 7 then 4 else 8
    let old := Memory.read s.mem x.pa size
    let o : Word := BitVec.ofNat 64 old
    f.atoms.find? (·.id == s.arg.id) = some x → f.atoms = [x] → s.mustWait c x.id x.oc x.pa 8 = false →
    placeOf c x.pa = .mem → s.AllOpen → s.poisonOf x.pa size = none → (∀ d, (s.dies.get d).l2 = []) → s.invals = [] →
    (∀ b ∈ (s.core c).l1, b.dirty = true → b.pa < x.pa ∨ x.pa + size ≤ b.pa) → 0 < x.dest → x.dest < 48 → x.dead = false →
    ∃ t, exec .atomicComplete s = .next t ∧ (t.frameAt c k).atoms = [] ∧ (t.frameAt c k).r.s = f.r.s.setIfInBounds x.dest o
      ∧ ∀ b, Memory.read t.mem b 1 = if x.pa ≤ b ∧ b < x.pa + size ∧ (x.op = 6 → o = x.x) then
          getByte (match x.op with
            | 0 => (o + x.x).toNat
            | 1 => (if o.sle x.x then o else x.x).toNat
            | 2 => (if x.x.sle o then o else x.x).toNat
            | 3 => (o &&& x.x).toNat
            | 4 => (o ||| x.x).toNat
            | 5 => x.x.toNat
            | 6 => x.new.toNat
            | _ => addF32 (old % 2 ^ 32) (x.x.toNat % 2 ^ 32)) (b - x.pa)
        else Memory.read s.mem b 1

/-- FENCE, ACQ, REL, FLUSH, INVL and PRFL. FENCE notes its classes among the core's writes, and for its accesses when one is
outstanding, and otherwise drops every such note; ACQ, once every earlier read has bound its value, discards the clean bytes of the
L1 and knows the releases it has seen, unless its scope is core; REL, once its earlier accesses are performed, writes dirty bytes
back to its scope; both hold until then. FLUSH writes back and INVL discards the bytes of a range, an empty range does nothing, and
one that leaves the address space raises the address trap. PRFL drops what would fault, and else fills the line or, for want of
room, drops it: the model leaves that choice free (log 4). (R109, R111, R112, R233, R234, R235, R236) -/
def Obligations.OrderingOperations : Prop :=
∀ (s : State) (p : BitVec 3) (k : BitVec 16) (sc : BitVec 3) (a b : BitVec 6) (l : BitVec 1) (o : BitVec 4) (m : BitVec 2),
    let busy := s.coreBusy s.cur true true
    let waits : State := (s.updCtl fun c => { c with orderFrom := some s.orderCycle }).held
    let noted : State := s.settled.updClock (coreWriter s.cur) fun x => { x with fences := x.fences ++ [(x.n, k)] }
    (busy = true → CompletesAs s (.fence p k) (noted.bump.updMsg fun y => { y with fences := s.fr.msg.fences ++ [(s.nextId, k)] }))
    ∧ (busy = false → CompletesAs s (.fence p k) (noted.updMsg fun y => { y with fences := [] }))
    ∧ (s.acquireWaits = false → CompletesAs s (.acq p sc) (s.settled.acquire s.cur sc.toNat)
        ∧ (sc ≠ 0 → (s.settled.acquire s.cur sc.toNat).here.l1 = s.here.l1.filter (·.dirty)))
    ∧ (s.acquireWaits = true → SlotReady (.acq p sc) s → exec (.acq p sc) s = .next waits)
    ∧ (s.releaseWaits = false → (s.settled.release s.cur sc.toNat).closed = false →
        CompletesAs s (.rel p sc) (s.settled.release s.cur sc.toNat))
    ∧ (s.releaseWaits = true → SlotReady (.rel p sc) s → exec (.rel p sc) s = .next waits)
    ∧ (Readable s a → Readable s b →
        let x := s.rdS a
        let n := s.rdS b
        let parts := s.settled.physParts (va57 x) n.toNat
        (n = 0 → CompletesAs s (.flush p sc a b) s.settled ∧ CompletesAs s (.invl p a b) s.settled)
        ∧ (n ≠ 0 → canonical x = true → va57 x + n.toNat ≤ 2 ^ 57 →
            ((s.settled.writeBack s.cur sc.toNat (inParts parts)).closed = false →
              CompletesAs s (.flush p sc a b) (s.settled.writeBack s.cur sc.toNat (inParts parts)))
            ∧ CompletesAs s (.invl p a b) (s.settled.updCore s.cur (·.discard fun y => !y.dirty && inParts parts y.pa)))
        ∧ (n ≠ 0 → canonical x = false ∨ 2 ^ 57 < va57 x + n.toNat →
            ∀ i ∈ [Instr.flush p sc a b, .invl p a b],
              TrapsWith s i { cause := Cause.address, evaddr := BitVec.ofNat 64 (va57 x % 2 ^ 57) }))
    ∧ (∀ ea t, effAddr s.ctx s a m = .ok ea → checkAccess s (va57 ea / 64 * 64) 64 .read false = .error t →
        CompletesAs s (.prfl p l a o m) s.settled)
    ∧ (∀ t, effAddr s.ctx s a m = .error (.trap t) → t.cause ≠ Cause.dataPoison → CompletesAs s (.prfl p l a o m) s.settled)
    ∧ (∀ ea g walk, effAddr s.ctx s a m = .ok ea → checkAccess s (va57 ea / 64 * 64) 64 .read false = .ok [(g, walk)] →
        placeOf s.cur g.pa = .mem → s.AllOpen → SlotReady (.prfl p l a o m) s →
        ∃ u, exec (.prfl p l a o m) s = .next u ∧ u.fr.r.s = s.fr.r.s
          ∧ (∀ b, s.CleanAt b → Memory.read u.mem b 1 = Memory.read s.mem b 1 ∧ u.coreRead s.cur b 1 = s.coreRead s.cur b 1))

/-- TINVR and TINVA remove translations, TABLE_WALK caches one. TINVA and TINVR check the ASID word, TINVR also its range. With no
access under way that may use a removed translation they run the whole protocol: afterwards no core's cache, no engine's cache, no
die's and no base die's holds a translation that they name, and every other translation stays. With such accesses under way the
translations go at once and the bundle holds until the accesses have performed; with eight invalidations waiting it holds. A zero
length does nothing; reserved bits of the ASID word and a range that leaves the canonical addresses raise the address trap.
TABLE_WALK caches the translation that the walk finds in the die and the core; a walk that fails raises its trap. (R256, R413, R415,
R416) -/
def Obligations.TranslationsInvalidated : Prop :=
∀ (s : State) (p : BitVec 3) (d a b : BitVec 6), Readable s a → Readable s b → Readable s d →
    let own := s.fr.ctl.inval
    let runs (i : Instr) (v : Inval) : Prop :=
      (own = none → 8 ≤ s.invals.length → SlotReady i s → exec i s = .next s.held)
      ∧ (own = none → s.invals.length < 8 → s.invalIds v ≠ [] → SlotReady i s → ∃ u, exec i s = .next u
          ∧ u.fr.ctl.inval = some s.nextId ∧ u.fr.ctl.pc = s.fr.ctl.pc ∧ u.mem = s.mem
          ∧ u.invals = s.invals ++ [{ id := s.nextId, ids := s.invalIds v, ranges := s.invalRanges v }]
          ∧ (∀ e, (∃ c, e ∈ (u.core c).l1tlb ∨ ∃ j, e ∈ (u.core c).utlb.get j) ∨ (∃ k, e ∈ (u.dies.get k).l2tlb ∨ e ∈ (u.bases.get k).tlb)
              → v.removes e = false))
      ∧ (∀ id, own = some id → (∃ q ∈ s.invals, q.id = id ∧ ∃ a ∈ q.ids, s.underWay a = true) → SlotReady i s → exec i s = .next s.held)
      ∧ (∀ id, own = some id → (∀ q ∈ s.invals, q.id = id → ∀ a ∈ q.ids, s.underWay a = false) →
          let w := s.settled.settleDrains.updCtl fun c => { c with inval := none }
          w.closed = false → CompletesAs s i w)
      ∧ (own = none → s.invals.length < 8 → s.invalIds v = [] →
          ((s.settled.invalidate v).closed = false → CompletesAs s i (s.settled.invalidate v))
          ∧ (∀ e, (∃ c, e ∈ ((s.settled.invalidate v).core c).l1tlb ∨ ∃ j, e ∈ ((s.settled.invalidate v).core c).utlb.get j)
                ∨ (∃ k, e ∈ ((s.settled.invalidate v).dies.get k).l2tlb ∨ e ∈ ((s.settled.invalidate v).bases.get k).tlb) → v.removes e = false)
          ∧ (∀ c e, e ∈ (s.core c).l1tlb → v.removes e = false → e ∈ ((s.settled.invalidate v).core c).l1tlb))
    let word (x : Word) : Inval := { every := x.getLsbD 16, asid := x.setWidth 16 }
    let reserved (x : Word) : Prop := (x >>> 17).toNat ≠ 0
    (reserved (s.rdS a) → TrapsWith s (.tinva p a) { cause := Cause.address })
    ∧ (¬ reserved (s.rdS a) → runs (.tinva p a) (word (s.rdS a)))
    ∧ (reserved (s.rdS b) → TrapsWith s (.tinvr p d a b) { cause := Cause.address })
    ∧ (¬ reserved (s.rdS b) → s.rdS d = 0 → CompletesAs s (.tinvr p d a b) s.settled)
    ∧ (¬ reserved (s.rdS b) → s.rdS d ≠ 0 → canonical (s.rdS a) = true → inRange57 (va57 (s.rdS a)) (s.rdS d).toNat = true →
        runs (.tinvr p d a b) { word (s.rdS b) with range := some (va57 (s.rdS a), (s.rdS d).toNat) })
    ∧ (¬ reserved (s.rdS b) → s.rdS d ≠ 0 → (canonical (s.rdS a) = false ∨ inRange57 (va57 (s.rdS a)) (s.rdS d).toNat = false) →
        TrapsWith s (.tinvr p d a b) { cause := Cause.address, evaddr := BitVec.ofNat 64 (va57 (s.rdS a) % 2 ^ 57) })
    ∧ (∀ walk, lookup s (dieOf s.arg.c) (s.core s.arg.c).l1tlb (s.frameAt s.arg.c s.arg.k).sys.asid (s.frameAt s.arg.c s.arg.k).sys.ptroot
          (va57 s.arg.w0) = .ok walk →
        ∃ t, exec .tableWalk s = .next t ∧ walk.leaf ∈ (t.core s.arg.c).l1tlb ∧ walk.leaf ∈ (t.dies.get (dieOf s.arg.c)).l2tlb ∧ t.mem = s.mem
          ∧ t.frameAt s.arg.c s.arg.k = s.frameAt s.arg.c s.arg.k)
    ∧ (∀ t, lookup s (dieOf s.arg.c) (s.core s.arg.c).l1tlb (s.frameAt s.arg.c s.arg.k).sys.asid (s.frameAt s.arg.c s.arg.k).sys.ptroot
          (va57 s.arg.w0) = .error t →
        exec .tableWalk s = .next (s.takeTrapAt s.arg.c s.arg.k { t with evaddr := s.arg.w0 } (s.frameAt s.arg.c s.arg.k).ctl.pc))

/-- The typed vector operations compute each element, under the active mask. For each of the eight types, VADD, VSUB, VMUL, VFMA,
VMIN, VMAX, VNEG and VABS give in element e of b bytes the operation on elements e of their sources: float types by one rounding to
nearest even of the exact result, integers modulo 2^(8b), signed comparison for i types and unsigned for n types, ABS of an n type
its source. The byte enables follow the active mask; VFMA reads its destination as the addend, zero with NW = 1. Latency 4 for
floats and for integer MUL and FMA, else 2. (R75, R80, R181, R182, R183) -/
def Obligations.VectorArithmetic : Prop :=
∀ (s : State) (p t : BitVec 3) (n : BitVec 1) (d a b : BitVec 6),
    let w := typeBytes t.toNat
    let W := 8 * w
    let M := 2 ^ W
    let signed : Bool := decide (3 ≤ t.toNat) && decide (t.toNat < 6)
    let below (x y : Nat) : Bool := if signed then decide (toInt W x < toInt W y) else decide (x < y)
    let elem (op x y z : Nat) : Nat := match typeFloat t.toNat with
      | some ft =>
        let u := ft.decode x
        let v := ft.decode y
        ft.rne (match op with
          | 0 => u.add v
          | 1 => u.add v.neg
          | 2 => u.mul v
          | 3 => (u.mul v).add (ft.decode z)
          | 4 => u.min v
          | 5 => u.max v
          | 6 => u.neg
          | _ => u.abs)
      | none => match op with
          | 0 => x + y
          | 1 => x + (M - y)
          | 2 => x * y
          | 3 => x * y + z
          | 4 => if below y x then y else x
          | 5 => if below x y then y else x
          | 6 => M - x
          | _ => if signed && decide (M / 2 ≤ x) then M - x else x
    let lat (op : Nat) : Nat := if t.toNat < 3 ∨ op = 2 ∨ op = 3 then 4 else 2
    let at1 (l : List Vec) (j e : Nat) : Nat := lane (l.getD j 0) W e
    let sa : VSrc := typedSrc 1 a t
    let sb : VSrc := typedSrc 2 b t
    let two (i : Instr) (op : Nat) : Prop := VectorGives s i (lat op) n d [sa, sb]
      (fun l r => ElementsAre w r fun e => elem op (at1 l 0 e) (at1 l 1 e) 0) (FollowsMask s w)
    let one (i : Instr) (op : Nat) : Prop := VectorGives s i (lat op) n d [sa]
      (fun l r => ElementsAre w r fun e => elem op (at1 l 0 e) 0 0) (FollowsMask s w)
    two (.vadd p t n d a b) 0 ∧ two (.vsub p t n d a b) 1 ∧ two (.vmul p t n d a b) 2 ∧ two (.vmin p t n d a b) 4
    ∧ two (.vmax p t n d a b) 5 ∧ one (.vneg p t n d a) 6 ∧ one (.vabs p t n d a) 7
    ∧ VectorGives s (.vfma p t n d a b) 4 n d ([sa, sb] ++ if n = 1 then [] else [typedSrc 0 d t])
        (fun l r => ElementsAre w r fun e => elem 3 (at1 l 0 e) (at1 l 1 e) (if n = 1 then 0 else at1 l 2 e)) (FollowsMask s w)

/-- Lane logic, shifts, moves, VSEL, VPERM and VIOTA. VAND, VOR, VXOR, VSHL, VSHR, VSAR, VMOV, VPERM and VIOTA give each of the 128
lanes of 32 bits by its rule and write the active ones; VSEL chooses by the active mask and writes every lane. Latency 2, VPERM 4.
(R181, R182, R185, R197, R198) -/
def Obligations.VectorLogicAndMoves : Prop :=
∀ (s : State) (p : BitVec 3) (n : BitVec 1) (d a b : BitVec 6),
    let sa : VSrc := { j := 1, f := a }
    let sb : VSrc := { j := 2, f := b }
    let x (l : List Vec) (e : Nat) : Nat := lane (l.getD 0 0) 32 e
    let y (l : List Vec) (e : Nat) : Nat := lane (l.getD 1 0) 32 e
    let both (i : Instr) (f : Nat → Nat → Nat) : Prop := VectorGives s i 2 n d [sa, sb]
      (fun l r => ElementsAre 4 r fun e => f (x l e) (y l e)) (FollowsMask s 4)
    both (.vand p n d a b) (fun u v => u &&& v) ∧ both (.vor p n d a b) (fun u v => u ||| v) ∧ both (.vxor p n d a b) (fun u v => u ^^^ v)
    ∧ both (.vshl p n d a b) (fun u v => u * 2 ^ (v % 32)) ∧ both (.vshr p n d a b) (fun u v => u / 2 ^ (v % 32))
    ∧ both (.vsar p n d a b) (fun u v => ((BitVec.ofNat 32 u).sshiftRight (v % 32)).toNat)
    ∧ VectorGives s (.vmov p n d a) 2 n d [sa] (fun l r => ElementsAre 4 r (x l)) (FollowsMask s 4)
    ∧ VectorGives s (.vsel p n d a b) 2 n d [sa, sb]
        (fun l r => ElementsAre 4 r fun e => if s.fr.active.getLsbD e then x l e else y l e) (fun en => en = allBytes)
    ∧ VectorGives s (.vperm p n d a b) 4 n d [sa, sb]
        (fun l r => ElementsAre 4 r fun e => if (y l e).testBit 31 then 0 else x l (y l e % 128)) (FollowsMask s 4)
    ∧ VectorGives s (.viota p n d a) 2 n d [sa] (fun l r => ElementsAre 4 r fun e => x l 0 + e) (FollowsMask s 4)

/-- VCMP writes the active bits of its mask register, VMKC a mask of the first n elements. VCMP compares element by element, floats
with equal zeros and every relation but ne false on NaN, and puts in flight to its mask register the results of the active elements,
with bits from the element count on written as zero; inactive bits keep their value; the result is the slot's vector unit's. VMKC
puts the first min(n, m) bits in flight to its mask register, n the control word and m the count of its width. Latency 4 for float
compares, else 2. (R64, R181, R184, R200) -/
def Obligations.VectorComparesAndMasks : Prop :=
∀ (s : State) (p : BitVec 3) (cc : BitVec 3) (t : BitVec 2) (md : BitVec 3) (a b : BitVec 6) (w : BitVec 2),
    let ty := [0, 1, 3, 6].getD t.toNat 0
    let nb := typeBytes ty
    let cnt := 512 / nb
    let holds (x y : Nat) : Bool := match typeFloat ty with
      | some ft =>
        let u := ft.decode x
        let v := ft.decode y
        (match cc.toNat with
          | 0 => u.eq v
          | 1 => !u.eq v
          | 2 => u.lt v
          | 3 => u.lt v || u.eq v
          | 4 => v.lt u
          | _ => v.lt u || u.eq v)
      | none =>
        let u := if t = 2 then toInt 32 x else (x : Int)
        let v := if t = 2 then toInt 32 y else (y : Int)
        (match cc.toNat with
          | 0 => decide (u = v)
          | 1 => decide (u ≠ v)
          | 2 => decide (u < v)
          | 3 => decide (u ≤ v)
          | 4 => decide (v < u)
          | _ => decide (v ≤ u))
    (∀ l seen v, readSrcs s.ctx s [{ j := 1, f := a, b := nb, isF32 := t == 0 }, { j := 2, f := b, b := nb, isF32 := t == 0 }]
        ([], s.settled) = .ok (l, seen, v) → v.closed = s.closed →
      ∃ en r : Mask, (∀ j, j < 512 → en.getLsbD j = (decide (cnt ≤ j) || s.fr.active.getLsbD j))
        ∧ (∀ j, j < 512 → r.getLsbD j = (decide (j < cnt) && holds (lane (l.getD 0 0) (8 * nb) j) (lane (l.getD 1 0) (8 * nb) j)))
        ∧ CompletesAs s (.vcmp p cc t md a b) (maskResult s.ctx (if t.toNat < 2 then 4 else 2) md en r v s.ctx.vUnit.val))
    ∧ (∀ l seen v, readSrcs s.ctx s [{ j := 1, f := a }] ([], s.settled) = .ok (l, seen, v) → v.closed = s.closed →
      ∃ r : Mask, (∀ j, j < 512 → r.getLsbD j = (decide (j < lane (l.getD 0 0) 32 0) && decide (j < 512 >>> w.toNat)))
        ∧ CompletesAs s (.vmkc p md a w) (maskResult s.ctx 2 md allBytes r v s.ctx.vUnit.val))

/-- VCVT, VCVTZ, VPACK8, VUNPK8, VQNT4 and VDQ4. VCVT rounds to nearest even and VCVTZ toward zero each of 128 elements between the
types of code k; a narrowing one writes its half, a widening one reads its half. VPACK8 writes quarter q with the 8-bit conversions,
VUNPK8 widens quarter q. VQNT4 writes the whole 68-byte record of its four quantised blocks, VDQ4 decodes such a record into f32 or
a half of bf16. Bytes outside what an operation produces are not written. (R92, R182, R186, R187, R188, R189) -/
def Obligations.VectorConversions : Prop :=
∀ (s : State) (p : BitVec 3) (n : BitVec 1) (d a : BitVec 6) (k : BitVec 4) (h z f : BitVec 1) (ty q : BitVec 2),
    let st := ([0, 0, 1, 2, 1, 2, 0, 3, 0, 6, 0, 4, 3, 4, 6, 7] : List Nat).getD k.toNat 0
    let dt := ([1, 2, 0, 0, 2, 1, 3, 0, 6, 0, 4, 0, 4, 3, 7, 6] : List Nat).getD k.toNat 0
    let sw := typeBytes st
    let dw := typeBytes dt
    let from_ := if sw < dw then 128 * h.toNat else 0
    let off := if dw < sw then 256 * h.toNat else 0
    let v0 (l : List Vec) : Vec := l.getD 0 0
    let cv (i : Instr) (rtz : Bool) : Prop := VectorGives s i 3 n d [{ j := 1, f := a, b := sw, isF32 := st == 0 }]
      (fun l r => ∀ e, e < 128 → lane r (8 * dw) (off / dw + e) = convert rtz st dt (lane (v0 l) (8 * sw) (from_ + e)) % 2 ^ (8 * dw))
      (FollowsMaskAt s dw 128 off)
    cv (.vcvt p n d a k h) false ∧ cv (.vcvtz p n d a k h) true
    ∧ VectorGives s (.vpack8 p n d a z ty q) 3 n d [{ j := 1, f := a, isF32 := true }]
        (fun l r => ∀ e, e < 128 → lane r 8 (128 * q.toNat + e) = pack8 (z == 1) ty.toNat (lane (v0 l) 32 e) % 256)
        (FollowsMaskAt s 1 128 (128 * q.toNat))
    ∧ VectorGives s (.vunpk8 p n d a ty q) 3 n d [{ j := 1, f := a, b := 1 }]
        (fun l r => ElementsAre 4 r fun e => unpack8 ty.toNat (lane (v0 l) 8 (128 * q.toNat + e))) (FollowsMask s 4)
    ∧ VectorGives s (.vqnt4 p n d a ty) 6 n d [{ j := 1, f := a, isF32 := true }]
        (fun l r => ∀ j, j < 4 →
          let blk := q4Quantise ty.toNat ((List.range 32).map fun i => f32.decode (lane (v0 l) 32 (32 * j + i)))
          lane r 8 (64 + j) = blk.1 % 256 ∧ ∀ i, i < 32 → lane r 4 (32 * j + i) = blk.2.getD i 0 % 16)
        (fun en => ∀ j, j < 512 → en.getLsbD j = decide (j < 68))
    ∧ (let value (l : List Vec) (e : Nat) : FVal := q4Decode (lane (v0 l) 8 (64 + e / 32)) (lane (v0 l) 4 e)
       (f = 0 → VectorGives s (.vdq4 p n d a h f) 3 n d [{ j := 1, f := a }]
          (fun l r => ElementsAre 4 r fun e => f32.rne (value l e)) (FollowsMask s 4))
       ∧ (f = 1 → VectorGives s (.vdq4 p n d a h f) 3 n d [{ j := 1, f := a }]
          (fun l r => ∀ e, e < 128 → lane r 16 (128 * h.toNat + e) = bf16.rne (value l e) % 2 ^ 16) (FollowsMaskAt s 2 128 (256 * h.toNat))))

/-- The special functions, VRED and VSCAN. VRCP to VCOS give each f32 lane the function of R190 under the active mask with latency
16 and a PMT_SFU permit. VRED.add, VRED.max and VRED.min give in their low bytes the tree reduction of the active elements,
unmasked, the identity standing for the inactive; VSCAN.add gives lane 0 its element and every later lane its element added to the
sum before it. Latency 9. (R96, R97, R182, R190, R191, R192) -/
def Obligations.VectorFunctionsAndReductions : Prop :=
∀ (s : State) (p : BitVec 3) (n : BitVec 1) (d a : BitVec 6) (t : BitVec 3),
    let sf (i : Instr) (f : FVal → Nat) : Prop := VectorGives s i 16 n d [{ j := 1, f := a, isF32 := true }]
      (fun l r => ElementsAre 4 r fun e => f (f32.decode (lane (l.getD 0 0) 32 e))) (FollowsMask s 4)
    let nb := typeBytes t.toNat
    let act (e : Nat) : Bool := s.fr.active.getLsbD e
    let x (l : List Vec) (e : Nat) : Nat := lane (l.getD 0 0) (8 * nb) e
    let red (i : Instr) (bytes : Nat) (f : List Vec → Nat) : Prop := VectorGives s i 9 n d [typedSrc 1 a t]
      (fun l r => r.toNat = f l % 2 ^ 4096) (fun en => ∀ j, j < 512 → en.getLsbD j = decide (j < bytes))
    let deep := if nb = 1 then 9 else if nb = 2 then 8 else 7
    let elems (g : Nat → Nat) (unit : Nat) (l : List Vec) : List Nat :=
      (List.range (512 / nb)).map fun e => if act e then g (x l e) else unit
    let isF := decide (t.toNat < 3)
    sf (.vrcp p n d a) sfRcp ∧ sf (.vrsq p n d a) sfRsq ∧ sf (.vexp2 p n d a) sfExp2 ∧ sf (.vlog2 p n d a) sfLog2
    ∧ sf (.vtanh p n d a) sfTanh ∧ sf (.vsigm p n d a) sfSigm ∧ sf (.vsin p n d a) (sfTrig 0) ∧ sf (.vcos p n d a) (sfTrig 1)
    ∧ (isF = true → ∀ ft, typeFloat t.toNat = some ft →
        red (.vredAdd p n d a t) 4 (fun l => (treeReduce addF32 deep (elems (fun y => f32.rne (ft.decode y)) 0x80000000 l)).headD 0))
    ∧ (isF = false → red (.vredAdd p n d a t) 4 (fun l => (treeReduce (fun u v => (u + v) % 2 ^ 32) deep
          (elems (fun y => ofInt 32 ((typeInt t.toNat).decode y)) 0 l)).headD 0))
    ∧ red (.vredMax p n d a t) nb (fun l => (treeReduce (fun u v => typedElem 5 t.toNat u v 0) deep (elems id (match typeFloat t.toNat with
          | some ft => ft.rne (.inf true)
          | none => if t.toNat < 6 then 2 ^ (8 * nb - 1) else 0) l)).headD 0)
    ∧ red (.vredMin p n d a t) nb (fun l => (treeReduce (fun u v => typedElem 4 t.toNat u v 0) deep (elems id (match typeFloat t.toNat with
          | some ft => ft.rne (.inf false)
          | none => if t.toNat < 6 then 2 ^ (8 * nb - 1) - 1 else 2 ^ (8 * nb) - 1) l)).headD 0)
    ∧ ((t = 0 ∨ t = 3 ∨ t = 6) → VectorGives s (.vscanAdd p n d a t) 9 n d [typedSrc 1 a t]
        (fun l r => ∃ y : Nat → Nat, ElementsAre 4 r y ∧
          let add (u v : Nat) : Nat := if t = 0 then addF32 u v else (u + v) % 2 ^ 32
          let en (e : Nat) : Nat := if act e then x l e else if t = 0 then 0x80000000 else 0
          y 0 = en 0 ∧ ∀ e, e < 127 → y (e + 1) = add (y e) (en (e + 1)))
        (FollowsMask s 4))

/-- VGMAX, VTOPK, VBCAST and VEXTR. VGMAX gives for each group the maximum of its active elements, minus infinity when none is
active, in the first 128 / 2^g elements and writes no other. VTOPK puts indices in elements 0 to 7 and values in 64 to 71 of the
first k candidates in rank order, fillers after them. VBCAST copies the element that the control word names into every element and
writes all bytes; VEXTR puts it, zero- or sign-extended, in flight to a scalar register with latency 4. (R182, R193, R194, R196,
R199) -/
def Obligations.VectorRoutingAndExtraction : Prop :=
∀ (s : State) (p : BitVec 3) (n : BitVec 1) (d a b : BitVec 6) (g k : BitVec 3),
    let x (l : List Vec) (e : Nat) : Nat := lane (l.getD 0 0) 32 e
    let act (e : Nat) : Bool := s.fr.active.getLsbD e
    let size := 2 ^ g.toNat
    let named (l : List Vec) : Nat × Nat :=
      let c := lane (l.getD 1 0) 32 0
      let w := 2 ^ (c / 512 % 4)
      (lane (l.getD 0 0) (8 * w) (c % 512 % (512 / w)), w)
    VectorGives s (.vgmax p n d a g) 6 n d [{ j := 1, f := a, isF32 := true }]
      (fun l r => ∀ i, i < 128 / size →
        ((∀ j, j < size → act (size * i + j) = false) → lane r 32 i = 0xFF800000)
        ∧ (∀ j, j < size → act (size * i + j) = true →
            let vals := ((List.range size).filter fun j => act (size * i + j)).map fun j => f32.decode (x l (size * i + j))
            ∃ v vs, vals = v :: vs ∧ lane r 32 i = f32.rne (vs.foldl FVal.max v) % 2 ^ 32))
      (fun en => ∀ j, j < 512 → en.getLsbD j = decide (j < 4 * (128 / size)))
    ∧ VectorGives s (.vtopk p n d a k) 12 n d [{ j := 1, f := a, isF32 := true }]
        (fun l r => ∀ j, j < 8 →
          let cs := (topCandidates s (l.getD 0 0)).take (k.toNat + 1)
          lane r 32 j = ((cs[j]?).map (·.1)).getD 0xFFFFFFFF % 2 ^ 32 ∧ lane r 32 (64 + j) = ((cs[j]?).map (·.2.2)).getD 0xFF800000 % 2 ^ 32)
        (fun en => ∀ j, j < 512 → en.getLsbD j = (decide (j < 32) || (decide (256 ≤ j) && decide (j < 288))))
    ∧ VectorGives s (.vbcast p n d a b) 2 n d [{ j := 1, f := a }, { j := 2, f := b }]
        (fun l r => ElementsAre (named l).2 r fun _ => (named l).1) (fun en => en = allBytes)
    ∧ (∀ l seen v, readSrcs s.ctx s [{ j := 1, f := a }, { j := 2, f := b }] ([], s.settled) = .ok (l, seen, v) → v.closed = s.closed →
        let y := named l
        let value : Word := if (lane (l.getD 1 0) 32 0).testBit 11 then BitVec.ofInt 64 (toInt (8 * y.2) y.1) else BitVec.ofNat 64 y.1
        CompletesAs s (.vextr p n d a b) (v.result s.ctx.slot 4 (if n = 1 then .none else .s d.toNat) (if n = 1 then 0 else firstBytes 8)
          (value.setWidth 4096) (some s.ctx.vUnit)))

/-- What a vector source reads and where a vector result goes, for every operand form. A view source reads the 512 bytes of its
element when the view's SHAPE is 0 and no byte is poisoned; another SHAPE is illegal at issue, an element out of bounds raises its
bound trap. An unbound entry reads itself; a read stream gives its head once for one instruction and consumes it, and raises stream
use when it is exhausted; a write stream raises stream use. BL0-BL3 broadcast their low bytes, BL4-BL11 and BP read whole, ZR is
zero, code 15 is illegal. A result goes to its element, its entry, BP, the latch alone, the new head of a read stream consumed by
the same instruction, or a push into a write stream with room; writing a read stream without reading it, or a write stream with no
element left, raises stream use. The binding is the one that stood before the bundle. (R19, R21, R50, R53, R64, R66, R180, R420) -/
def Obligations.VectorOperandForms : Prop :=
∀ (c : SlotCtx) (s w : State) (b : Nat) (isF : Bool) (seen : Seen) (lat : Nat) (ben : Mask) (data : Vec) (u : Option (Fin 3)),
    let trap {α : Type} (q : Cause) : Except Stop α := .error (.trap { cause := q })
    (∀ v i e, s.fr.elem v i = .ok e → s.lentZeroing e = false →
        (e.shape ≠ 0 → readV c s (.view v i) b isF (seen, w) = trap Cause.illegalInstruction
          ∧ writeV c s (some (.view v i)) seen lat ben data u w = trap Cause.illegalInstruction)
        ∧ (e.shape = 0 → (s.poisoned (s.elemPa e) 512 = false →
              readV c s (.view v i) b isF (seen, w) = .ok (BitVec.ofNat 4096 (Memory.read s.mem (s.elemPa e) 512), seen, w))
          ∧ writeV c s (some (.view v i)) seen lat ben data u w = .ok (w.result c.slot lat e.dest ben data u)))
    ∧ (∀ v i q, s.fr.elem v i = .error q → readV c s (.view v i) b isF (seen, w) = trap q
          ∧ writeV c s (some (.view v i)) seen lat ben data u w = trap q)
    ∧ (∀ k : Fin 16,
        ((s.fr.stream k).mode = 0 → (∀ q ∈ s.fr.r.oPoison, q.1 ≠ k.val) → readV c s (.ofe k) b isF (seen, w) = .ok (s.fr.r.ofe.get k, seen, w))
        ∧ ((s.fr.stream k).mode = 0 → writeV c s (some (.ofe k)) seen lat ben data u w = .ok (w.result c.slot lat (.ofe k.val) ben data u))
        ∧ ((s.fr.stream k).mode = 1 → (∀ x ∈ seen, x.1 ≠ k) →
            ((w.fr.stream k).queue = [] → (w.fr.stream k).left = 0 → readV c s (.ofe k) b isF (seen, w) = trap Cause.streamUse)
            ∧ (∀ e es, (w.fr.stream k).queue = e :: es → e.fault = none → e.tag = 0 → e.ready ≤ w.cyc w.cur →
                readV c s (.ofe k) b isF (seen, w) = .ok (e.data, (k, e.data) :: seen, w.updStream k fun q => { q with queue := es })))
        ∧ ((s.fr.stream k).mode = 1 → ∀ x, seen.find? (fun x => x.1 == k) = some x → readV c s (.ofe k) b isF (seen, w) = .ok (x.2, seen, w))
        ∧ ((s.fr.stream k).mode = 1 → ∀ x, seen.find? (fun x => x.1 == k) = some x → ∃ t,
            writeV c s (some (.ofe k)) seen lat ben data u w = .ok t ∧ (t.fr.stream k).left = (w.fr.stream k).left
              ∧ ∃ e, (t.fr.stream k).queue = e :: (w.fr.stream k).queue ∧ e.data = x.2 ∧ ∃ q ∈ t.fr.infl, q.dest = .ofHead k.val e.tag)
        ∧ (2 ≤ (s.fr.stream k).mode → readV c s (.ofe k) b isF (seen, w) = trap Cause.streamUse)
        ∧ ((s.fr.stream k).mode = 1 → (∀ x ∈ seen, x.1 ≠ k) → writeV c s (some (.ofe k)) seen lat ben data u w = trap Cause.streamUse)
        ∧ (2 ≤ (s.fr.stream k).mode → (w.fr.stream k).left = 0 → writeV c s (some (.ofe k)) seen lat ben data u w = trap Cause.streamUse)
        ∧ (2 ≤ (s.fr.stream k).mode → 0 < (w.fr.stream k).left → (w.fr.stream k).queue.length < (w.fr.stream k).depth →
            (w.fr.stream k).stopped = false → ∃ t, writeV c s (some (.ofe k)) seen lat ben data u w = .ok t
              ∧ (t.fr.stream k).left = (w.fr.stream k).left - 1 ∧ (t.fr.stream k).queue.length = (w.fr.stream k).queue.length + 1))
    ∧ (∀ i : Fin 4, readV c s (.special i.val) b isF (seen, w) = .ok (broadcast b (s.fr.r.lat.bs.get i).toNat, seen, w))
    ∧ (∀ i : Fin 8, readV c s (.special (4 + i.val)) b isF (seen, w) = .ok (s.fr.r.lat.bv.get i, seen, w))
    ∧ (s.fr.r.bpPoison = none → readV c s (.special 12) b isF (seen, w) = .ok (s.fr.r.bp, seen, w))
    ∧ readV c s (.special 13) b isF (seen, w) = .ok (0, seen, w)
    ∧ readV c s (.special 15) b isF (seen, w) = trap Cause.illegalInstruction
    ∧ writeV c s (some (.special 12)) seen lat ben data u w = .ok (w.result c.slot lat .bp ben data u)
    ∧ writeV c s none seen lat ben data u w = .ok (w.result c.slot lat .none 0 data u)

/-- MMA, MZERO, MCVT, MTRN and MSCALE take the waiting place, or trap. With the waiting place free, an MMA whose destination is an
accumulator tile of its format and whose sources are tiles of its two kinds, apart from the destination, takes the waiting place
with the lambda and the ragged mask of its issue, its accumulator forwarded when the running MMA has the same one; so do MZERO,
MCVT, MSCALE and MTRN on tiles of their shapes. An idle unit starts it in the same cycle. A source that meets the destination raises
illegal instruction, but for MTRN in place; a destination that does not resolve raises the trap of its view. Occupied waiting place:
the bundle holds. (R201, R202, R203, R205, R207, R210, R211, R212, R213) -/
def Obligations.MatrixOperationsIssue : Prop :=
∀ (s : State) (p f : BitVec 3) (d a b : BitVec 6) (z : BitVec 1) (t : BitVec 2),
    let acc (ty : Nat) : Except Stop Elem := mElem s (mOpd s.ctx 0 d) fun sh et => sh == 3 && et == ty
    let forwarded (o : MOp) : Bool := match o.kind, s.here.mrun with
      | .mma _ _, some r => (match r.kind with
          | .mma _ _ => true
          | _ => false) && decide (o.dst = r.dst)
      | _, _ => false
    let sent (w : State) (o : MOp) : State :=
      let u := w.updCore w.cur fun x =>
        { x with mwait := some { o with slot := w.here.run, nestIx := s.ctx.nest, nestGen := w.fr.mat.nest.gen, opSlot := s.ctx.slot, at_ := w.cyc w.cur, fwd := forwarded o } }
      if w.here.mrun = none then u.postCore w.cur (w.cyc w.cur) .matrixOpStart { n := w.cyc w.cur } else u
    let free : Prop := mWaits s.ctx s = false
    let mmas : List Instr := [.mmaAcc p f d a b, .mmaOvw p f d a b, .mmaDec p f d a b]
    (∀ cd ta tb, acc (if f = 3 then 3 else 0) = .ok cd →
        mElem s (tOpd s.ctx 1 a) (fun sh et => tileKind sh et == some (mmaKinds f.toNat).1) = .ok ta →
        mElem s (tOpd s.ctx 2 b) (fun sh et => tileKind sh et == some (mmaKinds f.toNat).2) = .ok tb →
        let dst := s.elemSpan cd
        let pa := s.elemSpan ta
        let pb := s.elemSpan tb
        let op (mode : Nat) : MOp := { kind := .mma mode f.toNat, dst := dst, a := pa, b := pb, lambda := s.fr.mat.lambda,
                                       live := s.fr.mat.live, occ := [64, 64, 64, 64, 256, 256, 64, 32].getD f.toNat 64 }
        (free → dst.meets pa = false → dst.meets pb = false →
          CompletesAs s (.mmaAcc p f d a b) (sent s.settled (op 0)) ∧ CompletesAs s (.mmaOvw p f d a b) (sent s.settled (op 1))
          ∧ CompletesAs s (.mmaDec p f d a b) (sent s.settled (op 2)))
        ∧ (dst.meets pa = true ∨ dst.meets pb = true → ∀ i ∈ mmas, TrapsWith s i { cause := Cause.illegalInstruction })
        ∧ (¬ free → dst.meets pa = false → dst.meets pb = false → ∀ i ∈ mmas, SlotReady i s → exec i s = .next s.held))
    ∧ (∀ q, acc (if f = 3 then 3 else 0) = .error (.trap q) → ∀ i ∈ mmas, TrapsWith s i q)
    ∧ (free → ∀ e, mElem s (mOpd s.ctx 0 d) (fun sh et => sh == 3 && (et == 0 || et == 3)) = .ok e →
        CompletesAs s (.mzero p d) (sent s.settled { kind := .mzero, dst := s.elemSpan e, occ := 8 }))
    ∧ (∀ cd ta, mElem s (mOpd s.ctx 0 d) (fun sh et => tileKind sh et == some t.toNat) = .ok cd →
        mElem s (tOpd s.ctx 1 a) (fun sh et => sh == 3 && et == 0) = .ok ta →
        (free → (s.elemSpan cd).meets (s.elemSpan ta) = false → CompletesAs s (.mcvt p d a z t)
          (sent s.settled { kind := .mcvt t.toNat (z == 1), dst := s.elemSpan cd, a := s.elemSpan ta, occ := 16 }))
        ∧ ((s.elemSpan cd).meets (s.elemSpan ta) = true → TrapsWith s (.mcvt p d a z t) { cause := Cause.illegalInstruction }))
    ∧ (∀ cd ta, mElem s (mOpd s.ctx 0 d) (fun sh _ => sh == 1 || sh == 2 || sh == 3) = .ok cd →
        mElem s (tOpd s.ctx 1 a) (fun sh et => sh == cd.shape && et == cd.etype) = .ok ta →
        (free → s.elemSpan cd = s.elemSpan ta ∨ (s.elemSpan cd).meets (s.elemSpan ta) = false → CompletesAs s (.mtrn p d a)
          (sent s.settled { kind := .mtrn cd.shape, dst := s.elemSpan cd, a := s.elemSpan ta, occ := [0, 8, 16, 32].getD cd.shape 0 }))
        ∧ (s.elemSpan cd ≠ s.elemSpan ta → (s.elemSpan cd).meets (s.elemSpan ta) = true →
            TrapsWith s (.mtrn p d a) { cause := Cause.illegalInstruction }))
    ∧ (free → ∀ e pa r x pb q seen w, acc 0 = .ok e → factorOf s.ctx s (tOpd s.ctx 1 a) ([], s.settled) = .ok (pa, r, x) →
        factorOf s.ctx s (tOpd s.ctx 2 b) x = .ok (pb, q, seen, w) → w.closed = s.closed →
        (s.elemSpan e).meets pa = false → (s.elemSpan e).meets pb = false → CompletesAs s (.mscale p d a b)
          (sent w { kind := .mscale, dst := s.elemSpan e, a := pa, b := pb, rvec := r, cvec := q, live := s.fr.mat.live, occ := 16 }))

/-- MDECAY, MRAG, MREL, MNWAIT, MLDT and MSTT. With the waiting place free, MDECAY sets lambda to the low word of its source, MRAG
the live rows of a valid record (row m lives when a segment holds it below FIRST + LIVE) or, with its unbinding source, all rows,
and MREL drops the pins of its tag; an invalid record raises the ragged-record trap. MNWAIT completes when what it names is over,
and holds before. MLDT and MSTT enter the tile fetch unit with their descriptor's values and the space of their issue while fewer
than four of their kind are there, and hold otherwise; a bad pitch or ALV raises illegal instruction, a base that is not a multiple
of 64 the address trap. (R203, R209, R214, R215, R216, R217, R218, R219, R225) -/
def Obligations.MatrixStateAndTileCommands : Prop :=
∀ (s : State) (p : BitVec 3) (d a b : BitVec 6) (t : BitVec 4),
    let free : Prop := mWaits s.ctx s = false
    let mat (w : State) (f : MatState → MatState) : State := w.updFr fun x => { x with mat := f x.mat }
    let nest := s.fr.mat.nest.running
    let tiles := s.here.tiles.any fun x => x.slot == s.here.run
    let until_ (i : Instr) (busy : Bool) : Prop :=
      (busy = false → CompletesAs s i s.settled) ∧ (busy = true → SlotReady i s → exec i s = .next s.held)
    (free → ∀ x seen w, readV s.ctx s (tOpd s.ctx 1 a) 4 true ([], s.settled) = .ok (x, seen, w) → w.closed = s.closed →
      CompletesAs s (.mdecay p a) (mat w fun m => { m with lambda := BitVec.ofNat 32 (lane x 32 0) }))
    ∧ (free → a = 0x3D#6 → CompletesAs s (.mrag p a) (mat s.settled fun m => { m with live := none }))
    ∧ (a ≠ 0x3D#6 → ∀ v seen w, readV s.ctx s (tOpd s.ctx 1 a) 4 false ([], s.settled) = .ok (v, seen, w) → w.closed = s.closed →
        (∀ l, ragLive v = some l → (free → CompletesAs s (.mrag p a) (mat w fun m => { m with live := some l }))
          ∧ ∀ m, m < 128 → l.getLsbD m = (List.range (field (lane v 32 0) 0 6)).any fun i =>
              let seg := lane v 32 (i + 1)
              decide (field seg 0 7 ≤ m) && decide (m < field seg 0 7 + field seg 16 8))
        ∧ (ragLive v = none → TrapsWith s (.mrag p a) { cause := Cause.raggedRecord }))
    ∧ (free → CompletesAs s (.mrel p t) (mat s.settled fun m => { m with pins := m.pins.filter fun x => x.1 != t.toNat }))
    ∧ until_ (.mnwaitN p) (s.here.mwait.isSome || nest) ∧ until_ (.mnwaitT p) (s.here.mwait.isSome || tiles)
    ∧ until_ (.mnwaitNt p) (s.here.mwait.isSome || nest || tiles)
    ∧ (Readable s d → Readable s a → Readable s b → ∀ e,
        let shaped (x : Opd) : Prop := mElem s x (fun sh _ => decide (1 ≤ sh) && decide (sh ≤ 4)) = .ok e
        let cmd (store : Bool) (va desc : Word) : TileCmd :=
          { id := s.nextId, slot := s.here.run, store := store, elem := s.elemSpan e, shape := e.shape, va := va,
            pitch := bits desc 0 32, tag := if !store ∧ bit desc 36 = true then some (bits desc 32 4) else none,
            nestIx := s.ctx.nest, nestGen := s.fr.mat.nest.gen, opSlot := s.ctx.slot, root := s.fr.sys.ptroot, asid := s.fr.sys.asid }
        let goes (i : Instr) (store : Bool) (x : Opd) (base desc : Word) (row : Instr) : Prop :=
          let lidx := if h : 1 ≤ bits desc 37 3 ∧ bits desc 37 3 ≤ 6 then (s.fr.ctl.lv.get ⟨bits desc 37 3 - 1, by omega⟩).lidx else 0
          let va := base + wd (64 * bits desc 40 24 * lidx)
          let good : Prop := bits desc 37 3 ≠ 7 ∧ bits desc 0 32 % 64 = 0
            ∧ (store = true → rowSize e.shape ≤ bits desc 0 32 ∧ bits desc 32 5 = 0)
          let rows : Prop := ∀ r, r < 128 → canonical (va + wd (bits desc 0 32 * r)) = true
          let room : Prop := (s.here.tiles.filter (·.store == store)).length < 4
          shaped x →
          (¬ good → TrapsWith s i { cause := Cause.illegalInstruction })
          ∧ (good → va.toNat % 64 ≠ 0 → TrapsWith s i { cause := Cause.address, evaddr := BitVec.ofNat 64 (va.toNat % 2 ^ 57) })
          ∧ (good → va.toNat % 64 = 0 → rows → free → room →
              let parts := (List.range 128).flatMap fun r => s.rangePhys s.cur s.fr (va57 (va + wd (bits desc 0 32 * r))) (rowSize e.shape)
              let l := dedup (lsTiles s.cur parts)
              let y := s.settled.engineIssue s.cur 2
              let w := if store then y.2.publish y.1.w 0 else y.2
              CompletesAs s i (((w.touchTiles s.cur s.here.run l).bump.updCore s.cur fun z =>
                { z with tiles := z.tiles ++ [{ cmd store va desc with tiles := l, away := awayTiles s.cur parts, by_ := y.1 }] }).postFree
                  s.cur 1 row { k := s.here.run, id := s.nextId }))
          ∧ (good → va.toNat % 64 = 0 → rows → ¬ (free ∧ room) → SlotReady i s → exec i s = .next s.held)
        goes (.mldt p d a b) false (tOpd s.ctx 1 a) (s.rdS d) (s.rdS b) .tileFetchLand
        ∧ goes (.mstt p d a b) true (mOpd s.ctx 0 d) (s.rdS a) (s.rdS b) .tileStorePerformed)

/-- MNEST binds the levels from its own on, and the nest issues its program by itself. MNEST of a level below the floor, beyond the
open ones, or with a counted level raises loop nesting; a program that is too long, or whose innermost loop does not start here, or
holds what R221 does not list, raises nest content. A well-formed one closes the bound levels, which show NEST, sets the nest table
running over the program it fetched, and the sequencer goes on after the outermost bound loop. NEST_BUNDLE_ISSUE skips the MNEST,
opens a loop again at its LOOP, issues a bundle of operations whole without touching the sequencer's registers and control state,
and moves to the next by R160 over the table; an operation that has met a quiesced stack waits for its place there. NEST_END writes
LIDX and LROTC back to the bound levels that still show NEST. (R177, R178, R221, R222, R223, R224, R226) -/
def Obligations.NestsStartAndIssue : Prop :=
(∀ (s : State) (p l : BitVec 3),
    let f := s.fr
    let first := l.toNat
    let last := f.ctl.depth
    let bound (q : Level → Prop) : Prop := ∀ v : Fin 6, first ≤ v.val → v.val < last → q (f.ctl.lv.get v)
    let lo := (levelOf f.ctl.lv first).lstart
    let hi := (levelOf f.ctl.lv first).lstop
    let n := (hi.toNat - lo.toNat) / 16 + 1
    let fits : Prop := first < last ∧ f.ctl.floor ≤ first ∧ bound fun x => x.lidx = 0
    last ≤ 6 →
    (¬ fits → TrapsWith s (.mnest p l) { cause := Cause.loopNesting })
    ∧ (fits → mWaits s.ctx s = true → SlotReady (.mnest p l) s → exec (.mnest p l) s = .next s.held)
    ∧ (fits → mWaits s.ctx s = false → ((levelOf f.ctl.lv (last - 1)).lstart ≠ f.ctl.pc ∨ 32 < n) →
        TrapsWith s (.mnest p l) { cause := Cause.nestContent })
    ∧ (fits → mWaits s.ctx s = false → (levelOf f.ctl.lv (last - 1)).lstart = f.ctl.pc → n ≤ 32 →
        ∀ prog w, nestFetch s s.settled ((List.range n).map fun (i : Nat) => lo + wd (16 * i)) = .ok (prog, w) → w.closed = s.closed →
        (prog.mapM (fun x => (nestBundle x.2 ((x.1 - lo.toNat) / 16)).map fun y => (x.1, y)) = none →
          TrapsWith s (.mnest p l) { cause := Cause.nestContent })
        ∧ (∀ shaped, prog.mapM (fun x => (nestBundle x.2 ((x.1 - lo.toNat) / 16)).map fun y => (x.1, y)) = some shaped →
            let regs := nestRegs (shaped.flatMap fun x => x.2.names.1)
            let pipe : Prop := ∃ v : Fin 6, first ≤ v.val ∧ v.val < last ∧ (f.ctl.lv.get v).pipe = true
            nestShapeOk f.ctl.lv first last f.ctl.pc shaped = true →
            (∀ x ∈ shaped, ∀ q ∈ x.2.names.2, q = 0 ∨ (pipe ∧ 4 ≤ q.toNat)) → regs.length ≤ 8 →
            (∀ r ∈ regs, f.pendingS r = false ∧ Readable s (BitVec.ofNat 6 r)) → SlotReady (.mnest p l) s →
            let r := (s.settled.fr.bindLevels first).backEdge hi 6
            ∃ u, exec (.mnest p l) s = .next u ∧ u.fr.mat.nest.running = true ∧ u.fr.mat.nest.ended = false
              ∧ u.fr.mat.nest.program = prog ∧ u.fr.mat.nest.first = first ∧ u.fr.mat.nest.last = last ∧ u.fr.mat.nest.depth = last
              ∧ u.fr.mat.nest.pos = f.ctl.pc ∧ u.fr.ctl.pc = r.2.1 ∧ u.fr.ctl.lv = r.1.ctl.lv ∧ u.fr.ctl.depth = r.1.ctl.depth
              ∧ u.mem = s.mem ∧ u.fr.r.s = f.r.s))
    ∧ (first < last → (f.bindLevels first).ctl.depth = first
        ∧ ∀ v : Fin 6, first ≤ v.val → v.val < last → ((f.bindLevels first).ctl.lv.get v).nest = true
            ∧ ((f.bindLevels first).ctl.lv.get v).isOpen = false ∧ ((f.bindLevels first).ctl.lv.get v).lcnt = 0))
  ∧ (∀ s : State,
    let n := s.fr.mat.nest
    let lands (u : State) (n' : Nest) : Prop := u.fr.mat.nest = n' ∧ u.fr.ctl = s.fr.ctl ∧ u.fr.r.s = s.fr.r.s ∧ u.fr.r.lat = s.fr.r.lat
      ∧ u.fr.infl = s.fr.infl
    (n.running = false ∨ n.ended = true → exec .nestBundleIssue s = .next s)
    ∧ (n.running = true → n.ended = false → s.arg.u = 1 → s.resumes .nestBundleIssue = false → exec .nestBundleIssue s = .next s)
    ∧ (n.running = true → n.ended = false → (s.arg.u = 1 → s.resumes .nestBundleIssue = true) → s.placed s.cur .nestBundleIssue = true →
        exec .nestBundleIssue s = .next (s.updCore s.cur fun x => { x with nestAt := some (s.cyc s.cur) }))
    ∧ (n.running = true → n.ended = false → (s.arg.u = 1 → s.resumes .nestBundleIssue = true) → s.placed s.cur .nestBundleIssue = false →
        ∀ a b, n.program.find? (·.1 == n.pos.toNat) = some (a, b) →
        let kind := nestBundle b ((a - (levelOf n.lv n.first).lstart.toNat) / 16)
        (∀ p, kind = some (.skip p) → ∃ u, exec .nestBundleIssue s = .next u ∧ lands u n.advance ∧ u.mem = s.mem)
        ∧ (∀ p c o, kind = some (.reopen p c o) → ∃ u, exec .nestBundleIssue s = .next u ∧ lands u n.reopen.advance ∧ u.mem = s.mem)
        ∧ (∀ ops, kind = some (.ops ops) →
            let v := s.updFr fun f => f.nestView
            let live := ops.filter fun o => o.live v.fr
            let w := (runSlots v live { w := v }).w
            operandsPending v live = false → s.fr.ctl.orderFrom = none → selfConflict v live = none → runSlots v live { w := v } = { w := w } →
            (s.here.refillTo (s.cyc s.cur)).covers (drawSum live (·.mx)) 0 0 (drawSum live (·.memp)) = true →
            s.admits s.cur (bundleWeight s.fr.id.ewtab (headerWeight b) (hasHeader b) (ops.map (·.cls))) = true →
            w.cur = s.cur → w.here.run = s.here.run →
            ∃ u, exec .nestBundleIssue s = .next u ∧ lands u n.advance ∧ u.fr.mat.lambda = w.fr.mat.lambda))
    ∧ (let g := s.frameAt s.arg.c s.arg.k
       let m := g.mat.nest
       (m.running = true ∧ m.ended = true → ∃ u, exec .nestEnd s = .next u ∧ (u.frameAt s.arg.c s.arg.k).mat.nest.running = false
          ∧ ∀ v : Fin 6, (u.frameAt s.arg.c s.arg.k).ctl.lv.get v =
              if m.first ≤ v.val ∧ v.val < m.last ∧ (g.ctl.lv.get v).nest = true then
                { g.ctl.lv.get v with lidx := (m.lv.get v).lidx, lrotc := (m.lv.get v).lrotc } else g.ctl.lv.get v)
       ∧ (¬ (m.running = true ∧ m.ended = true) → exec .nestEnd s = .next s)))

/-- MATRIX_OP_START fixes the occupancy, MATRIX_OP_COMPLETE writes the destination. An idle unit takes the waiting operation and
fixes its last cycle by its occupancy times MXDIV. A cycle of the occupancy passes when every granule that the operation reads in it
finds the read port of a bank it stands in free and every one that it writes those of all, and is lost otherwise. An operation that
has cycles left at its end ends that many later. At its end, with no poisoned source, the live rows of the destination become the
operation's result from the bytes as they stood, each byte outside the rows written stays, the span is readable after its time, and
no register changes. An i8 output element is the exact sum modulo 2^32. A poisoned source writes nothing and raises DATA_POISON
asynchronously. How the granules are spread over the occupancy is the model's choice (log 50). (R29, R93, R94, R203, R208, R210,
R211, R212, R213, R278, R420, R451) -/
def Obligations.MatrixUnitAtWork : Prop :=
(∀ (s : State) (o : MOp),
    let c := s.arg.c
    let now := ((s.runUnit c).core c).mrun
    ((s.core c).mrun = none → (s.core c).mwait = some o → ∃ t m, exec .matrixOpStart s = .next t
      ∧ (t.core c).mwait = none ∧ (t.core c).mrun = some m ∧ t.mem = s.mem
      ∧ m.kind = o.kind ∧ m.dst = o.dst ∧ m.a = o.a ∧ m.b = o.b ∧ m.readable = 12 * (s.core c).divAt s.arg.n + 1
      ∧ m.occ = o.occ * (s.core c).divAt s.arg.n ∧ m.upTo = s.arg.n ∧ m.ends = s.arg.n + m.occ - 1
      ∧ (∃ e ∈ (t.core c).events, e.row = .matrixOpComplete ∧ e.at_ = m.ends))
    ∧ (now = some o → o.pos < o.occ → ∃ t, exec .matrixOpComplete s = .next t ∧ t.mem = s.mem
        ∧ (t.core c).mrun = some { o with ends := o.ends + (o.occ - o.pos) }
        ∧ ∃ e ∈ (t.core c).events, e.row = .matrixOpComplete ∧ e.at_ = o.ends + (o.occ - o.pos))
    ∧ (now = some o → o.occ ≤ o.pos → (∀ p ∈ o.readBytes, s.poisoned p.1 p.2 = false) →
        ∃ t, exec .matrixOpComplete s = .next t ∧ (t.core c).mrun = none ∧ (∀ k, t.frameAt c k = s.frameAt c k)
          ∧ (o.dst, o.ends + o.readable) ∈ (t.core c).mdone
          ∧ (let old (m : Nat) : Nat := Memory.read s.mem (o.dst.pa + 512 * m) 512
             let src (n m : Nat) : Nat := Memory.read s.mem (o.a.pa + n * m) n
             let f32At (x i : Nat) : FVal := f32.decode (field x (32 * i) 32)
             let writes (n : Nat) (live : Nat → Bool) (row : Nat → Nat) : Prop := ∀ b, Memory.read t.mem b 1 =
               if o.dst.pa ≤ b ∧ b < o.dst.pa + 128 * n ∧ live ((b - o.dst.pa) / n) = true
               then getByte (row ((b - o.dst.pa) / n)) ((b - o.dst.pa) % n) else Memory.read s.mem b 1
             match o.kind with
             | .mma mode f =>
               let k := mmaKinds f
               if k.1 = 4 then writes 512 o.rowLive fun m =>
                 mmaRowInt mode (old m) (s.rowInts o.a.pa m) ((List.range 128).map (s.rowInts o.b.pa))
               else writes 512 o.rowLive fun m =>
                 mmaRow mode o.lambda.toNat (old m) (s.rowVals o.a.pa k.1 m) ((List.range 128).map fun n => blocks32 (s.rowVals o.b.pa k.2 n))
             | .mzero => writes 512 (fun _ => true) fun _ => 0
             | .mscale =>
               let r := if o.a.len = 0 then o.rvec.toNat else Memory.read s.mem o.a.pa 512
               let q := if o.b.len = 0 then o.cvec.toNat else Memory.read s.mem o.b.pa 512
               writes 512 o.rowLive fun m => buildNat 32 (fun n => f32.rne (((f32At (old m) n).mul (f32At r m)).mul (f32At q n))) 128
             | .mcvt ty rtz =>
               let x := [e4m3, e5m2, bf16, f16].getD ty f32
               writes (kindRow ty) (fun _ => true) fun m => buildNat x.width (fun k => x.round rtz (f32At (src 512 m) k)) 128
             | .mtrn shape =>
               let n := rowSize shape
               writes n (fun _ => true) fun k => buildNat (8 * (n / 128)) (fun r => field (src n r) (8 * (n / 128) * k) (8 * (n / 128))) 128))
    ∧ (now = some o → o.occ ≤ o.pos → ∀ p, o.readBytes.find? (fun p => s.poisoned p.1 p.2) = some p →
        (s.frameAt c o.slot).ctl.halted = false → ∃ t, exec .matrixOpComplete s = .next t ∧ t.mem = s.mem ∧ (t.core c).mrun = none
          ∧ (t.frameAt c o.slot).r = (s.frameAt c o.slot).r
          ∧ ∃ q ∈ (t.frameAt c o.slot).tr.due, q.cause = Cause.dataPoison ∧ q.async = true ∧ q.src = (s.poisonTrap p.1 p.2).src))
  ∧ (∀ (o : MOp) (mirrors : List (Nat × Nat)) (ports : List (Nat × Nat × Port)), o.pos < o.occ →
      let taken (w : Bool) (b : Nat) : Prop := ∃ p ∈ ports, p.1 = o.upTo ∧ p.2.1 = b ∧ p.2.2.writes = w
      let banks (g : Nat) : List Nat := g % 16 :: (mirrors.filter (·.1 == g)).map (·.2)
      ((∀ g ∈ o.nowReads, ∃ b ∈ banks g, ¬ taken false b) → (∀ g ∈ o.nowWrites, ∀ b ∈ banks g, ¬ taken true b) →
        (o.run mirrors ports 1).pos = o.pos + 1)
      ∧ ((∃ g ∈ o.nowWrites, ∃ b ∈ banks g, taken true b) → (o.run mirrors ports 1).pos = o.pos)
      ∧ ((∃ g ∈ o.nowReads, ∀ b ∈ banks g, taken false b) → (o.run mirrors ports 1).pos = o.pos))
  ∧ (∀ (mode old : Nat) (a : List Int) (bs : List (List Int)) (n : Nat), n < bs.length → bs.length ≤ 128 →
      field (mmaRowInt mode old a bs) (32 * n) 32 =
        ofInt 32 ((if mode = 1 then 0 else (field old (32 * n) 32 : Int)) + (List.zipWith (· * ·) a (bs.getD n [])).sum))

/-- TILE_FETCH_LAND, TILE_STORE_PERFORMED and TILE_FETCH_FAULT. When every row of a fetch can be read under the space of its issue
and its lines find room for their pins, the fetch takes the bytes of its rows, shape 4 with their scale bytes, and its lines stand
pinned; without room it is held; a first row that faults takes none. A fetch that has its bytes asks for the banks of its granules
until all have had their ports; then the rows stand in the element, row after row, scale bytes behind the codes, no other byte and
no register changes, and the command ends, or after a row that faulted raises its fault event. A store, once its element's granules
have had their banks, writes its rows in order, each as its bytes stand at its address where no write held there outranks it; it
ends after the last. The fault event takes the command from the unit and makes its trap due on the task, and nothing else of the
register file changes. (R87, R88, R129, R216, R217, R218, R219, R226, R278, R322, R324) -/
def Obligations.TileFetchAtWork : Prop :=
∀ (s : State) (x : TileCmd),
    let c := s.arg.c
    let f := (s.frameAt c x.slot).under x.root x.asid
    let size := rowSize x.shape
    let rest := (s.core c).tiles.filter (·.id != x.id)
    let regsKept (t : State) : Prop := ∀ k, (t.frameAt c k).r = (s.frameAt c k).r
    let faulted (t : State) (e : Trap) (row : Nat) : Prop := ∃ v ∈ t.agenda, v.row = .tileFetchFault ∧ v.at_ = s.time ∧ v.arg.c = c
      ∧ v.arg.id = x.id ∧ v.arg.n = row ∧ v.arg.w0 = e.cause.setWidth 64 ∧ v.arg.w1 = e.evaddr
    (s.core c).tiles.find? (·.id == s.arg.id) = some x → 1 ≤ x.shape → x.shape ≤ 4 →
    (x.got = none → ∀ seg : Nat → List (Seg × Walked),
      (∀ r, r < 128 → engineSegs s c f 2 .read (va57 (x.rowVa r)) size = .ok (seg r) ∧ s.segsPoison (dieOf c) (seg r) = none
        ∧ (x.shape = 4 → ∀ y ∈ seg r, s.sidecarPoison c y.1 = none) ∧ s.engineRead c (seg r) < 2 ^ (8 * size)) →
      let lines := (List.range 128).flatMap fun r => memLines c (seg r)
      let scale (r : Nat) : Nat := match seg r with
        | y :: _ => s.sidecar c y.1.pa
        | [] => 0
      (x.shape = 4 → ∀ r, r < 128 → scale r < 2 ^ 32) →
      if x.tag = none ∧ s.fetchHeldByPins c lines = true then exec .tileFetchLand s = .next (s.postFree c 1 .tileFetchLand s.arg)
      else ∃ t y data side, exec .tileFetchLand s = .next t ∧ (t.core c).tiles.find? (·.id == s.arg.id) = some y ∧ regsKept t
          ∧ y.elem = x.elem ∧ y.got = some (128, data, side) ∧ y.fault = none
          ∧ (x.tag = none → y.lines = lines)
          ∧ (∀ r j, r < 128 → j < size → getByte data (r * size + j) = getByte (s.engineRead c (seg r)) j)
          ∧ (x.shape = 4 → ∀ r j, r < 128 → j < 4 → getByte side (4 * r + j) = getByte (scale r) j)
          ∧ ∀ b, (∀ e ∈ (s.dies.get (dieOf c)).l2, e.1 ≠ b) → Memory.read t.mem b 1 = Memory.read s.mem b 1)
    ∧ (x.got = none → ∀ e, engineSegs s c f 2 .read (va57 (x.rowVa 0)) size = .error e → ∃ t y, exec .tileFetchLand s = .next t ∧ t.mem = s.mem
        ∧ regsKept t ∧ (t.core c).tiles.find? (·.id == s.arg.id) = some y ∧ y.got = some (0, 0, 0) ∧ y.fault = some (e, 0))
    ∧ (∀ n data side, x.got = some (n, data, side) → n ≤ 128 →
        let turn := s.tileTurn c x (x.landGranules n) .tileFetchLand
        (turn.2 = false → exec .tileFetchLand s = .next turn.1 ∧ turn.1.mem = s.mem)
        ∧ (turn.2 = true → ∃ t, exec .tileFetchLand s = .next t ∧ regsKept t
          ∧ (x.fault = none → (t.core c).tiles = rest)
          ∧ (∀ e row, x.fault = some (e, row) → faulted t e row)
          ∧ ∀ b, Memory.read t.mem b 1 =
              if x.elem.pa ≤ b ∧ b < x.elem.pa + n * size then getByte data (b - x.elem.pa)
              else if x.shape = 4 ∧ x.elem.pa + 0x2000 ≤ b ∧ b < x.elem.pa + 0x2000 + 4 * n then getByte side (b - (x.elem.pa + 0x2000))
              else Memory.read s.mem b 1))
    ∧ (let turn := s.tileTurn c x x.elem.granules .tileStorePerformed
       let r := storeRows c ((turn.1.frameAt c x.slot).under x.root x.asid) x turn.1 0 128
       (turn.2 = false → exec .tileStorePerformed s = .next turn.1 ∧ turn.1.mem = s.mem)
       ∧ (turn.2 = true → r.2 = none → ∃ t, exec .tileStorePerformed s = .next t ∧ t.mem = r.1.mem
          ∧ (t.core c).tiles = (r.1.core c).tiles.filter (·.id != x.id))
       ∧ (turn.2 = true → ∀ e row, r.2 = some (e, row) → ∃ t, exec .tileStorePerformed s = .next t ∧ t.mem = r.1.mem ∧ ∃ v ∈ t.agenda,
          v.row = .tileFetchFault ∧ v.arg.c = c ∧ v.arg.id = x.id ∧ v.arg.n = row ∧ v.arg.w0 = e.cause.setWidth 64))
    ∧ (∀ (r n : Nat) (g : Seg) (walk : Walked), s.poisoned (x.elem.pa + size * r) size = false → x.shape ≠ 4 →
        engineSegs s c f 2 .write (va57 (x.rowVa r)) size = .ok [(g, walk)] → g.off = 0 → g.len = size → physClass g.pa ≠ .window →
        s.yieldsAt { by_ := x.by_, before := x.before.map fun n => (coreWriter c, n) } g.pa size = 0 →
        ∃ w', storeRows c f x s r (n + 1) = storeRows c f x w' (r + 1) n
          ∧ w'.mem = Memory.write s.mem g.pa size (Memory.read s.mem (x.elem.pa + size * r) size))
    ∧ (f.ctl.halted = false → ∃ t, exec .tileFetchFault s = .next t ∧ (t.core c).tiles = rest ∧ t.mem = s.mem
        ∧ (t.frameAt c x.slot).r = f.r ∧ ∃ q ∈ (t.frameAt c x.slot).tr.due, q.cause = s.arg.w0.setWidth 8 ∧ q.async = true
            ∧ q.evaddr = s.arg.w1)

/-- CPY, CPYW and CPYM enter their copy unit, and are refused at issue for bad descriptors and addresses. With their descriptor in
order, their ranges canonical and reaching nothing barred, and room in the unit, CPY, CPYW and CPYM complete: the command stands
last in its unit with its addresses, length, rows and strides, numbered among the task's commands there, and the bytes a CPY or CPYW
is to move are added to the BARPEND of its BAR when BE = 1; neither memory nor a scalar register changes. A command of no byte moves
nothing: it does not enter the unit but for a record that must wait there. A full unit holds the bundle. A reserved bit of the
descriptor, a target word out of order, a row that is not canonical at its start and end, and a row that reaches the own register
space or a control space raise the address trap, the source's first. (R120, R237, R238, R240, R241, R242, R243, R257, R260, R326) -/
def Obligations.CopyCommands : Prop :=
∀ (s : State) (p : BitVec 3) (d a b : BitVec 6), Readable s d → Readable s a → Readable s b → s.fr.id.valid = true →
    let u := s.ctx.unit
    let x := s.rdS b
    let y := s.rdS (b + 1)
    let to_ := s.rdS d
    let len := bits x 0 32
    let sig : BitVec 24 := BitVec.ofNat 24 (bits x 32 24)
    let good : Prop := bits x 56 8 = 0 ∧ bits x 38 2 = 0
    let room : Prop := (s.here.cu.get u).length < 16
    let rows := if len = 0 then 0 else bits y 48 16
    let off := bits to_ 0 21
    let side (at_ : Word) (stride : Int) (n : Nat) (l : List (Nat × Nat)) : Prop := copySide s at_ stride n len = .ok l
    let bar (w : State) (j : Fin 16) : Word := (w.fr.msg.bars.get j).pend
    let enters (i : Instr) (q : CopyCmd) : Prop := SlotReady i s →
      let moves : Prop := ¬ (q.total = 0 ∨ (q.multi = true ∧ q.targets = []))
      let recorded : Prop := sig.getLsbD 5 = true
      ∃ t, exec i s = .next t ∧ t.fr.r.s = s.fr.r.s ∧ t.fr.msg.cmdCount.get u = s.fr.msg.cmdCount.get u + 1
        ∧ (moves → t.mem = s.mem ∧ t.here.cu.get u = s.here.cu.get u ++
            [{ q with id := s.nextId, slot := s.here.run, task := s.fr.id.task, index := (s.fr.msg.cmdCount.get u).toNat,
                      by_ := (s.engineIssue s.cur (Fin.ofNat 3 u.val)).1, root := s.fr.sys.ptroot, asid := s.fr.sys.asid,
                      nestGen := if q.nest.isSome then s.fr.mat.nest.gen else 0 }]
          ∧ ∀ j, bar t j = bar s j + if q.multi = false ∧ sig.getLsbD 4 = true ∧ j.val = sig.toNat % 16 then BitVec.ofNat 64 q.total else 0)
        ∧ (¬ moves → ¬ recorded → t.mem = s.mem ∧ t.here.cu = s.here.cu ∧ ∀ j, bar t j = bar s j)
        ∧ (¬ moves → recorded → s.signalWaits s.fr.id.task sig = true →
            t.mem = s.mem ∧ ∃ x, t.here.cu.get u = s.here.cu.get u ++ [x] ∧ x.ended = some (0, 0, 2))
    let plain (n : Nat) (sstr dstr : Int) (l m : List (Nat × Nat)) : CopyCmd :=
      { sig := sig, src := s.rdS a, dst := to_, len := len, rows := n, sstr := sstr, dstr := dstr, nest := s.ctx.nestTag,
        tiles := dedup (lsTiles s.cur (l ++ m)), away := awayTiles s.cur (l ++ m) }
    let full (i : Instr) : Prop := ¬ room → SlotReady i s → exec i s = .next s.held
    let whole : Prop := bits to_ 48 16 = 0 ∧ bits to_ 21 11 = 0 ∧ off + len ≤ 0x200000
    let sstr := toInt 24 (bits y 0 24)
    let dstr := toInt 24 (bits y 24 24)
    (∀ (at_ : Word) (stride : Int) (n : Nat),
      let start (r : Nat) : Word := at_ + BitVec.ofInt 64 (stride * r)
      let sound (r : Nat) : Prop := canonical (start r) = true ∧ inRange57 (va57 (start r)) len = true
      let pieces := (List.range n).flatMap fun r => s.rangePhys s.cur s.fr (va57 (start r)) len
      let barred (x : Nat × Nat) : Prop := (x.1 < winBase s.cur + 0x400000 ∧ winBase s.cur < x.1 + x.2) ∨ physClass x.1 = .control
      (∀ r, r < n → ¬ sound r → (∀ q, q < r → sound q) →
        copySide s at_ stride n len = .error (.trap { cause := Cause.address, evaddr := BitVec.ofNat 64 (va57 (start r)) }))
      ∧ ((∀ r, r < n → sound r) → (∃ x ∈ pieces, barred x) → copySide s at_ stride n len = .error (.trap { cause := Cause.address }))
      ∧ ((∀ r, r < n → sound r) → (∀ x ∈ pieces, ¬ barred x) → copySide s at_ stride n len = .ok pieces))
    ∧ (good → ∀ t, (copySide s (s.rdS a) 0 1 len = .error (.trap t) → TrapsWith s (.cpy p d a b) t ∧ (whole → TrapsWith s (.cpym p d a b) t))
        ∧ ((∃ l, side (s.rdS a) 0 1 l) → copySide s to_ 0 1 len = .error (.trap t) → TrapsWith s (.cpy p d a b) t))
    ∧ (good → Readable s (b + 1) → ∀ t, (copySide s (s.rdS a) sstr rows len = .error (.trap t) → TrapsWith s (.cpyw p d a b) t)
        ∧ ((∃ l, side (s.rdS a) sstr rows l) → copySide s to_ dstr rows len = .error (.trap t) → TrapsWith s (.cpyw p d a b) t))
    ∧ (¬ good → TrapsWith s (.cpy p d a b) { cause := Cause.address } ∧ TrapsWith s (.cpym p d a b) { cause := Cause.address }
      ∧ (Readable s (b + 1) → TrapsWith s (.cpyw p d a b) { cause := Cause.address }))
    ∧ (good → ∀ l m, side (s.rdS a) 0 1 l → side to_ 0 1 m →
        (room → enters (.cpy p d a b) (plain 1 0 0 l m)) ∧ full (.cpy p d a b))
    ∧ (good → Readable s (b + 1) → ∀ l m, side (s.rdS a) sstr rows l → side to_ dstr rows m →
        (room → enters (.cpyw p d a b) (plain rows sstr dstr l m)) ∧ full (.cpyw p d a b))
    ∧ (good → whole → ∀ l, side (s.rdS a) 0 1 l → full (.cpym p d a b) ∧ ∃ tiles, room →
        enters (.cpym p d a b) { sig := sig, src := s.rdS a, len := len, multi := true, off := off, nest := s.ctx.nestTag,
                                 targets := (clusterCores s.cur (bits to_ 32 16)).map fun e => (e, 0, false), tiles := tiles,
                                 away := awayTiles s.cur l })
    ∧ (good → ¬ whole →
        TrapsWith s (.cpym p d a b) { cause := Cause.address })

/-- Pieces of copies, multicasts, their completion and their faults. COPY_PIECE_PERFORMED, in its unit's turn, moves the next piece,
at most 512 bytes of one row, a command that crosses dies not before its gang's window is open: its bytes as the die reads them
stand at the destination where no write held there outranks the command, poison of the source in every destination line that it
meets, no other byte changes but where dirty bytes leave the die's L2 for the lines read, BARPEND falls by them when BE = 1, and the
next piece or the completion follows; a fault of either side stops the command and posts ENGINE_FAULT. A multicast's piece goes with
its poison to each target that has not failed, where MULTICAST_PIECE_LAND stores it in open tiles, or stops that target; a source
that faults stops the multicast, which ends once what it has sent has landed. COPY_COMPLETE takes the command off its unit and
places its record, or waits for room; a multicast with a failure ends there as a failed command, with the first one. ENGINE_FAULT
ends the command and all of the task's on the unit and makes the trap due; only records that are still to be placed stay. (R120,
R121, R226, R237, R238, R239, R240, R241, R244, R257, R308, R420) -/
def Obligations.CopyUnitAtWork : Prop :=
∀ (s : State) (q : CopyCmd),
    let c := s.arg.c
    let u : Fin 2 := Fin.ofNat 2 s.arg.u
    let e : Fin 3 := Fin.ofNat 3 u.val
    let f := (s.taskFrame c q.slot q.task).under q.root q.asid
    let n := min 512 (q.len - q.done % q.len)
    let src := q.src + BitVec.ofInt 64 (q.sstr * (q.done / q.len : Nat)) + wd (q.done % q.len)
    let dst := q.dst + BitVec.ofInt 64 (q.dstr * (q.done / q.len : Nat)) + wd (q.done % q.len)
    let here : Prop := s.holds c q.slot q.task = true
    let turn : Prop := s.unitTurn c u 0 = none
    let through : Prop := q.started = true ∨ s.windowHolds c q.task (s.reach c f q) = false
    let clean (b : Nat) : Prop := ∀ y ∈ (s.dies.get (dieOf c)).l2, y.1 ≠ b
    let regs (t : State) : Prop := ∀ k, (t.frameAt c k).r = (s.frameAt c k).r
    let unit (t : State) : List CopyCmd := (t.core c).cu.get u
    let room : Prop := (s.msgOf q.task).evq.length < 256 ∧ (s.msgOf q.task).spill = []
    let record := recordOf 0 (BitVec.ofNat 32 (min q.total (2 ^ 32 - 1))) (BitVec.ofNat 16 (q.sig.toNat / 256)) (BitVec.ofNat 8 (u.val + 1)) 2
    let failsAt (w : State) (t : Trap) (va : Word) : Prop := w.mem = s.mem ∧ regs w
      ∧ (∃ v ∈ w.agenda, v.row = .engineFault ∧ v.arg.c = c ∧ v.arg.id = q.id)
      ∧ (w.cmdOf c u s.arg.id).map (·.failed) = some (some { t with evaddr := va })
    let ends (w : State) (r : Trap) (moved : Nat) : Prop := w.mem = s.mem ∧ regs w
      ∧ (unit w).filter (fun x => x.task != q.task) = (unit s).filter (fun x => x.task != q.task && (x.ended.isNone || x.sig.getLsbD 5))
      ∧ (∀ x ∈ unit w, x.task = q.task → x.ended.isSome = true ∧ x.sig.getLsbD 5 = true)
      ∧ (q.sig.getLsbD 5 = true → ∃ x ∈ unit w, x.id = q.id ∧ x.ended = some (r.evaddr, moved, 3))
      ∧ ∃ v ∈ (w.frameAt c q.slot).tr.due, v.cause = r.cause ∧ v.evaddr = r.evaddr ∧ v.async = true ∧ v.eeng = copyEeng u q r.cause moved
    s.cmdOf c u s.arg.id = some q →
    (∀ y, s.unitTurn c u 0 = some y → ∃ w, exec .copyPiecePerformed s = .next w ∧ w.mem = s.mem ∧ regs w
        ∧ ∃ v ∈ (w.core c).events, v.row = .copyPiecePerformed ∧ v.arg = s.arg ∧ v.at_ = y)
    ∧ (turn → ¬ through → exec .copyPiecePerformed s = .next ((s.unitServed c u 0).postFree c 64 .copyPiecePerformed s.arg))
    ∧ (turn → through → ∀ t, engineSegs s c f e .read (va57 src) n = .error t →
        (q.multi = false → ∃ w, exec .copyPiecePerformed s = .next w ∧ failsAt w t src)
        ∧ (q.multi = true → ∃ w, exec .copyPiecePerformed s = .next w ∧ w.mem = s.mem ∧ regs w
          ∧ (∃ v ∈ (w.core c).events, v.row = .copyComplete ∧ v.arg.id = q.id)
          ∧ (∀ r, q.failed = some r → (w.cmdOf c u s.arg.id).map (·.failed) = some (some r))
          ∧ (q.failed = none → (w.cmdOf c u s.arg.id).map (fun x => (x.failed, x.stopAt)) = some (some { t with evaddr := src }, q.done))))
    ∧ (turn → through → q.multi = false → ∀ l t, engineSegs s c f e .read (va57 src) n = .ok l →
        engineSegs s c f e .write (va57 dst) n = .error t → ∃ w, exec .copyPiecePerformed s = .next w ∧ failsAt w t dst)
    ∧ (turn → through → ∀ l g walk, q.multi = false → engineSegs s c f e .read (va57 src) n = .ok l →
        engineSegs s c f e .write (va57 dst) n = .ok [(g, walk)] → g.off = 0 → g.len = n → physClass g.pa ≠ .window →
        s.yieldsAt (s.unitStamp q.by_) g.pa n = 0 → (∀ b, g.pa ≤ b → b < g.pa + n → clean b) →
        ∃ w, exec .copyPiecePerformed s = .next w
          ∧ (∀ b, if g.pa ≤ b ∧ b < g.pa + n then Memory.read w.mem b 1 = getByte (s.engineRead c l) (b - g.pa)
              else clean b → Memory.read w.mem b 1 = Memory.read s.mem b 1)
          ∧ (∀ x ∈ s.segsBad c l, ∀ j, x.1 ≤ j → j < x.1 + x.2.1 → j < n → w.poisoned (g.pa + j) 1 = true)
          ∧ (w.cmdOf c u s.arg.id).map (·.done) = some (q.done + n)
          ∧ (∃ v ∈ (w.core c).events, v.arg.id = q.id
              ∧ v.row = if q.done + n < q.rows * q.len then Instr.copyPiecePerformed else .copyComplete)
          ∧ (here → regs w ∧ ∀ j : Fin 16, ((w.frameAt c q.slot).msg.bars.get j).pend = ((s.frameAt c q.slot).msg.bars.get j).pend
              - if q.sig.getLsbD 4 = true ∧ j.val = q.sig.toNat % 16 then BitVec.ofNat 64 n else 0))
    ∧ (turn → through → ∀ l, q.multi = true → engineSegs s c f e .read (va57 src) n = .ok l →
        ∃ w, exec .copyPiecePerformed s = .next w ∧ (∀ b, clean b → Memory.read w.mem b 1 = Memory.read s.mem b 1) ∧ regs w
          ∧ ∀ x ∈ q.targets, x.2.2 = false → ∃ v ∈ (w.core c).events, v.row = .multicastPieceLand ∧ v.arg.w0 = wd x.1.val
              ∧ v.arg.n = q.done ∧ v.arg.bad = s.segsBad c l ∧ v.arg.v = BitVec.ofNat 4096 (s.engineRead c l))
    ∧ (let t : CoreId := Fin.ofNat 256 s.arg.w0.toNat
       let m := s.arg.w1.toNat
       let off := q.off + s.arg.n
       let x := s.core t
       q.target t = some (t, s.arg.n, false) →
       (x.lentTo = none → (tilesOf off m).all x.tileOpen = true → ∃ w, exec .multicastPieceLand s = .next w
          ∧ w.mem = Memory.write s.mem (lsBase t + off) m s.arg.v.toNat ∧ regs w
          ∧ ((w.cmdOf c u s.arg.id).bind fun y => y.target t) = some (t, s.arg.n + m, false))
       ∧ (x.lentTo.isSome = true ∨ (tilesOf off m).all x.tileOpen = false → ∃ w, exec .multicastPieceLand s = .next w ∧ w.mem = s.mem
          ∧ ((w.cmdOf c u s.arg.id).bind fun y => y.target t) = some (t, s.arg.n, true)
          ∧ ∃ r, (w.cmdOf c u s.arg.id).map (·.failed) = some (some r) ∧ (∀ r0, q.failed = some r0 → r = r0)
            ∧ (q.failed = none → r.evaddr = q.src + wd s.arg.n)))
    ∧ (q.ended = none → (q.targets.any fun t => !t.2.2 && t.2.1 != q.done) = true → ∃ w, exec .copyComplete s = .next w ∧ w.mem = s.mem
        ∧ regs w ∧ unit w = unit s ∧ ∃ v ∈ (w.core c).events, v.row = .copyComplete ∧ v.arg = s.arg)
    ∧ (q.ended = none → q.targets.any (fun t => !t.2.2 && t.2.1 != q.done) = false → q.failed = none →
        (s.signalWaits q.task q.sig = true → ∃ w, exec .copyComplete s = .next w ∧ w.mem = s.mem ∧ regs w ∧ unit w = unit s
          ∧ ∃ v ∈ (w.core c).events, v.row = .copyComplete ∧ v.arg = s.arg)
        ∧ (s.signalWaits q.task q.sig = false → ∃ w, exec .copyComplete s = .next w ∧ regs w ∧ unit w = (unit s).filter (·.id != q.id)
          ∧ (q.sig.getLsbD 5 = false ∨ room → w.mem = s.mem)
          ∧ (q.sig.getLsbD 5 = true → room → (s.task q.task).isSome = true → (s.sysOf q.task).asid = (s.taskFrame c q.slot q.task).sys.asid →
              (w.msgOf q.task).evq = (s.msgOf q.task).evq ++ [record])))
    ∧ (∀ r, q.failed = some r → q.ended = none → here → (s.frameAt c q.slot).ctl.halted = false → (∀ x ∈ unit s, x.id = q.id → x = q) →
        (q.multi = false → ∃ w, exec .engineFault s = .next w ∧ ends w r q.done)
        ∧ (q.multi = true → q.targets.any (fun t => !t.2.2 && t.2.1 != q.done) = false →
            ∃ w, exec .copyComplete s = .next w ∧ ends w r q.stopAt))

/-- SBIND, SUNB and SDRN, and the stream events. SBIND of a plain entry with an aligned descriptor and a stream bank, once its
release can complete, binds the entry to the pattern of a well-formed descriptor, nothing filled and nothing pushed; a bound entry,
an unaligned address, a missing bank or a bad descriptor raises stream use. SUNB of a read stream leaves its head as the entry's
value and the entry plain, and holds while a result is on its way to the queue; SUNB of a write stream leaves the entry plain and
zero, and what has been pushed drains on. SDRN completes when nothing pushed is left to perform, discards the clean bytes of the L1
and knows the unit's writes, and holds before; both raise stream use on an entry that is no such stream. In the unit's turn,
STREAM_FILL_ARRIVE puts the next element in the queue, or a fault that stops the stream, and STREAM_DRAIN_WRITE writes the oldest
pushed element at its address, of a bound entry or of one unbound, where no write held there outranks it; a failed write stops the
stream and makes its trap due. (R66, R122, R123, R129, R245, R246, R247, R260, R281) -/
def Obligations.StreamsBindAndUnbind : Prop :=
(∀ (s : State) (p : BitVec 3) (d a : BitVec 6) (m : BitVec 2) (dep : BitVec 4),
    let n : Fin 16 := Fin.ofNat 16 d.toNat
    let q := s.fr.stream n
    let x := s.rdS a
    let fits : Prop := x.toNat % 64 = 0 ∧ q.mode = 0 ∧ n.val / 8 < s.fr.sys.streamBanks.length
    let ready : Prop := 4 ≤ s.fr.ctl.heldFor ∧ s.releaseWaits = false
    let unit := unitWriter s.cur (Fin.ofNat 3 (n.val % 2))
    (Readable s a →
      (¬ fits → TrapsWith s (.sbind p d a m dep) { cause := Cause.streamUse })
      ∧ (fits → canonical x = false → TrapsWith s (.sbind p d a m dep) { cause := Cause.address, evaddr := BitVec.ofNat 64 (va57 x % 2 ^ 57) })
      ∧ (fits → canonical x = true → s.fr.ctl.heldFor < 4 → SlotReady (.sbind p d a m dep) s → exec (.sbind p d a m dep) s = .next s.held)
      ∧ (fits → canonical x = true → 4 ≤ s.fr.ctl.heldFor → s.releaseWaits = true → SlotReady (.sbind p d a m dep) s →
          exec (.sbind p d a m dep) s = .next (s.updCtl fun c => { c with orderFrom := some s.orderCycle }).held)
      ∧ (fits → canonical x = true → ready → ∀ v w, readAt s s.settled (va57 x) 64 = .ok (v, w) →
          (patternOfDesc v = none → TrapsWith s (.sbind p d a m dep) { cause := Cause.streamUse })
          ∧ (∀ base counts strides, patternOfDesc v = some (base, counts, strides) → (w.releaseThen s.ctx 2).closed = s.closed →
              w.cur = s.cur → w.here.run = s.here.run → SlotReady (.sbind p d a m dep) s →
              ∃ t, exec (.sbind p d a m dep) s = .next t ∧ (t.fr.stream n).mode = m.toNat ∧ (t.fr.stream n).depth = dep.toNat
                ∧ (t.fr.stream n).left = counts.foldl (· * ·) 1 ∧ (t.fr.stream n).base = base ∧ (t.fr.stream n).counts = counts
                ∧ (t.fr.stream n).strides = strides ∧ (t.fr.stream n).queue = [] ∧ (t.fr.stream n).scount = 0 ∧ (t.fr.stream n).next = 0)))
    ∧ (q.mode = 0 → TrapsWith s (.sunb p d) { cause := Cause.streamUse })
    ∧ (q.mode = 1 → (q.queue.any fun y => y.tag != 0) = false → SlotReady (.sunb p d) s →
        ∃ t, exec (.sunb p d) s = .next t ∧ t.fr.stream n = {} ∧ t.mem = s.mem ∧ t.fr.r.s = s.fr.r.s
          ∧ t.fr.r.ofe.get n = match q.queue with
            | y :: _ => y.data
            | [] => s.fr.r.ofe.get n)
    ∧ (q.mode = 1 → (q.queue.any fun y => y.tag != 0) = true → SlotReady (.sunb p d) s → exec (.sunb p d) s = .next s.held)
    ∧ (q.mode = 2 → SlotReady (.sunb p d) s → ∃ t, exec (.sunb p d) s = .next t ∧ t.fr.stream n = {} ∧ t.mem = s.mem ∧ t.fr.r.s = s.fr.r.s
        ∧ t.fr.r.ofe.get n = 0
        ∧ t.here.outq = s.here.outq ++
            if q.queue = [] ∨ q.stopped = true then [] else [{ k := s.here.run, tid := s.fr.id.task, n := n, q := q }])
    ∧ (q.mode ≠ 2 → TrapsWith s (.sdrn p d) { cause := Cause.streamUse })
    ∧ (q.mode = 2 → q.queue = [] → CompletesAs s (.sdrn p d)
        ((s.settled.updCore s.cur Core.discardClean).updClock (coreWriter s.cur) fun k => k.learn { rels := [(unit, (s.clock unit).rels.length)] }))
    ∧ (q.mode = 2 → q.queue ≠ [] → SlotReady (.sdrn p d) s → exec (.sdrn p d) s = .next s.held))
  ∧ (∀ s : State,
    let c := s.arg.c
    let k := s.arg.k
    let n : Fin 16 := Fin.ofNat 16 s.arg.u
    let e : Fin 3 := Fin.ofNat 3 (n.val % 2)
    let f := s.frameAt c k
    let q := f.stream n
    let filling := f.under q.root q.asid
    let va := elemAddr q.base q.counts q.strides q.next
    s.holds c k s.arg.tid = true → q.gen = s.arg.id → q.stopped = false → s.unitTurn c (Fin.ofNat 2 n.val) (n.val + 1) = none →
    (q.mode = 1 → q.fills ≠ 0 → canonical va = true → s.ordering c = false → (∀ y, s.task s.arg.tid = some y → y.saved = none) →
      (∀ l, engineSegs s c filling e .read (va57 va) 512 = .ok l → s.segsPoison (dieOf c) l = none →
        ∃ t, exec .streamFillArrive s = .next t ∧ (t.frameAt c k).r.s = f.r.s
          ∧ (∀ b, (∀ y ∈ (s.dies.get (dieOf c)).l2, y.1 ≠ b) → Memory.read t.mem b 1 = Memory.read s.mem b 1)
          ∧ (t.frameAt c k).stream n = { q with
              queue := q.queue ++ [{ data := BitVec.ofNat 4096 (s.engineRead c l), ben := allBytes }], left := q.left - 1,
              scount := q.scount + 1, next := q.next + 1, fills := q.fills - 1, stopped := false })
      ∧ (∀ r, (engineSegs s c filling e .read (va57 va) 512 = .error r
            ∨ ∃ l, engineSegs s c filling e .read (va57 va) 512 = .ok l ∧ s.segsPoison (dieOf c) l = some r) →
          ∃ t, exec .streamFillArrive s = .next t ∧ t.mem = s.mem
          ∧ ((t.frameAt c k).stream n).stopped = true ∧ ((t.frameAt c k).stream n).queue =
              q.queue ++ [{ ben := allBytes, fault := some { r with evaddr := wd (va57 va) } }]))
    ∧ (∀ x rest, q.mode = 2 → q.queue = x :: rest → x.tag = 0 → canonical va = true →
      let draining := f.under x.root x.asid
      (∀ g walk, engineSegs s c draining e .write (va57 va) 512 = .ok [(g, walk)] → g.off = 0 → g.len = 512 → physClass g.pa ≠ .window →
        s.yieldsAt (s.stamp (unitWriter c e)) g.pa 512 = 0 → ∃ t, exec .streamDrainWrite s = .next t ∧ t.mem = Memory.write s.mem g.pa 512 x.data.toNat ∧ (t.frameAt c k).r.s = f.r.s
          ∧ (t.frameAt c k).stream n = { q with queue := rest, scount := q.scount + 1, next := q.next + 1 })
      ∧ (∀ r, engineSegs s c draining e .write (va57 va) 512 = .error r → f.ctl.halted = false →
        ∃ t, exec .streamDrainWrite s = .next t ∧ t.mem = s.mem ∧ ((t.frameAt c k).stream n).stopped = true
          ∧ ∃ v ∈ (t.frameAt c k).tr.due, v.cause = r.cause ∧ v.evaddr = wd (va57 va) ∧ v.async = true)))
  ∧ (∀ (s : State) (o : Outflow) (x : StreamElem) (rest : List StreamElem) (g : Seg) (walk : Walked),
    let c := s.arg.c
    let e : Fin 3 := Fin.ofNat 3 (o.n.val % 2)
    let f := s.frameAt c s.arg.k
    let va := elemAddr o.q.base o.q.counts o.q.strides o.q.next
    o.n = Fin.ofNat 16 s.arg.u → o.tid = s.arg.tid → o.q.gen = s.arg.id → (s.core c).outq = [o] → s.holds c s.arg.k o.tid = true →
    (f.stream o.n).mode ≠ 2 → o.q.stopped = false → o.q.queue = x :: rest → x.tag = 0 → canonical va = true →
    s.unitTurn c (Fin.ofNat 2 o.n.val) (o.n.val + 1) = none →
    engineSegs s c (f.under x.root x.asid) e .write (va57 va) 512 = .ok [(g, walk)] → g.off = 0 → g.len = 512 → physClass g.pa ≠ .window →
    s.yieldsAt (s.stamp (unitWriter c e)) g.pa 512 = 0 →
    ∃ t, exec .streamDrainWrite s = .next t ∧ t.mem = Memory.write s.mem g.pa 512 x.data.toNat ∧ (t.frameAt c s.arg.k).r = f.r
      ∧ (t.core c).outq = if rest = [] then [] else [{ o with q := { o.q with queue := rest, scount := o.q.scount + 1, next := o.q.next + 1 } }])

/-- OWNT and OWNW, accesses that arrive at a window, and write backs of the L1. OWNT.eng gives the named tiles to the engines once
no outstanding access of the core touches them, OWNT.core takes them for the core once no engine command of any task touches them,
OWNT.f without waiting, OWNW waits alone; every other owner bit stays, the tiles count as touched, and a range beyond tile 511
raises the address trap. A store that arrives at the register space or local store of a core that admits it, with its banks' ports
free (R278), writes its enabled bytes there and nothing else; a load that arrives brings its load the bytes that stand there; an
atomic that arrives reads, computes and writes its word; one whose banks are taken asks again; one that is refused writes nothing,
reads zero, and its cause is due on the sender's task. A write back of a line leaves each of its L1 bytes clean and every other L1
byte as it was, and changes no home byte outside the line but those of dirty lines that the L2 gives up; its second turn, at the
die, changes no home byte outside the line; neither changes a register. (R105, R118, R119, R126, R127, R232, R248, R318, R319, R412) -/
def Obligations.OwnerBitsAndWindowAccesses : Prop :=
(∀ (s : State) (p : BitVec 3) (a b : BitVec 6), Readable s a → Readable s b →
    let x := (s.rdS a).toNat
    let n := (s.rdS b).toNat
    let inside : Prop := n = 0 ∨ x + n ≤ 512
    let tiles := if n = 0 then [] else (List.range n).map (x + ·)
    let bitOf (t : State) (i : Nat) : Bool := t.fr.sys.ownBit i
    let gives (i : Instr) (v : Option Bool) : Prop := SlotReady i s → ∃ t, exec i s = .next t ∧ t.mem = s.mem ∧ t.fr.r.s = s.fr.r.s
      ∧ (∀ j, j < 512 → bitOf t j = if x ≤ j ∧ j < x + n then v.getD (bitOf s j) else bitOf s j)
      ∧ (∀ j, j < 512 → t.fr.sys.touched.getLsbD j = (s.fr.sys.touched.getLsbD j || (decide (x ≤ j) && decide (j < x + n))))
    (inside → (s.classedTouch s.cur tiles = false → gives (.owntEng p a b) (some true)) ∧ gives (.owntF p a b) (some false)
      ∧ (s.classedTouch s.cur tiles = true → SlotReady (.owntEng p a b) s → exec (.owntEng p a b) s = .next s.held)
      ∧ (s.enginesTouch s.cur tiles = false → gives (.owntCore p a b) (some false) ∧ gives (.ownw p a b) none)
      ∧ (s.enginesTouch s.cur tiles = true → ∀ i ∈ [Instr.owntCore p a b, .ownw p a b], SlotReady i s → exec i s = .next s.held))
    ∧ (¬ inside → ∀ i ∈ [Instr.owntCore p a b, .owntEng p a b, .owntF p a b, .ownw p a b], TrapsWith s i { cause := Cause.address }))
  ∧ (∀ (s : State) (w : WinAcc) (tgt : CoreId) (off : Nat), s.wins.find? (·.id == s.arg.id) = some w → placeOf w.c w.pa = .window tgt off →
      s.wins = [w] → s.invals = [] → (s.core w.c).atomics = [] → w.order = none → w.write = true →
      (s.windowRefuses tgt off w.n true (some w.asid) = none →
        (s.accessBank w s.arg.n = none → ∃ t, exec .windowAccessArrive s = .next t ∧ t.wins = s.wins ∧ t.mem = s.mem
          ∧ ∃ e ∈ (t.core tgt).events, e.row = .windowAccessArrive ∧ e.arg.id = s.arg.id)
        ∧ ∀ s', s.accessBank w s.arg.n = some s' → ∃ t, exec .windowAccessArrive s = .next t ∧ t.wins = []
        ∧ (∀ c k, (t.frameAt c k).r = (s.frameAt c k).r)
        ∧ ∀ b, Memory.read t.mem b 1 = if w.pa ≤ b ∧ b < w.pa + w.n ∧ w.ben.toNat.testBit (b - w.pa) = true then
            getByte w.v.toNat (b - w.pa) else Memory.read s.mem b 1)
      ∧ (∀ q, s.windowRefuses tgt off w.n true (some w.asid) = some q → (s.frameAt w.c w.k).ctl.halted = false →
          ∃ t, exec .windowAccessArrive s = .next t ∧ t.wins = [] ∧ t.mem = s.mem
            ∧ ∃ r ∈ (t.frameAt w.c w.k).tr.due, r.cause = q ∧ r.async = true))
  ∧ (∀ (s : State) (w : WinAcc) (tgt : CoreId) (off : Nat) (l : Pending), s.wins.find? (·.id == s.arg.id) = some w →
      placeOf w.c w.pa = .window tgt off → s.wins = [w] → s.invals = [] → (s.core w.c).atomics = [] → w.order = none → w.write = false →
      (s.frameAt w.c w.k).loads = [l] → l.id = w.load → 0 < l.parts →
      let brings (t : State) (v : Nat) : Prop := t.wins = [] ∧ t.mem = s.mem ∧ (∀ c k, (t.frameAt c k).r = (s.frameAt c k).r)
        ∧ (∃ q, (t.frameAt w.c w.k).loads = [q] ∧ q.dest = l.dest ∧ q.parts = l.parts - 1
            ∧ q.data = l.data ||| BitVec.ofNat 4096 (v <<< (8 * w.off)))
        ∧ (l.parts = 1 → ∃ e ∈ (t.core w.c).events, e.arg.id = w.load ∧ e.row = if l.form < 2 then Instr.loadComplete else .vectorLoadLand)
      (s.windowRefuses tgt off w.n false (some w.asid) = none → ∀ s', s.accessBank w s.arg.n = some s' →
        ∃ t, exec .windowAccessArrive s = .next t ∧ brings t (s'.windowRead tgt off w.n)
          ∧ (off < 0x600000 → s'.windowRead tgt off w.n = Memory.read s.mem w.pa w.n))
      ∧ (∀ q, s.windowRefuses tgt off w.n false (some w.asid) = some q → (s.frameAt w.c w.k).ctl.halted = false →
          ∃ t, exec .windowAccessArrive s = .next t ∧ brings t 0 ∧ ∃ r ∈ (t.frameAt w.c w.k).tr.due, r.cause = q ∧ r.async = true))
  ∧ (∀ (s : State) (x : Atomic) (tgt : CoreId) (off : Nat),
      let c := s.arg.c
      let k := s.arg.k
      let f := s.frameAt c k
      let size := if x.op = 7 then 4 else 8
      let old := Memory.read s.mem x.pa size
      f.atoms.find? (·.id == s.arg.id) = some x → f.atoms = [x] → s.mustWait c x.id x.oc x.pa 8 = false → placeOf c x.pa = .window tgt off →
      s.invals = [] → 0 < x.dest → x.dest < 48 → x.dead = false →
      (s.windowRefuses tgt off size true (some x.asid) = none → s.poisonOf x.pa size = none →
        ∃ t, exec .atomicComplete s = .next t ∧ (t.frameAt c k).atoms = []
          ∧ (t.frameAt c k).r.s = f.r.s.setIfInBounds x.dest (BitVec.ofNat 64 old)
          ∧ ∀ b, Memory.read t.mem b 1 = match atomNew x.op old x.x x.new with
              | some v => if x.pa ≤ b ∧ b < x.pa + size then getByte v (b - x.pa) else Memory.read s.mem b 1
              | none => Memory.read s.mem b 1)
      ∧ (∀ q, s.windowRefuses tgt off size true (some x.asid) = some q → f.ctl.halted = false →
        ∃ t, exec .atomicComplete s = .next t ∧ (t.frameAt c k).atoms = [] ∧ t.mem = s.mem
          ∧ (t.frameAt c k).r.s = f.r.s.setIfInBounds x.dest 0 ∧ ∃ r ∈ (t.frameAt c k).tr.due, r.cause = q ∧ r.async = true))
  ∧ (∀ s : State, ∃ t, exec .l1WriteBack s = .next t ∧ (∀ c k, t.frameAt c k = s.frameAt c k)
      ∧ (s.arg.u = 0 → (∀ b, ¬ (s.arg.n ≤ b ∧ b < s.arg.n + 64) → (∀ e ∈ (s.dies.get (dieOf s.arg.c)).l2, e.1 ≠ b) →
            Memory.read t.mem b 1 = Memory.read s.mem b 1)
          ∧ (∀ x ∈ (t.core s.arg.c).l1, s.arg.n ≤ x.pa → x.pa < s.arg.n + 64 → x.dirty = false)
          ∧ ∀ y ∈ (s.core s.arg.c).l1, ¬ (s.arg.n ≤ y.pa ∧ y.pa < s.arg.n + 64) → y ∈ (t.core s.arg.c).l1)
      ∧ (s.arg.u ≠ 0 → ∀ b, ¬ (s.arg.n ≤ b ∧ b < s.arg.n + 64) → Memory.read t.mem b 1 = Memory.read s.mem b 1))

/-- EVPOP, EVPOST, BARX, BARA, BARW, and the events that deliver records and arrivals. EVPOP takes the oldest record, zeros when
there is none, into its register pair, pending until its load completes, and a record spilled to the ring comes back into the queue,
or is discarded with a count when it cannot be read; EVPOST, once its release can complete, posts a record of kind 1 to the target
task, which EVENT_RECORD_POST appends to the queue of a resident target in the same space and discards with a count otherwise. BARX
arms a barrier for a group of which the task is a member, or adds to its BARPEND; BARA sends one arrival to every member of the
group, and BARRIER_ARRIVAL counts it; BARW of a complete barrier takes TARGET from ARRIVED, disarms it and goes on, and holds
before; a gang's barrier also waits for every member to be on a core and for the gang's completion, and is armed again for the next
period. Each raises its fault where R249 or R250 names one. (R37, R124, R125, R239, R249, R250, R306, R307, R326) -/
def Obligations.EventsAndBarriers : Prop :=
(∀ (s : State) (p : BitVec 3) (d a b : BitVec 6) (bb : BitVec 4),
    let i : Fin 16 := Fin.ofNat 16 bb.toNat
    let x := s.fr.msg.bars.get i
    let tid := s.fr.id.task
    let waits : State := (s.updCtl fun c => { c with orderFrom := some s.orderCycle }).held
    let popped (t : State) (v : BitVec 128) : Prop := t.mem = s.mem
      ∧ (∃ q ∈ t.fr.loads, q.dest = .s d.toNat ∧ q.parts = 0 ∧ q.data = (v.extractLsb' 0 64).setWidth 4096)
      ∧ (∃ q ∈ t.fr.loads, q.dest = .s (d.toNat + 1) ∧ q.parts = 0 ∧ q.data = (v.extractLsb' 64 64).setWidth 4096)
    (SlotReady (.evpop p d) s → s.fr.msg.spill = [] → ∃ t, exec (.evpop p d) s = .next t
      ∧ popped t (s.fr.msg.evq.headD 0) ∧ t.fr.msg.evq = s.fr.msg.evq.tail)
    ∧ (∀ y, SlotReady (.evpop p d) s → s.fr.msg.spill = [y] → s.fr.msg.evq.length ≤ 256 →
      let back := baseSegs s 0 { s.fr.space with asid := y.asid, root := y.root } false .read (va57 y.ring + 16 * y.slot) 16
      (∀ g walk, back = .ok [(g, walk)] → g.off = 0 → g.len = 16 → physClass g.pa ≠ .window →
        let all := s.fr.msg.evq ++ [BitVec.ofNat 128 (Memory.read s.mem g.pa 16)]
        ∃ t, exec (.evpop p d) s = .next t ∧ popped t (all.headD 0) ∧ t.fr.msg.evq = all.tail ∧ t.fr.msg.spill = [])
      ∧ (∀ q, back = .error q → ∃ t, exec (.evpop p d) s = .next t ∧ popped t (s.fr.msg.evq.headD 0)
        ∧ t.fr.msg.evq = s.fr.msg.evq.tail ∧ t.fr.msg.spill = [] ∧ t.bel.evdisc = s.bel.evdisc + 1))
    ∧ (Readable s a → Readable s b →
        let tgt : BitVec 32 := (s.rdS a).setWidth 32
        (bits (s.rdS a) 48 16 ≠ 0 → TrapsWith s (.evpost p a b) { cause := Cause.address })
        ∧ (bits (s.rdS a) 48 16 = 0 → s.releaseWaits = true → SlotReady (.evpost p a b) s → exec (.evpost p a b) s = .next waits)
        ∧ (bits (s.rdS a) 48 16 = 0 → s.releaseWaits = false → s.task tgt ≠ none → (s.sysOf tgt).asid = s.fr.sys.asid →
            s.recordWaits tgt = true → SlotReady (.evpost p a b) s → exec (.evpost p a b) s = .next s.held)
        ∧ (bits (s.rdS a) 48 16 = 0 → s.releaseWaits = false →
            (s.task tgt = none ∨ (s.sysOf tgt).asid ≠ s.fr.sys.asid ∨ s.recordWaits tgt = false) →
            (s.settled.release s.cur 3).closed = false → SlotReady (.evpost p a b) s → ∃ t, exec (.evpost p a b) s = .next t
              ∧ t.fr.r.s = s.fr.r.s ∧ ∃ e ∈ t.agenda, e.row = .eventRecordPost ∧ e.arg.tid = tgt ∧ e.arg.h = s.fr.sys.asid
                ∧ e.arg.w1 ++ e.arg.w0 = recordOf (s.rdS b) tid (BitVec.ofNat 16 (bits (s.rdS a) 32 16)) (BitVec.ofNat 8 s.cur.val) 1))
    ∧ (Readable s d → Readable s a →
        let gid : BitVec 16 := (s.rdS d).setWidth 16
        let member : Prop := ∃ g, s.group gid = some g ∧ g.has tid = true
        let fits : Prop := bits (s.rdS d) 16 48 = 0 ∧ member ∧ (x.armed = true → x.group = gid)
        (¬ fits → TrapsWith s (.barx p d a bb) { cause := Cause.barrier })
        ∧ (fits → SlotReady (.barx p d a bb) s → ∃ t, exec (.barx p d a bb) s = .next t ∧ t.mem = s.mem ∧ t.fr.r.s = s.fr.r.s
            ∧ (t.fr.msg.bars.get i).armed = true ∧ (t.fr.msg.bars.get i).group = gid ∧ (t.fr.msg.bars.get i).arrived = x.arrived
            ∧ (t.fr.msg.bars.get i).pend = x.pend + s.rdS a
            ∧ (x.armed = true → (t.fr.msg.bars.get i).target = x.target)
            ∧ (x.armed = false → ∀ g, s.group gid = some g → (t.fr.msg.bars.get i).target = g.members.length)
            ∧ ∀ j, j ≠ i → t.fr.msg.bars.get j = s.fr.msg.bars.get j))
    ∧ (x.armed = false → TrapsWith s (.bara p bb) { cause := Cause.barrier } ∧ TrapsWith s (.barw p bb) { cause := Cause.barrier })
    ∧ (x.armed = true → s.releaseWaits = true → SlotReady (.bara p bb) s → exec (.bara p bb) s = .next waits)
    ∧ (x.armed = true → s.releaseWaits = false → (s.settled.release s.cur (s.groupScope (s.barGroup x))).closed = false →
        SlotReady (.bara p bb) s → ∃ t, exec (.bara p bb) s = .next t ∧ t.fr.r.s = s.fr.r.s
          ∧ ∀ m ∈ (s.barGroup x).members, ∃ e ∈ t.agenda, e.row = .barrierArrival ∧ e.arg.tid = m.1 ∧ e.arg.u = i.val
              ∧ e.arg.w0 = tid.setWidth 64)
    ∧ (x.armed = true → (bb ≠ 15 ∨ x.group.toNat < 0x8000) → x.target ≤ x.arrived → x.pend = 0 → s.acquireWaits = true → SlotReady (.barw p bb) s → exec (.barw p bb) s =
        .next (s.updCtl fun c => { c with orderFrom := some s.orderCycle }).heldLong)
    ∧ (x.armed = true → (bb ≠ 15 ∨ x.group.toNat < 0x8000) → x.target ≤ x.arrived → x.pend = 0 → s.acquireWaits = false → SlotReady (.barw p bb) s →
        ∃ t, exec (.barw p bb) s = .next t ∧ t.mem = s.mem ∧ t.fr.r.s = s.fr.r.s ∧ (t.fr.msg.bars.get i).armed = false
          ∧ (t.fr.msg.bars.get i).arrived = x.arrived - x.target ∧ (t.fr.msg.bars.get i).pend = 0)
    ∧ (x.armed = true → (x.arrived < x.target ∨ x.pend ≠ 0) → SlotReady (.barw p bb) s →
        exec (.barw p bb) s = .next s.heldLong)
    ∧ (let grp := s.barGroup x
       let away : Prop := ∃ m ∈ grp.members, s.whereIs m.1 = none
       let behind : Prop := ∃ g ∈ s.gangs, g.gid = x.group ∧ g.phases ≤ x.phase
       x.armed = true → bb = 15 → 0x8000 ≤ x.group.toNat →
       (away ∨ behind → SlotReady (.barw p bb) s → exec (.barw p bb) s = .next s.heldLong)
       ∧ (¬ away → ¬ behind → x.target ≤ x.arrived → x.pend = 0 → s.acquireWaits = false → SlotReady (.barw p bb) s →
          ∃ t, exec (.barw p bb) s = .next t ∧ t.mem = s.mem ∧ t.fr.r.s = s.fr.r.s ∧ (t.fr.msg.bars.get i).armed = true
            ∧ (t.fr.msg.bars.get i).target = grp.members.length ∧ (t.fr.msg.bars.get i).arrived = x.arrived - x.target
            ∧ (t.fr.msg.bars.get i).pend = 0 ∧ (t.fr.msg.bars.get i).phase = x.phase + 1)))
  ∧ (∀ s : State,
    let tid := s.arg.tid
    let i : Fin 16 := Fin.ofNat 16 s.arg.u
    let who : BitVec 32 := s.arg.w0.setWidth 32
    ((s.task tid = none ∨ (s.sysOf tid).asid ≠ s.arg.h) → ∃ t, exec .eventRecordPost s = .next t
        ∧ t.bel.evdisc = s.bel.evdisc + 1 ∧ t.tasks = s.tasks ∧ t.cores = s.cores ∧ t.mem = s.mem)
    ∧ (∀ x c k, s.task tid = some x → x.place = some (c, k) → (s.frameAt c k).sys.asid = s.arg.h →
        (s.frameAt c k).msg.evq.length < 256 → (s.frameAt c k).msg.spill = [] →
        ∃ t, exec .eventRecordPost s = .next t ∧ (t.frameAt c k).msg.evq = (s.frameAt c k).msg.evq ++ [s.arg.w1 ++ s.arg.w0]
          ∧ (t.frameAt c k).ctl.waitEv = false ∧ (t.frameAt c k).r = (s.frameAt c k).r ∧ t.mem = s.mem)
    ∧ (s.holds s.arg.c s.arg.k tid = true → ∃ t, exec .barrierArrival s = .next t ∧ t.mem = s.mem
        ∧ ((t.frameAt s.arg.c s.arg.k).msg.bars.get i).arrived = ((s.frameAt s.arg.c s.arg.k).msg.bars.get i).arrived + 1
        ∧ who ∈ ((t.frameAt s.arg.c s.arg.k).msg.bars.get i).reached
        ∧ ((t.frameAt s.arg.c s.arg.k).msg.bars.get i).armed = ((s.frameAt s.arg.c s.arg.k).msg.bars.get i).armed
        ∧ (t.frameAt s.arg.c s.arg.k).r = (s.frameAt s.arg.c s.arg.k).r))

/-- JOIN, LEAVE, YIELD, STEP, MIRROR and the duplicate checks. JOIN, once the group table has answered, makes the task a member at
the lowest free index, or leaves its membership, and puts index and member count in flight to its register; LEAVE, once the table
has acknowledged, ends the membership, and the group with its last member, and each other member receives, for each of its barrier
objects, a departure, a withdrawal or nothing by the table of R263; both hold before. YIELD turns the core to the ready task of
highest priority, in rotation, whose bundle issues four cycles later, or goes on two cycles later; YIELD.ev also stops its task
until a record arrives. STEP sets STEPN when its value lies between STEPN and STEPS. MIRROR writes a mirror-table entry in order.
DCHK goes on when its operands agree and raises the duplicate mismatch otherwise. Each raises the fault of its rule for values out
of order. (R29, R262, R263, R265, R266, R267, R268, R290) -/
def Obligations.GroupsYieldsAndChecks : Prop :=
∀ (s : State) (p : BitVec 3) (n : BitVec 1) (d a b : BitVec 6) (e : BitVec 3), Readable s a → Readable s b →
    let x := s.rdS a
    let tid := s.fr.id.task
    let gid : BitVec 16 := x.setWidth 16
    let same (t : State) : Prop := t.mem = s.mem ∧ t.fr.r.s = s.fr.r.s
    let waits : State := s.heldLong
    let joins (g' : Group) : Prop := SlotReady (.join p n d a) s → ∃ t, exec (.join p n d a) s = .next t ∧ same t
      ∧ t.group gid = some g' ∧ ∃ r ∈ t.fr.infl, r.dest = .s d.toNat ∧ r.due = s.cyc s.cur
        ∧ r.data.setWidth 64 = wd ((((g'.members.find? (·.1 == tid)).map (·.2)).getD 0) * 2 ^ 32 + g'.members.length)
    ((bits x 16 48 ≠ 0 ∨ gid = 0) → TrapsWith s (.join p n d a) { cause := Cause.group })
    ∧ (bits x 16 48 = 0 → gid ≠ 0 → s.group gid = none → (0x8000 ≤ gid.toNat ∨ 4096 ≤ s.groups.length) →
        TrapsWith s (.join p n d a) { cause := Cause.group })
    ∧ (∀ g, bits x 16 48 = 0 → gid ≠ 0 → s.group gid = some g → g.asid = s.fr.sys.asid →
        (g.has tid = false → (0x8000 ≤ gid.toNat ∨ 1024 ≤ g.members.length) → TrapsWith s (.join p n d a) { cause := Cause.group })
        ∧ (g.has tid = true → s.fr.ctl.swHeld < 40 + s.extra → SlotReady (.join p n d a) s → exec (.join p n d a) s = .next waits))
    ∧ (bits x 16 48 = 0 → gid ≠ 0 → 40 + s.extra ≤ s.fr.ctl.swHeld →
        (s.group gid = none → gid.toNat < 0x8000 → s.groups.length < 4096 →
          joins { gid := gid, asid := s.fr.sys.asid, members := [(tid, 0)] })
        ∧ (∀ g, s.group gid = some g → g.asid = s.fr.sys.asid → g.has tid = true → joins g)
        ∧ (∀ g, s.group gid = some g → g.asid = s.fr.sys.asid → g.has tid = false → gid.toNat < 0x8000 → g.members.length < 1024 →
            (∀ m ∈ g.members, m.2 ≠ g.freeIndex) ∧ joins { g with members := g.members ++ [(tid, g.freeIndex)] })
        ∧ (∀ g, s.group gid = some g → g.asid ≠ s.fr.sys.asid → TrapsWith s (.join p n d a) { cause := Cause.group }))
    ∧ (let free : Prop := ∀ i : Fin 16, ¬ ((s.fr.msg.bars.get i).armed = true ∧ (s.fr.msg.bars.get i).group = gid)
       (bits x 16 48 ≠ 0 ∨ 0x8000 ≤ gid.toNat ∨ (∀ g, s.group gid = some g → g.has tid = false) ∨ ¬ free →
          TrapsWith s (.leave p a) { cause := Cause.group })
       ∧ (bits x 16 48 = 0 → gid.toNat < 0x8000 → free → ∀ g, s.group gid = some g → g.has tid = true → SlotReady (.leave p a) s →
          (s.fr.ctl.swHeld < s.extra → exec (.leave p a) s = .next waits)
          ∧ (s.extra ≤ s.fr.ctl.swHeld → ∃ t, exec (.leave p a) s = .next t ∧ same t ∧ t.group gid =
            if g.members.all (fun m => m.1 == tid) then none else some { g with members := g.members.filter (·.1 != tid) })
          ∧ (s.extra ≤ s.fr.ctl.swHeld → (g.members.map (·.1)).Nodup →
              (∀ m ∈ g.members, ∀ m' ∈ g.members, m.1 ≠ m'.1 → s.whereIs m.1 = none ∨ s.whereIs m.1 ≠ s.whereIs m'.1) →
              ∃ t, exec (.leave p a) s = .next t ∧ ∀ m ∈ g.members, m.1 ≠ tid → s.task m.1 ≠ none → ∀ i : Fin 16,
                let own := s.fr.msg.bars.get i
                let was := (s.msgOf m.1).bars.get i
                let now := (t.msgOf m.1).bars.get i
                let pending : Bool := own.pendingAt && own.group == gid && was.reached.contains tid
                let armed : Bool := was.armed && was.group == gid
                let late : Bool := !was.seen.contains tid
                now.armed = was.armed ∧ now.group = was.group ∧ now.target = was.target ∧ now.pend = was.pend
                ∧ now.arrived = match pending, armed, late with
                  | false, true, _ => was.arrived + 1
                  | false, false, _ => was.arrived
                  | true, true, false => was.arrived
                  | true, true, true => was.arrived + 1
                  | true, false, true => was.arrived
                  | true, false, false => was.arrived - 1)))
    ∧ (∀ ev : Bool, let i : Instr := if ev then .yieldEv p else .yield p
       SlotReady i s → ∃ t, exec i s = .next t ∧ t.mem = s.mem ∧ (t.frameAt s.cur s.here.run).r.s = s.fr.r.s
         ∧ (t.frameAt s.cur s.here.run).ctl.waitEv = (if ev then s.fr.msg.evq.isEmpty && s.fr.msg.spill.isEmpty else s.fr.ctl.waitEv)
         ∧ (∀ j, s.here.nextReady = some j → (t.core s.cur).run = j
              ∧ (t.frameAt s.cur j).ctl.notBefore = max (s.frameAt s.cur j).ctl.notBefore (s.cyc s.cur + 4))
         ∧ (s.here.nextReady = none → (t.core s.cur).run = s.here.run
              ∧ (t.frameAt s.cur s.here.run).ctl.notBefore = max s.fr.ctl.notBefore (s.cyc s.cur + 2)))
    ∧ (let v : BitVec 32 := x.setWidth 32
       let fits : Prop := bits x 32 32 = 0 ∧ s.fr.id.stepn.toNat ≤ v.toNat ∧ v.toNat ≤ s.fr.id.steps.toNat
       (¬ fits → TrapsWith s (.step p a) { cause := Cause.step })
       ∧ (fits → SlotReady (.step p a) s → ∃ t, exec (.step p a) s = .next t ∧ same t ∧ t.fr.id = { s.fr.id with stepn := v, stallcnt := t.fr.id.stallcnt }))
    ∧ (let gran := bits x 0 13
       let bank := bits x 16 4
       let plain : Prop := bits x 13 3 = 0 ∧ bits x 20 11 = 0 ∧ bits x 32 32 = 0
       let other : Prop := ∃ i : Fin 8, i.val ≠ e.toNat ∧ (s.fr.sys.mirtab.get i).getLsbD 31 = true ∧ bits (s.fr.sys.mirtab.get i) 0 13 = gran
       let puts : Prop := SlotReady (.mirror p e a) s → ∃ t, exec (.mirror p e a) s = .next t ∧ same t
         ∧ t.fr.sys.mirtab = s.fr.sys.mirtab.set e.toNat x e.isLt
       (¬ plain → TrapsWith s (.mirror p e a) { cause := Cause.illegalInstruction })
       ∧ (plain → x.getLsbD 31 = false → bank = 0 → gran = 0 → puts)
       ∧ (plain → x.getLsbD 31 = false → (bank ≠ 0 ∨ gran ≠ 0) → TrapsWith s (.mirror p e a) { cause := Cause.illegalInstruction })
       ∧ (plain → x.getLsbD 31 = true → bank ≠ gran % 16 → ¬ other → gran < s.fr.id.foot → s.bankTaken (gran % 16) bank = true →
            SlotReady (.mirror p e a) s → exec (.mirror p e a) s = .next s.held)
       ∧ (plain → x.getLsbD 31 = true → bank = gran % 16 ∨ other → TrapsWith s (.mirror p e a) { cause := Cause.illegalInstruction })
       ∧ (plain → x.getLsbD 31 = true → bank ≠ gran % 16 → ¬ other → s.fr.id.foot ≤ gran → TrapsWith s (.mirror p e a) { cause := Cause.regBound })
       ∧ (plain → x.getLsbD 31 = true → bank ≠ gran % 16 → ¬ other → gran < s.fr.id.foot → s.bankTaken (gran % 16) bank = false → puts))
    ∧ (x = s.rdS b → CompletesAs s (.dchk p a b) s.settled)
    ∧ (x ≠ s.rdS b → TrapsWith s (.dchk p a b) { cause := Cause.dupMismatch })
    ∧ (∀ big : Bool, let i : Instr := if big then .dchkA p a b else .dchkV p a b
       let len := if big then 65536 else 512
       let pa (o : Word) : Nat := s.rsPa s.cur s.here.run o.toNat
       let fits (o : Word) : Prop := o.toNat % 512 = 0 ∧ o.toNat + len ≤ s.fr.id.foot * 512 ∧ s.poisoned (pa o) len = false
       (fits x → fits (s.rdS b) → Memory.read s.mem (pa x) len = Memory.read s.mem (pa (s.rdS b)) len → CompletesAs s i s.settled)
       ∧ (fits x → fits (s.rdS b) → Memory.read s.mem (pa x) len ≠ Memory.read s.mem (pa (s.rdS b)) len →
            TrapsWith s i { cause := Cause.dupMismatch })
       ∧ (∀ o, (o = x ∨ (fits x ∧ o = s.rdS b)) →
            (o.toNat % 512 ≠ 0 → TrapsWith s i { cause := Cause.address })
            ∧ (o.toNat % 512 = 0 → s.fr.id.foot * 512 < o.toNat + len → TrapsWith s i { cause := Cause.regBound })
            ∧ (o.toNat % 512 = 0 → o.toNat + len ≤ s.fr.id.foot * 512 → s.poisoned (pa o) len = true →
                 TrapsWith s i (s.poisonTrap (pa o) len))))

/-- CSRR reads, CSRW writes the control registers, privileged from 0x800 on. CSRR puts the register's value as of the issuing cycle
in flight to its destination with latency 1: COREID, TASKID, CYCLE, the code bounds, the footprint, the trap registers, the level
registers, BANKROLE, OWN and the system registers read as the frame holds them, addresses cut to their fields, and a number with no
register as zero. CSRW of a register that software does not write changes nothing; an image with a reserved bit raises illegal
instruction; else ESTATUS, EPC, HANDLER, PTROOT, ASID, CTXSAVE, EVSPILL and EVQUOTA take it, and BANKROLE once the tiles whose
engines change are free; the new value stands from the next bundle on. In user mode the system registers raise the privilege trap.
(R31, R32, R33, R34, R35, R36, R38, R64, R258, R259, R260, R315) -/
def Obligations.ControlRegisters : Prop :=
∀ (s : State) (p : BitVec 3) (n : BitVec 1) (d a h l : BitVec 6) (num : BitVec 12),
    let f := s.fr
    let rd (k : Nat) : Word := s.csrRead s.cur s.here.run k
    CompletesAs s (.csrr p n d num) (sResult s.ctx n d 1 (rd num.toNat) s.settled)
    ∧ (rd 0 = BitVec.ofNat 64 s.cur.val ∧ rd 1 = f.id.task.setWidth 64 ∧ rd 3 = BitVec.ofNat 64 (s.cyc s.cur) ∧ rd 5 = low57 f.id.codebase
        ∧ rd 6 = low57 f.id.codelim ∧ rd 7 = BitVec.ofNat 64 f.id.foot ∧ rd 0x100 = f.sys.bankrole ∧ (∀ i : Fin 8, rd (0x110 + i.val) = f.sys.own.get i)
        ∧ (∀ i : Fin 8, rd (0x10 + i.val) = f.sys.mirtab.get i)
        ∧ (∀ v : Fin 6, rd (0x300 + 16 * v.val) = BitVec.ofNat 64 (f.ctl.lv.get v).lcnt ∧ rd (0x301 + 16 * v.val) = BitVec.ofNat 64 (f.ctl.lv.get v).lidx
            ∧ rd (0x302 + 16 * v.val) = low57 (f.ctl.lv.get v).lstart ∧ rd (0x303 + 16 * v.val) = low57 (f.ctl.lv.get v).lstop)
        ∧ rd 0x360 = BitVec.ofNat 64 (f.ctl.floor * 16 + f.ctl.depth)
        ∧ [rd 0x400, rd 0x401, rd 0x402, rd 0x403, rd 0x404, rd 0x405, rd 0x406]
            = [f.tr.estatus, f.tr.ecause, low57 f.tr.epc, low57 f.tr.evaddr, f.tr.eslot, f.tr.eeng, low57 f.tr.handler]
        ∧ [rd 0x800, rd 0x801, rd 0x802, rd 0x803, rd 0x804]
            = [f.sys.ptroot, f.sys.asid.setWidth 64, low57 f.sys.ctxsave &&& ~~~0x3FF#64, low57 f.sys.evspill &&& ~~~0xFFF#64,
                f.sys.evquota.setWidth 64]
        ∧ (∀ k, 0x805 ≤ k → rd k = 0))
    ∧ (Readable s a →
        let x := s.rdS a
        let k := h.toNat * 64 + l.toNat
        let i : Instr := .csrw p h a l
        let image (lo w : Nat) : Prop := ∀ b, b < 64 → ¬ (lo ≤ b ∧ b < lo + w) → x.getLsbD b = false
        let sets (lo w : Nat) (g : Frame → Frame) : Prop :=
          (image lo w → CompletesAs s i (s.settled.updCtl fun y => { y with csrw := some (k, x) })
            ∧ (SlotReady i s → ∃ t, exec i s = .next t ∧ t.mem = s.mem ∧ t.fr.r.s = f.r.s ∧ t.fr.sys = (g f).sys ∧ t.fr.tr = (g f).tr))
          ∧ (¬ image lo w → TrapsWith s i { cause := Cause.illegalInstruction })
        (k ∉ [0x100, 0x400, 0x402, 0x406, 0x800, 0x801, 0x802, 0x803, 0x804] → CompletesAs s i s.settled)
        ∧ (k = 0x400 → sets 0 64 fun f => { f with tr := { f.tr with estatus := x } })
        ∧ (k = 0x402 → sets 4 53 fun f => { f with tr := { f.tr with epc := x } })
        ∧ (k = 0x406 → sets 4 53 fun f => { f with tr := { f.tr with handler := x } })
        ∧ (k = 0x800 → sets 16 36 fun f => { f with sys := { f.sys with ptroot := x } })
        ∧ (k = 0x801 → sets 0 16 fun f => { f with sys := { f.sys with asid := x.setWidth 16 } })
        ∧ (k = 0x802 → sets 10 47 fun f => { f with sys := { f.sys with ctxsave := x } })
        ∧ (k = 0x803 → sets 12 45 fun f => { f with sys := { f.sys with evspill := x } })
        ∧ (k = 0x804 → sets 0 32 fun f => { f with sys := { f.sys with evquota := x.setWidth 32 } })
        ∧ (k = 0x100 →
            let bad : Prop := ∃ b, b < 32 ∧ bits x (2 * b) 2 = 3
            let held : Prop := ∃ q ∈ s.fr.r.streams.toList, q.mode ≠ 0 ∧ bits x (2 * q.bank) 2 ≠ 1
            (bad → TrapsWith s i { cause := Cause.illegalInstruction })
            ∧ (¬ bad → held → TrapsWith s i { cause := Cause.streamUse })
            ∧ (¬ bad → ¬ held → (s.enginesTouch s.cur (s.fr.sys.lostTiles x) = true ∨ s.classedTouch s.cur (s.fr.sys.gainedTiles x) = true) →
                SlotReady i s → exec i s = .next s.held)
            ∧ (¬ bad → ¬ held → s.enginesTouch s.cur (s.fr.sys.lostTiles x) = false → s.classedTouch s.cur (s.fr.sys.gainedTiles x) = false →
                SlotReady i s → ∃ t, exec i s = .next t ∧ t.mem = s.mem ∧ t.fr.r.s = s.fr.r.s ∧ t.fr.sys = { s.fr.sys with bankrole := x }))
        ∧ (0x800 ≤ k → f.id.mode = false → okCsrw h a l = true →
            exec i s = .next (s.takeTrap { cause := Cause.privilege, slot := s.ctx.slot } f.ctl.pc)))
    ∧ (0x800 ≤ num.toNat → f.id.mode = false → okCsrr n d num = true →
        exec (.csrr p n d num) s = .next (s.takeTrap { cause := Cause.privilege, slot := s.ctx.slot } f.ctl.pc))

/-- Trap entry saves and goes to the handler; TRAP, TRET and asynchronous traps. A trap of a cause that may enter a handler, outside
one, with HANDLER set, saves P1-P7 with the mask and loop depths in ESTATUS, the bundle to resume in EPC, the cause with the ASYNC
bit, EVADDR, ESLOT and EENG, keeps latches, LDEPTH and mask floor in the shadow, clears the latches, raises the floor to the depth,
sets INTRAP and makes HANDLER.ADDR the next bundle, eight cycles later at the earliest, with no result left in flight. Without
handler, or for a cause that may not enter one, the task ends; a synchronous trap in a handler ends it with DOUBLE_TRAP, an
asynchronous one is held while fewer than eight are. TRAP n issues, and its trap of cause 0xC0 + n is due at the boundary after its
bundle, where TRAP_ENTRY takes the oldest trap due. TRET returns to EPC with latches, floor and depths restored, raises illegal
return outside a handler, and ends the task for a bad ESTATUS. (R154, R270, R271, R272, R273, R274, R404) -/
def Obligations.ExceptionEntryAndReturn : Prop :=
(∀ (s : State) (c : CoreId) (k : Fin 4) (t : Trap) (epc : Word),
    let f := s.frameAt c k
    let u := s.takeTrapAt c k t epc
    let g := u.frameAt c k
    let enters : Prop := f.tr.intrap = false ∧ f.tr.handler ≠ 0 ∧ causeEnters t.cause = true
    let ends (cause : Cause) : Prop := f.ctl.ended = false → g.ctl.halted = true ∧ g.ctl.ended = true ∧ g.r = f.r
      ∧ ∃ e ∈ u.agenda, e.row = .taskComplete ∧ e.arg.tid = f.id.task ∧ e.arg.u = 1 ∧ e.arg.w0 = cause.setWidth 64
    (enters → g.tr.estatus = BitVec.ofNat 64 (((s.drain c k).frameAt c k).preds.toNat / 2 * 256 + f.r.mstack.length * 8 + f.ctl.depth)
      ∧ g.tr.epc = epc ∧ g.tr.ecause = BitVec.ofNat 64 (t.cause.toNat + if t.async then 256 else 0) ∧ g.tr.evaddr = t.evaddr
      ∧ g.tr.eslot = BitVec.ofNat 64 t.slot ∧ g.tr.eeng = t.eeng ∧ g.tr.intrap = true ∧ g.ctl.pc = canon57 f.tr.handler
      ∧ g.ctl.floor = f.ctl.depth ∧ g.ctl.depth = f.ctl.depth ∧ g.r.lat = {} ∧ g.infl = []
      ∧ g.tr.shadow.depth = f.ctl.depth ∧ g.tr.shadow.floor = f.ctl.floor ∧ g.tr.shadow.mfloor = f.r.mstack.length
      ∧ g.tr.shadow.lat = ((s.drain c k).frameAt c k).r.lat ∧ g.r.mstack = f.r.mstack ∧ g.r.vw = f.r.vw
      ∧ g.ctl.notBefore = max (s.cyc c + 8) (s.lastDue c k + 1) ∧ (f.infl = [] → g.r.s = f.r.s ∧ u.mem = s.mem))
    ∧ (f.tr.intrap = true → t.async = true → f.tr.held.length < 8 → g.tr.held = f.tr.held ++ [t] ∧ g.ctl = f.ctl ∧ g.r = f.r)
    ∧ (f.tr.intrap = true → ¬ (t.async = true ∧ f.tr.held.length < 8) → ends Cause.doubleTrap)
    ∧ (f.tr.intrap = false → (f.tr.handler = 0 ∨ causeEnters t.cause = false) → ends t.cause))
  ∧ (∀ (s : State) (p : BitVec 3) (n : BitVec 6), SlotReady (.trap p n) s → ∃ u, exec (.trap p n) s = .next u ∧ u.cur = s.cur
      ∧ u.mem = s.mem ∧ u.fr.r.s = s.fr.r.s ∧ u.fr.ctl.pc = (s.fr.backEdge s.fr.ctl.pc 6).2.1
      ∧ u.fr.tr = { s.fr.tr with due := s.fr.tr.due ++ [{ cause := BitVec.ofNat 8 (0xC0 + n.toNat), slot := s.ctx.slot.val }] }
      ∧ (s.fr.tr.due = [] → s.fr.tr.intrap = false → s.fr.tr.handler ≠ 0 → ∃ v, exec .trapEntry u = .next v
        ∧ v.fr.tr.ecause = BitVec.ofNat 64 (0xC0 + n.toNat) ∧ v.fr.tr.intrap = true
        ∧ v.fr.tr.epc = (s.fr.backEdge s.fr.ctl.pc 6).2.1 ∧ v.fr.tr.eslot = BitVec.ofNat 64 s.ctx.slot.val ∧ v.fr.tr.evaddr = 0
        ∧ v.fr.tr.eeng = 0 ∧ v.fr.ctl.pc = canon57 s.fr.tr.handler ∧ v.fr.r.lat = {} ∧ v.fr.infl = []))
  ∧ (∀ (s : State) (t : Trap) (ts : List Trap), s.fr.tr.due = t :: ts → ∃ u, exec .trapEntry s = .next u ∧ u.cur = s.cur
      ∧ u.fr.tr.due = ts ∧ (s.fr.tr.intrap = false → s.fr.tr.handler ≠ 0 → causeEnters t.cause = true →
          u.fr.tr.epc = s.fr.ctl.pc ∧ u.fr.ctl.pc = canon57 s.fr.tr.handler ∧ u.fr.tr.intrap = true ∧ u.fr.tr.evaddr = t.evaddr
          ∧ u.fr.tr.ecause = BitVec.ofNat 64 (t.cause.toNat + if t.async then 256 else 0)))
  ∧ (∀ (s : State) (p : BitVec 3),
      let st := s.fr.tr.estatus
      let sh := s.fr.tr.shadow
      let good : Prop := bits st 15 49 = 0 ∧ bits st 3 5 ≤ sh.mfloor ∧ bits st 0 3 ≤ sh.depth
      (s.fr.tr.intrap = false → TrapsWith s (.tret p) { cause := Cause.illegalReturn })
      ∧ (s.fr.tr.intrap = true → ¬ good → SlotReady (.tret p) s → exec (.tret p) s =
          .next (s.faultTaskAt s.cur s.here.run { cause := Cause.badStatus, slot := s.ctx.slot } s.fr.ctl.pc))
      ∧ (s.fr.tr.intrap = true → good → s.fr.tr.held = [] → sh.depth ≤ 6 → SlotReady (.tret p) s → ∃ u, exec (.tret p) s = .next u
          ∧ u.fr.ctl.pc = canon57 s.fr.tr.epc ∧ u.fr.tr.intrap = false ∧ u.fr.r.lat = sh.lat ∧ u.fr.ctl.depth = bits st 0 3
          ∧ u.fr.ctl.floor = min sh.floor (bits st 0 3) ∧ u.fr.infl = []
          ∧ u.fr.r.mstack = s.fr.r.mstack.drop (s.fr.r.mstack.length - bits st 3 5)
          ∧ (∀ i, 1 ≤ i → i < 4 → u.fr.r.p.getLsbD i = st.getLsbD (7 + i))
          ∧ u.fr.ctl.notBefore = max (s.cyc s.cur + 7) (s.lastDue s.cur s.here.run + 1)))

/-- WHPRE, WHWAIT, WHPIN, WHUNP, WHQRY and WHMAP. A handle number with a bit above 15 raises the handle fault. WHPRE queues a
prefetch fill for an ABSENT handle with a size and a home die, and else does nothing. WHWAIT and WHPIN of a resident handle return
the address of its copy, WHPIN with one pin more, a fifth pin raising the handle fault; of a FAULTED one they raise weight poison;
of a handle with no size or home, the handle fault; of one that is FILLING or ABSENT they hold with their wait noted, a demand fill
being queued for the ABSENT one. WHUNP drops a pin that the task holds, which the table counts in the next tick. WHQRY returns the
status word, WHMAP the word of the expert map of the task's request, or all ones. (R251, R325, R327, R330, R333, R338, R442, R444,
R445) -/
def Obligations.HandleOperations : Prop :=
∀ (s : State) (p : BitVec 3) (d a : BitVec 6), Readable s a →
    let x := s.rdS a
    let h : BitVec 16 := x.setWidth 16
    let e := s.handle h
    let grp := s.fr.id.tokgrp
    let numbered : Prop := bits x 16 48 = 0
    let gateOpen : Prop := s.ld.gate = false ∨ grp = 0 ∨ (s.admitted grp).isSome = true
    let fresh (pin : Bool) : Prop := gateOpen ∧ s.deferred = false ∧ (s.fr.msg.waits.find? fun w => w.h == h && w.pin == pin) = none
    let wh (pin : Bool) : Instr := if pin then .whpin p d a else .whwait p d a
    let loads (t : State) (v : Word) : Prop := t.mem = s.mem ∧ t.fr.r.s = s.fr.r.s
      ∧ ∃ q ∈ t.fr.loads, q.dest = .s d.toNat ∧ q.parts = 0 ∧ q.data.setWidth 64 = v
    let gives (i : Instr) (v : Word) : Prop := SlotReady i s → ∃ t, exec i s = .next t ∧ loads t v
    (¬ numbered → ∀ i ∈ [Instr.whpre p a, .whwait p d a, .whpin p d a, .whunp p a, .whqry p d a], TrapsWith s i { cause := Cause.handle })
    ∧ (numbered → (e.st ≠ 0 ∨ e.size = 0 ∨ e.flipp = true) → CompletesAs s (.whpre p a) s.settled)
    ∧ (numbered → e.st = 0 → e.size ≠ 0 → e.flipp = false → ∀ dd, s.residentDie h = some dd → (s.base dd).awaits h = false →
        SlotReady (.whpre p a) s → ∃ t, exec (.whpre p a) s = .next t ∧ t.mem = s.mem ∧ (t.handle h).pref = true
          ∧ (h, false, s.nextId) ∈ (t.base dd).fills)
    ∧ (numbered → gives (.whqry p d a) (e.version ++ BitVec.ofNat 32 (min e.pins 255 * 256
        + if 0 < e.pins then 4 else if e.st = 2 ∧ e.llch = true then 3 else e.st)))
    ∧ (numbered → s.fr.msg.pins.contains h = false → TrapsWith s (.whunp p a) { cause := Cause.handle })
    ∧ (numbered → s.fr.msg.pins.contains h = true → SlotReady (.whunp p a) s → ∃ t, exec (.whunp p a) s = .next t ∧ t.mem = s.mem
        ∧ t.fr.msg.pins = dropFirst (· == h) s.fr.msg.pins
        ∧ ∃ v ∈ t.agenda, v.row = .pinWaitRetry ∧ v.arg.u = 1 ∧ v.arg.h = h ∧ v.at_ = s.time + 1)
    ∧ (∀ pin : Bool, numbered → fresh pin → (pin = true → s.fr.msg.pins.length < 4) → e.flipp = false →
        (e.st = 6 → TrapsWith s (wh pin) { cause := Cause.weightPoison })
        ∧ (e.st = 2 → (pin = true → e.pins < 4096) → (pin = false → e.pins = 0 → (s.settled.promote h).closed = false) →
             gives (wh pin) (s.residentVa e))
        ∧ (e.st ≠ 6 → e.st ≠ 2 → (e.size = 0 ∨ s.residentDie h = none) → TrapsWith s (wh pin) { cause := Cause.handle })
        ∧ (e.st ≠ 6 → e.st ≠ 2 → e.size ≠ 0 → ∀ dd, s.residentDie h = some dd → SlotReady (wh pin) s →
            ∃ t, exec (wh pin) s = .next t ∧ t.mem = s.mem ∧ t.fr.r = s.fr.r ∧ t.fr.ctl.pc = s.fr.ctl.pc
              ∧ (∃ w ∈ t.fr.msg.waits, w.h = h ∧ w.pin = pin) ∧ (e.st ≠ 1 → (t.base dd).awaits h = true)))
    ∧ (numbered → fresh true → s.fr.msg.pins.length < 4 → e.flipp = false → e.st = 2 → e.pins < 4096 → SlotReady (.whpin p d a) s →
        ∃ t, exec (.whpin p d a) s = .next t ∧ (t.handle h).pins = e.pins + 1 ∧ t.fr.msg.pins = s.fr.msg.pins ++ [h])
    ∧ (numbered → fresh true → 4 ≤ s.fr.msg.pins.length → TrapsWith s (.whpin p d a) { cause := Cause.handle })
    ∧ (bits x 32 32 ≠ 0 → TrapsWith s (.whmap p d a) { cause := Cause.handle })
    ∧ (bits x 32 32 = 0 → gateOpen →
        let ver := s.requestMap grp
        gives (.whmap p d a) (match (s.mapVer ver).bind fun m => m.word (bits x 16 16) (bits x 0 16) with
          | some w => ver ++ (w &&& 0x7FFFF#32)
          | none => BitVec.allOnes 64))

/-- Fills, evictions, flips and timers of weight handles. A waiting fill takes the first FREE slot, which is FILLING then, or has a
victim evicted and reserved for it; a fill that meets a slot that the evictor has chosen in the same cycle chooses again; the
evictor evicts while fewer than SLOTLOW slots are FREE or EVICTING; the pin-wait queue is tried likewise, and a dropped pin reaches
the table. A fill reads its pages in order: one waits while its stack has no power or has reads that come before, the others issue
at the block that holds them, are asked for again where they failed at a block that their page has left, and put their bytes in the
slot; the last makes the handle resident; a page that cannot be read leaves the handle FAULTED and the slot FREE. An eviction, once
the accesses under its mapping have ended, makes the handle ABSENT and the slot FREE. A flip takes the staged version at once where
no copy is in use, evicts an unpinned resident copy, and else waits. HWAIT's expiry pre-empts a task whose waits are not over and
else lets its time run anew; a pin-wait expiry releases the first-pass waiters of its group. (R325, R328, R329, R330, R332, R333,
R334, R335, R338, R432) -/
def Obligations.HandleEvents : Prop :=
∀ (s : State),
    let d := s.arg.d
    let i := s.arg.u
    let h := s.arg.h
    let e := s.handle h
    let b := s.base d
    let x := b.slot i
    let filling (t : State) (j : Nat) (g : BitVec 16) : Prop := ((t.base d).slot j).st = .filling ∧ ((t.base d).slot j).handle = g
      ∧ (t.handle g).st = 1 ∧ (t.handle g).slot = BitVec.ofNat 16 j ∧ (t.handle g).rdie = BitVec.ofNat 3 d.val
      ∧ ∃ v ∈ t.agenda, v.row = .handleFillComplete ∧ v.arg.d = d ∧ v.arg.u = j ∧ v.arg.h = g
    let free : Option Nat := (List.range b.slots.length).find? fun j => (b.slot j).st == .free
    let evicts (t : State) (j : Nat) (r : Option (BitVec 16)) : Prop := ((t.base d).slot j).st = .evicting
      ∧ ((t.base d).slot j).reserved = r ∧ (t.handle (b.slot j).handle).st = 5
      ∧ ∃ v ∈ t.agenda, v.row = .evictionDrainComplete ∧ v.arg.d = d ∧ v.arg.u = j
    (e.st = 0 → ∃ t, exec .handleFlip s = .next t ∧ t.handle h = e.takeStaged ∧ t.mem = s.mem)
    ∧ (e.st = 2 → e.pins = 0 → ((s.base (Fin.ofNat 8 e.rdie.toNat)).slot e.slot.toNat).handle = h →
        ∃ t, exec .handleFlip s = .next t ∧ t.mem = s.mem ∧ t.handle h = { e.takeStaged with st := 5 })
    ∧ (e.st = 6 → ∃ t, exec .handleFlip s = .next t ∧ t.mem = s.mem ∧ (t.handle h).st = 0 ∧ (t.handle h).cause = 0
        ∧ (t.handle h).version = e.takeStaged.version ∧ (t.handle h).lfa = e.takeStaged.lfa)
    ∧ (e.st ≠ 0 → e.st ≠ 6 → ¬ (e.st = 2 ∧ e.pins = 0) → ∃ t, exec .handleFlip s = .next t ∧ t.handle h = { e with flipp := true } ∧ t.mem = s.mem)
    ∧ (∀ g dm n, b.fills = [(g, dm, n)] → (s.handle g).st = 0 → (b.slots.any fun y => y.reserved == some g) = false →
        (∀ j, free = some j → ∃ t, exec .handleFillAllocation s = .next t ∧ t.mem = s.mem ∧ filling t j g ∧ (t.base d).fills = [])
        ∧ (free = none → (∀ k, k < b.slots.length → (b.slot k).chosen ≠ some s.time) → ∀ j, s.victim d = some j →
            ∃ t, exec .handleFillAllocation s = .next t ∧ t.mem = s.mem ∧ evicts t j (some g))
        ∧ (free = none → ∀ j, s.fillVictim d [] = some j → (b.slot j).st = .evicting → ∃ t, exec .handleFillAllocation s = .next t
            ∧ t.mem = s.mem ∧ t.bases = s.bases ∧ t.handles = s.handles))
    ∧ (bits b.hpar1 0 16 ≤ b.spare → exec .evictorVictim s = .next s)
    ∧ (∀ j, b.spare + 1 = bits b.hpar1 0 16 → s.victim d = some j → ∃ t, exec .evictorVictim s = .next t ∧ t.mem = s.mem ∧ evicts t j none)
    ∧ (∀ j, s.victim d = some j → j < b.slots.length ∧ s.evictable (b.slot j) = true
        ∧ ∀ k, k < b.slots.length → s.evictable (b.slot k) = true → (b.slot j).lastUse ≤ (b.slot k).lastUse)
    ∧ (i = 1 → ∃ t, exec .pinWaitRetry s = .next t ∧ t.mem = s.mem ∧ (t.handle h).pins = e.pins - 1)
    ∧ (∀ g j, i ≠ 1 → b.pinq = [g] → (b.slots.any fun y => y.reserved == some g) = false → free = some j →
        ∃ t, exec .pinWaitRetry s = .next t ∧ t.mem = s.mem ∧ filling t j g ∧ (t.base d).pinq = [])
    ∧ (i < b.slots.length → x.st = .evicting → x.handle = h → x.reserved = none → s.waitersOf h = [] → e.flipp = false →
        s.arg.id = 0 → s.invalIds { every := true, range := some (residentBase + b.slotPa i, b.slotSize) } = [] →
        ∃ t, exec .evictionDrainComplete s = .next t ∧ ((t.base d).slot i).st = .free
          ∧ t.handle h = { e with st := 0, slot := 0, rdie := 0, used := false, pref := false, llch := false })
    ∧ (x.st = .evicting → x.handle = h → s.arg.id = 0 →
        s.invalIds { every := true, range := some (residentBase + b.slotPa i, b.slotSize) } ≠ [] →
        ∃ t, exec .evictionDrainComplete s = .next t ∧ t.mem = s.mem ∧ (t.base d).slot i = x ∧ (∃ q ∈ t.invals, q.id = s.nextId)
          ∧ ∃ v ∈ t.agenda, v.row = .evictionDrainComplete ∧ v.arg = { s.arg with id := s.nextId })
    ∧ (i < b.slots.length → x.st = .filling → x.handle = h → e.st = 1 →
        let lfa := e.lfa.toNat + s.arg.n
        let asks (t : State) (row : Instr) (a : Arg) : Prop := t.mem = s.mem ∧ ∃ v ∈ t.agenda, v.row = row ∧ v.arg = a
        let waits := !s.flashOn || (s.flashStack (lfa / 512)).any fun k => s.readsAhead k (if s.demanded h then 1 else 3)
        let open_ := allDies.findSome? fun k =>
          ((s.base k).nl.open_.find? fun r => r.lfa == lfa && r.phys + 1 == s.arg.id).map fun r => (k, r)
        (s.arg.id = 0 →
          (waits = true → ∃ t, exec .handleFillComplete s = .next t ∧ asks t .handleFillComplete s.arg ∧ t.bases = s.bases)
          ∧ (waits = false → s.pageOk lfa = false → ∃ t, exec .handleFillComplete s = .next t ∧ asks t .handleFillFault s.arg)
          ∧ (waits = false → s.pageOk lfa = true → ∀ k, s.flashStack (lfa / 512) = some k → ∃ t, exec .handleFillComplete s = .next t
              ∧ ∃ r ∈ (t.base k).nl.open_, r.lfa = lfa ∧ asks t .handleFillComplete { s.arg with id := r.phys + 1 }))
        ∧ (∀ k r, s.arg.id ≠ 0 → open_ = some (k, r) →
          (r.failed = true → ∃ t, exec .handleFillComplete s = .next t ∧ asks t .handleFillComplete { s.arg with id := 0 })
          ∧ (r.failed = false → s.pageOk lfa = false → ∃ t, exec .handleFillComplete s = .next t ∧ asks t .handleFillFault s.arg)
          ∧ (∀ n, r.failed = false → s.pageOk lfa = true → e.shape = some (n, false) → s.arg.n * pageSize < n →
              let pa := b.slotPa i + s.arg.n * pageSize
              let k := min pageSize (n - s.arg.n * pageSize)
              s.yieldsAt (s.stamp (fillWriter d)) pa k = 0 → e.flipp = false → s.waitersOf h = [] →
              ∃ t, exec .handleFillComplete s = .next t ∧ t.mem = Memory.write s.mem pa k (s.flashRead lfa pageSize)
                ∧ (∀ c k, (t.frameAt c k).r = (s.frameAt c k).r)
                ∧ (if pageSize < n - s.arg.n * pageSize then
                     ∃ v ∈ t.agenda, v.row = .handleFillComplete ∧ v.arg = { s.arg with n := s.arg.n + 1, id := 0 }
                   else (t.handle h).st = 2 ∧ ((t.base d).slot i).st = .resident)))
        ∧ (∃ t, exec .handleFillFault s = .next t ∧ t.mem = s.mem ∧ (t.handle h).st = 6
            ∧ (t.handle h).cause = Cause.weightPoison ∧ ((t.base d).slot i).st = .free
            ∧ (e.flipp = true → ∃ v ∈ t.agenda, v.row = .handleFlip ∧ v.arg.h = h)))
    ∧ (let m := (s.frameAt s.arg.c s.arg.k).msg
       let runs : Prop := s.holds s.arg.c s.arg.k s.arg.tid = true ∧ m.waitFrom = some s.arg.id
       (runs → s.waitsOver m = false → ∃ t, exec .hwaitExpiry s = .next t ∧ t.mem = s.mem ∧ ∃ v ∈ t.agenda, v.row = .preemptTask ∧ v.arg.tid = s.arg.tid ∧ v.arg.u = 3)
       ∧ (runs → s.waitsOver m = true → ∃ t, exec .hwaitExpiry s = .next t ∧ t.mem = s.mem
           ∧ (t.frameAt s.arg.c s.arg.k).msg = { m with waitFrom := none } ∧ (t.frameAt s.arg.c s.arg.k).r = (s.frameAt s.arg.c s.arg.k).r)
       ∧ (¬ runs → exec .hwaitExpiry s = .next s))
    ∧ (∃ t, exec .rgraceExpiry s = .next t ∧ t.mem = s.mem ∧ t.handles = s.handles ∧ t.cores = s.cores ∧ t.bases = s.bases)
    ∧ (let grp : BitVec 32 := s.arg.w0.setWidth 32
       let known : Prop := (h, grp, s.arg.id) ∈ b.pinTimers
       (¬ known → exec .pinwaitExpiry s = .next s)
       ∧ (known → s.waitersOf h = [] → ∃ t, exec .pinwaitExpiry s = .next t ∧ t.mem = s.mem ∧ (t.base d).pinq = b.pinq.filter (· != h))
       ∧ (known → ∀ tk c k, s.waitersOf h = [tk] → s.task tk.tid = some tk → tk.pass2 = false → tk.tokgrp = grp → tk.route = 0 →
            tk.place = some (c, k) → ∃ t, exec .pinwaitExpiry s = .next t ∧ t.mem = s.mem
              ∧ ∀ w ∈ (t.frameAt c k).msg.waits, w.h = h → w.zero = true))

/-- RTPRED, RTDISP, the Lantern's queue and the ingress units. RTPRED sends its vector to the die's Lantern, or has it discarded and
counted when its count is out of range or, by free choice (log 4), while another submission is under way; the Lantern discards and
counts a submission for a group or layer that is not there, counts the others, and queues the first expert of the chosen. It serves
the entry of least layer, rank and arrival while fewer than LOUT prefetches are out, and drops entries past their age. RTDISP, once
its release can complete, sends a dispatch with its record's address and its groups. The engine reads the record: a bad one or a
failed access ends the dispatch and makes an engine fault due; else one ingress append follows for each group. An append that fails
ends the dispatch with its fault; the last one completes it, with the record of kind 6 once the queue has room. (R239, R254, R255,
R257, R337, R338, R339, R340, R341) -/
def Obligations.RoutingAndDispatch : Prop :=
(∀ (s : State) (p : BitVec 3) (a b : BitVec 6) (x : Vec) (seen : Seen) (w : State), Readable s b →
    let y := s.rdS b
    let d := dieOf s.cur
    (readV s.ctx s (xOpd s.ctx 1 a) 4 true ([], s.settled) = .ok (x, seen, w) → w.closed = s.closed → SlotReady (.rtpred p a b) s →
      ∃ t, exec (.rtpred p a b) s = .next t ∧ t.mem = s.mem ∧ t.fr.r.s = s.fr.r.s
        ∧ ((bits y 32 8 = 0 ∨ 128 < bits y 32 8 ∨ bits y 40 24 ≠ 0) → (t.base d).lndisc = (s.base d).lndisc + 1)
        ∧ ((bits y 32 8 ≠ 0 ∧ bits y 32 8 ≤ 128 ∧ bits y 40 24 = 0) → (∀ e ∈ w.agenda, e.row = .lanternSubmission → e.arg.d ≠ d) →
            (t.base d).lndisc = (s.base d).lndisc)
        ∧ ((t.base d).lndisc = (s.base d).lndisc + 1
            ∨ ∃ e ∈ t.agenda, e.row = .lanternSubmission ∧ e.arg.d = d ∧ e.arg.w0 = y ∧ e.arg.v = x))
    ∧ (readV s.ctx s (xOpd s.ctx 1 a) 4 false ([], s.settled) = .ok (x, seen, w) → s.ld.gate = false →
        (s.releaseWaits = true → SlotReady (.rtdisp p a b) s →
          exec (.rtdisp p a b) s = .next (s.updCtl fun c => { c with orderFrom := some s.orderCycle }).held)
        ∧ (s.releaseWaits = false → w.releaseWaits = false → (w.release w.cur 3).closed = s.closed → SlotReady (.rtdisp p a b) s →
            ∃ t, exec (.rtdisp p a b) s = .next t
              ∧ (∃ r ∈ t.disps, r.id = w.nextId ∧ r.record = y ∧ r.groups = chosenGroups x ∧ r.tid = w.fr.id.task ∧ r.ended = false)
              ∧ ∃ e ∈ t.agenda, e.row = .ingressAppend ∧ e.arg.id = w.nextId ∧ e.arg.u = 8)))
  ∧ (∀ (l : List LnEntry) (e : LnEntry), firstEntry l = some e → e ∈ l ∧ ∀ y ∈ l, y.before e = false)
  ∧ (∀ s : State,
    let d := s.arg.d
    let b := s.base d
    let y := s.arg.w0
    let g := bits y 0 16
    let t := bits y 16 16
    let layers := ((s.mapVer s.ld.mapcur).map (·.layers.length)).getD 0
    (512 ≤ g ∨ layers ≤ t → ∃ u, exec .lanternSubmission s = .next u ∧ u.mem = s.mem ∧ (u.base d).lndisc = b.lndisc + 1
        ∧ (u.base d).lnsub = b.lnsub ∧ (u.base d).lnq = b.lnq)
    ∧ (¬ (512 ≤ g ∨ layers ≤ t) → ∃ u, exec .lanternSubmission s = .next u ∧ u.mem = s.mem ∧ (u.base d).lnsub = b.lnsub + 1
        ∧ (b.lnctl.getLsbD 31 = false → (u.base d).lnq = b.lnq)
        ∧ (∀ m w, b.lnctl.getLsbD 31 = true → rankLogits s.arg.v.toNat (bits y 32 8) = [m] → 1 ≤ bits b.lnctl 8 4 → b.lnq = [] →
            ((s.mapVer s.ld.mapcur).bind fun v => v.word t (128 * g + m.1)) = some w →
            (u.base d).lnq = [{ layer := t, rank := 0, arr := b.lnarr, at_ := s.time, handle := w.setWidth 16 }]))
    ∧ (bits b.lnctl 0 8 ≤ b.lnout.length → exec .lanternPrefetchSend s = .next s)
    ∧ (b.lnout.length < bits b.lnctl 0 8 → ∀ e, firstEntry b.lnq = some e → ∃ u, exec .lanternPrefetchSend s = .next u ∧ u.mem = s.mem
        ∧ (u.base d).lnq = b.lnq.filter (· != e) ∧ (u.base d).lnpf = b.lnpf + 1
        ∧ ((s.handle e.handle).st = 0 → (s.handle e.handle).size ≠ 0 → (s.handle e.handle).flipp = false →
            ∀ r, s.residentDie e.handle = some r → (s.base r).awaits e.handle = false →
              e.handle ∈ (u.base d).lnout ∧ (u.base r).awaits e.handle = true))
    ∧ (∀ e, (b.lnq.find? fun z => z.handle == s.arg.h) = some e → b.lnage ≠ 0 →
        (e.at_ + ticksOfUs b.lnage.toNat < s.time → ∃ u, exec .lanternAgeExpiry s = .next u ∧ u.mem = s.mem
          ∧ (u.base d).lnq = b.lnq.filter (· != e) ∧ (u.base d).lndrop = b.lndrop + 1)
        ∧ (s.time ≤ e.at_ + ticksOfUs b.lnage.toNat → ∃ u, exec .lanternAgeExpiry s = .next u ∧ u.bases = s.bases
          ∧ ∃ v ∈ u.agenda, v.row = .lanternAgeExpiry ∧ s.time < v.at_))
    ∧ (∀ q, s.disps.find? (·.id == s.arg.id) = some q →
        let gd := s.groupDie (s.requestMap q.tokgrp) q.layer s.arg.n
        let fails (u : State) (cause : Cause) : Prop := u.mem = s.mem ∧ u.disps = s.disps.filter (fun z => z.id != q.id)
          ∧ ∃ f ∈ (u.frameAt q.c q.k).tr.due, f.cause = cause ∧ f.async = true ∧ f.eeng = wd (cause.toNat * 2 ^ 32 + 6)
        let here : Prop := s.holds q.c q.k q.tid = true ∧ (s.frameAt q.c q.k).ctl.halted = false
        (s.arg.u = 8 → (s.disps.any fun x => x.ended && dieOf x.c == dieOf q.c) = true →
          ∃ u, exec .ingressAppend s = .next u ∧ u.disps = s.disps ∧ ∃ e ∈ u.agenda, e.row = .ingressAppend ∧ e.arg = s.arg)
        ∧ (s.arg.u = 8 → (s.disps.any fun x => x.ended && dieOf x.c == dieOf q.c) = false →
            let q' : Disp := { q with by_ := s.releasesOf (coreWriter q.c) }
            (∀ f, prepareDispatch s q' = .error f → here → ∃ u, exec .ingressAppend s = .next u ∧ fails u f.cause)
            ∧ (∀ x w, prepareDispatch s q' = .ok (x, w) → ∃ u, exec .ingressAppend s = .next u ∧ u.mem = w.mem ∧ x ∈ u.disps
                ∧ (∀ g ∈ x.groups, ∃ e ∈ u.agenda, e.row = .ingressAppend ∧ e.arg.id = q.id ∧ e.arg.n = g.1 ∧ e.arg.u = g.2)
                ∧ (x.groups = [] → ∃ e ∈ u.agenda, e.row = .dispatchComplete ∧ e.arg.id = q.id)))
        ∧ (s.arg.u ≠ 8 → gd = none → here → ∃ u, exec .ingressAppend s = .next u ∧ fails u Cause.address)
        ∧ (∀ dd v w w', s.arg.u ≠ 8 → gd = some dd →
            ingressRead (s.partyLearns (ingressWriter dd) q.by_) dd (s.dispSpace q) (q.logitVa s.arg.n) 512 = .ok (v, w) →
            appendExperts dd (w.dispSpace q) q s.arg.n s.arg.u v w 0 ((rankLogits v 128).take q.ke) = (w', none) →
            ∃ u, exec .ingressAppend s = .next u ∧ u.mem = w'.mem
              ∧ ((∀ z ∈ q.groups, z.1 = s.arg.n) → ∃ e ∈ u.agenda, e.row = .dispatchComplete ∧ e.arg.id = q.id))
        ∧ (let n (j : Nat) : Nat := q.counts.getD j 0
           let waits := s.signalWaits q.tid (q.tag ++ 0x20#8)
           (waits = true → ∃ u, exec .dispatchComplete s = .next u ∧ u.mem = s.mem ∧ u.cores = s.cores
             ∧ ∃ e ∈ u.agenda, e.row = .dispatchComplete ∧ e.arg = s.arg)
           ∧ (waits = false → ∃ u, exec .dispatchComplete s = .next u ∧ u.disps = s.disps.filter (fun z => z.id != q.id)
             ∧ ∀ x c k, s.task q.tid = some x → x.place = some (c, k) → s.taskFrame q.c q.k q.tid = s.frameAt c k →
                 (s.frameAt c k).msg.evq.length < 256 → (s.frameAt c k).msg.spill = [] → u.mem = s.mem
                 ∧ (u.frameAt c k).msg.evq = (s.frameAt c k).msg.evq ++ [recordOf 0
                     (BitVec.ofNat 32 (min (n 0 + 256 * n 1 + 65536 * n 2 + 16777216 * n 3) (2 ^ 32 - 1))) q.tag 6#8 6]))))

/-- Illegal bits, the wrong mode and a false predicate, for every slot instruction. An instruction with a field value outside its
entry's takes the illegal-instruction trap in its slot, whatever its predicate and the state; so does one whose bits the slot's
header makes illegal. In user mode CSRR and CSRW of a register from 0x800 on, OWNT.F, TINVR and TINVA take the privilege trap,
whatever their predicate. A legal instruction in its mode whose predicate is false completes as a bundle that does nothing: no
memory, no scalar register, view, mask, result in flight or pending load changes. (R62, R63, R64, R276) -/
def Obligations.IssueChecks : Prop :=
∀ (i : Instr) (p : BitVec 3) (cls : Nat) (op : Op) (s : State), opOf i = some (p, cls, op) →
    (i.wf = false → exec i s = .next (s.takeTrap { cause := Cause.illegalInstruction, slot := s.ctx.slot } s.fr.ctl.pc))
    ∧ (op.legal s.ctx = false → exec i s = .next (s.takeTrap { cause := Cause.illegalInstruction, slot := s.ctx.slot } s.fr.ctl.pc))
    ∧ (s.fr.id.mode = false → op.legal s.ctx = true →
        ((∃ n d c, i = .csrr p n d c ∧ 0x800 ≤ c.toNat) ∨ (∃ h a l, i = .csrw p h a l ∧ 0x800 ≤ 64 * h.toNat + l.toNat)
          ∨ (∃ a b, i = .owntF p a b) ∨ (∃ d a b, i = .tinvr p d a b) ∨ (∃ a, i = .tinva p a)) →
        exec i s = .next (s.takeTrap { cause := Cause.privilege, slot := s.ctx.slot } s.fr.ctl.pc))
    ∧ (ReadyOff s p cls op → ∃ t, exec i s = .next t ∧ t.mem = s.mem ∧ t.poison = s.poison ∧ t.fr.r.s = s.fr.r.s
        ∧ t.fr.r.vw = s.fr.r.vw ∧ t.fr.r.mks = s.fr.r.mks ∧ t.fr.r.ofe = s.fr.r.ofe ∧ t.fr.infl = s.fr.infl ∧ t.fr.loads = s.fr.loads)

/-- Every event answers a next state, whatever the state, and keeps memory in its canonical form. Named are the events of the cores
(a bundle's issue and fetch, results, loads, operations of the matrix unit, tile fetches and stores with their faults, a nest's
bundles and its end, copies, streams, atomics, window accesses, walks), of the package (tasks, gangs, handles, Lanterns, snapshots,
the commands of streams) and of the base dies (HBM, flash, loader, power, security, ports). None stops; none leaves an entry out of
order or one that equals what an unlisted address reads as. What each does is said by the statements of its family. (R105, R217,
R219, R222, R226) -/
def Obligations.EventFormsComplete : Prop :=
∀ (s : State), s.MemOk → ∀ i ∈ ([
      .bundleIssue, .resultComplete, .loadComplete, .prepFetchComplete, .loopBufferFill, .trapEntry, .matrixOpStart, .matrixOpComplete,
      .tileFetchLand, .tileFetchFault, .tileStorePerformed, .nestBundleIssue, .nestEnd, .copyPiecePerformed, .copyComplete, .engineFault,
      .multicastPieceLand, .streamFillArrive, .streamDrainWrite, .barrierArrival, .eventRecordPost, .windowAccessArrive, .tableWalk,
      .taskPlace, .lentWindowZeroed, .swthrExpiry, .sliceExpiry, .taskComplete, .completionRecordWrite, .errorToken, .deadlineExpiry,
      .priorityAging, .h3waitExpiry, .stealRequest, .stealBackoffExpiry, .gangStart, .scheduleSelect, .transferWindowOpen,
      .transferWindowClose, .gangCut, .gangGraceExpiry, .gsliceExpiry, .gangResume, .preemptTask, .contextSave, .contextRestore,
      .hungExpiry, .handleFillAllocation, .evictorVictim, .handleFillComplete, .handleFillFault, .evictionDrainComplete, .handleFlip,
      .pinWaitRetry, .hwaitExpiry, .rgraceExpiry, .pinwaitExpiry, .lanternSubmission, .lanternPrefetchSend, .lanternAgeExpiry,
      .ingressAppend, .dispatchComplete, .snsaveComplete, .snloadComplete, .snapshotEngineFault, .snapshotEvict, .pxctlClr,
      .queueDoorbell, .submissionEntryStart, .nopc, .launch, .launchi, .gang, .wait, .loopc, .ifc, .write, .signal, .chain, .endC,
      .qackResume, .qackDiscard, .preemptGo, .registerWrite, .hostWindowAccess, .hwmapWrite, .hctlQuiesce, .hctlQuiesceComplete,
      .hctlUnquiesce, .hctlRemap, .hctlRemapComplete, .hctlClrstat, .hbmActivation, .trackerReset, .hbmUncorrectable, .llcpartWrite,
      .formatWindowWrite, .hsetGo, .nolnusRead, .nolnusWrite, .nolnusAlloc, .nolnusFree, .nolnusDigest, .nolnusReloc,
      .readDisturbRelocation, .wearLevelMove, .flashProgramFailure, .flashUncorrectable, .loaderGo, .loaderAbort, .stagetExpiry,
      .loaderFlip, .draintExpiry, .mapnextInstall, .migrationFill, .mapRetire, .boostBoundary, .sensorSample, .throttleRecover,
      .currentLimitRecover, .pwcmdSave, .emergencySaveComplete, .hardTrip, .moduleReset, .psreqWrite, .powerUp, .clrhold, .clrsusp,
      .attest, .keyadd, .keyrevoke, .debugAuth, .secure, .decommission, .ownershipClaim, .attestationRequest, .ownleaseRenew, .ownhand,
      .leaseExpiry, .handoverLapse, .netWrite, .netRead, .netSend, .flitCrcFail, .l1WriteBack, .atomicComplete, .vectorLoadLand,
      .sramUncorrectable, .nolnusCommandDone, .bundleFetch ] : List Instr), ∃ t, exec i s = .next t ∧ t.MemOk

/-- Results and loads that complete, and the fetches of targets, loop buffers and handlers. RESULT_COMPLETE takes the frame's first
result by cycle and order of issue out of flight: a scalar register takes its value, a mask its enabled bits, a predicate its bit,
register space its enabled bytes and no other byte, and the unit's latch records the value. A scalar load that lands, by
LOAD_COMPLETE or VECTOR_LOAD_LAND, writes its low bytes zero- or sign-extended and marks poison. PREP_FETCH_COMPLETE and
LOOP_BUFFER_FILL fill their entry with the bundles that can be fetched under the table and address space of the operation that
asked, first T. BUNDLE_FETCH ends the wait it belongs to. (R22, R64, R65, R133, R141, R147, R159, R229, R420) -/
def Obligations.ResultsAndFetches : Prop :=
∀ (s : State),
    let c := s.arg.c
    let k := s.arg.k
    let f := s.frameAt c k
    let same (t : State) : Prop := (t.frameAt c k).id = f.id ∧ (t.frameAt c k).tr = f.tr ∧ (t.frameAt c k).msg = f.msg
    let only (t : State) (d : Nat) (v : Word) : Prop := ∀ j : Fin 48, (t.frameAt c k).r.s.get j = if j.val = d then v else f.r.s.get j
    (firstResult f.infl = none → exec .resultComplete s = .next s)
    ∧ (∀ r, firstResult f.infl = some r → r ∈ f.infl ∧ (∀ q ∈ f.infl, q.before r = false) ∧
        ∃ t, exec .resultComplete s = .next t ∧ same t ∧ (t.frameAt c k).infl = dropFirst (· == r) f.infl ∧ (t.frameAt c k).ctl = f.ctl
          ∧ (t.frameAt c k).loads = f.loads
          ∧ (t.frameAt c k).r.lat = (match r.lat with
            | some u => f.r.lat.record u r.data
            | none => f.r.lat)
          ∧ (∀ d, r.dest = .s d → 0 < d → d < 48 → r.ben ≠ 0 → only t d (r.data.setWidth 64) ∧ t.mem = s.mem)
          ∧ (r.dest = .s 0 → (t.frameAt c k).r.s = f.r.s ∧ t.mem = s.mem)
          ∧ (∀ p, r.dest = .pred p → p < 8 → r.ben ≠ 0 → t.mem = s.mem ∧ ∀ j, j < 8 →
              (t.frameAt c k).r.p.getLsbD j = if j = p then r.data.getLsbD 0 else f.r.p.getLsbD j)
          ∧ (∀ m : Fin 8, r.dest = .mask m.val → t.mem = s.mem ∧ ∀ j, j < 512 →
              ((t.frameAt c k).r.mks.get m).getLsbD j = if r.ben.getLsbD j then r.data.getLsbD j else (f.r.mks.get m).getLsbD j)
          ∧ (∀ off, r.dest = .rs off → (t.frameAt c k).r.s = f.r.s ∧ ∀ a, Memory.byte t.mem a =
              if s.rsPa c k off ≤ a ∧ a < s.rsPa c k off + 512 ∧ r.ben.getLsbD (a - s.rsPa c k off) = true then
                BitVec.ofNat 8 (r.data.toNat >>> (8 * (a - s.rsPa c k off))) else Memory.byte s.mem a))
    ∧ (∀ p d, (f.loads.find? fun l => l.id == s.arg.id && l.parts == 0) = some p → p.dest = .s d → 0 < d → d < 48 → p.ben ≠ 0 →
        ∃ t, exec .loadComplete s = .next t ∧ exec .vectorLoadLand s = .next t ∧ same t ∧ t.mem = s.mem
          ∧ (t.frameAt c k).loads = dropFirst (· == p) f.loads
          ∧ (p.form = 0 → p.n ≤ 8 → only t d (BitVec.ofNat 64 (p.data.toNat % 2 ^ (8 * p.n))))
          ∧ (p.form = 1 → only t d (BitVec.ofInt 64 (toInt (8 * p.n) p.data.toNat)))
          ∧ (∀ e ∈ (t.frameAt c k).r.sPoison, e.1 = d → p.poison = some e.2)
          ∧ (∀ src, p.poison = some src → (d, src) ∈ (t.frameAt c k).r.sPoison))
    ∧ ((f.loads.find? fun l => l.id == s.arg.id && l.parts == 0) = none → exec .loadComplete s = .next s ∧ exec .vectorLoadLand s = .next s)
    ∧ (∀ u : Fin 8, s.arg.u = u.val → let x := f.ctl.tg.get u
        ((x.valid = false ∨ x.addr ≠ s.arg.w0) → exec .prepFetchComplete s = .next s)
        ∧ (x.valid = true → x.addr = s.arg.w0 → ∃ t, exec .prepFetchComplete s = .next t ∧ same t ∧ t.mem = s.mem
          ∧ (t.frameAt c k).r = f.r ∧ (t.frameAt c k).ctl.pc = f.ctl.pc
          ∧ let y := (t.frameAt c k).ctl.tg.get u
            y.filled = true ∧ y.valid = true ∧ y.addr = x.addr
              ∧ (∀ b w, fetchUnder s c k s.arg.w1 s.arg.h x.addr = .ok (b, w) → (x.addr.toNat, b) ∈ y.code)
              ∧ ∀ e ∈ y.code, e.1 = x.addr.toNat ∨ e.1 = (x.addr + 16).toNat))
    ∧ (∀ u : Fin 6, s.arg.u = u.val → let x := f.ctl.lv.get u
        (x.lstart ≠ s.arg.w0 + 16 → exec .loopBufferFill s = .next s)
        ∧ (x.lstart = s.arg.w0 + 16 → ∃ t, exec .loopBufferFill s = .next t ∧ same t ∧ t.mem = s.mem
          ∧ (t.frameAt c k).r = f.r ∧ (t.frameAt c k).ctl.pc = f.ctl.pc
          ∧ let y := (t.frameAt c k).ctl.lv.get u
            y.filled = true ∧ y.lcnt = x.lcnt ∧ y.lidx = x.lidx ∧ y.lstart = x.lstart ∧ y.lstop = x.lstop
              ∧ (∀ b w, fetchUnder s c k s.arg.w1 s.arg.h x.lstart = .ok (b, w) → (x.lstart.toNat, b) ∈ y.buf)
              ∧ ∀ e ∈ y.buf, e.1 ∈ [x.lstart.toNat, (x.lstart + 16).toNat, (x.lstop + 16).toNat, (x.lstop + 32).toNat]))
    ∧ ∃ t, exec .bundleFetch s = .next t ∧ same t ∧ t.mem = s.mem ∧ (t.frameAt c k).r = f.r ∧ (t.frameAt c k).ctl.pc = f.ctl.pc
        ∧ (t.frameAt c k).ctl.refetch = (f.ctl.refetch && f.ctl.notBefore != s.arg.id)

/-- A step runs the decoded instruction of the head bundle, or the row of the event that is due. When the sequencer of a core moves
and its wait is over, the head bundle is legal and no access of its fetch met a quiesced stack: if one slot decodes to an
instruction and the others hold a header or nops, the step is exec of that instruction in the state with the slot's context; if all
hold nops or a header, it is exec of NOP; any bundle issues its operations together. While it waits the bundle holds; a failed fetch
and an illegal bundle take their trap. A due event runs exec of its row with its operands. Around exec the step clears the note of a
quiesced stack, and leaves an event that met one, or the place of the bundle that did, to hold there in order of arrival; when that
place is free the bundle goes on, if it is still the core's. With nothing due, time passes one tick. (R39, R40, R62, R143, R276,
R378) -/
def Obligations.StepRunsDecoded : Prop :=
∀ (s : State) (n : Nat),
    (∀ c, s.nextMove = (n, .bundle c) →
      let t := s.prepare n (.bundle c)
      let u := t.takeLoopBuffer
      let ends (o : Out) : Out := s.conclude n (.bundle c) o
      t.cur = c ∧ t.cores = s.cores ∧ t.mem = s.mem
      ∧ ((t.fetchHeld = true ∨ t.placed c .bundleIssue = true) → step s = ends (exec .bundleIssue t) ∧ exec .bundleIssue t = .next t.held)
      ∧ (t.fetchHeld = false → t.placed c .bundleIssue = false → step s = ends (exec .bundleIssue t)
        ∧ (∀ e, headBundle u = .error e → exec .bundleIssue t = .next (u.takeTrap e u.fr.ctl.pc))
        ∧ (∀ b w, headBundle u = .ok (b, w) → w.closed = true → step s = .next { t.held with barred := s.barred ++ [s.placeHeld c .bundleIssue] })
        ∧ ∀ b w, headBundle u = .ok (b, w) → w.closed = false →
          (∀ k : Fin 4, illegalSlot b = some k → step s = ends (.next (w.takeTrap { cause := Cause.illegalBundle, slot := k.val } w.fr.ctl.pc)))
          ∧ (illegalSlot b = none → step s = ends (.next (issue (w.under b) (bundleOps b) (headerWeight b) (hasHeader b)))
            ∧ (∀ k i p cls op, decodeSlot (slotWord b k) = .ok i → opOf i = some (p, cls, op) →
                (∀ j, j ≠ k → wordCls (slotWord b j) = 4 ∨ wordCls (slotWord b j) = 7) →
                step s = ends (exec i { w with ctx := slotCtx b k }))
            ∧ ((∀ j, wordCls (slotWord b j) = 4 ∨ wordCls (slotWord b j) = 7) → step s = ends (exec .nop { w with ctx := slotCtx b 0 })))))
    ∧ (∀ e, s.nextMove = (n, .package e) → step s = s.conclude n (.package e) (exec e.row (s.prepare n (.package e)))
        ∧ (s.prepare n (.package e)).arg = e.arg
        ∧ (e.at_ ≤ s.time ∨ s.freed.head? = some (none, e)))
    ∧ (∀ c e, s.nextMove = (n, .core c e) → step s = s.conclude n (.core c e) (exec e.row (s.prepare n (.core c e)))
        ∧ (s.prepare n (.core c e)).arg = e.arg
        ∧ (e.at_ < s.cyc c ∨ s.freed.head? = some (some c, e)))
    ∧ (∀ c k, s.nextMove = (n, .result c k) → step s = s.conclude n (.result c k) (exec .resultComplete (s.prepare n (.result c k))))
    ∧ (∀ c, s.nextMove = (n, .trap c) → step s = s.conclude n (.trap c) (exec .trapEntry (s.prepare n (.trap c))))
    ∧ (∀ c, s.nextMove = (n, .nest c) → step s = s.conclude n (.nest c) (exec .nestBundleIssue (s.prepare n (.nest c))))
    ∧ (∀ c, s.nextMove = (n, .swthr c) → step s = s.conclude n (.swthr c) (exec .swthrExpiry (s.prepare n (.swthr c))))
    ∧ (∀ c, s.nextMove = (n, .slice c) → step s = s.conclude n (.slice c) (exec .sliceExpiry (s.prepare n (.slice c))))
    ∧ (∀ c j, s.nextMove = (n, .switch c j) → step s = .next ((s.prepare n (.switch c j)).switchTo c j))
    ∧ (s.nextMove = (n, .tick) → step s = .next s.passTick ∧ s.passTick.time = s.time + 1 ∧ s.passTick.turn = 0 ∧ s.passTick.mem = s.mem
        ∧ ∀ c k, s.passTick.frameAt c k = s.frameAt c k)
    ∧ (∀ m t, t.closed = false → s.conclude n m (.next t) = .next t)
    ∧ (∀ m t u, t.closed = true → s.bar n m = some u → s.conclude n m (.next t) = .next u)
    ∧ (∀ e, s.bar n (.package e) = some { s.take none e with barred := s.barred ++ [(none, e)] })
    ∧ (∀ c e, s.bar n (.core c e) = some { s.take (some c) e with barred := s.barred ++ [(some c, e)] })
    ∧ (s.arg.u = 1 → (s.resumes .bundleIssue = false → exec .bundleIssue s = .next s)
        ∧ (s.resumes .bundleIssue = true → s.fetchHeld = false → s.placed s.cur .bundleIssue = false → ∀ b w,
            headBundle s.takeLoopBuffer = .ok (b, w) → w.closed = false → exec .bundleIssue s = .next (w.issueBundle b)))

/-- SNLOOK, SNHASH, SNREL, SNSAVE, SNLOAD, and the tree's engine. SNREL drops one hold of the reference it names and one of the
node's REFS, or does nothing. SNHASH completes with the rolling hash of a chunk. With its latency served, SNLOOK completes with 0
when the tree is off, its record breaks a limit or no node confirms, else with the deepest confirmed node and its depth; a record
that cannot be read raises its trap. SNSAVE and SNLOAD enter the engine, which reads their descriptor, or makes its fault due. A
save reads its ranges granule by granule, then builds a node under its parent, then makes it READY; a refused one leaves no node. A
load copies the node's granules into its ranges. A granule waits while its bank is taken. A command that has ended leaves the engine
with its record. A save whose place in the pool reaches no memory fails. Evictions take an evictable node of the largest score, a
parent from the cycle after its last child left; CLR evicts until none is evictable. (R252, R253, R345, R346, R347, R348, R349,
R350, R352, R355, R257, R238) -/
def Obligations.SnapshotTree : Prop :=
(∀ (s : State) (p : BitVec 3) (d a b : BitVec 6), Readable s a → s.AllOpen →
    let x := s.rdS a
    let r : BitVec 32 := x.setWidth 32
    let held : Prop := bits x 32 32 = 0 ∧ s.fr.msg.holds.contains r = true
    let w := s.settled
    let loads (t : State) (v : Word) : Prop := t.fr.r.s = s.fr.r.s ∧ ∃ q ∈ t.fr.loads, q.dest = .s d.toNat ∧ q.parts = 0
      ∧ BitVec.ofNat 64 (q.value.toNat % 2 ^ 64) = v
    let gives (i : Instr) (v : Word) : Prop := SlotReady i s → ∃ t, exec i s = .next t ∧ loads t v
    let sn (save : Bool) : Instr := if save then .snsave p a b else .snload p a b
    let rows (save : Bool) : Instr := if save then .snsaveComplete else .snloadComplete
    (¬ held → CompletesAs s (.snrel p a) w)
    ∧ (∀ n, held → s.fr.id.valid = true → s.tree.named r = some n → SlotReady (.snrel p a) s → ∃ t, exec (.snrel p a) s = .next t
        ∧ t.fr.msg.holds = dropFirst (· == r) s.fr.msg.holds
        ∧ t.tree.nodes = updWhere (fun m => m.idx == n.idx) (fun m => { m with refs := m.refs - 1 }) s.tree.nodes
        ∧ ∀ i, i < s.tree.pxbase.toNat + 128 * n.idx ∨ s.tree.pxbase.toNat + 128 * n.idx + 128 ≤ i → Memory.byte t.mem i = Memory.byte s.mem i)
    ∧ (s.fr.ctl.swHeld < s.extra → SlotReady (.snlook p d a) s → ∃ t, exec (.snlook p d a) s = .next t ∧ t.mem = s.mem
        ∧ t.fr.r = s.fr.r ∧ t.fr.ctl.pc = s.fr.ctl.pc ∧ t.fr.ctl.swHeld = s.fr.ctl.swHeld + 1)
    ∧ (s.extra ≤ s.fr.ctl.swHeld →
        (s.tree.enabled = false → gives (.snlook p d a) 0)
        ∧ (s.tree.enabled = true →
          (∀ e, lookRecord w.tick (dieOf s.cur) s.fr.space x = .error e → TrapsWith s (.snlook p d a) e)
          ∧ (∀ u, lookRecord w.tick (dieOf s.cur) s.fr.space x = .ok (none, u) → gives (.snlook p d a) 0)
          ∧ (∀ n h tk u, lookRecord w.tick (dieOf s.cur) s.fr.space x = .ok (some (n, h, tk), u) →
              gives (.snlook p d a) (match u.walkTree s.fr.sys.asid n none 0 h tk 0 with
                | (none, _, _) => 0
                | (some m, j, _) => if 64 ≤ s.fr.msg.holds.length then 0 else wd (m.ref.toNat * 2 ^ 32 + j)))))
    ∧ (∀ g walk, Readable s b → canonical x = true → placeOf s.cur g.pa = .mem →
        classed s (va57 x) (4 * s.tree.chunk) .read false 0 = .ok [(g, walk)] →
        gives (.snhash p d a b) (wd (hashTokens (s.rdS b).toNat
          (((w.learn [(g, walk)]).nearRead s.cur g.pa g.len).2.1 <<< (8 * g.off)) s.tree.chunk)))
    ∧ (∀ save, Readable s b → SlotReady (sn save) s → ∃ t, exec (sn save) s = .next t ∧ t.mem = s.mem
        ∧ (∃ z ∈ t.tree.cmds, z.id = s.nextId ∧ z.save = save ∧ z.node = r ∧ z.nodeOk = (bits x 32 32 == 0) ∧ z.desc = s.rdS b ∧ z.words = 0
            ∧ z.spans = (snapAtIssue s save a b).spans)
        ∧ ∃ e ∈ t.agenda, e.row = rows save ∧ e.arg.id = s.nextId))
  ∧ (∀ s : State,
    let t0 := s.tree
    let rest (q : SnCmd) : List SnCmd := t0.cmds.filter fun z => z.id != q.id
    let roomAt (q : SnCmd) (c : CoreId) (k : Fin 4) : Prop := (∃ x, s.task q.tid = some x ∧ x.place = some (c, k))
      ∧ s.taskFrame q.c q.k q.tid = s.frameAt c k ∧ (s.frameAt c k).msg.evq.length < 256 ∧ (s.frameAt c k).msg.spill = []
    let quiet (q : SnCmd) : Prop := sigEv q.sig = true → ∃ c k, roomAt q c k
    let done (q : SnCmd) (t : State) (kind : Nat) : Prop := t.tree.cmds = rest q ∧ (sigEv q.sig = true → ∀ c k, roomAt q c k →
      ∃ r, (t.frameAt c k).msg.evq = (s.frameAt c k).msg.evq ++ [r] ∧ r.setWidth 8 = BitVec.ofNat 8 kind)
    let fails (q : SnCmd) (z : Trap) (t : State) : Prop := t.mem = s.mem ∧ ∃ e ∈ t.agenda, e.row = .snapshotEngineFault ∧ e.arg.id = q.id
      ∧ e.arg.w0 = z.cause.setWidth 64 ∧ e.arg.w1 = z.evaddr
    let puts (z : SnCmd) (t : State) : Prop := z ∈ t.tree.cmds ∧ t.tree.nodes = t0.nodes
    let both (q : SnCmd) (post : State → Prop) : Prop := (q.built = none → ∃ t, exec .snsaveComplete s = .next t ∧ post t)
      ∧ ∃ t, exec .snloadComplete s = .next t ∧ post t
    let refused (q : SnCmd) (t : State) : Prop := done q t 5 ∧ t.mem = s.mem ∧ t.tree.nodes = t0.nodes
    let space (q : SnCmd) : Space := ((s.taskFrame q.c q.k q.tid).under q.root q.asid).space
    let waiting (q : SnCmd) : SnCmd := { q with waited := q.waited + 1 }
    let moved (q : SnCmd) : SnCmd := { q with pos := q.pos + 1, waited := 0 }
    let pa (q : SnCmd) : Nat := granuleAt q.spans q.pos
    let bank (q : SnCmd) : Option State := s.engineBank q.c (pa q) 512 (!q.save) q.waited
    let cmd : Option SnCmd := t0.cmds.find? fun q => q.id == s.arg.id
    (cmd = none → ∀ i ∈ [Instr.snsaveComplete, .snloadComplete, .snapshotEngineFault], exec i s = .next s)
    ∧ (∀ q r, cmd = some q → q.ended = some r → s.signalWaits q.tid q.sig = false → ∀ i ∈ [Instr.snsaveComplete, .snloadComplete],
        ∃ t, exec i s = .next t ∧ t.tree.cmds = rest q)
    ∧ (∀ q, cmd = some q → q.ended = none →
        (q.words = 0 → (t0.cmds.any fun x => x.ended.isSome && dieOf x.c == dieOf q.c) = true → both q fun t => t.tree = t0 ∧ t.mem = s.mem)
        ∧ (q.words = 0 → (t0.cmds.any fun x => x.ended.isSome && dieOf x.c == dieOf q.c) = false →
            (∀ z, snapRead s (dieOf q.c) (space q) q.desc 64 = .error z → both q (fails q z))
            ∧ ∀ r u, snapRead s (dieOf q.c) (space q) q.desc 64 = .ok (r, u) →
                both q fun t => t.mem = u.mem ∧ puts { q.described u r with words := 1 } t)
        ∧ (q.words = 1 → (q.ok = false ∨ t0.enabled = false) → quiet q → both q (refused q))
        ∧ (∀ i, q.built = some i → quiet q → ∃ t, exec .snsaveComplete s = .next t ∧ done q t 4
            ∧ t.tree.nodes = updWhere (fun n => n.idx == i) (fun n => { n with st := 2, last := s.ns }) t0.nodes)
        ∧ (q.save = true → q.built = none → q.words ≠ 0 → q.ok = true → t0.enabled = true →
          (q.pos < q.size → (bank q = none → ∃ t, exec .snsaveComplete s = .next t ∧ t.mem = s.mem ∧ puts (waiting q) t)
            ∧ (bank q ≠ none → ∃ t, exec .snsaveComplete s = .next t ∧ t.mem = s.mem ∧ puts { moved q with
                data := q.data ++ [(BitVec.ofNat 4096 (Memory.read s.mem (pa q) 512), (s.poisonOf (pa q) 512).map (·.2))] } t))
          ∧ (q.size ≤ q.pos → q.spans ≠ [] → ∃ t, exec .snsaveComplete s = .next t ∧ t.mem = s.mem ∧ puts { q with spans := [] } t)
          ∧ (q.size ≤ q.pos → q.spans = [] →
            (s.saveParent q q.asid = none → quiet q → ∃ t, exec .snsaveComplete s = .next t ∧ refused q t)
            ∧ (∀ up z, s.saveParent q q.asid = some up → snapRead s (dieOf q.c) (space q) q.tokens (4 * t0.chunk) = .error z →
                ∃ t, exec .snsaveComplete s = .next t ∧ fails q z t)
            ∧ (∀ up toks u i ta da, s.saveParent q q.asid = some up →
                snapRead s (dieOf q.c) (space q) q.tokens (4 * t0.chunk) = .ok (toks, u) →
                t0.children q.asid up q.hash = [] → (s.snapMsg q).holds.length < 64 →
                t0.place q.data.length = some (i, ta, da) → ((t0.node up).map (·.depth)).getD 0 < 65535 →
                let fits := inMemory (t0.poolPa ta) (4 * t0.chunk) && inMemory (t0.poolPa da) (512 * q.data.length)
                (fits = false → ∃ t, exec .snsaveComplete s = .next t ∧ ∃ e ∈ t.agenda, e.row = .snapshotEngineFault ∧ e.arg.id = q.id)
                ∧ (fits = true → ∃ t, exec .snsaveComplete s = .next t ∧ ∃ n ∈ t.tree.nodes, n.idx = i ∧ n.key = q.hash ∧ n.parent = up ∧ n.st = 1 ∧ n.refs = 1
                  ∧ n.kids = 0 ∧ n.counts = q.counts ∧ n.tokAt = ta ∧ n.dataAt = da ∧ n.depth = ((t0.node up).map (·.depth)).getD 0 + 1))))
        ∧ (q.words = 1 → t0.named q.node = none → quiet q → ∃ t, exec .snloadComplete s = .next t ∧ refused q t)
        ∧ (∀ n, q.words = 1 → t0.named q.node = some n →
            let usable := q.ok && t0.enabled && n.st == 2 && s.mayUse (s.snapMsg q) n.idx && n.counts == q.counts
            (usable = false → quiet q → ∃ t, exec .snloadComplete s = .next t ∧ refused q t)
            ∧ (usable = true → ∃ t, exec .snloadComplete s = .next t ∧ t.mem = s.mem ∧ puts { q with words := 2, data := s.payloadOf n } t))
        ∧ (1 < q.words → q.save = false → q.pos < q.size →
            (bank q = none → ∃ t, exec .snloadComplete s = .next t ∧ t.mem = s.mem ∧ puts (waiting q) t)
            ∧ (∀ d, bank q ≠ none → q.data[q.pos]? = some d → ∃ t, exec .snloadComplete s = .next t ∧ puts (moved q) t
                ∧ t.mem = Memory.write s.mem (pa q) 512 d.1.toNat))
        ∧ (1 < q.words → q.size ≤ q.pos → quiet q → ∃ t, exec .snloadComplete s = .next t ∧ done q t 4)
        ∧ (s.holds q.c q.k q.tid = true → (s.frameAt q.c q.k).ctl.halted = false → (q.words = 0 ∨ quiet q) →
            ∃ t, exec .snapshotEngineFault s = .next t ∧ t.mem = s.mem ∧ t.tree.cmds = rest q ∧ ∃ f ∈ (t.frameAt q.c q.k).tr.due,
              f.cause = s.arg.w0.setWidth 8 ∧ f.async = true ∧ f.eeng = wd ((s.arg.w0.setWidth 8 : BitVec 8).toNat * 2 ^ 32 + 6)))
    ∧ (let gone (n : Node) (t : State) : Prop := t.tree.pxevict = t0.pxevict + 1 ∧ t.tree.nodes =
         updWhere (fun m => m.idx == n.parent) (fun m => { m with kids := m.kids - 1, leafAt := if m.kids = 1 then s.time + 1 else m.leafAt })
           (t0.nodes.filter fun m => m.idx != n.idx)
       let later : Prop := ∃ m ∈ t0.nodes, m.st = 2 ∧ m.refs = 0 ∧ m.kids = 0 ∧ s.time < m.leafAt
       (s.arg.id = 0 → t0.low = false → exec .snapshotEvict s = .next s)
       ∧ (s.arg.id = 0 → s.evictChoice = none → ¬ later → exec .snapshotEvict s = .next s)
       ∧ (∀ n, (s.arg.id = 0 → t0.low = true) → s.evictChoice = some n → ∃ t, exec .snapshotEvict s = .next t ∧ gone n t
           ∧ (s.arg.id ≠ 0 → ∃ e ∈ t.agenda, e.row = .snsaveComplete ∧ e.arg.id = s.arg.id))
       ∧ (∀ n, s.evictChoice = some n → n ∈ t0.nodes ∧ n.st = 2 ∧ n.refs = 0 ∧ n.kids = 0 ∧ n.leafAt ≤ s.time ∧ ∀ m ∈ t0.nodes, m.evictable s.time = true →
           (s.ns - m.last) * (t0.granules m + 1) ≤ (s.ns - n.last) * (t0.granules n + 1))
       ∧ (s.evictChoice = none → (¬ later → exec .pxctlClr s = .next s)
           ∧ (later → ∃ t, exec .pxctlClr s = .next t ∧ t.tree = t0 ∧ ∃ e ∈ t.agenda, e.row = .pxctlClr ∧ s.time < e.at_))
       ∧ (∀ n, s.evictChoice = some n → ∃ t, exec .pxctlClr s = .next t ∧ gone n t ∧ ∃ e ∈ t.agenda, e.row = .pxctlClr)))

/-- Placement, aging, stealing, switching, and the ways a task ends. A READY task with a save area and a core that every rule allows
becomes resident in a free slot of such a core, with its launch values and full permits; without one it stays READY. Aging adds one
step a millisecond. H3WAIT claims the core with the fewest tasks around it. A hungry core tries eight victims by its xorshift state,
then backs off. A lent window is zeroed once. Switches turn to the ready task of highest priority. A task that completes, expires,
is cancelled or faulted leaves table and slot, its record is queued with its status, its successors receive error tokens unless it
is DONE. A record is written when the ring has room, and then sent to the peer of a NET queue; one that cannot be written is not
sent (log 83). (R12, R287, R288, R290, R292, R294, R296, R299, R304, R310, R312, R397) -/
def Obligations.TaskLife : Prop :=
∀ (s : State),
    let a := s.arg
    let ended (t : Task) (status cause : Nat) (u : State) : Prop := u.task t.tid = none
      ∧ (∀ c k, t.place = some (c, k) → (u.frameAt c k).resident = false)
      ∧ (∃ r ∈ (u.queue t.q).recs, r.tid = t.tid ∧ r.bytes.length = 32
          ∧ r.bytes.take 8 = bytesOf (t.tid.toNat + t.index * 2 ^ 32 + status * 2 ^ 48 + cause * 2 ^ 56) 8)
      ∧ (∃ e ∈ u.agenda, e.row = .completionRecordWrite ∧ e.arg.q = t.q)
      ∧ (status ≠ 0 → ∀ n ∈ t.succ, ∃ e ∈ u.agenda, e.row = .errorToken ∧ e.arg.tid = n)
    let rows : List Instr := [.taskPlace, .priorityAging, .h3waitExpiry, .taskComplete, .errorToken, .deadlineExpiry, .hungExpiry]
    (s.task a.tid = none → ∀ i ∈ rows, exec i s = .next s)
    ∧ (∀ t, s.task a.tid = some t →
        ((t.st ≠ .ready ∨ s.mayPlace = false ∨ s.beingCut t = true ∨ s.cutArea t = none) → exec .taskPlace s = .next s)
        ∧ (∀ v x, t.st = .ready → s.mayPlace = true → s.beingCut t = false → s.cutArea t = some v → v.task t.tid = some x → x.saved = none →
          (v.placesFor x = [] → ∃ u, exec .taskPlace s = .next u ∧ u.mem = s.mem ∧ (u.task t.tid).map (·.st) = some .ready)
          ∧ (v.placesFor x ≠ [] → ∃ u c k, exec .taskPlace s = .next u ∧ c ∈ v.placesFor x ∧ (v.frameAt c k).resident = false
              ∧ (u.task t.tid).map (·.st) = some .resident ∧ (u.task t.tid).map (·.place) = some (some (c, k))
              ∧ (let f := u.frameAt c k
                 f.id.task = x.tid ∧ f.id.valid = true ∧ f.id.foot = x.foot ∧ f.id.mode = x.flags.getLsbD 3
                 ∧ f.ctl.pc = x.code + wd (headerField x.header 0x08 4) ∧ f.r.s.get 0 = 0 ∧ f.r.p = 1 ∧ f.infl = [] ∧ f.loads = []
                 ∧ (let z := u.core c
                    z.mx.count = z.mx.cap ∧ z.vec.count = z.vec.cap ∧ z.sfu.count = z.sfu.cap ∧ z.memp.count = z.memp.cap)
                 ∧ ∀ j : Fin 8, j.val < x.args.length → f.r.s.get ⟨j.val + 1, by omega⟩ = x.args.getD j.val 0)))
        ∧ ((t.st ≠ .ready ∨ t.readyAt ≠ a.n) → exec .priorityAging s = .next s ∧ exec .h3waitExpiry s = .next s)
        ∧ (t.st = .ready → t.readyAt = a.n →
          (∃ u, exec .priorityAging s = .next u ∧ (u.task t.tid).map (·.aging) = some (t.aging + 1) ∧ u.cores = s.cores ∧ u.mem = s.mem
            ∧ ∃ e ∈ u.agenda, e.row = .priorityAging ∧ e.at_ = s.time + 4800000)
          ∧ (let around (c : CoreId) : List (BitVec 32) := (neighbours c).flatMap fun n => (s.core n.2).residents.map (·.id.task)
             let clear (c : CoreId) : Bool := (s.cleared c (around c)).mayHold t c
             ((∀ c ∈ everyCore, clear c = false) → ∃ u, exec .h3waitExpiry s = .next u ∧ u.tasks = s.tasks ∧ u.cores = s.cores)
             ∧ (∀ c ∈ everyCore, clear c = true → ∃ u d, exec .h3waitExpiry s = .next u ∧ (u.task t.tid).map (·.claim) = some (some d)
                  ∧ clear d = true ∧ (around d).length ≤ (around c).length ∧ u.cores = s.cores ∧ u.mem = s.mem
                  ∧ ∀ v ∈ around d, ∃ e ∈ u.agenda, e.row = .preemptTask ∧ e.arg.tid = v ∧ e.arg.u = 4)))
        ∧ (t.place ≠ some (a.c, a.k) → exec .taskComplete s = .next s)
        ∧ (t.place = some (a.c, a.k) → a.u = 0 →
          ((s.frameAt a.c a.k).ctl.ended = true → exec .taskComplete s = .next s)
          ∧ ((s.frameAt a.c a.k).ctl.ended = false →
            let left := s.workLeft a.c a.k a.tid || s.releaseBusy a.c (s.cyc a.c)
            (left = true → exec .taskComplete s = .next (s.post 1 .taskComplete a))
            ∧ (left = false → ∃ u, exec .taskComplete s = .next u ∧ ended t 0 0 u)))
        ∧ (t.place = some (a.c, a.k) → a.u ≠ 0 → s.matrixLeft a.c a.k = false → s.accessLeft a.c a.k = false →
            ∃ u, exec .taskComplete s = .next u ∧ ended t a.u (if a.u = 1 then a.w0.toNat % 256 else 0) u)
        ∧ ((∀ e ∈ s.agenda, ¬ (e.row = .errorToken ∧ e.arg.tid = t.tid ∧ e.at_ ≤ s.time)) →
            ∃ u, exec .errorToken s = .next u ∧ ended t 3 a.w1.toNat u)
        ∧ (t.place = none → (∃ u, exec .deadlineExpiry s = .next u ∧ ended t 2 0 u) ∧ exec .hungExpiry s = .next s)
        ∧ (∀ c k, t.place = some (c, k) →
            ((s.frameAt c k).ctl.halted = true → exec .deadlineExpiry s = .next s)
            ∧ ((s.frameAt c k).ctl.halted = false → t.firstIssue = none → ∃ u, exec .deadlineExpiry s = .next u ∧ ended t 2 0 u)
            ∧ ((s.frameAt c k).ctl.halted = false → t.firstIssue ≠ none → ∃ u, exec .deadlineExpiry s = .next u ∧ u.mem = s.mem
                ∧ (u.frameAt c k).ctl.ended = true ∧ (u.frameAt c k).r = (s.frameAt c k).r
                ∧ ∃ e ∈ u.agenda, e.row = .taskComplete ∧ e.arg.tid = t.tid ∧ e.arg.u = 2)
            ∧ (t.kept = true → exec .hungExpiry s = .next s)
            ∧ (t.kept = false → (s.frameAt c k).ctl.ended = false → (s.frameAt c k).id.task = t.tid → ∃ u, exec .hungExpiry s = .next u
                ∧ u.mem = s.mem ∧ (u.frameAt c k).ctl.ended = true
                ∧ ∃ e ∈ u.agenda, e.row = .taskComplete ∧ e.arg.tid = t.tid ∧ e.arg.u = 1 ∧ e.arg.w0 = 0x33)))
    ∧ (let x := s.core a.c
       let r := xorshift x.rng
       (s.hungry a.c = false → (∃ u, exec .stealRequest s = .next u ∧ (u.core a.c).stealing = false ∧ u.tasks = s.tasks ∧ u.mem = s.mem)
          ∧ ∃ u, exec .stealBackoffExpiry s = .next u ∧ (u.core a.c).stealing = false ∧ u.tasks = s.tasks ∧ u.mem = s.mem)
       ∧ (s.hungry a.c = true → (∃ u, exec .stealBackoffExpiry s = .next u ∧ u.cores = s.cores
            ∧ ∃ e ∈ u.agenda, e.row = .stealRequest ∧ e.arg.c = a.c)
          ∧ (∃ u, exec .stealRequest s = .next u ∧ (u.core a.c).rng = r ∧ u.mem = s.mem
            ∧ (∀ v t, victimOf a.c r x.tries = some v → s.queueTail v = some t → s.stealable t = true → s.heatAllows t a.c = true →
                (u.task t.tid).map (fun y => (y.bound, y.stolen)) = some (some a.c, true) ∧ (u.core a.c).stealing = false)
            ∧ ((∀ v, victimOf a.c r x.tries = some v → s.queueTail v = none) → u.tasks = s.tasks
                ∧ (x.tries < 7 → (u.core a.c).tries = x.tries + 1 ∧ ∃ e ∈ u.agenda, e.row = .stealRequest ∧ e.arg.c = a.c)
                ∧ (7 ≤ x.tries → (u.core a.c).tries = 0 ∧ (u.core a.c).backoff = min 64 (2 * x.backoff)
                    ∧ ∃ e ∈ u.agenda, e.row = .stealBackoffExpiry ∧ e.at_ = s.time + 4800 * x.backoff)))))
    ∧ (let lent : Prop := (s.core a.c).lentTo = some a.tid ∧ (s.core a.c).zeroing = true
       (¬ lent → exec .lentWindowZeroed s = .next s)
       ∧ (lent → ∃ u, exec .lentWindowZeroed s = .next u ∧ (u.core a.c).zeroing = false ∧ (u.core a.c).frames = (s.core a.c).frames
          ∧ ∀ i, Memory.byte u.mem i = if winBase a.c ≤ i ∧ i < winBase a.c + 0x600000 then 0 else Memory.byte s.mem i))
    ∧ (s.here.nextReady = none → exec .swthrExpiry s = .next s ∧ exec .sliceExpiry s = .next s)
    ∧ (∀ j, s.here.nextReady = some j → j ≠ s.here.run ∧ (s.here.frame j).ready = true
        ∧ (∀ i, i ≠ s.here.run → (s.here.frame i).ready = true → (s.here.frame i).id.prio ≤ (s.here.frame j).id.prio)
        ∧ (let turns (i : Instr) : Prop := ∃ u, exec i s = .next u ∧ u.here.run = j ∧ u.mem = s.mem ∧ u.cur = s.cur
             ∧ (∀ k, (u.here.frame k).r = (s.here.frame k).r ∧ (u.here.frame k).ctl.pc = (s.here.frame k).ctl.pc)
             ∧ s.cyc s.cur + 4 ≤ (u.here.frame j).ctl.notBefore
           turns .swthrExpiry ∧ (s.fr.id.prio < (s.here.frame j).id.prio → turns .sliceExpiry)
           ∧ ((s.here.frame j).id.prio ≤ s.fr.id.prio → exec .sliceExpiry s = .next s)))
    ∧ (let q := s.queue a.q
       ((q.recs = [] ∨ q.ctx = none) → exec .completionRecordWrite s = .next s)
       ∧ (∀ r rest ctx, q.recs = r :: rest → q.ctx = some ctx →
          let n := 2 ^ ctx.clogn
          let v := natOf r.bytes + (1 - q.recCount / n % 2) * 2 ^ 227
          let at_ := ctx.cring + wd (32 * (q.recCount % n))
          let full : Prop := n ≤ (BitVec.ofNat 32 q.recCount - q.qchead).toNat
          (full → exec .completionRecordWrite s = .next s)
          ∧ (¬ full → ∃ u, exec .completionRecordWrite s = .next u ∧ (u.queue a.q).recs = rest ∧ (u.queue a.q).recCount = q.recCount + 1
              ∧ u.tasks = s.tasks ∧ u.cores = s.cores
              ∧ (let stored := (s.belfryWrite a.q at_ 28 (v % 2 ^ 224)).bind fun w => w.belfryWrite a.q (at_ + 28) 4 (v >>> 224)
                 (∀ w, stored = some w → u.mem = w.mem ∧ u.out = s.out ++ (r.peer.map fun p => Output.record p (bytesOf v 32)).toList)
                 ∧ (stored = none → u.mem = s.mem ∧ u.out = s.out)))))

/-- Pre-emption, context save and restore, and the events of gangs. Pre-emption stops a resident task whose HALT has not issued, in
place at a cut or for a save, its results in flight going to the snapshot buffer; for a save it also performs the core's dirty
bytes. When its pending work is over, CONTEXT_SAVE writes the save area, frees the slot, and leaves the task READY unless it waits
on a handle. CONTEXT_RESTORE gives registers and identity as the area's bytes give them, as they were saved where it cannot be read
(log 40), replays the snapshot buffer from the next cycle, unless the task must wait for its gang, and puts the footprint's bytes
back. A gang starts and resumes as a whole, its members no longer stopped; a schedule is selected and written; windows open, and
close with their overruns counted. A cut gives a straggler its target and a grace; grace over, the members are saved unaligned. A
slice ends a gang only while one of its priority waits. (R266, R275, R287, R306, R308, R311, R401, R402, R408, R409, R410, R412) -/
def Obligations.GangsAndContexts : Prop :=
∀ (s : State),
    let a := s.arg
    let c := a.c
    let k := a.k
    let same (u : State) : Prop := u.mem = s.mem ∧ ∀ d j, (u.frameAt d j).r = (s.frameAt d j).r ∧ (u.frameAt d j).id = (s.frameAt d j).id
    let gangRows : List Instr := [.gangStart, .gangResume, .scheduleSelect, .transferWindowClose, .gangCut, .gangGraceExpiry, .gsliceExpiry]
    (s.task a.tid = none → ∀ i ∈ [Instr.preemptTask, .contextSave, .contextRestore], exec i s = .next s)
    ∧ (∀ t, s.task a.tid = some t →
        ((t.place = none ∨ s.haltIssued t = true ∨ t.preempt ≠ none ∨ t.restoring = true) → exec .preemptTask s = .next s)
        ∧ (∀ d j, t.place = some (d, j) → s.haltIssued t = false → t.preempt = none → t.restoring = false →
          (a.u = 0 → (∀ x g, t.gang = some x → s.gangs.find? (·.gid == x) = some g →
              g.cutAt = none ∨ ∃ m ∈ s.gangTasks g, m.tid ≠ t.tid ∧ s.cutHolds g m = false) →
            ∃ u, exec .preemptTask s = .next u ∧ (u.frameAt d j).ctl.stopped = true ∧ (u.task t.tid).map (·.holdsCut) = some true
              ∧ (t.saved = none → (u.frameAt d j).infl = [])
              ∧ ((∀ r ∈ (s.frameAt d j).infl, s.cyc d < r.due) → same u ∧ (t.saved = none →
                   ((u.task t.tid).bind (·.saved)).map (·.frame.infl.length) = some (s.frameAt d j).infl.length)))
          ∧ (a.u ≠ 0 → ∃ u, exec .preemptTask s = .next u ∧ (u.frameAt d j).ctl.stopped = true ∧ (t.saved = none → (u.frameAt d j).infl = [])
              ∧ (u.frameAt d j).mat.pins = [] ∧ (u.frameAt d j).msg.pins = [] ∧ (u.task t.tid).map (·.preempt) = some (some a.u)
              ∧ (∃ e ∈ u.agenda, e.row = .contextSave ∧ e.arg.tid = t.tid ∧ e.arg.c = d ∧ e.arg.k = j ∧ e.arg.u = a.u)
              ∧ ((s.frameAt d j).infl = [] →
                  (∀ e i, (u.frameAt e i).r = (s.frameAt e i).r ∧ (u.frameAt e i).id = (s.frameAt e i).id)
                  ∧ (s.releaseBusy d (s.cyc d) = false → ∀ b ∈ (u.core d).l1, b.dirty = false)
                  ∧ ((∀ b ∈ (s.core d).l1, b.dirty = false) → (s.dies.get (dieOf d)).l2 = [] → u.mem = s.mem))))
        ∧ (let f := s.frameAt c k
           ((t.place ≠ some (c, k) ∨ t.preempt = none ∨ f.ctl.ended = true) → exec .contextSave s = .next s)
           ∧ (t.place = some (c, k) → t.preempt ≠ none → f.ctl.ended = false →
             (s.saveWaits c k t.tid = true → exec .contextSave s = .next (s.post 1 .contextSave a))
             ∧ (s.saveWaits c k t.tid = false → ∃ u x v, exec .contextSave s = .next u ∧ u.task t.tid = some x ∧ x.place = none
                ∧ x.kept = true ∧ x.preempt = none ∧ x.saved = some v ∧ v.frame.r = f.r ∧ v.frame.id = f.id ∧ v.frame.tr = f.tr ∧ v.frame.msg = f.msg
                ∧ v.frame.infl = (t.saved.map (·.frame.infl)).getD []
                ∧ v.foot = s.cellsAt (winBase c + f.id.base * 512) (f.id.foot * 512)
                ∧ x.st = (if s.waitsOver f.msg then .ready else .saved) ∧ (u.frameAt c k).resident = false
                ∧ (f.sys.touched = 0 → f.id.heat ≠ 3 →
                    u.mem = (s.writeArea t c { f with infl := (t.saved.map (·.frame.infl)).getD [] } (t.preempt.getD a.u)).mem)))
           ∧ ((t.saved = none ∨ t.place ≠ some (c, k) ∨ t.restoring = false) → exec .contextRestore s = .next s)
           ∧ (∀ v, t.saved = some v → t.place = some (c, k) → t.restoring = true → (f.id.lent.any fun d => (s.core d).zeroing) = false →
             (∀ x ∈ s.tasks, x.tid ≠ t.tid → x.place ≠ some (c, k)) →
             let held := t.gang.isSome && !(((s.gangs.find? fun (g : Gang) => t.gang == some g.gid).map Gang.started).getD true)
             let g := f.ofArea (s.areaRead t f.sys.ctxsave)
             let buffer := bufferOf v.frame.infl (s.areaRead t f.sys.ctxsave)
             let reached := t.stepHold.any fun h => decide (h.toNat ≤ g.id.stepn.toNat)
             ∃ u, exec .contextRestore s = .next u ∧ (u.frameAt c k).r = g.r ∧ (u.frameAt c k).id = g.id
               ∧ ((∀ off n, s.areaRead t f.sys.ctxsave off n = none) → g.r.s = f.r.s ∧ g.r.mks = f.r.mks ∧ g.tr.epc = f.tr.epc ∧ g.id = f.id)
               ∧ (∀ b, s.areaRead t f.sys.ctxsave 0x40 384 = some b → ∀ i : Fin 48, i.val ≠ 0 → g.r.s.get i = BitVec.ofNat 64 (b >>> (64 * i.val)))
               ∧ (u.frameAt c k).ctl.pc = f.ctl.pc ∧ (u.frameAt c k).ctl.notBefore = s.cyc c + 1
               ∧ (held = false → reached = false → (u.frameAt c k).infl.map (·.due) = buffer.map (fun r => s.cyc c + r.due)
                   ∧ (u.frameAt c k).infl.map (·.data) = buffer.map (·.data) ∧ (u.frameAt c k).ctl.stopped = false
                   ∧ (u.task t.tid).map (fun x => (x.saved, x.restoring)) = some (none, false))
               ∧ (held = true → (u.frameAt c k).infl = [] ∧ (u.frameAt c k).ctl.stopped = true
                   ∧ (u.task t.tid).map (fun x => (x.saved.map (·.frame.infl), x.restoring)) = some (some buffer, false))
               ∧ (reached = false → (u.frameAt c k).tr = g.tr ∧ (v.tiles = [] → v.lents = [] →
                   let area := (s.takeArea t c k v g).areaRange t f.sys.ctxsave 0x30800 (f.id.foot * 512)
                   (area = none → Memory.wf v.foot = true →
                     ∀ o, o < f.id.foot * 512 → Memory.byte u.mem (winBase c + f.id.base * 512 + o) = Memory.byte v.foot o)
                   ∧ (∀ b bad, area = some (b, bad) →
                     ∀ o, o < f.id.foot * 512 → Memory.byte u.mem (winBase c + f.id.base * 512 + o) = BitVec.ofNat 8 (b >>> (8 * o))))))))
    ∧ (s.gangs.find? (·.gid == a.h) = none → ∀ i ∈ gangRows, exec i s = .next s)
    ∧ (∃ u, exec .transferWindowOpen s = .next u ∧ same u ∧ u.gangs.length = s.gangs.length ∧ ∀ g ∈ u.gangs, g.gid = a.h → a.n ∈ g.openWin)
    ∧ (∀ g, s.gangs.find? (·.gid == a.h) = some g →
        let starts (i : Instr) : Prop := ∃ u, exec i s = .next u ∧ same u
          ∧ (∃ x ∈ u.gangs, x.gid = a.h ∧ x.started = true ∧ x.saved = false ∧ x.startAt = s.time)
          ∧ ∀ t ∈ s.gangTasks g, ∀ d j, t.place = some (d, j) → (u.frameAt d j).ctl.stopped = false
        ((g.started = true ∨ g.cutAt ≠ none ∨ s.gangPlaced g = false) → exec .gangStart s = .next s ∧ exec .gangResume s = .next s)
        ∧ (g.started = false → g.cutAt = none → s.gangPlaced g = true → starts .gangStart ∧ starts .gangResume)
        ∧ (let n := selectSchedule g.sched g.cur g.arrivals
           ∃ u, exec .scheduleSelect s = .next u ∧ u.cores = s.cores ∧ (∃ x ∈ u.gangs, x.gid = a.h ∧ x.cur = n ∧ x.arrivals = [])
             ∧ ∀ w, s.belfryWrite g.q g.schword 8 n = some w → u.mem = w.mem)
        ∧ (∃ u, exec .transferWindowClose s = .next u ∧ same u ∧ (∃ x ∈ u.gangs, x.gid = a.h ∧ ¬ a.n ∈ x.openWin)
            ∧ u.bel.gangov = s.bel.gangov + wd ((s.crossDieOf (g.members.getD a.n 0)).countP (·.started)))
        ∧ (a.u = 1 → (g.cutAt ≠ some a.n → exec .gangCut s = .next s)
          ∧ (g.cutAt = some a.n → exec .gangCut s = .next ((s.settleCut g.gid).post 1 .gangCut a)))
        ∧ (a.u ≠ 1 → (g.cutAt ≠ none ∨ ∀ t ∈ s.gangTasks g, t.place = none) → exec .gangCut s = .next s)
        ∧ (a.u ≠ 1 → g.cutAt = none → (∃ t ∈ s.gangTasks g, t.place ≠ none) → (∀ t ∈ s.gangTasks g, t.gang = some g.gid) →
          let ms := s.gangTasks g
          let lim := (ms.map fun t => ((s.frameOf t.tid).map (·.id.steps.toNat)).getD (headerField t.header 0x18 4)).foldl min (2 ^ 32 - 1)
          let target := min ((ms.map s.stepOf).foldl max 0 + 1) lim
          ∃ u, exec .gangCut s = .next u
            ∧ (∃ e ∈ u.agenda, e.row = .gangGraceExpiry ∧ e.arg.h = a.h ∧ e.arg.n = s.time ∧ e.at_ = s.time + 4800 * bits s.bel.dpar1 32 16)
            ∧ ∀ t ∈ ms, s.cutHolds g t = false → s.stepOf t < target → (u.task t.tid).map (·.stepHold) = some (some (BitVec.ofNat 32 target)))
        ∧ (g.cutAt ≠ some a.n → exec .gangGraceExpiry s = .next s)
        ∧ (g.cutAt = some a.n → (∀ t ∈ s.gangTasks g, s.crossDieOf t.tid = [] ∧ ∀ d j, t.place = some (d, j) → (s.frameAt d j).infl = []) →
            ∃ u, exec .gangGraceExpiry s = .next u
            ∧ u.bel.cuts = s.bel.cuts + 1 ∧ u.bel.unal = s.bel.unal + 1 ∧ (∃ x ∈ u.gangs, x.gid = a.h ∧ x.saved = true ∧ x.started = false ∧ x.cutAt = none)
            ∧ ∀ t ∈ s.gangTasks g, ∀ d j, t.place = some (d, j) → s.haltIssued t = false → t.preempt = none → t.restoring = false →
                (u.task t.tid).map (·.preempt) = some (some 5) ∧ ∃ e ∈ u.agenda, e.row = .contextSave ∧ e.arg.tid = t.tid ∧ e.arg.u = 5)
        ∧ (let waits : Bool := s.tasks.any fun t => t.st == .ready && t.gang.isSome && t.gang != some g.gid
             && g.members.any fun m => ((s.task m).map fun x => s.basePrio x == s.basePrio t).getD false
           (¬ (g.started = true ∧ g.startAt = a.n ∧ waits = true) → exec .gsliceExpiry s = .next s)
           ∧ (g.started = true → g.startAt = a.n → waits = true → ∃ u, exec .gsliceExpiry s = .next u ∧ same u ∧ u.gangs = s.gangs
               ∧ ∃ e ∈ u.agenda, e.row = .gangCut ∧ e.arg.h = a.h)))

/-- Doorbells, submission entries, the commands of a stream, QACK and PREEMPT. A doorbell sets TAIL, is refused with a bad value or
on a NET queue, and freezes the queue past its ring. A free Belfry core takes a queue with work of the highest PMAX. A command does
nothing after a freeze, freezes its queue with bad fields, and passes its index: NOPC alone; LAUNCH, LAUNCHI and GANG with one task
for each record selected, or refused whole; WAIT and WRITE after their tasks, with their write; LOOPC opening or skipping its body;
IFC going on or skipping; SIGNAL with its interrupt; CHAIN to its stream; END to the next entry. QACK resumes or discards; PREEMPT
names a resident task. (R388, R389, R391, R392, R393, R394, R396, R398, R399, R400, R407) -/
def Obligations.BelfryStreams : Prop :=
∀ (s : State),
    let a := s.arg
    let q := a.q
    let x := s.queue q
    let frozen (u : State) (cause : BitVec 8) : Prop := u.mem = s.mem ∧ u.tasks = s.tasks ∧ (u.queue q).st = 2 ∧ (u.queue q).cause = cause
    let refused (i : Instr) : Prop := ∃ u, exec i s = .next u ∧ u.bel.refused = true ∧ u.bel.queues = s.bel.queues ∧ u.mem = s.mem
    let v32 : BitVec 32 := a.w0.setWidth 32
    let cmds : List Instr := [.nopc, .launch, .launchi, .gang, .wait, .loopc, .ifc, .write, .signal, .chain, .endC]
    ((bits a.w0 32 32 ≠ 0 ∨ bit x.qctl 7 = true) → refused .queueDoorbell)
    ∧ (bits a.w0 32 32 = 0 → bit x.qctl 7 = false →
        (2 ^ bits x.qctl 8 5 < (v32 - x.qhead).toNat → x.st ≠ 2 → ∃ u, exec .queueDoorbell s = .next u ∧ frozen u 0x0A#8)
        ∧ ((v32 - x.qhead).toNat ≤ 2 ^ bits x.qctl 8 5 → ∃ u, exec .queueDoorbell s = .next u ∧ u.mem = s.mem
            ∧ u.queue q = { x with qtail := v32 } ∧ ∃ e ∈ u.agenda, e.row = .submissionEntryStart ∧ e.at_ = s.time))
    ∧ ((s.pw.ready = false ∨ 2 ≤ s.pw.pstate ∨ 4 ≤ s.belfryBusy ∨ s.nextQueue = none) → exec .submissionEntryStart s = .next s)
    ∧ (∀ j, s.pw.ready = true → s.pw.pstate < 2 → s.belfryBusy < 4 → s.nextQueue = some j → s.hasWork j = true
        ∧ ((∀ i, (s.queue i).served ≤ s.nextId) → ∀ i, s.hasWork i = true → bits (s.queue i).qctl 4 3 ≤ bits (s.queue j).qctl 4 3)
        ∧ ∃ u, exec .submissionEntryStart s = .next u ∧ u.mem = s.mem ∧ u.tasks = s.tasks ∧ (u.queue j).served = s.nextId
          ∧ (u.queue j).qhead = (s.queue j).qhead
          ∧ ((s.queue j).run = none → (u.queue j).run.isSome = true ∧ ((u.queue j).st = 1 ∨ (u.queue j).st = 2))
          ∧ ∀ r, (s.queue j).run = some r → (u.queue j).run.map (fun z => (z.idx, z.loops, z.mine)) = some (r.idx, r.loops, r.mine))
    ∧ ((∀ r, x.run = some r → x.st = 2 ∨ r.cmd ≠ some a.id) → ∀ i ∈ cmds, exec i s = .next s)
    ∧ (∀ r, x.run = some r → x.st ≠ 2 → r.cmd = some a.id →
        let passes (u : State) (j : Nat) : Prop := (u.queue q).run.map (fun z => (z.idx, z.loops)) = some (afterIndex j r.loops)
        let freezes (i : Instr) (cause : BitVec 8) : Prop := ∃ u, exec i s = .next u ∧ frozen u cause
        let waits (i : Instr) : Prop := ∃ u, exec i s = .next u ∧ u.mem = s.mem ∧ u.tasks = s.tasks
          ∧ (u.queue q).run = some { r with held := some { row := i, arg := a }, turn := none }
        let plain : Prop := onlyBits a.w0 0xFF = true ∧ a.w1 = 0 ∧ a.w2 = 0 ∧ a.w3 = 0
        let n := bits a.w0 16 16
        let last := r.idx + bits a.w0 32 16
        let crosses : Prop := ∃ f l k rest, r.loops = (f, l, k) :: rest ∧ l < last
        let launched (u : State) (l : List Nat) : Prop := passes u r.idx ∧ u.tasks.length = s.tasks.length + l.length
          ∧ ∀ i ∈ l, ∃ t ∈ u.tasks, t.q = q ∧ t.index = i ∧ t.ltag = a.w2.setWidth 32
        (¬ plain → freezes .nopc 0x01#8 ∧ freezes .endC 0x01#8)
        ∧ (plain → (∃ u, exec .nopc s = .next u ∧ u.mem = s.mem ∧ u.tasks = s.tasks ∧ passes u r.idx)
          ∧ (r.loops ≠ [] → freezes .endC 0x03#8)
          ∧ (r.loops = [] → ∃ u, exec .endC s = .next u ∧ u.mem = s.mem ∧ (u.queue q).run = none ∧ (u.queue q).st = 0
              ∧ (u.queue q).qhead = x.qhead + 1))
        ∧ (onlyBits a.w0 0x3FFFF00FF = true → n ≠ 0 → bits a.w0 32 2 ≤ 1 → a.w1.toNat % 64 = 0 → onlyBits a.w2 0xFFFFFFFF = true → a.w3 = 0 →
            let l := s.readRecords q a.w1 (List.range n)
            (launchStatus l.1 n false = none → ∃ u, exec .launch s = .next u ∧ launched u (List.range n))
            ∧ (launchStatus l.1 n false ≠ none → freezes .launch 0x07#8))
        ∧ (onlyBits a.w0 0x3000100FF = true → bit a.w0 16 = false → bits a.w0 32 2 ≤ 1 → a.w1.toNat % 64 = 0 → bits a.w2 32 32 ≠ 0 →
            bits a.w2 32 32 ≤ 65535 → a.w3.toNat % 4 = 0 → ∀ k v, s.belfryRead q a.w3 4 = .ok (k, v) →
            let m := min k (bits a.w2 32 32)
            launchStatus (v.readRecords q a.w1 (List.range m)).1 (bits a.w2 32 32) false = none →
            ∃ u, exec .launchi s = .next u ∧ launched u (List.range m))
        ∧ (∀ t wins rows v gid, onlyBits a.w0 0x3FFFF00FF = true → n ≠ 0 → n ≤ 1024 → bits a.w0 32 2 = 0 → a.w1.toNat % 64 = 0 →
            onlyBits a.w2 0xFFFFFFFF = true → s.readGang q a.w3 n false = some (t, wins, rows, v) → gangTableOk t n false rows = true →
            launchStatus (v.readRecords q a.w1 (List.range n)).1 n true = none → (v.readRecords q a.w1 (List.range n)).2.freeGang = some gid →
            ∃ u g, exec .gang s = .next u ∧ launched u (List.range n) ∧ u.gangs = s.gangs ++ [g] ∧ g.gid = gid ∧ g.q = q
              ∧ g.members.length = n ∧ g.started = false ∧ ∃ h ∈ u.groups, h.gid = gid ∧ h.members.length = n)
        ∧ (onlyBits a.w0 0xFF = true → a.w2 = 0 → a.w3 = 0 →
            (r.mine ≠ [] → waits .wait)
            ∧ (r.mine = [] → a.w1 = 0 → ∃ u, exec .wait s = .next u ∧ u.mem = s.mem ∧ passes u r.idx ∧ (u.queue q).run.map (·.fails) = some 0)
            ∧ (r.mine = [] → a.w1 ≠ 0 → ∀ w, (s.updRun q fun z => { z with fails := 0 }).belfryWrite q a.w1 8 r.fails = some w →
                ∃ u, exec .wait s = .next u ∧ u.mem = w.mem ∧ passes u r.idx))
        ∧ (onlyBits a.w0 0x100FF = true → a.w1.toNat % 8 = 0 → a.w3 = 0 →
            (bit a.w0 16 = true → r.mine ≠ [] → waits .write)
            ∧ ((bit a.w0 16 = false ∨ r.mine = []) → (s.belfryWrite q a.w1 8 a.w2.toNat = none → freezes .write 0x04#8)
              ∧ ∀ w, s.belfryWrite q a.w1 8 a.w2.toNat = some w → ∃ u, exec .write s = .next u ∧ u.mem = w.mem ∧ passes u r.idx))
        ∧ (onlyBits a.w0 0xFFFF000100FF = true → bits a.w0 32 16 ≠ 0 → a.w2 = 0 → a.w3 = 0 →
            (r.len ≤ last → freezes .loopc 0x02#8)
            ∧ (last < r.len → (4 ≤ r.loops.length ∨ crosses) → freezes .loopc 0x03#8)
            ∧ (last < r.len → r.loops.length < 4 → ¬ crosses →
              (bit a.w0 16 = true → (∃ t, s.belfryRead q a.w1 8 = .error t) → freezes .loopc 0x04#8)
              ∧ ∀ c, (bit a.w0 16 = false ∧ c = a.w1.toNat) ∨ (bit a.w0 16 = true ∧ ∃ w, s.belfryRead q a.w1 8 = .ok (c, w)) →
                (c = 0 → ∃ u, exec .loopc s = .next u ∧ u.mem = s.mem ∧ passes u last)
                ∧ (c ≠ 0 → ∃ u, exec .loopc s = .next u ∧ u.mem = s.mem
                    ∧ (u.queue q).run.map (fun z => (z.idx, z.loops)) = some (r.idx + 1, (r.idx + 1, last, c) :: r.loops))))
        ∧ (onlyBits a.w0 0xFFFF000700FF = true → bits a.w0 16 3 ≤ 5 → bits a.w0 32 16 ≠ 0 → a.w1.toNat % 8 = 0 →
            ∀ v w, s.belfryRead q a.w1 8 = .ok (v, w) →
            let y := v &&& a.w2.toNat
            let z := a.w3.toNat
            let cc := bits a.w0 16 3
            let true_ : Prop := (cc = 0 ∧ y = z) ∨ (cc = 1 ∧ y ≠ z) ∨ (cc = 2 ∧ y < z) ∨ (cc = 3 ∧ y ≤ z) ∨ (cc = 4 ∧ z < y) ∨ (cc = 5 ∧ z ≤ y)
            (true_ → ∃ u, exec .ifc s = .next u ∧ u.mem = s.mem ∧ passes u r.idx)
            ∧ (¬ true_ → crosses → freezes .ifc 0x01#8)
            ∧ (¬ true_ → ¬ crosses → ∃ u, exec .ifc s = .next u ∧ u.mem = s.mem ∧ passes u last))
        ∧ (onlyBits a.w0 0x7FF00FF = true → a.w1 = 0 → a.w2 = 0 → a.w3 = 0 →
            ((∃ y ∈ x.recs, y.old = false) → exec .signal s = .next (s.post 1 .signal a))
            ∧ ((∀ y ∈ x.recs, y.old = true) → ∃ u, exec .signal s = .next u ∧ u.mem = s.mem ∧ passes u r.idx
                ∧ u.out = s.out ++ [Output.interrupt (bits a.w0 16 11)]))
        ∧ (onlyBits a.w0 0xFF = true → a.w1.toNat % 32 = 0 → onlyBits a.w2 0xFFFFFF = true → a.w2 ≠ 0 → a.w3 = 0 →
            (r.loops ≠ [] → freezes .chain 0x03#8)
            ∧ (r.loops = [] → ∃ u, exec .chain s = .next u ∧ u.mem = s.mem
                ∧ (u.queue q).run.map (fun z => (z.addr, z.len, z.idx, z.loops)) = some (a.w1, a.w2.toNat, 0, []))))
    ∧ (x.st ≠ 2 → refused .qackResume ∧ refused .qackDiscard)
    ∧ (x.st = 2 → (∃ u, exec .qackDiscard s = .next u ∧ u.mem = s.mem ∧ (u.queue q).st = 0 ∧ (u.queue q).cause = 0 ∧ (u.queue q).run = none
          ∧ (u.queue q).qhead = x.qtail)
        ∧ ∃ u, exec .qackResume s = .next u ∧ u.mem = s.mem ∧ (u.queue q).cause = 0 ∧ (u.queue q).st = (if (u.queue q).run.isSome then 1 else 0)
          ∧ (x.run = none → (u.queue q).run = none ∧ (u.queue q).qhead = x.qhead)
          ∧ ∀ r, x.run = some r → if resumesNext x.cause then (u.queue q).run = none ∧ (u.queue q).qhead = x.qhead + 1
              else (u.queue q).qhead = x.qhead ∧ (u.queue q).run = some (if r.cmd.isSome then r.pass r.idx else r))
    ∧ ((∀ t, s.task v32 = some t → t.st ≠ .resident) → exec .preemptGo s = .next s)
    ∧ (∀ t, s.task v32 = some t → t.st = .resident → ∃ u, exec .preemptGo s = .next u ∧ u.tasks = s.tasks ∧ u.cores = s.cores
        ∧ ∃ e ∈ u.agenda, e.row = .preemptTask ∧ e.arg.tid = v32 ∧ e.arg.u = 6)

/-- Quiescing, remapping, activations and errors of a stack; partitions, format windows and HSET. QUIESCE sets bit 0 of HCTL; the
stack's newer copies then go to memory, and once no request is under way its LLC lines and captured rows are gone and QUIESCED is
set. UNQUIESCE clears both bits and lets the held accesses go on in their order, refused while a remap runs. REMAP puts HMASK in
force only at a quiesced stack that is not busy; when it completes, the stack reads zero and its counts and counters are clear.
CLRSTAT clears the counts. A request of a line goes to its pseudo-channel where the LLC misses it, counted with the granule that
covers what it needs, the whole line and its sidecar in a code range; a write leaves its sectors dirty there (that it asks as a read
does is the model's reading, log 66). An activation counts its row as R428 says: at T2 the row is captured and its lines are copied,
at multiples of T1 its neighbours are refreshed. TRACKER_RESET clears the counters and releases idle rows every 32 ms, whose dirty
lines are written back. An uncorrectable line, array unit or ninth CRC failure leaves poison with its source where it stands.
LLCPART, a format window and HSET take legal values and refuse others; raising a limit changes nothing at once. (R323, R376, R378,
R379, R418, R420, R426, R427, R428, R429, R430, R433) -/
def Obligations.HbmController : Prop :=
(∀ (x : HbmCtl) (bank row : Nat),
      let cnt (y : HbmCtl) : List (Nat × Nat) := ((y.tracker.find? fun t => t.1 == bank).map (·.2)).getD (List.replicate 16 (0, 0))
      let l := cnt x
      let t1 := bits x.rhctl 0 24
      let t2 := bits x.rhctl 32 24
      let y := x.activate bank row
      l.length = 16 →
      (∀ i n, i < 16 → l.getD i (0, 0) = (row, n) → 0 < n → (∀ j < i, (l.getD j (0, 0)).1 ≠ row ∨ (l.getD j (0, 0)).2 = 0) →
        (n + 1 ≠ t2 → y.captured = x.captured ∧ (∀ j < 16, (cnt y).getD j (0, 0) = if j = i then (row, n + 1) else l.getD j (0, 0))
          ∧ bits y.rhstat 32 32 = (if (n + 1) % t1 = 0 ∧ n + 1 < t2 then
              min (bits x.rhstat 32 32 + ((if 2 ≤ row then 2 else row) + min 2 (32767 - row))) (2 ^ 32 - 1) else bits x.rhstat 32 32))
        ∧ (n + 1 = t2 → ((cnt y).getD i (0, 0)).2 = 0 ∧ (∀ j < 16, (l.getD j (0, 0)).1 ≠ row → (cnt y).getD j (0, 0) = l.getD j (0, 0))
          ∧ (0 < x.capacity → (bank, row, 0) ∈ y.captured) ∧ (x.capacity = 0 → y.captured = x.captured)
          ∧ (x.captured.length ≤ x.capacity → y.captured.length ≤ x.capacity)))
      ∧ ((∀ i < 16, (l.getD i (0, 0)).1 ≠ row ∨ (l.getD i (0, 0)).2 = 0) →
        ((∀ i < 16, (l.getD i (0, 0)).2 ≠ 0) →
          y.captured = x.captured ∧ ∀ j < 16, (cnt y).getD j (0, 0) = ((l.getD j (0, 0)).1, (l.getD j (0, 0)).2 - 1))
        ∧ (∀ i < 16, (l.getD i (0, 0)).2 = 0 → (∀ j < i, (l.getD j (0, 0)).2 ≠ 0) → t2 ≠ 1 →
            y.captured = x.captured ∧ ∀ j < 16, (cnt y).getD j (0, 0) = if j = i then (row, 1) else l.getD j (0, 0))))
  ∧ ∀ (s : State),
    let d := s.arg.d
    let h := s.hbm d
    let gives (i : Instr) (f : State → Prop) : Prop := ∃ t, exec i s = .next t ∧ t.cores = s.cores ∧ f t
    let only (t : State) (x : HbmCtl) : Prop := ∀ j, t.hbm j = if j = d then x else s.hbm j
    let sets (t : State) (m : Word) : Prop := only t { h with hctl := h.hctl ||| m } ∧ t.mem = s.mem
    let poisons (t : State) (src : Nat) (p : Nat) : Prop :=
      t.poisoned p 1 = true ∧ (∀ q ∈ s.poison, q ∈ t.poison) ∧ (∀ q ∈ t.poison, q ∈ s.poison ∨ q = (p, src)) ∧ t.mem = s.mem
    gives .hctlQuiesce (fun t => sets t 1 ∧ ∃ e ∈ t.agenda, e.row = .hctlQuiesceComplete ∧ e.arg = { d := d })
    ∧ (bit h.hctl 0 = false → exec .hctlQuiesceComplete s = .next s)
    ∧ (bit h.hctl 0 = true → s.arg.u = 0 → gives .hctlQuiesceComplete fun t => only t h
        ∧ (∀ x ∈ t.dies.toList, (∀ c ∈ x.l2, inStack d c.1 = false) ∧ ∀ a ∈ x.lines, inStack d a = false)
        ∧ (∀ a, (∀ x ∈ s.dies.toList, ∀ c ∈ x.l2, inStack d c.1 = true → c.1 ≠ a) → Memory.byte t.mem a = Memory.byte s.mem a)
        ∧ (∀ a v, inStack d a = true → (∃ x ∈ s.dies.toList, (a, v) ∈ x.l2) → (∀ x ∈ s.dies.toList, ∀ c ∈ x.l2, c.1 = a → c.2 = v) →
            (∀ i : DieId, s.yields (tagAt (s.dies.get i).tags a).stamp (tagAt s.tags a) = false) → Memory.byte t.mem a = v)
        ∧ ∃ e ∈ t.agenda, e.row = .hctlQuiesceComplete ∧ e.arg = { s.arg with u := 1 } ∧ e.at_ = s.time + 2)
    ∧ (let busy : Bool := s.agenda.any fun e => e.row == .hbmActivation && e.arg.d == d
       bit h.hctl 0 = true → s.arg.u ≠ 0 → (busy = true → exec .hctlQuiesceComplete s = .next (s.post 1 .hctlQuiesceComplete s.arg))
       ∧ (busy = false → gives .hctlQuiesceComplete fun t => (t.hbm d).hctl = h.hctl ||| 2 ∧ (t.hbm d).captured = [] ∧ (t.hbm d).llc = []
          ∧ (∀ j, j ≠ d → t.hbm j = s.hbm j) ∧ t.mem = s.mem ∧ t.dies = s.dies))
    ∧ (bit h.hctl 4 = true → gives .hctlUnquiesce (sets · 0x20))
    ∧ (bit h.hctl 4 = false → gives .hctlUnquiesce fun t => only t { h with hctl := h.hctl &&& ~~~3#64 } ∧ t.mem = s.mem
        ∧ t.freed = s.freed ++ s.barred ∧ t.barred = [])
    ∧ ((bit h.hctl 1 = false ∨ bit h.hctl 4 = true) → gives .hctlRemap (sets · 0x20))
    ∧ (bit h.hctl 1 = true → bit h.hctl 4 = false → gives .hctlRemap fun t =>
        only t { h with hctl := h.hctl ||| 0x10, inForce := h.hmask } ∧ t.mem = s.mem
          ∧ ∃ e ∈ t.agenda, e.row = .hctlRemapComplete ∧ e.arg = { d := d } ∧ s.time < e.at_ ∧ e.at_ ≤ s.time + 120000000)
    ∧ (bit h.hctl 4 = false → exec .hctlRemapComplete s = .next s)
    ∧ (bit h.hctl 4 = true → gives .hctlRemapComplete fun t =>
        only t { h with hctl := h.hctl &&& ~~~0x10#64, tracker := [], pcstat := Vector.replicate 64 0 }
          ∧ (∀ a, Memory.byte t.mem a = if inStack d a then 0 else Memory.byte s.mem a)
          ∧ ∀ q, q ∈ t.poison ↔ q ∈ s.poison ∧ inStack d q.1 = false)
    ∧ gives .hctlClrstat (fun t => only t { h with pcstat := Vector.replicate 64 0 } ∧ t.mem = s.mem)
    ∧ gives .hbmActivation (fun t => t.mem = s.mem ∧ t.poison = s.poison ∧ (∀ j, j ≠ d → t.hbm j = s.hbm j)
        ∧ (t.hbm d).hctl = h.hctl ∧ (t.hbm d).herra = h.herra ∧ (t.hbm d).inForce = h.inForce ∧ bits (t.hbm d).herr 0 32 = bits h.herr 0 32
        ∧ (let line := s.arg.n / 64 * 64
           let touched := if s.arg.id % 2 = 0 then 15 else sectorsOf line s.arg.n s.arg.u
           let codes : Bool := (s.sidecarAt line).isSome
           let need := if codes then 15 else touched
           let e := (h.llc.find? (·.pa == line)).getD {}
           let row (c : Nat × Nat × Nat) : Prop := c.1 = bankOf h.inForce line ∧ c.2.1 = rowOf line
           let miss : Prop := e.valid &&& need ≠ need
           let counts (f : Fin 64 → Word) : Prop := ∀ p, (t.hbm d).pcstat.get p = f p
           let stands (valid : Nat) : Prop := ((t.hbm d).llc.find? (·.pa == line)).map (fun y => (y.valid, y.dirty)) =
             some (valid, if s.arg.id < 2 then e.dirty else e.dirty ||| touched)
           let sent (n : Nat) : Prop := counts fun p => let w := h.pcstat.get p
             if p.val = pseudoChannel h.inForce line then
               wd (min (bits w 32 32 + n) (2 ^ 32 - 1) * 2 ^ 32 + min (bits w 0 32 + 1) (2 ^ 32 - 1))
             else w
           (s.arg.id ≠ 4 → 0 < s.arg.u → s.arg.n + s.arg.u ≤ line + 64 →
             ((h.llc.any (·.pa == line) = true ∨ h.llc.length < h.general) → ¬ miss → stands e.valid ∧ counts h.pcstat.get
                 ∧ ∀ c ∈ h.captured, row c → (c.1, c.2.1, c.2.2 + 1) ∈ (t.hbm d).captured)
             ∧ ((h.llc.any (·.pa == line) = true ∨ h.llc.length < h.general) → miss → (t.hbm d).captured = h.captured →
                 stands (e.valid ||| (coverOf need).1) ∧ sent (coverOf need).2)
             ∧ ((h.llc.any (·.pa == line) = true ∨ h.llc.length < h.general) → (t.hbm d).captured = h.captured → codes = true → s.arg.id < 2 →
                 ((t.hbm d).llc.find? (·.pa == line)).map (·.side) = some true))
           ∧ (∀ g, s.arg.id = 4 → runsOf s.arg.u = [g] → s.arg.n = line → (t.hbm d).captured = h.captured → (t.hbm d).llc = h.llc ∧ sent g)
           ∧ (s.arg.id = 4 → ∀ y ∈ (t.hbm d).captured, (∀ z ∈ h.captured, z.1 ≠ y.1 ∨ z.2.1 ≠ y.2.1) → (∃ g, runsOf s.arg.u = [g]) →
               ∀ a ∈ h.rowLines d y.1 y.2.1, ∃ l ∈ (t.hbm d).llc, l.pa = a ∧ 15 ≤ l.valid)))
    ∧ gives .trackerReset (fun t => (t.hbm d).tracker = [] ∧ t.mem = s.mem ∧ (∀ b r n, (b, r, n) ∈ (t.hbm d).captured ↔
          n = 0 ∧ ∃ k, (b, r, k) ∈ h.captured ∧ bits h.rhctl 0 24 ≤ k)
        ∧ (∀ b r k, (b, r, k) ∈ h.captured → (∀ k, (b, r, k) ∈ h.captured → k < bits h.rhctl 0 24) →
            ∀ y ∈ h.llc, y.pa ∈ h.rowLines d b r → y.dirty ≠ 0 →
              ∃ e ∈ t.agenda, e.row = .hbmActivation ∧ e.arg.d = d ∧ e.arg.n = y.pa ∧ e.arg.u = y.dirty ∧ e.arg.id = 4)
        ∧ ∃ e ∈ t.agenda, e.at_ = s.time + 153600000 ∧ e.row = .trackerReset ∧ e.arg = { d := d })
    ∧ (let pa := s.arg.n / 64 * 64
       (0x8000000000 ≤ pa → exec .hbmUncorrectable s = .next s)
       ∧ (pa < 0x8000000000 → gives .hbmUncorrectable fun t => poisons t 0 pa
          ∧ ∀ j : DieId, j.val = pa / 2 ^ 36 → (t.hbm j).herra = wd pa ∧ bits (t.hbm j).herr 32 32 = bits (s.hbm j).herr 32 32
            ∧ bits (t.hbm j).herr 0 32 = min (bits (s.hbm j).herr 0 32 + 1) (2 ^ 32 - 1)))
    ∧ (s.arg.id ≠ 1 → s.arg.id ≠ 2 → gives .sramUncorrectable fun t => poisons t 3 (s.arg.n / poisonUnit s.arg.n * poisonUnit s.arg.n))
    ∧ (let line := s.arg.n / 64 * 64
       let c := s.arg.c
       poisonUnit s.arg.n = 64 →
       (s.arg.id = 1 → ∃ t, exec .sramUncorrectable s = .next t ∧ t.mem = s.mem ∧ t.poison = s.poison ∧ t.dies = s.dies
          ∧ ((∃ b ∈ (s.core c).l1, b.pa / 64 * 64 = line) → ∃ p ∈ (t.core c).l1Poison, p.1 = line))
       ∧ (s.arg.id = 2 → gives .sramUncorrectable fun t => t.mem = s.mem ∧ t.poison = s.poison
          ∧ (line ∈ (s.dies.get d).lines → ∃ p ∈ (t.dies.get d).poison, p.1 = line)))
    ∧ (s.arg.u < 8 → exec .flitCrcFail s = .next s)
    ∧ (s.arg.bytes ≠ [] → (psDecode (natOf s.arg.bytes)).isSome = true → exec .flitCrcFail s = .next s)
    ∧ (8 ≤ s.arg.u → (s.arg.bytes = [] ∨ psDecode (natOf s.arg.bytes) = none) → s.arg.id ≠ 1 → s.arg.id ≠ 2 → gives .flitCrcFail fun t => t.mem = s.mem ∧ (∀ q ∈ s.poison, q ∈ t.poison)
        ∧ (∀ q ∈ t.poison, q ∈ s.poison ∨ q.2 = 2)
        ∧ ∀ a, s.arg.n ≤ a → a < s.arg.n + max 1 s.arg.w0.toNat → poisonUnit a = poisonUnit s.arg.n → t.poisoned a 1 = true)
    ∧ (let v := s.arg.w0
       let bad : Prop := bits v 16 48 ≠ 0 ∨ 16 < bits v 0 8 ∨ 112 < bits v 8 8 + bits v 0 8
       let rows := h.captured.drop (h.captured.length - bits v 0 8 * 1024)
       let low : Prop := bits v 8 8 < bits h.llcpart 8 8
       (bad → gives .llcpartWrite (sets · 0x20))
       ∧ (¬ bad → gives .llcpartWrite fun t => t.mem = s.mem ∧ (t.hbm d).llcpart = v
          ∧ (¬ low → rows = h.captured → only t { h with llcpart := v } ∧ t.handles = s.handles)
          ∧ ((¬ low ∨ h.llc.length ≤ (128 - bits v 8 8 - bits v 0 8) * 16384) → (t.hbm d).captured = rows)
          ∧ (s.llcUsed d ≤ bits v 8 8 * 16 → t.handles = s.handles)
          ∧ ∀ g, t.handle g = s.handle g ∨ t.handle g = { s.handle g with llch := false }))
    ∧ (∀ u : Fin 64, s.arg.u = u.val →
        let v := s.arg.w0
        let w := s.ld.windows.get u
        let others := s.ld.windows.toList.take s.arg.u ++ s.ld.windows.toList.drop (s.arg.u + 1)
        let bad : Prop := bits v 52 12 ≠ 0 ∨ bits v 1 11 ≠ 0 ∨ (bit w.code 0 = true ∧ bit v 0 = true)
          ∨ (bit v 0 = true ∧ windowFits { w with code := v } others = false)
        (bad → exec .formatWindowWrite s = .next { s with ld := { s.ld with refused := true } })
        ∧ (¬ bad → gives .formatWindowWrite fun t => t.mem = s.mem ∧
            ∀ j : Fin 64, t.ld.windows.get j = if j = u then { w with code := v } else s.ld.windows.get j))
    ∧ (64 ≤ s.arg.u → exec .formatWindowWrite s = .next { s with ld := { s.ld with refused := true } })
    ∧ (let g : BitVec 16 := s.arg.w0.setWidth 16
       let size : BitVec 16 := s.arg.w2.setWidth 16
       let e := s.handle g
       let bad : Prop := (e.st ≠ 0 ∧ e.st ≠ 6) ∨ e.flipp = true ∨ (∃ j, s.currentDie g = some j ∧ bits (s.base j).hslot 32 16 < size.toNat)
         ∨ (size = 0 ∧ (s.residentDie g).isSome = true)
       (bad → exec .hsetGo s = .next { s with ld := { s.ld with refused := true } })
       ∧ (¬ bad → gives .hsetGo fun t => t.mem = s.mem ∧ (t.handle g).st = 0 ∧ (t.handle g).size = size
          ∧ t.ld = { s.ld with hset0 := s.arg.w0 &&& wd 0xFFFF }
          ∧ (t.handle g).lfa = s.arg.w1.setWidth 32 ∧ (t.handle g).version = BitVec.ofNat 32 (bits s.arg.w1 32 32)))

/-- The commands of a Nolnus ring, relocation, wear levelling and flash failures. A command with a field outside its limits ends
with status 1, one that names a block not allocated with 2. READ puts the pages in memory and ends with 4 at the first page that
failed, which it poisons; WRITE programs pages not yet written (else 3), from memory; ALLOC gives fresh consecutive blocks (5
without room or run); FREE releases blocks that nothing names (else 6); DIGEST writes the SHA3-512 of its bytes; RELOC moves a block
to the least worn free one; a command that meets a block under relocation waits. WRITE, ALLOC and RELOC without spares end with 7.
The end of a command writes its word 3 and starts the next. A block read RDLIM times gets its new block, and the switch comes later;
the old block is erased once no page read uses it. A block chosen by wear levelling moves after the stack's other reads. With a
spare left, a failed program or page moves the block and retires the old one; a read that a retry corrects is counted, and one that
fails at a block its page has left is issued again. (R434, R435, R436, R437, R438, R439) -/
def Obligations.FlashCommands : Prop :=
∀ (s : State),
    let d := s.arg.d
    let a := s.arg
    let n := nlCount a
    let lfa := nlLfa a
    let at_ := a.w1.toNat
    let bl := s.base d
    let gives (i : Instr) (f : State → Prop) : Prop := ∃ t, exec i s = .next t ∧ t.cores = s.cores ∧ f t
    let ends (t : State) (status result : Nat) : Prop :=
      ∃ e ∈ t.agenda, e.row = .nolnusCommandDone ∧ e.arg = { a with n := status, w0 := wd result }
    let quiet : Prop := s.nlWaits a = false
    let mine (pa k : Nat) : Prop := s.yieldsAt (s.stamp (baseWriter d 10)) pa k = 0
    let stops (i : Instr) (status : Nat) : Prop := quiet → gives i fun t => ends t status 0 ∧ t.mem = s.mem ∧ t.bases = s.bases
    let plain : Prop := bits a.w0 8 8 = 0 ∧ 1 ≤ n ∧ n ≤ 512
    let moves : Prop := plain ∧ at_ % 4096 = 0 ∧ at_ + n * pageSize ≤ 0x8000000000 ∧ bits a.w2 32 32 = 0
    let all (k : Nat) : Prop := ∀ j, j < k → ∃ x, s.blockOf (lfa + j) = some x
    let byteOf (l b : Nat) (v : Byte) : Prop := ∀ dd, s.flashStack (l / 512) = some dd → Memory.byte (s.base dd).nl.pages (l * pageSize + b) = v
    let moved (t : State) (dd : DieId) (lb p q : Nat) (counts : Bool) : Prop :=
      (t.base dd).nl.block lb = ((s.base dd).nl.block lb).map (fun x => { x with phys := q }) ∧ t.mem = s.mem
      ∧ ((∃ r ∈ (s.base dd).nl.open_, r.phys = p) → (p, counts) ∈ (t.base dd).nl.stale)
      ∧ ((s.base dd).nl.stale = [] → p ∉ (s.base dd).nl.retired → (∀ r ∈ (s.base dd).nl.open_, r.phys ≠ p) → (t.base dd).nl.stale = []
          ∧ countOf (t.base dd).nl.erases p = countOf (s.base dd).nl.erases p + 1
          ∧ (t.base dd).nl.rdReloc = (s.base dd).nl.rdReloc + (if counts then 1 else 0))
    (s.nlWaits a = true → ∀ i ∈ [Instr.nolnusRead, .nolnusWrite, .nolnusAlloc, .nolnusFree, .nolnusDigest, .nolnusReloc],
      exec i s = .next (s.postLater 1 ((nolnusRow (nlOp a)).getD .nolnusRead) a)) ∧
    -- READ
    (¬ moves → stops .nolnusRead 1)
    ∧ (moves → ¬ all n → stops .nolnusRead 2)
    ∧ (moves → all n → (∀ j, j < n → s.pageOk (lfa + j) = true ∧ mine (at_ + j * pageSize) pageSize) → quiet → gives .nolnusRead fun t => ends t 0 0
        ∧ (∀ j b, j < n → b < pageSize → byteOf (lfa + j) b (Memory.byte t.mem (at_ + j * pageSize + b)))
        ∧ ∀ x, (x < at_ ∨ at_ + n * pageSize ≤ x) → Memory.byte t.mem x = Memory.byte s.mem x)
    ∧ (∀ j dd b, moves → all n → j < n → s.blockOf (lfa + j) = some (dd, b) → (lfa + j) % 512 ∈ b.failed →
        (∀ i c, i < j → s.blockOf (lfa + i) = some c → (lfa + i) % 512 ∉ c.2.failed) →
        quiet → gives .nolnusRead fun t => ends t 4 j)
    ∧ (∀ dd b, moves → n = 1 → s.blockOf lfa = some (dd, b) → lfa % 512 ∈ b.failed → quiet → gives .nolnusRead fun t =>
        t.poisoned at_ pageSize = true ∧ t.mem = s.mem)
    -- WRITE
    ∧ (¬ moves → stops .nolnusWrite 1)
    ∧ (moves → ¬ all n → stops .nolnusWrite 2)
    ∧ (∀ j x, moves → all n → j < n → s.blockOf (lfa + j) = some x → (s.base x.1).nl.spare = 0 → stops .nolnusWrite 7)
    ∧ (moves → all n → (∀ j x, j < n → s.blockOf (lfa + j) = some x → (s.base x.1).nl.spare ≠ 0) →
        (∀ j x, j < n → s.blockOf (lfa + j) = some x → (lfa + j) % 512 < x.2.written → stops .nolnusWrite 3)
        ∧ ((∀ j x, j < n → s.blockOf (lfa + j) = some x → x.2.written ≤ (lfa + j) % 512) → quiet → gives .nolnusWrite fun t => ends t 0 0 ∧ t.mem = s.mem
          ∧ (∀ j x, j < n → t.blockOf (lfa + j) = some x → (lfa + j) % 512 < x.2.written
              ∧ (s.poisoned (at_ + j * pageSize) pageSize = true → (lfa + j) % 512 ∈ x.2.failed))
          ∧ (∀ j x b, j < n → s.blockOf (lfa + j) = some x → b < pageSize →
              Memory.byte (t.base x.1).nl.pages ((lfa + j) * pageSize + b) = Memory.byte s.mem (at_ + j * pageSize + b))
          ∧ ∀ dd x, (x < lfa * pageSize ∨ (lfa + n) * pageSize ≤ x) → Memory.byte (t.base dd).nl.pages x = Memory.byte (s.base dd).nl.pages x))
    -- ALLOC
    ∧ (let dd : DieId := Fin.ofNat 8 (bits a.w2 32 3)
       let nl := (s.base dd).nl
       let legal : Prop := plain ∧ a.w1 = 0 ∧ bits a.w2 35 29 = 0
       let run (b : Nat) : Prop := b + n ≤ logicalBlocks ∧ ∀ j, j < n → s.flashStack (b + j) = none
       let room := min stackBlocks (physBlocks - nl.retired.length - nl.moving.length - nl.stale.length)
       (¬ legal → stops .nolnusAlloc 1)
       ∧ (legal → nl.spare = 0 → stops .nolnusAlloc 7)
       ∧ (legal → nl.spare ≠ 0 → (room < nl.blocks.length + n ∨ ∀ b, ¬ run b) → stops .nolnusAlloc 5)
       ∧ (legal → nl.spare ≠ 0 → nl.blocks.length + n ≤ room → (∃ b, run b) → quiet → gives .nolnusAlloc fun t =>
          t.mem = s.mem ∧ ∃ b, run b ∧ ends t 0 b ∧ ∀ j, j < n → ((t.base dd).nl.block (b + j)).isSome = true))
    -- FREE
    ∧ (let lb := lfa / 512
       let legal : Prop := plain ∧ lfa % 512 = 0 ∧ a.w1 = 0 ∧ bits a.w2 32 32 = 0
       (¬ legal → stops .nolnusFree 1)
       ∧ (∀ j, legal → j < n → s.flashStack (lb + j) = none → stops .nolnusFree 2)
       ∧ (legal → (∀ j, j < n → s.flashStack (lb + j) ≠ none) →
          (∀ j, j < n → s.blockBusy (lb + j) = true → stops .nolnusFree 6)
          ∧ ((∀ j, j < n → s.blockBusy (lb + j) = false) → quiet → gives .nolnusFree fun t => ends t 0 0 ∧ t.mem = s.mem
            ∧ (∀ j dd, j < n → s.flashStack (lb + j) = some dd → (t.base dd).nl.block (lb + j) = none)
            ∧ ∀ dd k, (k < lb ∨ lb + n ≤ k) → (t.base dd).nl.block k = (s.base dd).nl.block k)))
    -- DIGEST
    ∧ (let len := bits a.w2 32 32
       let legal : Prop := plain ∧ at_ % 64 = 0 ∧ at_ + 64 ≤ 0x8000000000 ∧ 1 ≤ len ∧ len ≤ n * pageSize
       (¬ legal → stops .nolnusDigest 1)
       ∧ (legal → ¬ all n → stops .nolnusDigest 2)
       ∧ (legal → all n → (∀ j, j * pageSize < len → s.pageOk (lfa + j) = true) → mine at_ 64 → quiet → gives .nolnusDigest fun t => ends t 0 0
          ∧ ∃ v, (∀ j b, j * pageSize < len → b < pageSize → byteOf (lfa + j) b (BitVec.ofNat 8 (v >>> (8 * (j * pageSize + b)))))
            ∧ ∀ x, Memory.byte t.mem x = if at_ ≤ x ∧ x < at_ + 64 then BitVec.ofNat 8 (sha3 v len >>> (8 * (x - at_))) else Memory.byte s.mem x)
       ∧ ∀ j dd b, legal → all n → j * pageSize < len → s.blockOf (lfa + j) = some (dd, b) → (lfa + j) % 512 ∈ b.failed → quiet →
          gives .nolnusDigest fun t => ends t 4 0 ∧ t.mem = s.mem)
    -- RELOC and the moves of R437 to R439
    ∧ (let legal : Prop := bits a.w0 8 8 = 0 ∧ n = 1 ∧ a.w1 = 0 ∧ bits a.w2 32 32 = 0
       (¬ legal → stops .nolnusReloc 1)
       ∧ (legal → s.blockOf lfa = none → stops .nolnusReloc 2)
       ∧ ∀ dd b, legal → s.blockOf lfa = some (dd, b) →
          ((s.base dd).nl.spare = 0 → stops .nolnusReloc 7)
          ∧ ((s.base dd).nl.spare ≠ 0 → (s.base dd).nl.leastWorn = none → stops .nolnusReloc 5)
          ∧ ∀ q, (s.base dd).nl.spare ≠ 0 → (s.base dd).nl.leastWorn = some q → quiet → gives .nolnusReloc fun t =>
              ends t 0 0 ∧ moved t dd b.lb b.phys q true)
    ∧ (∀ l dd b q, s.blockOf l = some (dd, b) → (s.base dd).nl.spare ≠ 0 → (∀ m ∈ (s.base dd).nl.moving, m.1 ≠ b.lb) →
        bits (s.base dd).nl.nlctl 0 32 ≤ countOf (s.base dd).nl.reads b.phys + 1 → (s.base dd).nl.leastWorn = some q →
        (b.lb, q) ∈ ((s.countPage l).base dd).nl.moving
          ∧ ∃ e ∈ (s.countPage l).agenda, e.row = .readDisturbRelocation ∧ e.arg.d = dd ∧ e.arg.n = b.lb)
    ∧ ((bl.nl.block a.n = none ∨ bl.nl.spare = 0 ∨ ∀ m ∈ bl.nl.moving, m.1 ≠ a.n) → gives .readDisturbRelocation fun t =>
        t.mem = s.mem ∧ (t.base d).nl = { bl.nl with moving := bl.nl.moving.filter fun m => m.1 != a.n })
    ∧ (∀ b m, bl.nl.block a.n = some b → bl.nl.spare ≠ 0 → bl.nl.moving.find? (fun m => m.1 == a.n) = some m → gives .readDisturbRelocation fun t =>
        moved t d b.lb b.phys m.2 true ∧ ∀ x ∈ (t.base d).nl.moving, x.1 ≠ b.lb)
    ∧ (let free (p : Nat) : Prop := p < physBlocks ∧ (∀ x ∈ bl.nl.blocks, x.phys ≠ p) ∧ p ∉ bl.nl.retired
         ∧ (∀ m ∈ bl.nl.moving, m.2 ≠ p) ∧ ∀ m ∈ bl.nl.stale, m.1 ≠ p
       ∀ p, bl.nl.leastWorn = some p → free p ∧ ∀ q, free q → countOf bl.nl.erases p ≤ countOf bl.nl.erases q)
    ∧ (let early : Bool := !s.flashOn || s.readsAhead d 4
      (early = true → exec .wearLevelMove s = .next (s.post 1 .wearLevelMove a))
    ∧ (early = false → bl.nl.spread = false → exec .wearLevelMove s = .next s)
    ∧ (∀ b p, early = false → bl.nl.spread = true → bl.nl.leastErased = some b → bl.nl.mostWorn = some p → gives .wearLevelMove fun t =>
        moved t d b.lb b.phys p false ∧ (t.base d).nl.wearMove = bl.nl.wearMove + 1))
    ∧ (∀ b, a.u = 0 → bl.nl.block a.n = some b → gives .flashProgramFailure fun t => t.mem = s.mem
        ∧ (∀ q, bl.nl.leastWorn = some q → (t.base d).nl.block a.n = some { b with phys := if bl.nl.spare ≠ 0 then q else b.phys })
        ∧ (t.base d).nl.retired = bl.nl.retired ++ [b.phys]
        ∧ (t.base d).nl.bad = bl.nl.bad + 1 ∧ (t.base d).nl.spare = (if bl.nl.spare ≠ 0 then bl.nl.spare - 1 else 0))
    ∧ (a.u = 0 → bl.nl.block a.n = none → exec .flashProgramFailure s = .next s)
    ∧ (a.u ≠ 0 → a.n ∉ bl.nl.retired → (bl.nl.blocks.all fun x => x.phys != a.n) = true → gives .flashProgramFailure fun t =>
        t.mem = s.mem ∧ (t.base d).nl.blocks = bl.nl.blocks ∧ (t.base d).nl.retired = bl.nl.retired ++ [a.n])
    ∧ (s.blockOf a.n = none → exec .flashUncorrectable s = .next s)
    ∧ (∀ dd b q, s.blockOf a.n = some (dd, b) → (s.base dd).nl.leastWorn = some q →
        let left : Prop := ∃ r ∈ (s.base dd).nl.open_, r.lfa = a.n ∧ r.phys ≠ b.phys ∧ r.failed = false
        (a.u = 1 → (left ∨ a.n % 512 ∉ b.failed) → gives .flashUncorrectable fun t => t.mem = s.mem
          ∧ (t.base dd).nl = { (s.base dd).nl with retry := (s.base dd).nl.retry + 1 })
        ∧ (a.u ≠ 1 → left → gives .flashUncorrectable fun t => t.mem = s.mem ∧ (t.base dd).nl.blocks = (s.base dd).nl.blocks
          ∧ (t.base dd).nl.retired = (s.base dd).nl.retired ∧ (t.base dd).nl.uncorr = (s.base dd).nl.uncorr
          ∧ (t.base dd).nl.retry = (s.base dd).nl.retry + 1
          ∧ ∀ r ∈ (t.base dd).nl.open_, r.lfa = a.n → r.phys ≠ b.phys → r.failed = true)
        ∧ (¬ left → a.n % 512 ∈ b.failed → exec .flashUncorrectable s = .next s)
        ∧ (a.u ≠ 1 → ¬ left → a.n % 512 ∉ b.failed → (∀ m ∈ (s.base dd).nl.moving, m.1 ≠ b.lb) → gives .flashUncorrectable fun t => t.mem = s.mem
          ∧ (t.base dd).nl.uncorr = (s.base dd).nl.uncorr + 1 ∧ (t.base dd).nl.retry = (s.base dd).nl.retry + 1
          ∧ (let spared : Bool := (s.base dd).nl.spare != 0
             (t.base dd).nl.block (a.n / 512) = some { b with phys := if spared then q else b.phys, failed := b.failed ++ [a.n % 512] }
             ∧ (t.base dd).nl.retired = if spared then (s.base dd).nl.retired ++ [b.phys] else (s.base dd).nl.retired)))
    -- the end of a command
    ∧ (let pa := a.w3.toNat
       let w3 := 2 ^ 63 + a.w0.toNat % 2 ^ 32 * 256 + a.n % 256
       gives .nolnusCommandDone fun t =>
        (mine (pa + 24) 8 → ∀ x, Memory.byte t.mem x = if inMemory pa 32 = true ∧ pa + 24 ≤ x ∧ x < pa + 32 then BitVec.ofNat 8 (w3 >>> (8 * (x - pa - 24)))
          else Memory.byte s.mem x)
        ∧ ((bl.nl.nlhead = bl.nl.nltail ∨ s.flashOn = false) → (t.base d).nl.busy = false ∧ (t.base d).nl.nlhead = bl.nl.nlhead)
        ∧ (bl.nl.nlhead ≠ bl.nl.nltail → s.flashOn = true → (t.base d).nl.busy = true ∧ (t.base d).nl.nlhead = bl.nl.nlhead + 1
            ∧ ∃ e ∈ t.agenda, e.arg.d = d ∧ e.arg.u = bl.nl.nlhead.toNat ∧ e.arg.w3 = wd (bl.nl.entryPa bl.nl.nlhead.toNat)))

/-- Manifests, staging, aborts, flips, and the install, migration and retirement of expert maps. GO outside a replacement checks the
manifest: a bad one aborts with reason 1; a good one starts PHASE 2 and the staging of each shard. A shard whose source cannot be
read is tried again; one without spares or room aborts with 4; one whose read-back differs from its digest is retried, four times
before reason 2; one that agrees is staged, and the last starts the flip by MODE as it then stands: roll mode at once, else after
the gate's drain. STAGET aborts with 3, ABORT with 5. A flip reaches every handle of its set; when all are applied, roll mode goes
to the next layer, else the new version is current, the gate opens, and the blocks that only the old one used are freed. A map of
the next version is installed in one step, else refused; a fresh handle of a moved expert may be filled from the old copy; versions
that nobody holds retire. (R327, R330, R440, R441, R443, R444, R445, R446, R465) -/
def Obligations.LoaderAndMaps : Prop :=
∀ (s : State),
    let l := s.ld
    let gives (i : Instr) (f : State → Prop) : Prop := ∃ t, exec i s = .next t ∧ t.cores = s.cores ∧ t.mem = s.mem ∧ f t
    let posts (t : State) (dt : Nat) (r : Instr) (a : Arg) : Prop := ∃ e ∈ t.agenda, e.row = r ∧ e.arg = a ∧ e.at_ = s.time + dt
    let signals (t : State) : Prop := t.out = s.out ++ [Output.interrupt (bits l.ldctl 16 11)]
    let aborts (i : Instr) (r ix : Nat) : Prop := gives i fun t => t.ld.phase = 6 ∧ t.ld.reason = BitVec.ofNat 8 r ∧ t.ld.shards = []
      ∧ t.ld.cur = l.cur ∧ signals t ∧ ((r = 2 ∨ r = 3) → t.ld.shardIx = BitVec.ofNat 16 ix)
      ∧ (r ≠ 1 → ∀ x ∈ l.shards, (t.handle x.handle).staged = none)
    let mode : Prop := bit l.ldctl 2 = true
    let roll : Prop := l.roll = true
    let flips (t : State) (p : Shard → Prop) : Prop := ∀ x ∈ l.shards, p x → posts t 0 .handleFlip { h := x.handle }
    let inSet (ly : Nat) (x : Shard) : Prop := roll → x.layer = ly
    let live (ph : Nat) : Prop := l.phase = ph ∧ l.gen = s.arg.id
    (s.arg.u = 0 → l.phase ≠ 0 → l.phase ≠ 5 → l.phase ≠ 6 → exec .loaderGo s = .next s)
    ∧ (s.arg.u = 0 → (l.phase = 0 ∨ l.phase = 5 ∨ l.phase = 6) →
        (s.readManifest l.ldman.toNat = none → aborts .loaderGo 1 0)
        ∧ (∀ ver nl dg sh, s.readManifest l.ldman.toNat = some (ver, nl, dg, sh) → gives .loaderGo fun t =>
            t.ld.phase = 2 ∧ t.ld.reason = 0 ∧ t.ld.retries = 0 ∧ t.ld.newver = BitVec.ofNat 32 ver ∧ t.ld.shards = sh ∧ t.ld.cur = l.cur
              ∧ t.ld.gen = l.gen + 1 ∧ posts t (bits l.ldtime 0 32 * 1000000 * 4800) .stagetExpiry { id := l.gen + 1 }
              ∧ ∀ i, i < sh.length → ∃ e ∈ t.agenda, e.row = .loaderGo ∧ e.arg = { u := i + 1, id := l.gen + 1 }))
    ∧ (∀ pa ver nl dg sh, s.readManifest pa = some (ver, nl, dg, sh) →
        let hd := s.homeRead pa 256
        field hd 0 32 = 0x444C4D46 ∧ field hd 32 16 = 1 ∧ field hd 64 32 = ver ∧ l.cur.toNat < ver ∧ field hd 96 16 = nl ∧ 1 ≤ nl ∧ nl ≤ 4096
          ∧ sh.length = field hd 128 32 ∧ 1 ≤ sh.length ∧ sh.length ≤ 65536 ∧ field hd 512 512 = dg
          ∧ s.manifestSigned dg (s.homeRead (pa + 256 + 128 * sh.length) 4640) = true
          ∧ ∀ x ∈ sh, x.layer < nl ∧ x.codelen % 512 = 0 ∧ x.src % 4096 = 0 ∧ s.shardFits x = true)
    ∧ (∀ i x, s.arg.u = i + 1 → live 2 → l.shards[i]? = some x → x.staged = none →
        let d := (s.residentDie x.handle).getD 0
        let blocks := ceilDiv x.pages 512
        let v := s.homeRead x.src x.bytes
        let again (t : State) : Prop := posts t 4800 .loaderGo { u := i + 1, id := l.gen }
        ((inHbm x.src x.bytes = false ∨ s.poisoned x.src x.bytes = true) → gives .loaderGo fun t => again t ∧ t.ld = l ∧ t.handles = s.handles)
        ∧ (inHbm x.src x.bytes = true → s.poisoned x.src x.bytes = false →
          (((s.base d).nl.spare = 0 ∨ s.flashAlloc d blocks = none) → aborts .loaderGo 4 i)
          ∧ ∀ lb u, (s.base d).nl.spare ≠ 0 → s.flashAlloc d blocks = some (lb, u) →
            (sha3 v x.bytes = x.digest → gives .loaderGo fun t =>
              (t.handle x.handle).staged = some (l.newver, BitVec.ofNat 32 (lb * 512), some (x.codelen, x.scaled))
              ∧ (t.ld.shards[i]?.bind fun y => y.staged) = some (lb * 512)
              ∧ ((∃ (j : Nat) (y : Shard), j ≠ i ∧ l.shards[j]? = some y ∧ y.staged = none) → t.ld.phase = 2 ∧ t.ld.gate = l.gate)
              ∧ ((∀ (j : Nat) (y : Shard), j ≠ i → l.shards[j]? = some y → y.staged ≠ none) →
                  (mode → t.ld.phase = 4 ∧ t.ld.roll = true ∧ t.ld.layer = 0 ∧ posts t 0 .loaderFlip { u := 1, id := l.gen })
                  ∧ (¬ mode → t.ld.phase = 3 ∧ t.ld.roll = false ∧ t.ld.gate = true ∧ posts t 0 .loaderFlip {}
                    ∧ posts t (bits l.ldtime 32 32 * 1000000 * 4800) .draintExpiry { id := l.gen })))
            ∧ (sha3 v x.bytes ≠ x.digest → x.tries < 3 → gives .loaderGo fun t => again t ∧ t.ld.phase = 2
                ∧ t.ld.retries = (if l.retries = 255 then 255 else l.retries + 1) ∧ (t.ld.shards[i]?.map fun y => y.tries) = some (x.tries + 1))
            ∧ (sha3 v x.bytes ≠ x.digest → 3 ≤ x.tries → aborts .loaderGo 2 i)))
    ∧ ((l.phase = 1 ∨ l.phase = 2) → aborts .loaderAbort 5 0)
    ∧ (l.phase ≠ 1 → l.phase ≠ 2 → exec .loaderAbort s = .next s)
    ∧ (¬ live 2 → exec .stagetExpiry s = .next s)
    ∧ (∀ i x, live 2 → l.shards[i]? = some x → x.staged = none → (∀ j < i, ∀ y, l.shards[j]? = some y → y.staged ≠ none) →
        aborts .stagetExpiry 3 i)
    ∧ (¬ live 3 → exec .draintExpiry s = .next s)
    ∧ (live 3 → gives .draintExpiry fun t => t.ld.phase = 4 ∧ flips t (inSet l.layer.toNat) ∧ posts t 1 .loaderFlip { u := 2, id := l.gen })
    ∧ (s.arg.u = 0 → (l.phase ≠ 3 ∨ s.admittedRun = true) → exec .loaderFlip s = .next s)
    ∧ (s.arg.u = 0 → l.phase = 3 → s.admittedRun = false → gives .loaderFlip fun t =>
        t.ld.phase = 4 ∧ flips t (inSet l.layer.toNat) ∧ posts t 1 .loaderFlip { u := 2, id := l.gen })
    ∧ (s.arg.u ≠ 0 → ¬ live 4 → exec .loaderFlip s = .next s)
    ∧ (s.arg.u = 1 → live 4 → gives .loaderFlip fun t => t.ld = l ∧ flips t (inSet l.layer.toNat)
        ∧ posts t 1 .loaderFlip { u := 2, id := l.gen })
    ∧ (s.arg.u = 2 → live 4 →
        ((∃ x ∈ l.shards, inSet l.layer.toNat x ∧ (s.handle x.handle).staged ≠ none) → gives .loaderFlip fun t =>
          t.ld = l ∧ posts t 1 .loaderFlip s.arg)
        ∧ ((∀ x ∈ l.shards, inSet l.layer.toNat x → (s.handle x.handle).staged = none) →
          (roll → l.layer.toNat + 1 < l.nlayer → gives .loaderFlip fun t => t.ld.layer = l.layer + 1 ∧ t.ld.phase = 4
            ∧ flips t (fun x => x.layer = (l.layer + 1).toNat))
          ∧ (¬ (roll ∧ l.layer.toNat + 1 < l.nlayer) → gives .loaderFlip fun t => t.ld.cur = l.newver ∧ t.ld.gate = false
            ∧ t.ld.manDigest = l.manNext ∧ ((t.ld.phase = 5 ∧ signals t)
              ∨ (t.ld.phase = 4 ∧ posts t 4800 .loaderFlip { u := 3, id := l.gen })))))
    ∧ (3 ≤ s.arg.u → live 4 →
        let old := s.oldBlocks.filter fun b => (s.flashStack b).isSome
        (∀ b ∈ old, ∀ x ∈ l.shards, ∀ p, x.staged = some p → ∀ j < ceilDiv x.pages 512, b ≠ p / 512 + j)
        ∧ (old.any s.blockBusy = true → gives .loaderFlip fun t => t.ld = l ∧ posts t 4800 .loaderFlip { u := 3, id := l.gen })
        ∧ (old.any s.blockBusy = false → gives .loaderFlip fun t => t.ld.phase = 5 ∧ signals t
          ∧ ∀ b ∈ old, ∀ dd, s.flashStack b = some dd → (t.base dd).nl.block b = none))
    ∧ (let pa := bits s.arg.w0 6 51 * 64
       let refuses : Prop := exec .mapnextInstall s = .next { s with ld := { l with refused := true } }
       ((1 ≤ l.phase ∧ l.phase ≤ 4) → refuses)
       ∧ (s.readMap pa = none → refuses)
       ∧ ∀ m, s.readMap pa = some m → m.ver = BitVec.ofNat 32 (s.homeRead pa 64)
          ∧ ((m.ver ≠ l.mapcur + 1 ∨ ∃ w ∈ m.layers.flatten, (s.handle (w.setWidth 16)).size = 0) → refuses)
          ∧ (m.ver = l.mapcur + 1 → (∀ w ∈ m.layers.flatten, (s.handle (w.setWidth 16)).size ≠ 0) → ¬ (1 ≤ l.phase ∧ l.phase ≤ 4) →
            gives .mapnextInstall fun t => t.ld.maps = l.maps ++ [m] ∧ t.ld.mapnext = s.arg.w0 &&& ~~~1#64 ∧ t.ld.mapcur = m.ver ∧ posts t 0 .mapRetire {} ∧ t.handles = s.handles))
    ∧ (gives .mapRetire fun t => t.handles = s.handles ∧ ∀ m, m ∈ t.ld.maps ↔
        m ∈ l.maps ∧ (m.ver = l.mapcur ∨ ∃ a ∈ l.admitted, a.mapver = m.ver))
    ∧ (let h := s.arg.h
       let o : BitVec 16 := s.arg.w0.setWidth 16
       let e := s.handle h
       let x := s.handle o
       let same : Prop := x.st = 2 ∧ x.version = e.version ∧ x.lfa = e.lfa
       let free (dd : DieId) : Option Nat :=
         (List.range (s.base dd).slots.length).find? fun i => ((s.base dd).slot i).st == .free
       (∀ dd, s.arg.u = 0 → s.residentDie h = some dd →
          ((e.st ≠ 0 ∨ e.size = 0 ∨ e.flipp = true ∨ (s.base dd).awaits h = true ∨ ¬ same ∨ free dd = none) → exec .migrationFill s = .next s)
          ∧ ∀ i, e.st = 0 → e.size ≠ 0 → e.flipp = false → (s.base dd).awaits h = false → same → free dd = some i →
            gives .migrationFill fun t => ((t.base dd).slot i).st = .filling ∧ ((t.base dd).slot i).handle = h ∧ (t.handle h).st = 1
              ∧ (t.handle h).slot = BitVec.ofNat 16 i ∧ (t.handle h).rdie = BitVec.ofNat 3 dd.val ∧ (t.handle h).shape = x.shape
              ∧ ∃ v ∈ t.agenda, v.row = .migrationFill ∧ v.arg = { s.arg with d := dd, n := i, u := 1 })
       ∧ (s.arg.u ≠ 0 →
          let d := s.arg.d
          let b := s.base d
          let i := s.arg.n
          let waiting : Prop := (b.slot i).st = .filling ∧ (b.slot i).handle = h ∧ e.st = 1
          (¬ waiting → exec .migrationFill s = .next s)
          ∧ (waiting → ¬ same → gives .migrationFill fun t => t.handles = s.handles ∧ posts t 0 .handleFillComplete { d := d, u := i, h := h })
          ∧ ∀ n, waiting → same → e.shape = some (n, false) →
            let src := (s.base (Fin.ofNat 8 x.rdie.toNat)).slotPa x.slot.toNat
            let y := baseWriter d 7
            let v := s.partyReads y [(src, n)]
            (s.poisoned src n = true → gives .migrationFill fun t => t.handles = s.handles ∧ posts t 0 .handleFillFault { d := d, u := i, h := h })
            ∧ (s.poisoned src n = false → v.yieldsAt (v.stamp y) (b.slotPa i) n = 0 → e.flipp = false → s.waitersOf h = [] →
              ∃ t, exec .migrationFill s = .next t ∧ (t.handle h).st = 2 ∧ t.mem = Memory.write s.mem (b.slotPa i) n (s.homeRead src n))))

/-- Levels and boost, sensors and the throttle, emergency save, trip, reset, power states and staged start. 200 ns ahead of a
boundary each island's next level is settled, by the forced rules first; at the boundary it takes effect, idle islands at 14 gain
permits, each is charged its level above 14, by PWCTL as it was when the levels were settled, and the register space of islands that
leave level 0 is zero. A sample marks suspects and tells firmware, holds the island when too few sensors are good, and may cut its
level or limit, start a save or post the trip. Recoveries go one step up, or an eighth of the grant, from the next cycle on. CLRHOLD
needs good sensors. A save preempts the tasks one by one and ends in retention. A trip empties the compute dies and ends a start
under way. A module reset leaves host memory, flash, keys and trips. Power-up boots copy A, or B when A does not verify, else waits,
and starts the islands in order; PSREQ follows the table of states or is refused. (R370, R371, R372, R448, R450, R454, R456, R457,
R458, R459, R462, R463) -/
def Obligations.PowerEvents : Prop :=
(∀ (l w b : Nat), propose l w b ≤ max l w
      ∧ (l ≤ 16 → w ≤ 16 → 14 < propose l w b → (propose l w b - 14) + (propose l w b - 15) ≤ b))
  ∧ ∀ (s : State),
    let gives (i : Instr) (f : State → Prop) : Prop := ∃ t, exec i s = .next t ∧ t.mem = s.mem ∧ f t
    let pw := s.pw
    let i := s.arg.isl
    let x := s.island i
    let posts (t : State) (dt : Nat) (r : Instr) (a : Arg) : Prop := ∃ e ∈ t.agenda, e.row = r ∧ e.arg = a ∧ e.at_ = s.time + dt
    let only (t : State) (y : Island) : Prop := (∀ j, t.island j = if j = i then y else s.island j) ∧ t.cores = s.cores
    let allAt (t : State) (l : Nat) : Prop := ∀ j, (t.island j).level = l
    let same (t : State) : Prop := t.cores = s.cores ∧ t.pw = pw
    let late : Prop := pw.save = 1 ∨ pw.save = 3 ∨ (pw.save = 2 ∧ pw.waking = false) ∨ s.diePower = false
    let saves (t : State) : Prop := ∃ e ∈ t.agenda, e.row = .emergencySaveComplete
    let off (v : Nat) : Word := (pw.pwctl &&& ~~~3#64) ||| wd v
    -- boundaries
    (s.arg.u = 0 → gives .boostBoundary fun t => t.cores = s.cores ∧ posts t 960 .boostBoundary { u := 1, w0 := pw.pwctl }
        ∧ (∀ j, t.island j = { s.island j with next := (t.island j).next })
        ∧ (∀ j l, s.forcedLevel j = some l → (t.island j).next = l)
        ∧ ∀ j, s.forcedLevel j = none → (t.island j).next ≤ max (s.island j).level (min (s.claim j) (s.island j).caplvl))
    ∧ (pw.waking = true → (pw.started < 128 ∨ ∃ j, (s.island j).level = 0) →
        ∀ j, s.forcedLevel j = some (if j.val < pw.started then 8 else 0))
    ∧ (pw.waking = false → (pw.save = 3 ∨ 2 ≤ pw.pstate) → ∀ j, s.forcedLevel j = some 0)
    ∧ (pw.waking = false → pw.save ≠ 3 → pw.pstate = 1 → ∀ j, s.forcedLevel j = some 4)
    ∧ (let released : Prop := pw.waking = true ∧ 128 ≤ pw.started ∧ ∀ j, (s.island j).level ≠ 0
       (released ∨ (pw.waking = false ∧ pw.save ≠ 3 ∧ pw.pstate = 0)) → ∀ j, let y := s.island j
        (y.hold = true → s.forcedLevel j = some 8)
        ∧ (y.hold = false → pw.save = 1 → s.forcedLevel j = some (min y.level 8))
        ∧ (y.hold = false → pw.save ≠ 1 → y.caplvl < y.level → s.forcedLevel j = some (stepDown y.level))
        ∧ (y.hold = false → pw.save ≠ 1 → y.level < 14 → y.level < y.caplvl → s.forcedLevel j = some (stepUp y.level)))
    ∧ (let leaves (c : CoreId) : Prop := (s.island (islandOf c)).level = 0 ∧ (s.island (islandOf c)).next ≠ 0
       s.arg.u ≠ 0 → ∃ t, exec .boostBoundary s = .next t ∧ t.pw = { pw with islands := t.pw.islands }
        ∧ t.cores = s.cores ∧ (∀ c o, leaves c → o < 0x600000 → Memory.byte t.mem (winBase c + o) = 0)
        ∧ (∀ a, (∀ c, leaves c → a < winBase c ∨ winBase c + 0x600000 ≤ a) → Memory.byte t.mem a = Memory.byte s.mem a)
        ∧ posts t (boostTicks s.arg.w0 - s.time % boostTicks s.arg.w0 - 960) .boostBoundary {}
        ∧ ∀ j, let y := s.island j
          let z := t.island j
          z.level = y.next ∧ z.issued = false ∧ z.cutThis = false ∧ z.cycles s.time = y.cycles s.time ∧ z.caplvl = y.caplvl
            ∧ z.budget = (if y.level = 14 ∧ y.issued = false then max y.budget (min (bits s.arg.w0 40 8) (y.budget + bits s.arg.w0 32 8))
                else y.budget) - (y.next - 14))
    -- sensors
    ∧ (s.arg.n = 1 → gives .sensorSample fun t => same t ∧ ∃ e ∈ t.agenda, e.row = .sensorSample ∧ e.arg.isl = 0 ∧ e.at_ = s.time + 4800)
    ∧ (s.arg.n ≠ 1 → gives .sensorSample fun t =>
        let y := t.island i
        let v := s.arg.smp.list
        let h := ((s.arg.smp, x.level, s.ewsum ((islandCores i).headD 0) (s.cyc ((islandCores i).headD 0))) :: x.hist).take 256
        let good (k : Nat) : Bool := !y.susp.getLsbD k
        let temp := ((((List.range 4).map (t.reading i v)).foldl max (-100000)) / 100).toNat
        let cur := ((max (t.reading i v 4) (t.reading i v 5)) / 25).toNat
        let thr := bits pw.pwthr 24 8
        let lim := bits pw.pwthr 0 16
        (∀ j, j ≠ i → t.island j = s.island j) ∧ y.level = x.level ∧ y.budget = x.budget ∧ y.diode = s.arg.smp.diode ∧ y.hist = h
          ∧ (∀ k, k < 6 → y.susp.getLsbD k = (x.susp.getLsbD k || s.suspect i h v k)
              ∧ (x.susp.getLsbD k = false → y.susp.getLsbD k = true → Output.event (i.val * 8 + k) ∈ t.out))
          ∧ y.hold = (x.hold || (decide (((List.range 4).filter good).length < 2) || !good 4 || !good 5))
          ∧ y.tmax = BitVec.ofNat 8 (min temp 255) ∧ y.imax = BitVec.ofNat 8 (min cur 255)
          ∧ y.caplvl = (if thr ≤ temp ∧ x.cutThis = false then stepDown x.level else x.caplvl)
          ∧ (∀ c, (t.core c).ewlim = if islandOf c = i ∧ lim < cur ∧ 64 < (s.core c).ewlim then max 64 ((s.core c).ewlim / 2) else (s.core c).ewlim)
          ∧ (temp + 5 < thr → x.coolFor = 999 → posts t 0 .throttleRecover { isl := i })
          ∧ (10 * cur < 9 * lim → x.calmFor = 9 → posts t 0 .currentLimitRecover { isl := i })
          ∧ (temp < bits pw.pwthr 32 8 → t.pw.save = pw.save) ∧ (bits pw.pwthr 32 8 ≤ temp → t.pw.save = if late then pw.save else 1)
          ∧ ((bits pw.pwthr 40 8 : Int) * 100 ≤ s.arg.smp.diode → s.diePower = true →
              ∃ e ∈ t.agenda, e.row = .hardTrip ∧ e.arg = { isl := i } ∧ e.at_ < s.time + 4800)
          ∧ ∃ e ∈ t.agenda, e.row = .sensorSample ∧ e.arg.isl = i + 1 ∧ e.at_ = s.time + if i = 127 then 4800 else 0)
    ∧ (gives .throttleRecover fun t => only t { x with caplvl := if 16 ≤ x.caplvl then 16 else stepUp x.caplvl })
    ∧ (∀ l, l ∈ ladder → stepUp l ∈ ladder ∧ l ≤ stepUp l ∧ (l < 16 → l < stepUp l ∧ ∀ m ∈ ladder, l < m → stepUp l ≤ m)
        ∧ stepDown l ∈ ladder ∧ stepDown l ≤ l ∧ (4 < l → stepDown l < l ∧ ∀ m ∈ ladder, m < l → m ≤ stepDown l))
    ∧ (gives .currentLimitRecover fun t => t.pw = pw ∧ ∀ c, (t.core c).frames = (s.core c).frames
        ∧ (t.core c).ewlim = (if islandOf c = i then min (s.core c).ewgrant ((s.core c).ewlim + (s.core c).ewgrant / 8) else (s.core c).ewlim)
        ∧ (t.core c).limitAt (s.cyc c) = (s.core c).limitAt (s.cyc c) ∧ ∀ n, s.cyc c < n → (s.core c).ewold.1 ≤ s.cyc c → (t.core c).limitAt n = (t.core c).ewlim)
    ∧ (let ok : Prop := 2 ≤ ((List.range 4).filter fun k => !x.susp.getLsbD k).length ∧ x.susp.getLsbD 4 = false ∧ x.susp.getLsbD 5 = false
       (ok → gives .clrhold (only · { x with hold := false }))
       ∧ (¬ ok → exec .clrhold s = .next { s with pw := { pw with refused := true } }))
    ∧ gives .clrsusp (only · { x with susp := 0, hist := [] })
    -- emergency save
    ∧ (late → exec .pwcmdSave s = .next s)
    ∧ (¬ late → gives .pwcmdSave fun t => t.cores = s.cores ∧ t.pw = { pw with save := 1, saving := s.saveOrder, reason := 7 } ∧ saves t)
    ∧ ((pw.reason = 0 ∨ pw.save = 3) → exec .emergencySaveComplete s = .next s)
    ∧ (pw.reason ≠ 0 → pw.save ≠ 3 →
        (pw.saving = [] → gives .emergencySaveComplete fun t => t.cores = s.cores ∧ (∀ j, t.island j = s.island j) ∧ t.pw.pstate = 2 ∧ t.pw.reason = 0
            ∧ t.pw.waking = false ∧ (∀ e ∈ t.agenda, e.row ≠ .powerUp) ∧ t.pw.save = if pw.reason = 7 then 2 else pw.save)
        ∧ (∀ a l, pw.saving = a :: l → (∀ k, s.task a = some k → k.place = none) → gives .emergencySaveComplete fun t =>
            t.cores = s.cores ∧ t.pw = { pw with saving := l } ∧ saves t)
        ∧ ∀ a l k, pw.saving = a :: l → s.task a = some k → k.place ≠ none → s.haltIssued k = false → k.restoring = false →
            (k.preempt = none → k.gang = none → gives .emergencySaveComplete fun t =>
              same t ∧ posts t 0 .preemptTask { tid := k.tid, u := pw.reason } ∧ saves t)
            ∧ (k.preempt ≠ none → gives .emergencySaveComplete fun t => same t ∧ (t.task a).map (·.preempt) = some (some pw.reason) ∧ saves t))
    -- trip and reset
    ∧ (s.diePower = false → exec .hardTrip s = .next s)
    ∧ (s.diePower = true → ∃ t, exec .hardTrip s = .next t ∧ allAt t 0 ∧ (∀ j, (t.island j).next = 0) ∧ t.pw.save = 3 ∧ t.pw.waking = false
        ∧ t.pw.trips = pw.trips + 1 ∧ t.pw.tripisl = BitVec.ofNat 8 i.val ∧ (∀ e ∈ t.agenda, e.row ≠ .powerUp)
        ∧ (∀ c k, t.frameAt c k = {}) ∧ (∀ c, (t.core c).rng = (s.core c).rng) ∧ t.handles = s.handles ∧ t.sec = s.sec ∧ (∀ d, (t.dies.get d) = {})
        ∧ (∀ a, physClass a = .window → Memory.byte t.mem a = 0)
        ∧ ((∀ q ∈ s.tree.cmds, q.built = none) → t.bases = s.bases ∧ t.tree.nodes = s.tree.nodes
            ∧ (∀ q ∈ t.tree.cmds, q ∈ s.tree.cmds ∧ s.snapStays q = true)
            ∧ (∀ a, physClass a ≠ .window → Memory.byte t.mem a = Memory.byte s.mem a)
            ∧ t.tasks = s.tasks.map fun x => x.trip ((s.msgOf x.tid).holds.filter fun h => (s.tree.named h).isSome)))
    ∧ (∃ t, exec .moduleReset s = .next t ∧ t.cores = State.reset.cores ∧ t.agenda = firstEvents ∧ t.time = 0 ∧ t.tasks = [] ∧ t.gangs = []
        ∧ (∀ a, Memory.byte t.mem a = if hostStart ≤ a then Memory.byte s.mem a else 0)
        ∧ t.pw = { State.reset.pw with trips := pw.trips, tripisl := pw.tripisl } ∧ t.sec.keys = s.sec.keys
        ∧ t.sec.life = (if s.sec.life = 2 then 1 else s.sec.life) ∧ t.sec.copies = s.sec.copies ∧ t.sec.fw = none ∧ t.sec.clnonce = Config.nonce s.freeCtr
        ∧ ∀ d, (t.base d).nl.blocks = (s.base d).nl.blocks ∧ (t.base d).nl.pages = (s.base d).nl.pages
          ∧ (t.base d).nl.erases = (s.base d).nl.erases ∧ (t.base d).nl.spare = (s.base d).nl.spare ∧ (t.base d).hbm = State.reset.hbm d)
    -- staged start
    ∧ (let a := s.sec.copies.get 0
       let b := s.sec.copies.get 1
       (∀ f : Firmware, f.verifies = (decide (f.root < 4) && Config.mldsaVerify (Config.vendorRoot f.root) (sha3 f.image f.len) f.sig
          && decide (Config.minFirmware.toNat ≤ f.version)))
       ∧ (s.arg.u = 0 → gives .powerUp fun t => (∀ j, t.island j = s.island j) ∧ t.pw.waking = true ∧ t.pw.ready = false ∧ t.sec.dbg = 0
          ∧ t.sec.keys = s.sec.keys ∧ t.sec.clnonce = Config.nonce s.freeCtr
          ∧ (a.verifies = true → t.sec.fw = some a.digest ∧ t.sec.bootb = false)
          ∧ (a.verifies = false → b.verifies = true → t.sec.fw = some b.digest ∧ t.sec.bootb = true)
          ∧ ((a.verifies = true ∨ b.verifies = true) → t.sec.bootFail = false ∧ posts t 480000 .powerUp { u := 1 })
          ∧ (a.verifies = false → b.verifies = false → t.sec.fw = none ∧ t.sec.bootFail = true ∧ t.agenda = s.agenda)))
    ∧ (∀ u, s.arg.u = u → 1 ≤ u → u < 8 → gives .powerUp fun t => same t
        ∧ posts t (if u = 7 then 0 else 480000) .powerUp { s.arg with u := u + 1 })
    ∧ (∀ u, s.arg.u = u → 8 ≤ u → u < 136 → gives .powerUp fun t => t.cores = s.cores ∧ t.pw = { pw with started := u - 7 }
        ∧ (∀ j, t.island j = s.island j) ∧ posts t (if u = 135 then 4800000 else 9600) .powerUp { s.arg with u := u + 1 })
    ∧ (∀ u, s.arg.u = u → 136 ≤ u → u < 151 → ¬ (u = 143 ∧ s.arg.n = 1) → gives .powerUp fun t => same t
        ∧ posts t 4800000 .powerUp { s.arg with u := u + 1 })
    ∧ ((s.arg.u = 151 ∨ (s.arg.u = 143 ∧ s.arg.n = 1)) →
        (pw.save ≠ 3 → gives .powerUp fun t => t.cores = s.cores ∧ t.pw.ready = true ∧ t.pw.waking = false
            ∧ t.pw.save = (if pw.save = 1 then 1 else 0) ∧ (t.pw.pstate = if bits pw.pwctl 0 2 = 0 then 0 else 1) ∧ posts t 0 .submissionEntryStart {})
        ∧ (pw.save = 3 → ∃ t, exec .powerUp s = .next t ∧ t.pw.ready = true ∧ t.pw.waking = false ∧ t.pw.save = 0
            ∧ posts t 0 .submissionEntryStart {}))
    ∧ (151 < s.arg.u → exec .powerUp s = .next s)
    -- power states
    ∧ (s.arg.u = 1 →
        ((bits pw.pwctl 0 2 ≠ 1 ∨ pw.pstate ≠ 0) → exec .psreqWrite s = .next s)
        ∧ (bits pw.pwctl 0 2 = 1 → pw.pstate = 0 →
          (s.anyResident = true → gives .psreqWrite fun t => same t ∧ posts t 4800 .psreqWrite s.arg)
          ∧ (s.anyResident = false → exec .psreqWrite s = .next { s with pw := { pw with pstate := 1 } })))
    ∧ (∀ v, s.arg.u ≠ 1 → bits s.arg.w0 0 2 = v →
        let p := { pw with pwctl := off v }
        let wakes : Prop := gives .psreqWrite fun t => (∀ j, t.island j = s.island j) ∧ t.pw = { p with waking := true, started := 0 }
          ∧ posts t 0 .powerUp (if pw.ready then { u := 8, n := 1 } else if s.sec.fw.isSome then { u := 1 } else {})
        (s.psreqRefused v = true → exec .psreqWrite s = .next { s with pw := { pw with refused := true } })
        ∧ (s.psreqRefused v = false →
          (v = 3 → ∃ t, exec .psreqWrite s = .next t ∧ (∀ j, t.island j = s.island j) ∧ t.pw.pstate = 3 ∧ t.pw.ready = false
            ∧ t.pw.save = (if pw.save = 3 then 3 else 0) ∧ (∀ c k, t.frameAt c k = {}) ∧ (∀ d, t.dies.get d = {})
            ∧ ∀ a, Memory.byte t.mem a = if hostStart ≤ a then Memory.byte s.mem a else 0)
          ∧ (v ≠ 3 → pw.pstate = 3 → gives .psreqWrite fun t => t.pw = p ∧ posts t 0 .powerUp {})
          ∧ (v ≠ 3 → pw.pstate ≠ 3 → pw.save = 3 → wakes)
          ∧ (v ≠ 3 → pw.save ≠ 3 →
            (pw.pstate = 2 → v = 2 → exec .psreqWrite s = .next { s with pw := p }) ∧ (pw.pstate = 2 → v ≠ 2 → wakes)
            ∧ (pw.pstate < 2 → v = 2 → gives .psreqWrite fun t => t.pw = { p with saving := s.saveOrder, reason := 6 }
                ∧ saves t)
            ∧ (pw.pstate < 2 → v = 1 → gives .psreqWrite fun t => t.pw = p ∧ posts t 0 .psreqWrite { u := 1 })
            ∧ (pw.pstate < 2 → v = 0 → gives .psreqWrite fun t => t.pw = { p with pstate := 0 }))))

/-- Security commands, attestation, claims and leases; register, host-window and network accesses. A security command is judged by
its request's form, then signatures, states and room, and writes its status; a signed one renews CLNONCE; only an accepted one acts.
ATTEST and an attestation request write a report. A claim elects a master when nobody else owns the device; a decommissioned one, or
one whose firmware has not been verified, refuses it, and leases and handovers lapse. Where no copy of the firmware verifies, the
management master's mailbox takes a recovery image (log 86). A register access outside the control spaces or of a bad form returns
no data, a write by another than the owner is counted, and so is one to the snapshot block from outside the cores; a bad form is
refused by its block. HWMAP takes legal units. A host access reads or writes the mapped bytes, answers poison for an unmapped read,
and where HBM serves none (log 85); debug reads need their leave. A network operation needs a peer that reaches its range, else it
is rejected; one that asks for a part of Ultra Ethernet that is not there changes nothing; SEND appends entries to a ring. (R425,
R464, R466, R467, R468, R470, R471, R472, R474, R475, R476, R480) -/
def Obligations.SecurityAndPorts : Prop :=
(∀ (s : State),
    let c := s.sec
    let gives (i : Instr) (f : State → Prop) : Prop := ∃ t, exec i s = .next t ∧ t.cores = s.cores ∧ f t
    let ends (t : State) (code : Nat) : Prop := t.sec.secres = wd (2 ^ 63 + code) ∧ t.sec.clnonce = Config.nonce s.freeCtr ∧ t.freeCtr = s.freeCtr + 1
    let refuses (i : Instr) (code : Nat) : Prop := gives i fun t => ends t code ∧ t.mem = s.mem ∧ t.sec.keys = c.keys ∧ t.sec.life = c.life
      ∧ t.sec.dbg = c.dbg ∧ t.bases = s.bases
    let judged (i : Instr) (form sig state room : Prop) (f : State → Prop) : Prop :=
      (¬ form → refuses i 1) ∧ (form → ¬ sig → refuses i 2) ∧ (form → sig → ¬ state → refuses i 3)
        ∧ (form → sig → state → ¬ room → refuses i 4) ∧ (form → sig → state → room → gives i fun t => ends t 0 ∧ f t)
    let acts : Prop := c.life ≠ 3 ∧ (s.pw.pstate < 2 ∨ (s.pw.pstate = 2 ∧ c.life = 2 ∧ c.dbg = 2))
    let zeroed (t : State) : Prop := ∀ x, Memory.byte t.mem x = if x < 0x8000000000 then 0 else Memory.byte s.mem x
    let a := c.secarg.toNat
    -- commands
    (let r := s.secRequest 0x80
     let form : Prop := s.headerGood r 1 0x80 0 = true ∧ signerOf r = 0xFFFF ∧ reqField r 0x10 0x30 = 0 ∧ inHbm (a + 0x80) reportBytes = true
     (form → gives .attest fun t => t.sec.secres = wd (2 ^ 63) ∧ t.sec.clnonce = c.clnonce
        ∧ (s.yieldsAt (s.stamp securityWriter) (a + 0x80) reportBytes = 0 → ∀ x, Memory.byte t.mem x = if a + 0x80 ≤ x ∧ x < a + 0x80 + reportBytes then
            BitVec.ofNat 8 (s.report (reqField r 0x40 64) >>> (8 * (x - (a + 0x80)))) else Memory.byte s.mem x))
     ∧ (¬ form → gives .attest fun t => t.sec = { c with secres := wd (2 ^ 63 + 1) } ∧ t.mem = s.mem))
    ∧ (let r := s.secRequest (0xA60 + signatureBytes)
       let i := reqField r 0x10 1
       let g := signerOf r
       judged .keyadd
        (s.headerGood r 2 (0xA60 + if g = 0xFFFF then 0 else signatureBytes) c.clnonce = true ∧ 4 ≤ i ∧ i < 32 ∧ reqField r 0x11 1 < 16
          ∧ reqField r 0x12 0x2E = 0)
        (if g = 0xFFFF then s.ownerKeys = [] else s.ownerKey g = true ∧ s.verifies g r 0 0xA60 0xA60 = true) acts (s.ownerKey i = false)
        fun t => t.mem = s.mem ∧ t.sec.life = c.life ∧ ∀ j : Fin 32, t.sec.keys.get j = if j.val = i then
          { digest := sha3 (reqField r 0x40 2592) 2592, usage := BitVec.ofNat 4 (reqField r 0x11 1), used := true } else c.keys.get j)
    ∧ (let r := s.secRequest (0x40 + signatureBytes)
       let i := reqField r 0x10 1
       let g := signerOf r
       judged .keyrevoke
        (s.headerGood r 3 (0x40 + signatureBytes) c.clnonce = true ∧ 4 ≤ i ∧ i < 32 ∧ reqField r 0x11 0x2F = 0
          ∧ (c.keys.toList.getD i {}).used = true)
        (s.ownerKey g = true ∧ s.verifies g r 0 0x40 0x40 = true) (acts ∧ s.ownerKeys ≠ [i]) True
        fun t => t.mem = s.mem ∧ t.sec.life = c.life
          ∧ ∀ j : Fin 32, t.sec.keys.get j = if j.val = i then { c.keys.get j with revoked := true } else c.keys.get j)
    ∧ (let r := s.secRequest (0x1300 + signatureBytes)
       let level := reqField r 0x10 1
       let root := reqField r 0x11 1
       let g := signerOf r
       judged .debugAuth
        (s.headerGood r 4 (0x1300 + signatureBytes) c.clnonce = true ∧ (level = 1 ∨ level = 2) ∧ root < 4 ∧ reqField r 0x12 0x2E = 0
          ∧ reqField r 0x40 64 = Config.identityDigest ∧ reqField r 0x80 1 = level ∧ reqField r 0x81 63 = 0)
        (s.verifies root r 0x40 0x80 0xC0 = true ∧ s.keyFor g 3 = true ∧ s.verifies g r 0 0x1300 0x1300 = true) (acts ∧ c.life ≠ 0) True
        fun t => t.sec.life = 2 ∧ t.sec.dbg = BitVec.ofNat 2 level ∧ t.sec.keys = c.keys ∧ (level = 2 → zeroed t) ∧ (level = 1 → t.mem = s.mem))
    ∧ (let r := s.secRequest (0x80 + signatureBytes)
       let root := reqField r 0x10 1
       judged .secure
        (s.headerGood r 5 (0x80 + signatureBytes) c.clnonce = true ∧ root < 4 ∧ reqField r 0x11 0x2F = 0
          ∧ reqField r 0x40 64 = Config.identityDigest)
        (signerOf r = root ∧ s.verifies root r 0 0x80 0x80 = true) (acts ∧ c.life = 0) True
        fun t => t.sec.life = 1 ∧ t.sec.keys = c.keys ∧ t.mem = s.mem)
    ∧ (let r := s.secRequest (0x80 + signatureBytes)
       let g := signerOf r
       judged .decommission
        (s.headerGood r 6 (0x80 + signatureBytes) c.clnonce = true ∧ reqField r 0x10 0x30 = 0 ∧ reqField r 0x40 64 = Config.identityDigest)
        (s.ownerKey g = true ∧ s.verifies g r 0 0x80 0x80 = true) acts True
        fun t => t.sec.life = 3 ∧ t.sec.dbg = 0 ∧ (∀ j, t.sec.keys.get j = {}) ∧ zeroed t
          ∧ (∀ d, (t.base d).nl.blocks = [] ∧ (t.base d).nl.pages = []
              ∧ ∀ p, (t.base d).nl.allErased + countOf (t.base d).nl.erases p = (s.base d).nl.allErased + countOf (s.base d).nl.erases p + 1)
          ∧ (s.pw.pstate = 0 → bits t.pw.pwctl 0 2 = 1 ∧ ∃ e ∈ t.agenda, e.row = .psreqWrite ∧ e.arg = { u := 1 }))
    -- mailboxes, leases, handovers
    ∧ (s.arg.m = .core → exec .ownershipClaim s = .next s ∧ exec .attestationRequest s = .next s)
    ∧ (∀ m : Fin 3, s.arg.m.number = some m →
        let answers (t : State) (code : Nat) : Prop := t.mboxRead m 0x1F00 8 = 2 ^ 63 + code ∧ t.mboxRead m 0x1F08 8 = 0 ∧ t.mem = s.mem
        let ms := s.mboxRead m 8 4
        let able : Prop := c.life ≠ 3 ∧ c.fw ≠ none
        (¬ able → gives .ownershipClaim fun t => answers t 3 ∧ t.sec.owner = c.owner)
        ∧ (∀ code, able → s.judgeClaim s.arg.m m = some code → code < 4 → gives .ownershipClaim fun t => answers t code ∧ t.sec.owner = c.owner
            ∧ t.sec.hand = c.hand ∧ t.sec.clnonce = Config.nonce s.freeCtr)
        ∧ (able → s.judgeClaim s.arg.m m = none → gives .ownershipClaim fun t => answers t 0 ∧ t.sec.owner = some s.arg.m ∧ t.sec.hand = none
            ∧ t.sec.leaseTo = s.time + ms * 4800000 ∧ t.sec.clnonce = Config.nonce s.freeCtr
            ∧ ∃ e ∈ t.agenda, e.row = .leaseExpiry ∧ e.at_ = s.time + ms * 4800000 ∧ e.arg = { n := s.time + ms * 4800000 })
        ∧ (s.judgeClaim s.arg.m m = none → s.mboxRead m 0 4 = 0x444C4D42 ∧ s.mboxRead m 4 1 = 1 ∧ s.mboxRead m 5 1 = m.val
            ∧ 100 ≤ ms ∧ ms ≤ 3600000 ∧ s.mboxRead m 0x10 8 = c.clnonce.toNat ∧ (c.owner = none ∨ ∃ u, c.hand = some (s.arg.m, u)))
        ∧ (let good : Prop := s.requestGood m 2 = true ∧ s.mboxRead m 6 2 = 0xFFFF ∧ ms = 0 ∧ s.mboxRead m 0x10 8 = 0
              ∧ s.mboxRead m 0x100 signatureBytes = 0
           let rescue : Prop := c.bootFail = true ∧ m = 2 ∧ s.mboxRead m 4 1 ≠ 2
           (rescue → (s.recovery.verifies = false → gives .attestationRequest fun t => answers t 2 ∧ t.sec.fw = c.fw)
              ∧ (s.recovery.verifies = true → gives .attestationRequest fun t => answers t 0 ∧ t.sec.fw = some s.recovery.digest
                  ∧ ∃ e ∈ t.agenda, e.row = .powerUp ∧ e.arg = { u := 1 } ∧ e.at_ = s.time + 480000))
           ∧ (¬ rescue → ¬ good → gives .attestationRequest (answers · 1))
           ∧ (good → gives .attestationRequest fun t => answers t 0
              ∧ t.mboxRead m 0x100 reportBytes = s.report (s.mboxRead m 0x18 64) % 2 ^ (8 * reportBytes))))
    ∧ (let ms := bits s.arg.w0 0 32
       let ok : Prop := c.owner = some s.arg.m ∧ 100 ≤ ms ∧ ms ≤ 3600000 ∧ bits s.arg.w0 32 32 = 0
       (c.owner = some s.arg.m → bits s.arg.w0 32 32 ≠ 0 → exec .ownleaseRenew s = .next s.badSecurity)
       ∧ ((c.owner ≠ some s.arg.m ∨ bits s.arg.w0 32 32 = 0) → ¬ ok → exec .ownleaseRenew s = .next s)
       ∧ (ok → gives .ownleaseRenew fun t => t.sec = { c with leaseTo := s.time + ms * 4800000 } ∧ t.mem = s.mem
          ∧ ∃ e ∈ t.agenda, e.row = .leaseExpiry ∧ e.at_ = s.time + ms * 4800000 ∧ e.arg = { n := s.time + ms * 4800000 }))
    ∧ (let own : Prop := c.owner = some s.arg.m
       let plain : Prop := bits s.arg.w0 2 6 = 0 ∧ bits s.arg.w0 9 55 = 0
       (¬ own → exec .ownhand s = .next s) ∧ (own → ¬ plain → exec .ownhand s = .next s.badSecurity)
       ∧ (own → plain → (masterOf (bits s.arg.w0 0 2) = none ∨ bit s.arg.w0 8 = false) → exec .ownhand s = .next s)
       ∧ ∀ k, own → plain → masterOf (bits s.arg.w0 0 2) = some k → bit s.arg.w0 8 = true → gives .ownhand fun t =>
          t.sec = { c with hand := some (k, s.time + 4800000000) } ∧ t.mem = s.mem
            ∧ ∃ e ∈ t.agenda, e.row = .handoverLapse ∧ e.at_ = s.time + 4800000000 ∧ e.arg = { n := s.time + 4800000000 })
    ∧ s.badSecurity = { s with sec := { c with secres := wd (2 ^ 63 + 1) } }
    ∧ ((c.owner = none ∨ c.leaseTo ≠ s.arg.n) → exec .leaseExpiry s = .next s)
    ∧ (c.owner ≠ none → c.leaseTo = s.arg.n → exec .leaseExpiry s = .next { s with sec := { c with owner := none, hand := none, leaseTo := 0 } })
    ∧ ((∀ h, c.hand = some h → h.2 ≠ s.arg.n) → exec .handoverLapse s = .next s)
    ∧ (∀ h, c.hand = some h → h.2 = s.arg.n → exec .handoverLapse s = .next { s with sec := { c with hand := none } }))
  ∧ (∀ (s : State),
    let a := s.arg
    let c := s.sec
    let gives (i : Instr) (f : State → Prop) : Prop := ∃ t, exec i s = .next t ∧ f t
    let reports (i : Instr) (o : List Output) : Prop := gives i fun t => t.out = s.out ++ o ∧ t.mem = s.mem ∧ t.sec = c ∧ t.ld = s.ld ∧ t.pw = s.pw
      ∧ t.bel = s.bel ∧ t.cores = s.cores
    let full := s.net.reject = BitVec.allOnes 32
    let net : Net := if a.m = .peer then { s.net with reject := if full then s.net.reject else s.net.reject + 1 } else s.net
    let counted (i : Instr) (o : List Output) : Prop :=
      exec i s = .next { s with sec := { c with ownref := c.ownref + 1 }, out := s.out ++ o, net := net }
    let none_ : List Output := [match a.m with
      | .host => Output.poisoned
      | .peer => Output.error
      | _ => Output.nack]
    let turned : List Output := match a.m with
      | .peer => [Output.error]
      | .mgmt => [Output.nack]
      | _ => []
    -- registers
    let served : Prop := a.m ≠ .peer ∨ (bit s.net.netctl 0 = true ∧ ∃ p : Fin 64, bit (s.net.peers.get p).npctl 0 = true ∧ bit (s.net.peers.get p).npctl 2 = true)
    ((physClass a.n ≠ .control ∨ ¬ served) → reports .registerWrite none_)
    ∧ (physClass a.n = .control → served → a.u = 1 →
        (readForm a.n a.id = true → reports .registerWrite [Output.data (bytesOf (s.ctlRead a.n a.id) a.id)])
        ∧ (readForm a.n a.id = false → reports .registerWrite none_))
    ∧ (physClass a.n = .control → served → a.u ≠ 1 → s.ownMailbox a.m a.n = false →
        ((firmwareOnly a.m false a.n = true ∨ (a.m ≠ .core ∧ c.owner ≠ some a.m)) → counted .registerWrite turned)
        ∧ ((blockAt (ctlDie a.n) (ctlOff a.n)).1 = .tree → a.m ≠ .core → firmwareOnly a.m false a.n = true)
        ∧ (firmwareOnly a.m false a.n = false → (a.m = .core ∨ c.owner = some a.m) →
          ((a.id ≠ 8 ∨ a.n % 8 ≠ 0) → exec .registerWrite s = .next (s.refuseBlock (ctlDie a.n) (blockAt (ctlDie a.n) (ctlOff a.n)).1))
          ∧ (a.id = 8 → s.booted = true → s.restricted = false →
            (a.n = ctlStart + 0x80008 → gives .registerWrite fun t => if within a.w0 0x01FFFFFFFFFFFFC0 = true then
                t.ld = { s.ld with ldman := a.w0 } ∧ t.ctlReg a.n = a.w0 else t.ld = { s.ld with refused := true })
            ∧ (∀ d : DieId, a.n = ctlStart + d.val * 0x10000000 + 0x30018 → gives .registerWrite fun t =>
                if within a.w0 0x00FFFFFF00FFFFFF = true ∧ 64 ≤ bits a.w0 0 24 ∧ bits a.w0 0 24 ≤ 2 ^ 24 - 2 ∧ bits a.w0 0 24 < bits a.w0 32 24 then
                  t.ctlReg a.n = a.w0 else t.ctlReg a.n = s.ctlReg a.n ∧ bit (t.hbm d).hctl 5 = true)
            ∧ (∀ i, a.n = ctlStart + 0xA0008 → a.m ≠ .core → secRow (bits a.w0 0 8) = some i →
                (bits a.w0 8 56 ≠ 0 → exec .registerWrite s = .next s.badSecurity)
                ∧ (bits a.w0 8 56 = 0 → gives .registerWrite fun t =>
                    t.sec = { c with secres := 0 } ∧ ∃ e ∈ t.agenda, e.row = i ∧ e.at_ = s.time)))))
    ∧ (c.owner ≠ some a.m → counted .hwmapWrite turned)
    ∧ (let ok : Prop := a.u < 256 ∧ within a.w0 0x000FFFFFF0000001 = true ∧ (a.w0 &&& ~~~1#64).toNat < 0x8000000000
       (c.owner = some a.m → ok → gives .hwmapWrite fun t => t.mem = s.mem ∧ ∀ u, t.bel.unit u = if u = a.u then a.w0 else s.bel.unit u)
       ∧ (c.owner = some a.m → ¬ ok → exec .hwmapWrite s = .next { s with bel := { s.bel with refused := true } }))
    -- accesses through the window: its pieces, and accesses within one unit
    ∧ (∀ o n j, j < n → ∃ x ∈ s.bel.unitSegs o n, x.off ≤ j ∧ j < x.off + x.len ∧ x.off + x.len ≤ n
        ∧ (let w := s.bel.unit ((o + x.off) / 2 ^ 28)
           (o + x.off) / 2 ^ 28 = (o + j) / 2 ^ 28 ∧ x.pa = if bit w 0 then some ((w &&& ~~~1#64).toNat + (o + x.off) % 2 ^ 28) else none))
    ∧ (let len := if a.bytes = [] then a.n else a.bytes.length
       let w := s.bel.unit (a.u / 2 ^ 28)
       let pa := (w &&& ~~~1#64).toNat + a.u % 2 ^ 28
       let inside : Prop := 0 < len ∧ a.u % 2 ^ 28 + len ≤ 2 ^ 28 ∧ a.u < 2 ^ 36
       let mapped : Prop := bit w 0 = true
       let clean : Prop := s.poisoned pa len = false
       let l := s.bel.unitSegs a.u len
       let mine (w : Nat) : Prop := s.yieldsAt (s.stamp w) pa len = 0
       let stored (t : State) : Prop := ∀ x, Memory.byte t.mem x = if pa ≤ x ∧ x < pa + len then a.bytes.getD (x - pa) 0 else Memory.byte s.mem x
       let got : List Output := [Output.data (bytesOf (s.homeRead pa len) len)]
       let rejected (i : Instr) : Prop := gives i fun t => t.out = s.out ++ [Output.error] ∧ t.mem = s.mem ∧ t.bel = s.bel
         ∧ t.net.reject = if s.net.reject = BitVec.allOnes 32 then s.net.reject else s.net.reject + 1
       let on : Prop := s.hbmServes = true
       let unable (i : Instr) : Prop := exec i s = .next { s with out := s.out ++ [Output.error] }
       (on ↔ c.life ≠ 3 ∧ (s.pw.pstate < 2 ∨ (s.pw.pstate = 2 ∧ c.life = 2 ∧ c.dbg = 2)))
       ∧ (a.m = .host → on → a.u + len ≤ 2 ^ 36 → a.bytes = [] → reports .hostWindowAccess
          [if (s.unitsRead l).2 then Output.poisoned else Output.data (bytesOf (s.unitsRead l).1 len)])
       ∧ (a.m = .host → on → a.u + len ≤ 2 ^ 36 → a.bytes ≠ [] → c.owner = some .host →
          exec .hostWindowAccess s = .next (s.unitsWrite hostWriter l (natOf a.bytes)))
       ∧ (a.m = .host → on → inside → a.bytes = [] → (mapped → clean → reports .hostWindowAccess got)
          ∧ ((¬ mapped ∨ ¬ clean) → reports .hostWindowAccess [Output.poisoned]))
       ∧ (a.m = .host → (¬ on ∨ 2 ^ 36 < a.u + len) → reports .hostWindowAccess (if a.bytes = [] then [Output.poisoned] else []))
       ∧ (a.m = .host → on → inside → a.bytes ≠ [] → (c.owner ≠ some .host → counted .hostWindowAccess [])
          ∧ (c.owner = some .host → gives .hostWindowAccess fun t => t.out = s.out ∧ t.cores = s.cores
              ∧ (mapped → mine hostWriter → stored t) ∧ (¬ mapped → t.mem = s.mem)))
       ∧ (a.m = .mgmt → s.debugReads a.u a.n = false → reports .hostWindowAccess [Output.nack])
       ∧ (a.m = .mgmt → s.debugReads a.u a.n = true → physClass a.u ≠ .window → s.poisoned a.u a.n = false →
          reports .hostWindowAccess [Output.data (bytesOf (s.homeRead a.u a.n) a.n)])
       ∧ (a.m = .mgmt → s.debugReads a.u a.n = true → physClass a.u = .window → s.poisoned a.u a.n = false →
          reports .hostWindowAccess [Output.data (bytesOf (s.windowRead (winCore a.u) (winOff a.u) a.n) a.n)])
       ∧ (s.debugReads a.u a.n = true → physClass a.u = .window → (s.core (winCore a.u)).lentTo = none)
       ∧ (s.debugReads a.u a.n = true → s.pw.pstate < 3 ∧ (c.life = 0 ∨ (c.life = 2 ∧ (c.dbg = 2 ∨ c.dbg = 1))))
       ∧ (s.debugReads a.u a.n = true → physClass a.u = .window → s.pw.pstate < 2 ∨ (c.life = 2 ∧ c.dbg = 2))
       ∧ ((a.m = .peer ∨ a.m = .core) → exec .hostWindowAccess s = .next s)
       ∧ (a.k ≠ 0 → ∀ i ∈ [Instr.netWrite, .netRead, .netSend], unable i)
       ∧ (a.k = 0 → s.netPeer = none → ∀ i ∈ [Instr.netWrite, .netRead, .netSend], rejected i)
       ∧ ∀ p, a.k = 0 → s.netPeer = some p →
          let x := s.net.peers.get p
          let master : Prop := bit x.npctl 2 = true ∧ physClass a.u = .control
          (master → exec .netWrite s = .next (s.regWrite .peer a.u a.bytes.length (wd (natOf a.bytes)))
            ∧ exec .netRead s = .next (s.regRead .peer a.u a.n))
          ∧ (¬ master → (x.reaches a.u a.bytes.length = false ∨ bit x.npctl 1 = true ∨ ¬ on) → rejected .netWrite)
          ∧ (¬ master → on → x.reaches a.u a.bytes.length = true → bit x.npctl 1 = false → inside → a.bytes ≠ [] → gives .netWrite fun t =>
              t.out = s.out ++ [Output.ack] ∧ (mapped → mine netWriter → stored t) ∧ (¬ mapped → t.mem = s.mem))
          ∧ (¬ master → (¬ on ∨ x.reaches a.u a.n = false) → rejected .netRead)
          ∧ (¬ master → on → x.reaches a.u a.n = true → inside → a.bytes = [] → (¬ mapped → rejected .netRead)
              ∧ (mapped → clean → reports .netRead got) ∧ (mapped → ¬ clean → reports .netRead [Output.poisoned]))
          ∧ (64 ≤ a.u → rejected .netSend)
          ∧ ∀ q : Fin 64, a.u = q.val →
              let y := s.queue q
              let k := a.bytes.length / 16
              let ok : Prop := on ∧ bit y.qctl 7 = true ∧ bit x.npq a.u = true ∧ a.bytes.length % 16 = 0 ∧ 1 ≤ k ∧ k ≤ 64
                ∧ k ≤ 2 ^ bits y.qctl 8 5 - (y.qtail - y.qhead).toNat
              let t0 := s.updQueue q fun z => { z with ctx := if z.stale then s.readContext q else z.ctx }
              (¬ ok → rejected .netSend)
              ∧ (ok → t0.appendEntries q y.qtail.toNat (natOf a.bytes) k = none → rejected .netSend)
              ∧ ∀ u, ok → t0.appendEntries q y.qtail.toNat (natOf a.bytes) k = some u → gives .netSend fun t =>
                  t.mem = u.mem ∧ (t.queue q).qtail = y.qtail + BitVec.ofNat 32 k ∧ (t.queue q).qhead = y.qhead
                    ∧ t.out = s.out ++ [Output.ack] ∧ ∃ e ∈ t.agenda, e.row = .submissionEntryStart ∧ e.at_ = s.time))

/-- Words written out field by field decode to the instruction they stand for. One word or more of every class, written as CLS, PRD,
OPC, NW, DST, SA and SB from R40 and the opcode tables, decodes to its instruction with its operands: ADD, CMPI.ltn, LDS.i16, TRAP,
LOOPS, XFER, VFMA.bf16, VCMP.lt.i32, VMOV, MMA.ovw.i8, MZERO, AADD, FENCE, OWNT.F. The only nop is 0xE0000000; a header, the
reserved class, an opcode not listed and a reserved bit that is set are refused by name. (R40, R42, R56, R57, R58, R59, R60) -/
def Obligations.DecodedWords : Prop :=
let word (cls p : BitVec 3) (opc : BitVec 7) (nw : BitVec 1) (d a b : BitVec 6) : SlotWord := cls ++ p ++ opc ++ nw ++ d ++ a ++ b;
  decodeSlot (word 0b000 0b000 0x00 0 0b000101 0b000011 0b000100) = .ok (.add 0 0 5 3 4)
  ∧ decodeSlot 0x000050C4#32 = .ok (.add 0 0 5 3 4)
  ∧ decodeSlot (word 0b000 0b010 0x46 0 0b000011 0b001001 0b111111) = .ok (.cmpi 2 6 3 9 63)
  ∧ decodeSlot (word 0b000 0b000 0x55 1 0b001000 0b000010 0b001101) = .ok (.lds 0 5 1 8 2 3 1)
  ∧ decodeSlot (word 0b000 0b001 0x64 0 0b000000 0b000000 0b010101) = .ok (.trap 1 21)
  ∧ decodeSlot (word 0b101 0b000 0x08 0 0b000111 0b100001 0b000011) = .ok (.loops 0 7 2 67)
  ∧ decodeSlot (word 0b101 0b111 0x01 0 0b000110 0b000000 0b000000) = .ok (.xfer 7 6)
  ∧ decodeSlot (word 0b001 0b000 0x19 0 0b000001 0b000010 0b000011) = .ok (.vfma 0 1 0 1 2 3)
  ∧ decodeSlot (word 0b001 0b000 0x4A 0 0b000101 0b000010 0b000011) = .ok (.vcmp 0 2 2 5 2 3)
  ∧ decodeSlot (word 0b001 0b100 0x5F 1 0b010000 0b000100 0b000000) = .ok (.vmov 4 1 16 4)
  ∧ decodeSlot (word 0b010 0b000 0x0B 0 0b000000 0b000010 0b000011) = .ok (.mmaOvw 0 3 0 2 3)
  ∧ decodeSlot (word 0b010 0b000 0x21 0 0b000111 0b000000 0b000000) = .ok (.mzero 0 7)
  ∧ decodeSlot (word 0b011 0b000 0x08 0 0b001010 0b001011 0b000110) = .ok (.aadd 0 10 11 1 2)
  ∧ decodeSlot (word 0b011 0b000 0x18 0 0b001111 0b000001 0b000010) = .ok (.fence 0 0xF042)
  ∧ decodeSlot (word 0b011 0b011 0x28 0 0b000010 0b000100 0b000101) = .ok (.owntF 3 4 5)
  ∧ decodeSlot 0xE0000000#32 = .ok .nop
  ∧ decodeSlot 0xE0000001#32 = .error .nopBits
  ∧ decodeSlot 0x80000000#32 = .error .headerSlot
  ∧ decodeSlot 0xC0000000#32 = .error .reservedClass
  ∧ decodeSlot (word 0b000 0b000 0x1F 0 0b000000 0b000000 0b000000) = .error .reservedOpcode
  ∧ decodeSlot (word 0b010 0b000 0x18 0 0b000000 0b000000 0b000000) = .error .reservedOpcode
  ∧ decodeSlot (word 0b000 0b000 0x15 0 0b000001 0b000001 0b000001) = .error .reservedBits

/-- Decoding an encoded well-formed instruction gives it back, and encoding a decoded word gives it back. Every well-formed slot
instruction and NOP, and nothing else, has an encoding, and its word decodes to the instruction with every operand at its value, by
the slot decoder and by the table's decoder. Every word that decodes is the encoding of its instruction, so no two words decode to
one instruction and no bit of a word is dropped. (R40, R56, R57, R58, R59, R60) -/
def Obligations.EncodeDecodeRoundTrip : Prop :=
(∀ i : Instr, i.wf = true →
      ((encode i).isSome = true ↔ ((opOf i).isSome = true ∨ i = .nop))
      ∧ ∀ w, encode i = some w → decodeSlot w = .ok i ∧ decodeTableWord 32 w.toNat = some i)
  ∧ (∀ (w : SlotWord) (i : Instr), decodeSlot w = .ok i → encode i = some w)
  ∧ ∀ (w v : SlotWord) (i : Instr), decodeSlot w = .ok i → decodeSlot v = .ok i → w = v

/-- Every step answers a next state and keeps memory in its canonical form. From every state at all, reachable or not, the package
takes a step to a next state: no instruction, event, trap or access from outside ends it in a fault or a refusal. If home memory is
in its canonical form, with addresses strictly rising and no entry that equals what an unlisted address reads as, it is so after the
step, whatever moved: a core's sequencer, a result, a trap, an engine, a handle, a loader, a port or the power controller. The
canonical form is the model's own choice (log 2). (R8, R62, R105, R106, R271, R285, R292) -/
def Obligations.StepKeepsMemory : Prop :=
∀ (s : State), (∃ t, step s = .next t) ∧ ∀ t, step s = .next t → s.MemOk → t.MemOk

/-- The state after package reset: the reset columns of the register tables, no task, memory in canonical form. After reset home
memory is in its canonical form and lists nothing, no task exists and no core's slot is occupied, each core's random generator is
seeded with its number, and the registers of the control spaces read their reset columns: DPAR0 to DPAR2, DSTEAL, LNCTL, LNAGE,
RHCTL, LLCPART, HCTL, HPAR0, HPAR1, NLCTL, LDTIME, MIXBASE, PWCTL, PWTHR. No handle has an entry, no queue runs, nobody owns the
device. That memory reads zero after reset is the model's choice (log 2). (R290, R299, R310, R339, R378, R403, R426, R432, R435,
R441, R453) -/
def Obligations.ResetState : Prop :=
let r := State.reset
  let reg (d off : Nat) : Word := r.ctlReg (ctlStart + d * 0x10000000 + off)
  let rng (c : CoreId) : BitVec 32 := 0x9E3779B9#32 ^^^ BitVec.ofNat 32 c.val;
  r.MemOk ∧ r.mem = [] ∧ r.poison = [] ∧ r.tasks = [] ∧ r.gangs = [] ∧ r.handles = [] ∧ r.sec.owner = none
  ∧ (∀ (c : CoreId) (k : Fin 4), (r.frameAt c k).id.valid = false) ∧ (∀ c : CoreId, (r.core c).rng = rng c)
  ∧ reg 0 0x040 = 0x0000006400000800#64 ∧ reg 0 0x048 = 0x0000001400000032#64 ∧ reg 0 0x050 = 10000#64 ∧ reg 0 0x058 = 1#64
  ∧ (∀ d : DieId, reg d.val 0x10000 = 0x80300240#64 ∧ reg d.val 0x10008 = 100#64
      ∧ reg d.val 0x30000 = 0#64 ∧ reg d.val 0x30018 = 0x0000200000000800#64 ∧ reg d.val 0x30028 = 0x4010#64
      ∧ reg d.val 0x40010 = 0x0000003200000002#64 ∧ reg d.val 0x40018 = 0x000000C800000002#64
      ∧ reg d.val 0x70000 = 0x000007D000030D40#64)
  ∧ reg 0 0x80018 = 0x0000000A00000384#64 ∧ reg 0 0x80030 = 8#64
  ∧ reg 0 0x90000 = 0x0000400120000501#64 ∧ reg 0 0x90008 = 0x0000786E5F460060#64
end

