-- ==== Sys2Proof/Laws/State.lean ====
section
/-! SUPPORT. What each update of the state leaves as it was, field by field, and what it makes of the field it changes: every lemma is
true by unfolding the update, and is a simp lemma, so that no later proof unfolds a record update. -/

namespace Sys2Proof.Machine

open Sys2Proof

/-! ### setCore -/

@[simp] theorem setCore_cur (s : State) (c : CoreId) (x : Core) : (s.setCore c x).cur = s.cur := rfl
@[simp] theorem setCore_turn (s : State) (c : CoreId) (x : Core) : (s.setCore c x).turn = s.turn := rfl
@[simp] theorem setCore_ctx (s : State) (c : CoreId) (x : Core) : (s.setCore c x).ctx = s.ctx := rfl
@[simp] theorem setCore_arg (s : State) (c : CoreId) (x : Core) : (s.setCore c x).arg = s.arg := rfl
@[simp] theorem setCore_dies (s : State) (c : CoreId) (x : Core) : (s.setCore c x).dies = s.dies := rfl
@[simp] theorem setCore_bases (s : State) (c : CoreId) (x : Core) : (s.setCore c x).bases = s.bases := rfl
@[simp] theorem setCore_mem (s : State) (c : CoreId) (x : Core) : (s.setCore c x).mem = s.mem := rfl
@[simp] theorem setCore_poison (s : State) (c : CoreId) (x : Core) : (s.setCore c x).poison = s.poison := rfl
@[simp] theorem setCore_tags (s : State) (c : CoreId) (x : Core) : (s.setCore c x).tags = s.tags := rfl
@[simp] theorem setCore_clocks (s : State) (c : CoreId) (x : Core) : (s.setCore c x).clocks = s.clocks := rfl
@[simp] theorem setCore_handles (s : State) (c : CoreId) (x : Core) : (s.setCore c x).handles = s.handles := rfl
@[simp] theorem setCore_tasks (s : State) (c : CoreId) (x : Core) : (s.setCore c x).tasks = s.tasks := rfl
@[simp] theorem setCore_groups (s : State) (c : CoreId) (x : Core) : (s.setCore c x).groups = s.groups := rfl
@[simp] theorem setCore_gangs (s : State) (c : CoreId) (x : Core) : (s.setCore c x).gangs = s.gangs := rfl
@[simp] theorem setCore_disps (s : State) (c : CoreId) (x : Core) : (s.setCore c x).disps = s.disps := rfl
@[simp] theorem setCore_wins (s : State) (c : CoreId) (x : Core) : (s.setCore c x).wins = s.wins := rfl
@[simp] theorem setCore_invals (s : State) (c : CoreId) (x : Core) : (s.setCore c x).invals = s.invals := rfl
@[simp] theorem setCore_bel (s : State) (c : CoreId) (x : Core) : (s.setCore c x).bel = s.bel := rfl
@[simp] theorem setCore_tree (s : State) (c : CoreId) (x : Core) : (s.setCore c x).tree = s.tree := rfl
@[simp] theorem setCore_ld (s : State) (c : CoreId) (x : Core) : (s.setCore c x).ld = s.ld := rfl
@[simp] theorem setCore_pw (s : State) (c : CoreId) (x : Core) : (s.setCore c x).pw = s.pw := rfl
@[simp] theorem setCore_sec (s : State) (c : CoreId) (x : Core) : (s.setCore c x).sec = s.sec := rfl
@[simp] theorem setCore_net (s : State) (c : CoreId) (x : Core) : (s.setCore c x).net = s.net := rfl
@[simp] theorem setCore_out (s : State) (c : CoreId) (x : Core) : (s.setCore c x).out = s.out := rfl
@[simp] theorem setCore_time (s : State) (c : CoreId) (x : Core) : (s.setCore c x).time = s.time := rfl
@[simp] theorem setCore_agenda (s : State) (c : CoreId) (x : Core) : (s.setCore c x).agenda = s.agenda := rfl
@[simp] theorem setCore_closed (s : State) (c : CoreId) (x : Core) : (s.setCore c x).closed = s.closed := rfl
@[simp] theorem setCore_barred (s : State) (c : CoreId) (x : Core) : (s.setCore c x).barred = s.barred := rfl
@[simp] theorem setCore_freed (s : State) (c : CoreId) (x : Core) : (s.setCore c x).freed = s.freed := rfl
@[simp] theorem setCore_freeCtr (s : State) (c : CoreId) (x : Core) : (s.setCore c x).freeCtr = s.freeCtr := rfl
@[simp] theorem setCore_nextId (s : State) (c : CoreId) (x : Core) : (s.setCore c x).nextId = s.nextId := rfl

/-! ### updCore -/

@[simp] theorem updCore_cur (s : State) (c : CoreId) (f : Core → Core) : (s.updCore c f).cur = s.cur := rfl
@[simp] theorem updCore_turn (s : State) (c : CoreId) (f : Core → Core) : (s.updCore c f).turn = s.turn := rfl
@[simp] theorem updCore_ctx (s : State) (c : CoreId) (f : Core → Core) : (s.updCore c f).ctx = s.ctx := rfl
@[simp] theorem updCore_arg (s : State) (c : CoreId) (f : Core → Core) : (s.updCore c f).arg = s.arg := rfl
@[simp] theorem updCore_dies (s : State) (c : CoreId) (f : Core → Core) : (s.updCore c f).dies = s.dies := rfl
@[simp] theorem updCore_bases (s : State) (c : CoreId) (f : Core → Core) : (s.updCore c f).bases = s.bases := rfl
@[simp] theorem updCore_mem (s : State) (c : CoreId) (f : Core → Core) : (s.updCore c f).mem = s.mem := rfl
@[simp] theorem updCore_poison (s : State) (c : CoreId) (f : Core → Core) : (s.updCore c f).poison = s.poison := rfl
@[simp] theorem updCore_tags (s : State) (c : CoreId) (f : Core → Core) : (s.updCore c f).tags = s.tags := rfl
@[simp] theorem updCore_clocks (s : State) (c : CoreId) (f : Core → Core) : (s.updCore c f).clocks = s.clocks := rfl
@[simp] theorem updCore_handles (s : State) (c : CoreId) (f : Core → Core) : (s.updCore c f).handles = s.handles := rfl
@[simp] theorem updCore_tasks (s : State) (c : CoreId) (f : Core → Core) : (s.updCore c f).tasks = s.tasks := rfl
@[simp] theorem updCore_groups (s : State) (c : CoreId) (f : Core → Core) : (s.updCore c f).groups = s.groups := rfl
@[simp] theorem updCore_gangs (s : State) (c : CoreId) (f : Core → Core) : (s.updCore c f).gangs = s.gangs := rfl
@[simp] theorem updCore_disps (s : State) (c : CoreId) (f : Core → Core) : (s.updCore c f).disps = s.disps := rfl
@[simp] theorem updCore_wins (s : State) (c : CoreId) (f : Core → Core) : (s.updCore c f).wins = s.wins := rfl
@[simp] theorem updCore_invals (s : State) (c : CoreId) (f : Core → Core) : (s.updCore c f).invals = s.invals := rfl
@[simp] theorem updCore_bel (s : State) (c : CoreId) (f : Core → Core) : (s.updCore c f).bel = s.bel := rfl
@[simp] theorem updCore_tree (s : State) (c : CoreId) (f : Core → Core) : (s.updCore c f).tree = s.tree := rfl
@[simp] theorem updCore_ld (s : State) (c : CoreId) (f : Core → Core) : (s.updCore c f).ld = s.ld := rfl
@[simp] theorem updCore_pw (s : State) (c : CoreId) (f : Core → Core) : (s.updCore c f).pw = s.pw := rfl
@[simp] theorem updCore_sec (s : State) (c : CoreId) (f : Core → Core) : (s.updCore c f).sec = s.sec := rfl
@[simp] theorem updCore_net (s : State) (c : CoreId) (f : Core → Core) : (s.updCore c f).net = s.net := rfl
@[simp] theorem updCore_out (s : State) (c : CoreId) (f : Core → Core) : (s.updCore c f).out = s.out := rfl
@[simp] theorem updCore_time (s : State) (c : CoreId) (f : Core → Core) : (s.updCore c f).time = s.time := rfl
@[simp] theorem updCore_agenda (s : State) (c : CoreId) (f : Core → Core) : (s.updCore c f).agenda = s.agenda := rfl
@[simp] theorem updCore_closed (s : State) (c : CoreId) (f : Core → Core) : (s.updCore c f).closed = s.closed := rfl
@[simp] theorem updCore_barred (s : State) (c : CoreId) (f : Core → Core) : (s.updCore c f).barred = s.barred := rfl
@[simp] theorem updCore_freed (s : State) (c : CoreId) (f : Core → Core) : (s.updCore c f).freed = s.freed := rfl
@[simp] theorem updCore_freeCtr (s : State) (c : CoreId) (f : Core → Core) : (s.updCore c f).freeCtr = s.freeCtr := rfl
@[simp] theorem updCore_nextId (s : State) (c : CoreId) (f : Core → Core) : (s.updCore c f).nextId = s.nextId := rfl

/-! ### updFrameAt -/

@[simp] theorem updFrameAt_cur (s : State) (c : CoreId) (k : Fin 4) (f : Frame → Frame) : (s.updFrameAt c k f).cur = s.cur := rfl
@[simp] theorem updFrameAt_turn (s : State) (c : CoreId) (k : Fin 4) (f : Frame → Frame) : (s.updFrameAt c k f).turn = s.turn := rfl
@[simp] theorem updFrameAt_ctx (s : State) (c : CoreId) (k : Fin 4) (f : Frame → Frame) : (s.updFrameAt c k f).ctx = s.ctx := rfl
@[simp] theorem updFrameAt_arg (s : State) (c : CoreId) (k : Fin 4) (f : Frame → Frame) : (s.updFrameAt c k f).arg = s.arg := rfl
@[simp] theorem updFrameAt_dies (s : State) (c : CoreId) (k : Fin 4) (f : Frame → Frame) : (s.updFrameAt c k f).dies = s.dies := rfl
@[simp] theorem updFrameAt_bases (s : State) (c : CoreId) (k : Fin 4) (f : Frame → Frame) : (s.updFrameAt c k f).bases = s.bases := rfl
@[simp] theorem updFrameAt_mem (s : State) (c : CoreId) (k : Fin 4) (f : Frame → Frame) : (s.updFrameAt c k f).mem = s.mem := rfl
@[simp] theorem updFrameAt_poison (s : State) (c : CoreId) (k : Fin 4) (f : Frame → Frame) : (s.updFrameAt c k f).poison = s.poison := rfl
@[simp] theorem updFrameAt_tags (s : State) (c : CoreId) (k : Fin 4) (f : Frame → Frame) : (s.updFrameAt c k f).tags = s.tags := rfl
@[simp] theorem updFrameAt_clocks (s : State) (c : CoreId) (k : Fin 4) (f : Frame → Frame) : (s.updFrameAt c k f).clocks = s.clocks := rfl
@[simp] theorem updFrameAt_handles (s : State) (c : CoreId) (k : Fin 4) (f : Frame → Frame) : (s.updFrameAt c k f).handles = s.handles := rfl
@[simp] theorem updFrameAt_tasks (s : State) (c : CoreId) (k : Fin 4) (f : Frame → Frame) : (s.updFrameAt c k f).tasks = s.tasks := rfl
@[simp] theorem updFrameAt_groups (s : State) (c : CoreId) (k : Fin 4) (f : Frame → Frame) : (s.updFrameAt c k f).groups = s.groups := rfl
@[simp] theorem updFrameAt_gangs (s : State) (c : CoreId) (k : Fin 4) (f : Frame → Frame) : (s.updFrameAt c k f).gangs = s.gangs := rfl
@[simp] theorem updFrameAt_disps (s : State) (c : CoreId) (k : Fin 4) (f : Frame → Frame) : (s.updFrameAt c k f).disps = s.disps := rfl
@[simp] theorem updFrameAt_wins (s : State) (c : CoreId) (k : Fin 4) (f : Frame → Frame) : (s.updFrameAt c k f).wins = s.wins := rfl
@[simp] theorem updFrameAt_invals (s : State) (c : CoreId) (k : Fin 4) (f : Frame → Frame) : (s.updFrameAt c k f).invals = s.invals := rfl
@[simp] theorem updFrameAt_bel (s : State) (c : CoreId) (k : Fin 4) (f : Frame → Frame) : (s.updFrameAt c k f).bel = s.bel := rfl
@[simp] theorem updFrameAt_tree (s : State) (c : CoreId) (k : Fin 4) (f : Frame → Frame) : (s.updFrameAt c k f).tree = s.tree := rfl
@[simp] theorem updFrameAt_ld (s : State) (c : CoreId) (k : Fin 4) (f : Frame → Frame) : (s.updFrameAt c k f).ld = s.ld := rfl
@[simp] theorem updFrameAt_pw (s : State) (c : CoreId) (k : Fin 4) (f : Frame → Frame) : (s.updFrameAt c k f).pw = s.pw := rfl
@[simp] theorem updFrameAt_sec (s : State) (c : CoreId) (k : Fin 4) (f : Frame → Frame) : (s.updFrameAt c k f).sec = s.sec := rfl
@[simp] theorem updFrameAt_net (s : State) (c : CoreId) (k : Fin 4) (f : Frame → Frame) : (s.updFrameAt c k f).net = s.net := rfl
@[simp] theorem updFrameAt_out (s : State) (c : CoreId) (k : Fin 4) (f : Frame → Frame) : (s.updFrameAt c k f).out = s.out := rfl
@[simp] theorem updFrameAt_time (s : State) (c : CoreId) (k : Fin 4) (f : Frame → Frame) : (s.updFrameAt c k f).time = s.time := rfl
@[simp] theorem updFrameAt_agenda (s : State) (c : CoreId) (k : Fin 4) (f : Frame → Frame) : (s.updFrameAt c k f).agenda = s.agenda := rfl
@[simp] theorem updFrameAt_closed (s : State) (c : CoreId) (k : Fin 4) (f : Frame → Frame) : (s.updFrameAt c k f).closed = s.closed := rfl
@[simp] theorem updFrameAt_barred (s : State) (c : CoreId) (k : Fin 4) (f : Frame → Frame) : (s.updFrameAt c k f).barred = s.barred := rfl
@[simp] theorem updFrameAt_freed (s : State) (c : CoreId) (k : Fin 4) (f : Frame → Frame) : (s.updFrameAt c k f).freed = s.freed := rfl
@[simp] theorem updFrameAt_freeCtr (s : State) (c : CoreId) (k : Fin 4) (f : Frame → Frame) : (s.updFrameAt c k f).freeCtr = s.freeCtr := rfl
@[simp] theorem updFrameAt_nextId (s : State) (c : CoreId) (k : Fin 4) (f : Frame → Frame) : (s.updFrameAt c k f).nextId = s.nextId := rfl

/-! ### updFr -/

@[simp] theorem updFr_cur (s : State) (f : Frame → Frame) : (s.updFr f).cur = s.cur := rfl
@[simp] theorem updFr_turn (s : State) (f : Frame → Frame) : (s.updFr f).turn = s.turn := rfl
@[simp] theorem updFr_ctx (s : State) (f : Frame → Frame) : (s.updFr f).ctx = s.ctx := rfl
@[simp] theorem updFr_arg (s : State) (f : Frame → Frame) : (s.updFr f).arg = s.arg := rfl
@[simp] theorem updFr_dies (s : State) (f : Frame → Frame) : (s.updFr f).dies = s.dies := rfl
@[simp] theorem updFr_bases (s : State) (f : Frame → Frame) : (s.updFr f).bases = s.bases := rfl
@[simp] theorem updFr_mem (s : State) (f : Frame → Frame) : (s.updFr f).mem = s.mem := rfl
@[simp] theorem updFr_poison (s : State) (f : Frame → Frame) : (s.updFr f).poison = s.poison := rfl
@[simp] theorem updFr_tags (s : State) (f : Frame → Frame) : (s.updFr f).tags = s.tags := rfl
@[simp] theorem updFr_clocks (s : State) (f : Frame → Frame) : (s.updFr f).clocks = s.clocks := rfl
@[simp] theorem updFr_handles (s : State) (f : Frame → Frame) : (s.updFr f).handles = s.handles := rfl
@[simp] theorem updFr_tasks (s : State) (f : Frame → Frame) : (s.updFr f).tasks = s.tasks := rfl
@[simp] theorem updFr_groups (s : State) (f : Frame → Frame) : (s.updFr f).groups = s.groups := rfl
@[simp] theorem updFr_gangs (s : State) (f : Frame → Frame) : (s.updFr f).gangs = s.gangs := rfl
@[simp] theorem updFr_disps (s : State) (f : Frame → Frame) : (s.updFr f).disps = s.disps := rfl
@[simp] theorem updFr_wins (s : State) (f : Frame → Frame) : (s.updFr f).wins = s.wins := rfl
@[simp] theorem updFr_invals (s : State) (f : Frame → Frame) : (s.updFr f).invals = s.invals := rfl
@[simp] theorem updFr_bel (s : State) (f : Frame → Frame) : (s.updFr f).bel = s.bel := rfl
@[simp] theorem updFr_tree (s : State) (f : Frame → Frame) : (s.updFr f).tree = s.tree := rfl
@[simp] theorem updFr_ld (s : State) (f : Frame → Frame) : (s.updFr f).ld = s.ld := rfl
@[simp] theorem updFr_pw (s : State) (f : Frame → Frame) : (s.updFr f).pw = s.pw := rfl
@[simp] theorem updFr_sec (s : State) (f : Frame → Frame) : (s.updFr f).sec = s.sec := rfl
@[simp] theorem updFr_net (s : State) (f : Frame → Frame) : (s.updFr f).net = s.net := rfl
@[simp] theorem updFr_out (s : State) (f : Frame → Frame) : (s.updFr f).out = s.out := rfl
@[simp] theorem updFr_time (s : State) (f : Frame → Frame) : (s.updFr f).time = s.time := rfl
@[simp] theorem updFr_agenda (s : State) (f : Frame → Frame) : (s.updFr f).agenda = s.agenda := rfl
@[simp] theorem updFr_closed (s : State) (f : Frame → Frame) : (s.updFr f).closed = s.closed := rfl
@[simp] theorem updFr_barred (s : State) (f : Frame → Frame) : (s.updFr f).barred = s.barred := rfl
@[simp] theorem updFr_freed (s : State) (f : Frame → Frame) : (s.updFr f).freed = s.freed := rfl
@[simp] theorem updFr_freeCtr (s : State) (f : Frame → Frame) : (s.updFr f).freeCtr = s.freeCtr := rfl
@[simp] theorem updFr_nextId (s : State) (f : Frame → Frame) : (s.updFr f).nextId = s.nextId := rfl

/-! ### updRegs -/

@[simp] theorem updRegs_cur (s : State) (f : Regs → Regs) : (s.updRegs f).cur = s.cur := rfl
@[simp] theorem updRegs_turn (s : State) (f : Regs → Regs) : (s.updRegs f).turn = s.turn := rfl
@[simp] theorem updRegs_ctx (s : State) (f : Regs → Regs) : (s.updRegs f).ctx = s.ctx := rfl
@[simp] theorem updRegs_arg (s : State) (f : Regs → Regs) : (s.updRegs f).arg = s.arg := rfl
@[simp] theorem updRegs_dies (s : State) (f : Regs → Regs) : (s.updRegs f).dies = s.dies := rfl
@[simp] theorem updRegs_bases (s : State) (f : Regs → Regs) : (s.updRegs f).bases = s.bases := rfl
@[simp] theorem updRegs_mem (s : State) (f : Regs → Regs) : (s.updRegs f).mem = s.mem := rfl
@[simp] theorem updRegs_poison (s : State) (f : Regs → Regs) : (s.updRegs f).poison = s.poison := rfl
@[simp] theorem updRegs_tags (s : State) (f : Regs → Regs) : (s.updRegs f).tags = s.tags := rfl
@[simp] theorem updRegs_clocks (s : State) (f : Regs → Regs) : (s.updRegs f).clocks = s.clocks := rfl
@[simp] theorem updRegs_handles (s : State) (f : Regs → Regs) : (s.updRegs f).handles = s.handles := rfl
@[simp] theorem updRegs_tasks (s : State) (f : Regs → Regs) : (s.updRegs f).tasks = s.tasks := rfl
@[simp] theorem updRegs_groups (s : State) (f : Regs → Regs) : (s.updRegs f).groups = s.groups := rfl
@[simp] theorem updRegs_gangs (s : State) (f : Regs → Regs) : (s.updRegs f).gangs = s.gangs := rfl
@[simp] theorem updRegs_disps (s : State) (f : Regs → Regs) : (s.updRegs f).disps = s.disps := rfl
@[simp] theorem updRegs_wins (s : State) (f : Regs → Regs) : (s.updRegs f).wins = s.wins := rfl
@[simp] theorem updRegs_invals (s : State) (f : Regs → Regs) : (s.updRegs f).invals = s.invals := rfl
@[simp] theorem updRegs_bel (s : State) (f : Regs → Regs) : (s.updRegs f).bel = s.bel := rfl
@[simp] theorem updRegs_tree (s : State) (f : Regs → Regs) : (s.updRegs f).tree = s.tree := rfl
@[simp] theorem updRegs_ld (s : State) (f : Regs → Regs) : (s.updRegs f).ld = s.ld := rfl
@[simp] theorem updRegs_pw (s : State) (f : Regs → Regs) : (s.updRegs f).pw = s.pw := rfl
@[simp] theorem updRegs_sec (s : State) (f : Regs → Regs) : (s.updRegs f).sec = s.sec := rfl
@[simp] theorem updRegs_net (s : State) (f : Regs → Regs) : (s.updRegs f).net = s.net := rfl
@[simp] theorem updRegs_out (s : State) (f : Regs → Regs) : (s.updRegs f).out = s.out := rfl
@[simp] theorem updRegs_time (s : State) (f : Regs → Regs) : (s.updRegs f).time = s.time := rfl
@[simp] theorem updRegs_agenda (s : State) (f : Regs → Regs) : (s.updRegs f).agenda = s.agenda := rfl
@[simp] theorem updRegs_closed (s : State) (f : Regs → Regs) : (s.updRegs f).closed = s.closed := rfl
@[simp] theorem updRegs_barred (s : State) (f : Regs → Regs) : (s.updRegs f).barred = s.barred := rfl
@[simp] theorem updRegs_freed (s : State) (f : Regs → Regs) : (s.updRegs f).freed = s.freed := rfl
@[simp] theorem updRegs_freeCtr (s : State) (f : Regs → Regs) : (s.updRegs f).freeCtr = s.freeCtr := rfl
@[simp] theorem updRegs_nextId (s : State) (f : Regs → Regs) : (s.updRegs f).nextId = s.nextId := rfl

/-! ### updCtl -/

@[simp] theorem updCtl_cur (s : State) (f : Ctl → Ctl) : (s.updCtl f).cur = s.cur := rfl
@[simp] theorem updCtl_turn (s : State) (f : Ctl → Ctl) : (s.updCtl f).turn = s.turn := rfl
@[simp] theorem updCtl_ctx (s : State) (f : Ctl → Ctl) : (s.updCtl f).ctx = s.ctx := rfl
@[simp] theorem updCtl_arg (s : State) (f : Ctl → Ctl) : (s.updCtl f).arg = s.arg := rfl
@[simp] theorem updCtl_dies (s : State) (f : Ctl → Ctl) : (s.updCtl f).dies = s.dies := rfl
@[simp] theorem updCtl_bases (s : State) (f : Ctl → Ctl) : (s.updCtl f).bases = s.bases := rfl
@[simp] theorem updCtl_mem (s : State) (f : Ctl → Ctl) : (s.updCtl f).mem = s.mem := rfl
@[simp] theorem updCtl_poison (s : State) (f : Ctl → Ctl) : (s.updCtl f).poison = s.poison := rfl
@[simp] theorem updCtl_tags (s : State) (f : Ctl → Ctl) : (s.updCtl f).tags = s.tags := rfl
@[simp] theorem updCtl_clocks (s : State) (f : Ctl → Ctl) : (s.updCtl f).clocks = s.clocks := rfl
@[simp] theorem updCtl_handles (s : State) (f : Ctl → Ctl) : (s.updCtl f).handles = s.handles := rfl
@[simp] theorem updCtl_tasks (s : State) (f : Ctl → Ctl) : (s.updCtl f).tasks = s.tasks := rfl
@[simp] theorem updCtl_groups (s : State) (f : Ctl → Ctl) : (s.updCtl f).groups = s.groups := rfl
@[simp] theorem updCtl_gangs (s : State) (f : Ctl → Ctl) : (s.updCtl f).gangs = s.gangs := rfl
@[simp] theorem updCtl_disps (s : State) (f : Ctl → Ctl) : (s.updCtl f).disps = s.disps := rfl
@[simp] theorem updCtl_wins (s : State) (f : Ctl → Ctl) : (s.updCtl f).wins = s.wins := rfl
@[simp] theorem updCtl_invals (s : State) (f : Ctl → Ctl) : (s.updCtl f).invals = s.invals := rfl
@[simp] theorem updCtl_bel (s : State) (f : Ctl → Ctl) : (s.updCtl f).bel = s.bel := rfl
@[simp] theorem updCtl_tree (s : State) (f : Ctl → Ctl) : (s.updCtl f).tree = s.tree := rfl
@[simp] theorem updCtl_ld (s : State) (f : Ctl → Ctl) : (s.updCtl f).ld = s.ld := rfl
@[simp] theorem updCtl_pw (s : State) (f : Ctl → Ctl) : (s.updCtl f).pw = s.pw := rfl
@[simp] theorem updCtl_sec (s : State) (f : Ctl → Ctl) : (s.updCtl f).sec = s.sec := rfl
@[simp] theorem updCtl_net (s : State) (f : Ctl → Ctl) : (s.updCtl f).net = s.net := rfl
@[simp] theorem updCtl_out (s : State) (f : Ctl → Ctl) : (s.updCtl f).out = s.out := rfl
@[simp] theorem updCtl_time (s : State) (f : Ctl → Ctl) : (s.updCtl f).time = s.time := rfl
@[simp] theorem updCtl_agenda (s : State) (f : Ctl → Ctl) : (s.updCtl f).agenda = s.agenda := rfl
@[simp] theorem updCtl_closed (s : State) (f : Ctl → Ctl) : (s.updCtl f).closed = s.closed := rfl
@[simp] theorem updCtl_barred (s : State) (f : Ctl → Ctl) : (s.updCtl f).barred = s.barred := rfl
@[simp] theorem updCtl_freed (s : State) (f : Ctl → Ctl) : (s.updCtl f).freed = s.freed := rfl
@[simp] theorem updCtl_freeCtr (s : State) (f : Ctl → Ctl) : (s.updCtl f).freeCtr = s.freeCtr := rfl
@[simp] theorem updCtl_nextId (s : State) (f : Ctl → Ctl) : (s.updCtl f).nextId = s.nextId := rfl

/-! ### updMsg -/

@[simp] theorem updMsg_cur (s : State) (f : Msgs → Msgs) : (s.updMsg f).cur = s.cur := rfl
@[simp] theorem updMsg_turn (s : State) (f : Msgs → Msgs) : (s.updMsg f).turn = s.turn := rfl
@[simp] theorem updMsg_ctx (s : State) (f : Msgs → Msgs) : (s.updMsg f).ctx = s.ctx := rfl
@[simp] theorem updMsg_arg (s : State) (f : Msgs → Msgs) : (s.updMsg f).arg = s.arg := rfl
@[simp] theorem updMsg_dies (s : State) (f : Msgs → Msgs) : (s.updMsg f).dies = s.dies := rfl
@[simp] theorem updMsg_bases (s : State) (f : Msgs → Msgs) : (s.updMsg f).bases = s.bases := rfl
@[simp] theorem updMsg_mem (s : State) (f : Msgs → Msgs) : (s.updMsg f).mem = s.mem := rfl
@[simp] theorem updMsg_poison (s : State) (f : Msgs → Msgs) : (s.updMsg f).poison = s.poison := rfl
@[simp] theorem updMsg_tags (s : State) (f : Msgs → Msgs) : (s.updMsg f).tags = s.tags := rfl
@[simp] theorem updMsg_clocks (s : State) (f : Msgs → Msgs) : (s.updMsg f).clocks = s.clocks := rfl
@[simp] theorem updMsg_handles (s : State) (f : Msgs → Msgs) : (s.updMsg f).handles = s.handles := rfl
@[simp] theorem updMsg_tasks (s : State) (f : Msgs → Msgs) : (s.updMsg f).tasks = s.tasks := rfl
@[simp] theorem updMsg_groups (s : State) (f : Msgs → Msgs) : (s.updMsg f).groups = s.groups := rfl
@[simp] theorem updMsg_gangs (s : State) (f : Msgs → Msgs) : (s.updMsg f).gangs = s.gangs := rfl
@[simp] theorem updMsg_disps (s : State) (f : Msgs → Msgs) : (s.updMsg f).disps = s.disps := rfl
@[simp] theorem updMsg_wins (s : State) (f : Msgs → Msgs) : (s.updMsg f).wins = s.wins := rfl
@[simp] theorem updMsg_invals (s : State) (f : Msgs → Msgs) : (s.updMsg f).invals = s.invals := rfl
@[simp] theorem updMsg_bel (s : State) (f : Msgs → Msgs) : (s.updMsg f).bel = s.bel := rfl
@[simp] theorem updMsg_tree (s : State) (f : Msgs → Msgs) : (s.updMsg f).tree = s.tree := rfl
@[simp] theorem updMsg_ld (s : State) (f : Msgs → Msgs) : (s.updMsg f).ld = s.ld := rfl
@[simp] theorem updMsg_pw (s : State) (f : Msgs → Msgs) : (s.updMsg f).pw = s.pw := rfl
@[simp] theorem updMsg_sec (s : State) (f : Msgs → Msgs) : (s.updMsg f).sec = s.sec := rfl
@[simp] theorem updMsg_net (s : State) (f : Msgs → Msgs) : (s.updMsg f).net = s.net := rfl
@[simp] theorem updMsg_out (s : State) (f : Msgs → Msgs) : (s.updMsg f).out = s.out := rfl
@[simp] theorem updMsg_time (s : State) (f : Msgs → Msgs) : (s.updMsg f).time = s.time := rfl
@[simp] theorem updMsg_agenda (s : State) (f : Msgs → Msgs) : (s.updMsg f).agenda = s.agenda := rfl
@[simp] theorem updMsg_closed (s : State) (f : Msgs → Msgs) : (s.updMsg f).closed = s.closed := rfl
@[simp] theorem updMsg_barred (s : State) (f : Msgs → Msgs) : (s.updMsg f).barred = s.barred := rfl
@[simp] theorem updMsg_freed (s : State) (f : Msgs → Msgs) : (s.updMsg f).freed = s.freed := rfl
@[simp] theorem updMsg_freeCtr (s : State) (f : Msgs → Msgs) : (s.updMsg f).freeCtr = s.freeCtr := rfl
@[simp] theorem updMsg_nextId (s : State) (f : Msgs → Msgs) : (s.updMsg f).nextId = s.nextId := rfl

/-! ### updDie -/

@[simp] theorem updDie_cores (s : State) (d : DieId) (f : Die → Die) : (s.updDie d f).cores = s.cores := rfl
@[simp] theorem updDie_cur (s : State) (d : DieId) (f : Die → Die) : (s.updDie d f).cur = s.cur := rfl
@[simp] theorem updDie_turn (s : State) (d : DieId) (f : Die → Die) : (s.updDie d f).turn = s.turn := rfl
@[simp] theorem updDie_ctx (s : State) (d : DieId) (f : Die → Die) : (s.updDie d f).ctx = s.ctx := rfl
@[simp] theorem updDie_arg (s : State) (d : DieId) (f : Die → Die) : (s.updDie d f).arg = s.arg := rfl
@[simp] theorem updDie_bases (s : State) (d : DieId) (f : Die → Die) : (s.updDie d f).bases = s.bases := rfl
@[simp] theorem updDie_mem (s : State) (d : DieId) (f : Die → Die) : (s.updDie d f).mem = s.mem := rfl
@[simp] theorem updDie_poison (s : State) (d : DieId) (f : Die → Die) : (s.updDie d f).poison = s.poison := rfl
@[simp] theorem updDie_tags (s : State) (d : DieId) (f : Die → Die) : (s.updDie d f).tags = s.tags := rfl
@[simp] theorem updDie_clocks (s : State) (d : DieId) (f : Die → Die) : (s.updDie d f).clocks = s.clocks := rfl
@[simp] theorem updDie_handles (s : State) (d : DieId) (f : Die → Die) : (s.updDie d f).handles = s.handles := rfl
@[simp] theorem updDie_tasks (s : State) (d : DieId) (f : Die → Die) : (s.updDie d f).tasks = s.tasks := rfl
@[simp] theorem updDie_groups (s : State) (d : DieId) (f : Die → Die) : (s.updDie d f).groups = s.groups := rfl
@[simp] theorem updDie_gangs (s : State) (d : DieId) (f : Die → Die) : (s.updDie d f).gangs = s.gangs := rfl
@[simp] theorem updDie_disps (s : State) (d : DieId) (f : Die → Die) : (s.updDie d f).disps = s.disps := rfl
@[simp] theorem updDie_wins (s : State) (d : DieId) (f : Die → Die) : (s.updDie d f).wins = s.wins := rfl
@[simp] theorem updDie_invals (s : State) (d : DieId) (f : Die → Die) : (s.updDie d f).invals = s.invals := rfl
@[simp] theorem updDie_bel (s : State) (d : DieId) (f : Die → Die) : (s.updDie d f).bel = s.bel := rfl
@[simp] theorem updDie_tree (s : State) (d : DieId) (f : Die → Die) : (s.updDie d f).tree = s.tree := rfl
@[simp] theorem updDie_ld (s : State) (d : DieId) (f : Die → Die) : (s.updDie d f).ld = s.ld := rfl
@[simp] theorem updDie_pw (s : State) (d : DieId) (f : Die → Die) : (s.updDie d f).pw = s.pw := rfl
@[simp] theorem updDie_sec (s : State) (d : DieId) (f : Die → Die) : (s.updDie d f).sec = s.sec := rfl
@[simp] theorem updDie_net (s : State) (d : DieId) (f : Die → Die) : (s.updDie d f).net = s.net := rfl
@[simp] theorem updDie_out (s : State) (d : DieId) (f : Die → Die) : (s.updDie d f).out = s.out := rfl
@[simp] theorem updDie_time (s : State) (d : DieId) (f : Die → Die) : (s.updDie d f).time = s.time := rfl
@[simp] theorem updDie_agenda (s : State) (d : DieId) (f : Die → Die) : (s.updDie d f).agenda = s.agenda := rfl
@[simp] theorem updDie_closed (s : State) (d : DieId) (f : Die → Die) : (s.updDie d f).closed = s.closed := rfl
@[simp] theorem updDie_barred (s : State) (d : DieId) (f : Die → Die) : (s.updDie d f).barred = s.barred := rfl
@[simp] theorem updDie_freed (s : State) (d : DieId) (f : Die → Die) : (s.updDie d f).freed = s.freed := rfl
@[simp] theorem updDie_freeCtr (s : State) (d : DieId) (f : Die → Die) : (s.updDie d f).freeCtr = s.freeCtr := rfl
@[simp] theorem updDie_nextId (s : State) (d : DieId) (f : Die → Die) : (s.updDie d f).nextId = s.nextId := rfl

/-! ### updBase -/

@[simp] theorem updBase_cores (s : State) (d : DieId) (f : BaseDie → BaseDie) : (s.updBase d f).cores = s.cores := rfl
@[simp] theorem updBase_cur (s : State) (d : DieId) (f : BaseDie → BaseDie) : (s.updBase d f).cur = s.cur := rfl
@[simp] theorem updBase_turn (s : State) (d : DieId) (f : BaseDie → BaseDie) : (s.updBase d f).turn = s.turn := rfl
@[simp] theorem updBase_ctx (s : State) (d : DieId) (f : BaseDie → BaseDie) : (s.updBase d f).ctx = s.ctx := rfl
@[simp] theorem updBase_arg (s : State) (d : DieId) (f : BaseDie → BaseDie) : (s.updBase d f).arg = s.arg := rfl
@[simp] theorem updBase_dies (s : State) (d : DieId) (f : BaseDie → BaseDie) : (s.updBase d f).dies = s.dies := rfl
@[simp] theorem updBase_mem (s : State) (d : DieId) (f : BaseDie → BaseDie) : (s.updBase d f).mem = s.mem := rfl
@[simp] theorem updBase_poison (s : State) (d : DieId) (f : BaseDie → BaseDie) : (s.updBase d f).poison = s.poison := rfl
@[simp] theorem updBase_tags (s : State) (d : DieId) (f : BaseDie → BaseDie) : (s.updBase d f).tags = s.tags := rfl
@[simp] theorem updBase_clocks (s : State) (d : DieId) (f : BaseDie → BaseDie) : (s.updBase d f).clocks = s.clocks := rfl
@[simp] theorem updBase_handles (s : State) (d : DieId) (f : BaseDie → BaseDie) : (s.updBase d f).handles = s.handles := rfl
@[simp] theorem updBase_tasks (s : State) (d : DieId) (f : BaseDie → BaseDie) : (s.updBase d f).tasks = s.tasks := rfl
@[simp] theorem updBase_groups (s : State) (d : DieId) (f : BaseDie → BaseDie) : (s.updBase d f).groups = s.groups := rfl
@[simp] theorem updBase_gangs (s : State) (d : DieId) (f : BaseDie → BaseDie) : (s.updBase d f).gangs = s.gangs := rfl
@[simp] theorem updBase_disps (s : State) (d : DieId) (f : BaseDie → BaseDie) : (s.updBase d f).disps = s.disps := rfl
@[simp] theorem updBase_wins (s : State) (d : DieId) (f : BaseDie → BaseDie) : (s.updBase d f).wins = s.wins := rfl
@[simp] theorem updBase_invals (s : State) (d : DieId) (f : BaseDie → BaseDie) : (s.updBase d f).invals = s.invals := rfl
@[simp] theorem updBase_bel (s : State) (d : DieId) (f : BaseDie → BaseDie) : (s.updBase d f).bel = s.bel := rfl
@[simp] theorem updBase_tree (s : State) (d : DieId) (f : BaseDie → BaseDie) : (s.updBase d f).tree = s.tree := rfl
@[simp] theorem updBase_ld (s : State) (d : DieId) (f : BaseDie → BaseDie) : (s.updBase d f).ld = s.ld := rfl
@[simp] theorem updBase_pw (s : State) (d : DieId) (f : BaseDie → BaseDie) : (s.updBase d f).pw = s.pw := rfl
@[simp] theorem updBase_sec (s : State) (d : DieId) (f : BaseDie → BaseDie) : (s.updBase d f).sec = s.sec := rfl
@[simp] theorem updBase_net (s : State) (d : DieId) (f : BaseDie → BaseDie) : (s.updBase d f).net = s.net := rfl
@[simp] theorem updBase_out (s : State) (d : DieId) (f : BaseDie → BaseDie) : (s.updBase d f).out = s.out := rfl
@[simp] theorem updBase_time (s : State) (d : DieId) (f : BaseDie → BaseDie) : (s.updBase d f).time = s.time := rfl
@[simp] theorem updBase_agenda (s : State) (d : DieId) (f : BaseDie → BaseDie) : (s.updBase d f).agenda = s.agenda := rfl
@[simp] theorem updBase_closed (s : State) (d : DieId) (f : BaseDie → BaseDie) : (s.updBase d f).closed = s.closed := rfl
@[simp] theorem updBase_barred (s : State) (d : DieId) (f : BaseDie → BaseDie) : (s.updBase d f).barred = s.barred := rfl
@[simp] theorem updBase_freed (s : State) (d : DieId) (f : BaseDie → BaseDie) : (s.updBase d f).freed = s.freed := rfl
@[simp] theorem updBase_freeCtr (s : State) (d : DieId) (f : BaseDie → BaseDie) : (s.updBase d f).freeCtr = s.freeCtr := rfl
@[simp] theorem updBase_nextId (s : State) (d : DieId) (f : BaseDie → BaseDie) : (s.updBase d f).nextId = s.nextId := rfl

/-! ### updIsland -/

@[simp] theorem updIsland_cores (s : State) (i : Fin 128) (f : Island → Island) : (s.updIsland i f).cores = s.cores := rfl
@[simp] theorem updIsland_cur (s : State) (i : Fin 128) (f : Island → Island) : (s.updIsland i f).cur = s.cur := rfl
@[simp] theorem updIsland_turn (s : State) (i : Fin 128) (f : Island → Island) : (s.updIsland i f).turn = s.turn := rfl
@[simp] theorem updIsland_ctx (s : State) (i : Fin 128) (f : Island → Island) : (s.updIsland i f).ctx = s.ctx := rfl
@[simp] theorem updIsland_arg (s : State) (i : Fin 128) (f : Island → Island) : (s.updIsland i f).arg = s.arg := rfl
@[simp] theorem updIsland_dies (s : State) (i : Fin 128) (f : Island → Island) : (s.updIsland i f).dies = s.dies := rfl
@[simp] theorem updIsland_bases (s : State) (i : Fin 128) (f : Island → Island) : (s.updIsland i f).bases = s.bases := rfl
@[simp] theorem updIsland_mem (s : State) (i : Fin 128) (f : Island → Island) : (s.updIsland i f).mem = s.mem := rfl
@[simp] theorem updIsland_poison (s : State) (i : Fin 128) (f : Island → Island) : (s.updIsland i f).poison = s.poison := rfl
@[simp] theorem updIsland_tags (s : State) (i : Fin 128) (f : Island → Island) : (s.updIsland i f).tags = s.tags := rfl
@[simp] theorem updIsland_clocks (s : State) (i : Fin 128) (f : Island → Island) : (s.updIsland i f).clocks = s.clocks := rfl
@[simp] theorem updIsland_handles (s : State) (i : Fin 128) (f : Island → Island) : (s.updIsland i f).handles = s.handles := rfl
@[simp] theorem updIsland_tasks (s : State) (i : Fin 128) (f : Island → Island) : (s.updIsland i f).tasks = s.tasks := rfl
@[simp] theorem updIsland_groups (s : State) (i : Fin 128) (f : Island → Island) : (s.updIsland i f).groups = s.groups := rfl
@[simp] theorem updIsland_gangs (s : State) (i : Fin 128) (f : Island → Island) : (s.updIsland i f).gangs = s.gangs := rfl
@[simp] theorem updIsland_disps (s : State) (i : Fin 128) (f : Island → Island) : (s.updIsland i f).disps = s.disps := rfl
@[simp] theorem updIsland_wins (s : State) (i : Fin 128) (f : Island → Island) : (s.updIsland i f).wins = s.wins := rfl
@[simp] theorem updIsland_invals (s : State) (i : Fin 128) (f : Island → Island) : (s.updIsland i f).invals = s.invals := rfl
@[simp] theorem updIsland_bel (s : State) (i : Fin 128) (f : Island → Island) : (s.updIsland i f).bel = s.bel := rfl
@[simp] theorem updIsland_tree (s : State) (i : Fin 128) (f : Island → Island) : (s.updIsland i f).tree = s.tree := rfl
@[simp] theorem updIsland_ld (s : State) (i : Fin 128) (f : Island → Island) : (s.updIsland i f).ld = s.ld := rfl
@[simp] theorem updIsland_sec (s : State) (i : Fin 128) (f : Island → Island) : (s.updIsland i f).sec = s.sec := rfl
@[simp] theorem updIsland_net (s : State) (i : Fin 128) (f : Island → Island) : (s.updIsland i f).net = s.net := rfl
@[simp] theorem updIsland_out (s : State) (i : Fin 128) (f : Island → Island) : (s.updIsland i f).out = s.out := rfl
@[simp] theorem updIsland_time (s : State) (i : Fin 128) (f : Island → Island) : (s.updIsland i f).time = s.time := rfl
@[simp] theorem updIsland_agenda (s : State) (i : Fin 128) (f : Island → Island) : (s.updIsland i f).agenda = s.agenda := rfl
@[simp] theorem updIsland_closed (s : State) (i : Fin 128) (f : Island → Island) : (s.updIsland i f).closed = s.closed := rfl
@[simp] theorem updIsland_barred (s : State) (i : Fin 128) (f : Island → Island) : (s.updIsland i f).barred = s.barred := rfl
@[simp] theorem updIsland_freed (s : State) (i : Fin 128) (f : Island → Island) : (s.updIsland i f).freed = s.freed := rfl
@[simp] theorem updIsland_freeCtr (s : State) (i : Fin 128) (f : Island → Island) : (s.updIsland i f).freeCtr = s.freeCtr := rfl
@[simp] theorem updIsland_nextId (s : State) (i : Fin 128) (f : Island → Island) : (s.updIsland i f).nextId = s.nextId := rfl

/-! ### updHbm -/

@[simp] theorem updHbm_cores (s : State) (d : DieId) (f : HbmCtl → HbmCtl) : (s.updHbm d f).cores = s.cores := rfl
@[simp] theorem updHbm_cur (s : State) (d : DieId) (f : HbmCtl → HbmCtl) : (s.updHbm d f).cur = s.cur := rfl
@[simp] theorem updHbm_turn (s : State) (d : DieId) (f : HbmCtl → HbmCtl) : (s.updHbm d f).turn = s.turn := rfl
@[simp] theorem updHbm_ctx (s : State) (d : DieId) (f : HbmCtl → HbmCtl) : (s.updHbm d f).ctx = s.ctx := rfl
@[simp] theorem updHbm_arg (s : State) (d : DieId) (f : HbmCtl → HbmCtl) : (s.updHbm d f).arg = s.arg := rfl
@[simp] theorem updHbm_dies (s : State) (d : DieId) (f : HbmCtl → HbmCtl) : (s.updHbm d f).dies = s.dies := rfl
@[simp] theorem updHbm_mem (s : State) (d : DieId) (f : HbmCtl → HbmCtl) : (s.updHbm d f).mem = s.mem := rfl
@[simp] theorem updHbm_poison (s : State) (d : DieId) (f : HbmCtl → HbmCtl) : (s.updHbm d f).poison = s.poison := rfl
@[simp] theorem updHbm_tags (s : State) (d : DieId) (f : HbmCtl → HbmCtl) : (s.updHbm d f).tags = s.tags := rfl
@[simp] theorem updHbm_clocks (s : State) (d : DieId) (f : HbmCtl → HbmCtl) : (s.updHbm d f).clocks = s.clocks := rfl
@[simp] theorem updHbm_handles (s : State) (d : DieId) (f : HbmCtl → HbmCtl) : (s.updHbm d f).handles = s.handles := rfl
@[simp] theorem updHbm_tasks (s : State) (d : DieId) (f : HbmCtl → HbmCtl) : (s.updHbm d f).tasks = s.tasks := rfl
@[simp] theorem updHbm_groups (s : State) (d : DieId) (f : HbmCtl → HbmCtl) : (s.updHbm d f).groups = s.groups := rfl
@[simp] theorem updHbm_gangs (s : State) (d : DieId) (f : HbmCtl → HbmCtl) : (s.updHbm d f).gangs = s.gangs := rfl
@[simp] theorem updHbm_disps (s : State) (d : DieId) (f : HbmCtl → HbmCtl) : (s.updHbm d f).disps = s.disps := rfl
@[simp] theorem updHbm_wins (s : State) (d : DieId) (f : HbmCtl → HbmCtl) : (s.updHbm d f).wins = s.wins := rfl
@[simp] theorem updHbm_invals (s : State) (d : DieId) (f : HbmCtl → HbmCtl) : (s.updHbm d f).invals = s.invals := rfl
@[simp] theorem updHbm_bel (s : State) (d : DieId) (f : HbmCtl → HbmCtl) : (s.updHbm d f).bel = s.bel := rfl
@[simp] theorem updHbm_tree (s : State) (d : DieId) (f : HbmCtl → HbmCtl) : (s.updHbm d f).tree = s.tree := rfl
@[simp] theorem updHbm_ld (s : State) (d : DieId) (f : HbmCtl → HbmCtl) : (s.updHbm d f).ld = s.ld := rfl
@[simp] theorem updHbm_pw (s : State) (d : DieId) (f : HbmCtl → HbmCtl) : (s.updHbm d f).pw = s.pw := rfl
@[simp] theorem updHbm_sec (s : State) (d : DieId) (f : HbmCtl → HbmCtl) : (s.updHbm d f).sec = s.sec := rfl
@[simp] theorem updHbm_net (s : State) (d : DieId) (f : HbmCtl → HbmCtl) : (s.updHbm d f).net = s.net := rfl
@[simp] theorem updHbm_out (s : State) (d : DieId) (f : HbmCtl → HbmCtl) : (s.updHbm d f).out = s.out := rfl
@[simp] theorem updHbm_time (s : State) (d : DieId) (f : HbmCtl → HbmCtl) : (s.updHbm d f).time = s.time := rfl
@[simp] theorem updHbm_agenda (s : State) (d : DieId) (f : HbmCtl → HbmCtl) : (s.updHbm d f).agenda = s.agenda := rfl
@[simp] theorem updHbm_closed (s : State) (d : DieId) (f : HbmCtl → HbmCtl) : (s.updHbm d f).closed = s.closed := rfl
@[simp] theorem updHbm_barred (s : State) (d : DieId) (f : HbmCtl → HbmCtl) : (s.updHbm d f).barred = s.barred := rfl
@[simp] theorem updHbm_freed (s : State) (d : DieId) (f : HbmCtl → HbmCtl) : (s.updHbm d f).freed = s.freed := rfl
@[simp] theorem updHbm_freeCtr (s : State) (d : DieId) (f : HbmCtl → HbmCtl) : (s.updHbm d f).freeCtr = s.freeCtr := rfl
@[simp] theorem updHbm_nextId (s : State) (d : DieId) (f : HbmCtl → HbmCtl) : (s.updHbm d f).nextId = s.nextId := rfl

/-! ### updNl -/

@[simp] theorem updNl_cores (s : State) (d : DieId) (f : Nolnus → Nolnus) : (s.updNl d f).cores = s.cores := rfl
@[simp] theorem updNl_cur (s : State) (d : DieId) (f : Nolnus → Nolnus) : (s.updNl d f).cur = s.cur := rfl
@[simp] theorem updNl_turn (s : State) (d : DieId) (f : Nolnus → Nolnus) : (s.updNl d f).turn = s.turn := rfl
@[simp] theorem updNl_ctx (s : State) (d : DieId) (f : Nolnus → Nolnus) : (s.updNl d f).ctx = s.ctx := rfl
@[simp] theorem updNl_arg (s : State) (d : DieId) (f : Nolnus → Nolnus) : (s.updNl d f).arg = s.arg := rfl
@[simp] theorem updNl_dies (s : State) (d : DieId) (f : Nolnus → Nolnus) : (s.updNl d f).dies = s.dies := rfl
@[simp] theorem updNl_mem (s : State) (d : DieId) (f : Nolnus → Nolnus) : (s.updNl d f).mem = s.mem := rfl
@[simp] theorem updNl_poison (s : State) (d : DieId) (f : Nolnus → Nolnus) : (s.updNl d f).poison = s.poison := rfl
@[simp] theorem updNl_tags (s : State) (d : DieId) (f : Nolnus → Nolnus) : (s.updNl d f).tags = s.tags := rfl
@[simp] theorem updNl_clocks (s : State) (d : DieId) (f : Nolnus → Nolnus) : (s.updNl d f).clocks = s.clocks := rfl
@[simp] theorem updNl_handles (s : State) (d : DieId) (f : Nolnus → Nolnus) : (s.updNl d f).handles = s.handles := rfl
@[simp] theorem updNl_tasks (s : State) (d : DieId) (f : Nolnus → Nolnus) : (s.updNl d f).tasks = s.tasks := rfl
@[simp] theorem updNl_groups (s : State) (d : DieId) (f : Nolnus → Nolnus) : (s.updNl d f).groups = s.groups := rfl
@[simp] theorem updNl_gangs (s : State) (d : DieId) (f : Nolnus → Nolnus) : (s.updNl d f).gangs = s.gangs := rfl
@[simp] theorem updNl_disps (s : State) (d : DieId) (f : Nolnus → Nolnus) : (s.updNl d f).disps = s.disps := rfl
@[simp] theorem updNl_wins (s : State) (d : DieId) (f : Nolnus → Nolnus) : (s.updNl d f).wins = s.wins := rfl
@[simp] theorem updNl_invals (s : State) (d : DieId) (f : Nolnus → Nolnus) : (s.updNl d f).invals = s.invals := rfl
@[simp] theorem updNl_bel (s : State) (d : DieId) (f : Nolnus → Nolnus) : (s.updNl d f).bel = s.bel := rfl
@[simp] theorem updNl_tree (s : State) (d : DieId) (f : Nolnus → Nolnus) : (s.updNl d f).tree = s.tree := rfl
@[simp] theorem updNl_ld (s : State) (d : DieId) (f : Nolnus → Nolnus) : (s.updNl d f).ld = s.ld := rfl
@[simp] theorem updNl_pw (s : State) (d : DieId) (f : Nolnus → Nolnus) : (s.updNl d f).pw = s.pw := rfl
@[simp] theorem updNl_sec (s : State) (d : DieId) (f : Nolnus → Nolnus) : (s.updNl d f).sec = s.sec := rfl
@[simp] theorem updNl_net (s : State) (d : DieId) (f : Nolnus → Nolnus) : (s.updNl d f).net = s.net := rfl
@[simp] theorem updNl_out (s : State) (d : DieId) (f : Nolnus → Nolnus) : (s.updNl d f).out = s.out := rfl
@[simp] theorem updNl_time (s : State) (d : DieId) (f : Nolnus → Nolnus) : (s.updNl d f).time = s.time := rfl
@[simp] theorem updNl_agenda (s : State) (d : DieId) (f : Nolnus → Nolnus) : (s.updNl d f).agenda = s.agenda := rfl
@[simp] theorem updNl_closed (s : State) (d : DieId) (f : Nolnus → Nolnus) : (s.updNl d f).closed = s.closed := rfl
@[simp] theorem updNl_barred (s : State) (d : DieId) (f : Nolnus → Nolnus) : (s.updNl d f).barred = s.barred := rfl
@[simp] theorem updNl_freed (s : State) (d : DieId) (f : Nolnus → Nolnus) : (s.updNl d f).freed = s.freed := rfl
@[simp] theorem updNl_freeCtr (s : State) (d : DieId) (f : Nolnus → Nolnus) : (s.updNl d f).freeCtr = s.freeCtr := rfl
@[simp] theorem updNl_nextId (s : State) (d : DieId) (f : Nolnus → Nolnus) : (s.updNl d f).nextId = s.nextId := rfl

/-! ### updSlot -/

@[simp] theorem updSlot_cores (s : State) (d : DieId) (i : Nat) (f : ResSlot → ResSlot) : (s.updSlot d i f).cores = s.cores := rfl
@[simp] theorem updSlot_cur (s : State) (d : DieId) (i : Nat) (f : ResSlot → ResSlot) : (s.updSlot d i f).cur = s.cur := rfl
@[simp] theorem updSlot_turn (s : State) (d : DieId) (i : Nat) (f : ResSlot → ResSlot) : (s.updSlot d i f).turn = s.turn := rfl
@[simp] theorem updSlot_ctx (s : State) (d : DieId) (i : Nat) (f : ResSlot → ResSlot) : (s.updSlot d i f).ctx = s.ctx := rfl
@[simp] theorem updSlot_arg (s : State) (d : DieId) (i : Nat) (f : ResSlot → ResSlot) : (s.updSlot d i f).arg = s.arg := rfl
@[simp] theorem updSlot_dies (s : State) (d : DieId) (i : Nat) (f : ResSlot → ResSlot) : (s.updSlot d i f).dies = s.dies := rfl
@[simp] theorem updSlot_mem (s : State) (d : DieId) (i : Nat) (f : ResSlot → ResSlot) : (s.updSlot d i f).mem = s.mem := rfl
@[simp] theorem updSlot_poison (s : State) (d : DieId) (i : Nat) (f : ResSlot → ResSlot) : (s.updSlot d i f).poison = s.poison := rfl
@[simp] theorem updSlot_tags (s : State) (d : DieId) (i : Nat) (f : ResSlot → ResSlot) : (s.updSlot d i f).tags = s.tags := rfl
@[simp] theorem updSlot_clocks (s : State) (d : DieId) (i : Nat) (f : ResSlot → ResSlot) : (s.updSlot d i f).clocks = s.clocks := rfl
@[simp] theorem updSlot_handles (s : State) (d : DieId) (i : Nat) (f : ResSlot → ResSlot) : (s.updSlot d i f).handles = s.handles := rfl
@[simp] theorem updSlot_tasks (s : State) (d : DieId) (i : Nat) (f : ResSlot → ResSlot) : (s.updSlot d i f).tasks = s.tasks := rfl
@[simp] theorem updSlot_groups (s : State) (d : DieId) (i : Nat) (f : ResSlot → ResSlot) : (s.updSlot d i f).groups = s.groups := rfl
@[simp] theorem updSlot_gangs (s : State) (d : DieId) (i : Nat) (f : ResSlot → ResSlot) : (s.updSlot d i f).gangs = s.gangs := rfl
@[simp] theorem updSlot_disps (s : State) (d : DieId) (i : Nat) (f : ResSlot → ResSlot) : (s.updSlot d i f).disps = s.disps := rfl
@[simp] theorem updSlot_wins (s : State) (d : DieId) (i : Nat) (f : ResSlot → ResSlot) : (s.updSlot d i f).wins = s.wins := rfl
@[simp] theorem updSlot_invals (s : State) (d : DieId) (i : Nat) (f : ResSlot → ResSlot) : (s.updSlot d i f).invals = s.invals := rfl
@[simp] theorem updSlot_bel (s : State) (d : DieId) (i : Nat) (f : ResSlot → ResSlot) : (s.updSlot d i f).bel = s.bel := rfl
@[simp] theorem updSlot_tree (s : State) (d : DieId) (i : Nat) (f : ResSlot → ResSlot) : (s.updSlot d i f).tree = s.tree := rfl
@[simp] theorem updSlot_ld (s : State) (d : DieId) (i : Nat) (f : ResSlot → ResSlot) : (s.updSlot d i f).ld = s.ld := rfl
@[simp] theorem updSlot_pw (s : State) (d : DieId) (i : Nat) (f : ResSlot → ResSlot) : (s.updSlot d i f).pw = s.pw := rfl
@[simp] theorem updSlot_sec (s : State) (d : DieId) (i : Nat) (f : ResSlot → ResSlot) : (s.updSlot d i f).sec = s.sec := rfl
@[simp] theorem updSlot_net (s : State) (d : DieId) (i : Nat) (f : ResSlot → ResSlot) : (s.updSlot d i f).net = s.net := rfl
@[simp] theorem updSlot_out (s : State) (d : DieId) (i : Nat) (f : ResSlot → ResSlot) : (s.updSlot d i f).out = s.out := rfl
@[simp] theorem updSlot_time (s : State) (d : DieId) (i : Nat) (f : ResSlot → ResSlot) : (s.updSlot d i f).time = s.time := rfl
@[simp] theorem updSlot_agenda (s : State) (d : DieId) (i : Nat) (f : ResSlot → ResSlot) : (s.updSlot d i f).agenda = s.agenda := rfl
@[simp] theorem updSlot_closed (s : State) (d : DieId) (i : Nat) (f : ResSlot → ResSlot) : (s.updSlot d i f).closed = s.closed := rfl
@[simp] theorem updSlot_barred (s : State) (d : DieId) (i : Nat) (f : ResSlot → ResSlot) : (s.updSlot d i f).barred = s.barred := rfl
@[simp] theorem updSlot_freed (s : State) (d : DieId) (i : Nat) (f : ResSlot → ResSlot) : (s.updSlot d i f).freed = s.freed := rfl
@[simp] theorem updSlot_freeCtr (s : State) (d : DieId) (i : Nat) (f : ResSlot → ResSlot) : (s.updSlot d i f).freeCtr = s.freeCtr := rfl
@[simp] theorem updSlot_nextId (s : State) (d : DieId) (i : Nat) (f : ResSlot → ResSlot) : (s.updSlot d i f).nextId = s.nextId := rfl

/-! ### updHandle -/

@[simp] theorem updHandle_cores (s : State) (h : BitVec 16) (f : HandleEnt → HandleEnt) : (s.updHandle h f).cores = s.cores := rfl
@[simp] theorem updHandle_cur (s : State) (h : BitVec 16) (f : HandleEnt → HandleEnt) : (s.updHandle h f).cur = s.cur := rfl
@[simp] theorem updHandle_turn (s : State) (h : BitVec 16) (f : HandleEnt → HandleEnt) : (s.updHandle h f).turn = s.turn := rfl
@[simp] theorem updHandle_ctx (s : State) (h : BitVec 16) (f : HandleEnt → HandleEnt) : (s.updHandle h f).ctx = s.ctx := rfl
@[simp] theorem updHandle_arg (s : State) (h : BitVec 16) (f : HandleEnt → HandleEnt) : (s.updHandle h f).arg = s.arg := rfl
@[simp] theorem updHandle_dies (s : State) (h : BitVec 16) (f : HandleEnt → HandleEnt) : (s.updHandle h f).dies = s.dies := rfl
@[simp] theorem updHandle_bases (s : State) (h : BitVec 16) (f : HandleEnt → HandleEnt) : (s.updHandle h f).bases = s.bases := rfl
@[simp] theorem updHandle_mem (s : State) (h : BitVec 16) (f : HandleEnt → HandleEnt) : (s.updHandle h f).mem = s.mem := rfl
@[simp] theorem updHandle_poison (s : State) (h : BitVec 16) (f : HandleEnt → HandleEnt) : (s.updHandle h f).poison = s.poison := rfl
@[simp] theorem updHandle_tags (s : State) (h : BitVec 16) (f : HandleEnt → HandleEnt) : (s.updHandle h f).tags = s.tags := rfl
@[simp] theorem updHandle_clocks (s : State) (h : BitVec 16) (f : HandleEnt → HandleEnt) : (s.updHandle h f).clocks = s.clocks := rfl
@[simp] theorem updHandle_tasks (s : State) (h : BitVec 16) (f : HandleEnt → HandleEnt) : (s.updHandle h f).tasks = s.tasks := rfl
@[simp] theorem updHandle_groups (s : State) (h : BitVec 16) (f : HandleEnt → HandleEnt) : (s.updHandle h f).groups = s.groups := rfl
@[simp] theorem updHandle_gangs (s : State) (h : BitVec 16) (f : HandleEnt → HandleEnt) : (s.updHandle h f).gangs = s.gangs := rfl
@[simp] theorem updHandle_disps (s : State) (h : BitVec 16) (f : HandleEnt → HandleEnt) : (s.updHandle h f).disps = s.disps := rfl
@[simp] theorem updHandle_wins (s : State) (h : BitVec 16) (f : HandleEnt → HandleEnt) : (s.updHandle h f).wins = s.wins := rfl
@[simp] theorem updHandle_invals (s : State) (h : BitVec 16) (f : HandleEnt → HandleEnt) : (s.updHandle h f).invals = s.invals := rfl
@[simp] theorem updHandle_bel (s : State) (h : BitVec 16) (f : HandleEnt → HandleEnt) : (s.updHandle h f).bel = s.bel := rfl
@[simp] theorem updHandle_tree (s : State) (h : BitVec 16) (f : HandleEnt → HandleEnt) : (s.updHandle h f).tree = s.tree := rfl
@[simp] theorem updHandle_ld (s : State) (h : BitVec 16) (f : HandleEnt → HandleEnt) : (s.updHandle h f).ld = s.ld := rfl
@[simp] theorem updHandle_pw (s : State) (h : BitVec 16) (f : HandleEnt → HandleEnt) : (s.updHandle h f).pw = s.pw := rfl
@[simp] theorem updHandle_sec (s : State) (h : BitVec 16) (f : HandleEnt → HandleEnt) : (s.updHandle h f).sec = s.sec := rfl
@[simp] theorem updHandle_net (s : State) (h : BitVec 16) (f : HandleEnt → HandleEnt) : (s.updHandle h f).net = s.net := rfl
@[simp] theorem updHandle_out (s : State) (h : BitVec 16) (f : HandleEnt → HandleEnt) : (s.updHandle h f).out = s.out := rfl
@[simp] theorem updHandle_time (s : State) (h : BitVec 16) (f : HandleEnt → HandleEnt) : (s.updHandle h f).time = s.time := rfl
@[simp] theorem updHandle_agenda (s : State) (h : BitVec 16) (f : HandleEnt → HandleEnt) : (s.updHandle h f).agenda = s.agenda := rfl
@[simp] theorem updHandle_closed (s : State) (h : BitVec 16) (f : HandleEnt → HandleEnt) : (s.updHandle h f).closed = s.closed := rfl
@[simp] theorem updHandle_barred (s : State) (h : BitVec 16) (f : HandleEnt → HandleEnt) : (s.updHandle h f).barred = s.barred := rfl
@[simp] theorem updHandle_freed (s : State) (h : BitVec 16) (f : HandleEnt → HandleEnt) : (s.updHandle h f).freed = s.freed := rfl
@[simp] theorem updHandle_freeCtr (s : State) (h : BitVec 16) (f : HandleEnt → HandleEnt) : (s.updHandle h f).freeCtr = s.freeCtr := rfl
@[simp] theorem updHandle_nextId (s : State) (h : BitVec 16) (f : HandleEnt → HandleEnt) : (s.updHandle h f).nextId = s.nextId := rfl

/-! ### updLd -/

@[simp] theorem updLd_cores (s : State) (f : Loader → Loader) : (s.updLd f).cores = s.cores := rfl
@[simp] theorem updLd_cur (s : State) (f : Loader → Loader) : (s.updLd f).cur = s.cur := rfl
@[simp] theorem updLd_turn (s : State) (f : Loader → Loader) : (s.updLd f).turn = s.turn := rfl
@[simp] theorem updLd_ctx (s : State) (f : Loader → Loader) : (s.updLd f).ctx = s.ctx := rfl
@[simp] theorem updLd_arg (s : State) (f : Loader → Loader) : (s.updLd f).arg = s.arg := rfl
@[simp] theorem updLd_dies (s : State) (f : Loader → Loader) : (s.updLd f).dies = s.dies := rfl
@[simp] theorem updLd_bases (s : State) (f : Loader → Loader) : (s.updLd f).bases = s.bases := rfl
@[simp] theorem updLd_mem (s : State) (f : Loader → Loader) : (s.updLd f).mem = s.mem := rfl
@[simp] theorem updLd_poison (s : State) (f : Loader → Loader) : (s.updLd f).poison = s.poison := rfl
@[simp] theorem updLd_tags (s : State) (f : Loader → Loader) : (s.updLd f).tags = s.tags := rfl
@[simp] theorem updLd_clocks (s : State) (f : Loader → Loader) : (s.updLd f).clocks = s.clocks := rfl
@[simp] theorem updLd_handles (s : State) (f : Loader → Loader) : (s.updLd f).handles = s.handles := rfl
@[simp] theorem updLd_tasks (s : State) (f : Loader → Loader) : (s.updLd f).tasks = s.tasks := rfl
@[simp] theorem updLd_groups (s : State) (f : Loader → Loader) : (s.updLd f).groups = s.groups := rfl
@[simp] theorem updLd_gangs (s : State) (f : Loader → Loader) : (s.updLd f).gangs = s.gangs := rfl
@[simp] theorem updLd_disps (s : State) (f : Loader → Loader) : (s.updLd f).disps = s.disps := rfl
@[simp] theorem updLd_wins (s : State) (f : Loader → Loader) : (s.updLd f).wins = s.wins := rfl
@[simp] theorem updLd_invals (s : State) (f : Loader → Loader) : (s.updLd f).invals = s.invals := rfl
@[simp] theorem updLd_bel (s : State) (f : Loader → Loader) : (s.updLd f).bel = s.bel := rfl
@[simp] theorem updLd_tree (s : State) (f : Loader → Loader) : (s.updLd f).tree = s.tree := rfl
@[simp] theorem updLd_pw (s : State) (f : Loader → Loader) : (s.updLd f).pw = s.pw := rfl
@[simp] theorem updLd_sec (s : State) (f : Loader → Loader) : (s.updLd f).sec = s.sec := rfl
@[simp] theorem updLd_net (s : State) (f : Loader → Loader) : (s.updLd f).net = s.net := rfl
@[simp] theorem updLd_out (s : State) (f : Loader → Loader) : (s.updLd f).out = s.out := rfl
@[simp] theorem updLd_time (s : State) (f : Loader → Loader) : (s.updLd f).time = s.time := rfl
@[simp] theorem updLd_agenda (s : State) (f : Loader → Loader) : (s.updLd f).agenda = s.agenda := rfl
@[simp] theorem updLd_closed (s : State) (f : Loader → Loader) : (s.updLd f).closed = s.closed := rfl
@[simp] theorem updLd_barred (s : State) (f : Loader → Loader) : (s.updLd f).barred = s.barred := rfl
@[simp] theorem updLd_freed (s : State) (f : Loader → Loader) : (s.updLd f).freed = s.freed := rfl
@[simp] theorem updLd_freeCtr (s : State) (f : Loader → Loader) : (s.updLd f).freeCtr = s.freeCtr := rfl
@[simp] theorem updLd_nextId (s : State) (f : Loader → Loader) : (s.updLd f).nextId = s.nextId := rfl

/-! ### updPw -/

@[simp] theorem updPw_cores (s : State) (f : Power → Power) : (s.updPw f).cores = s.cores := rfl
@[simp] theorem updPw_cur (s : State) (f : Power → Power) : (s.updPw f).cur = s.cur := rfl
@[simp] theorem updPw_turn (s : State) (f : Power → Power) : (s.updPw f).turn = s.turn := rfl
@[simp] theorem updPw_ctx (s : State) (f : Power → Power) : (s.updPw f).ctx = s.ctx := rfl
@[simp] theorem updPw_arg (s : State) (f : Power → Power) : (s.updPw f).arg = s.arg := rfl
@[simp] theorem updPw_dies (s : State) (f : Power → Power) : (s.updPw f).dies = s.dies := rfl
@[simp] theorem updPw_bases (s : State) (f : Power → Power) : (s.updPw f).bases = s.bases := rfl
@[simp] theorem updPw_mem (s : State) (f : Power → Power) : (s.updPw f).mem = s.mem := rfl
@[simp] theorem updPw_poison (s : State) (f : Power → Power) : (s.updPw f).poison = s.poison := rfl
@[simp] theorem updPw_tags (s : State) (f : Power → Power) : (s.updPw f).tags = s.tags := rfl
@[simp] theorem updPw_clocks (s : State) (f : Power → Power) : (s.updPw f).clocks = s.clocks := rfl
@[simp] theorem updPw_handles (s : State) (f : Power → Power) : (s.updPw f).handles = s.handles := rfl
@[simp] theorem updPw_tasks (s : State) (f : Power → Power) : (s.updPw f).tasks = s.tasks := rfl
@[simp] theorem updPw_groups (s : State) (f : Power → Power) : (s.updPw f).groups = s.groups := rfl
@[simp] theorem updPw_gangs (s : State) (f : Power → Power) : (s.updPw f).gangs = s.gangs := rfl
@[simp] theorem updPw_disps (s : State) (f : Power → Power) : (s.updPw f).disps = s.disps := rfl
@[simp] theorem updPw_wins (s : State) (f : Power → Power) : (s.updPw f).wins = s.wins := rfl
@[simp] theorem updPw_invals (s : State) (f : Power → Power) : (s.updPw f).invals = s.invals := rfl
@[simp] theorem updPw_bel (s : State) (f : Power → Power) : (s.updPw f).bel = s.bel := rfl
@[simp] theorem updPw_tree (s : State) (f : Power → Power) : (s.updPw f).tree = s.tree := rfl
@[simp] theorem updPw_ld (s : State) (f : Power → Power) : (s.updPw f).ld = s.ld := rfl
@[simp] theorem updPw_sec (s : State) (f : Power → Power) : (s.updPw f).sec = s.sec := rfl
@[simp] theorem updPw_net (s : State) (f : Power → Power) : (s.updPw f).net = s.net := rfl
@[simp] theorem updPw_out (s : State) (f : Power → Power) : (s.updPw f).out = s.out := rfl
@[simp] theorem updPw_time (s : State) (f : Power → Power) : (s.updPw f).time = s.time := rfl
@[simp] theorem updPw_agenda (s : State) (f : Power → Power) : (s.updPw f).agenda = s.agenda := rfl
@[simp] theorem updPw_closed (s : State) (f : Power → Power) : (s.updPw f).closed = s.closed := rfl
@[simp] theorem updPw_barred (s : State) (f : Power → Power) : (s.updPw f).barred = s.barred := rfl
@[simp] theorem updPw_freed (s : State) (f : Power → Power) : (s.updPw f).freed = s.freed := rfl
@[simp] theorem updPw_freeCtr (s : State) (f : Power → Power) : (s.updPw f).freeCtr = s.freeCtr := rfl
@[simp] theorem updPw_nextId (s : State) (f : Power → Power) : (s.updPw f).nextId = s.nextId := rfl

/-! ### updSec -/

@[simp] theorem updSec_cores (s : State) (f : Security → Security) : (s.updSec f).cores = s.cores := rfl
@[simp] theorem updSec_cur (s : State) (f : Security → Security) : (s.updSec f).cur = s.cur := rfl
@[simp] theorem updSec_turn (s : State) (f : Security → Security) : (s.updSec f).turn = s.turn := rfl
@[simp] theorem updSec_ctx (s : State) (f : Security → Security) : (s.updSec f).ctx = s.ctx := rfl
@[simp] theorem updSec_arg (s : State) (f : Security → Security) : (s.updSec f).arg = s.arg := rfl
@[simp] theorem updSec_dies (s : State) (f : Security → Security) : (s.updSec f).dies = s.dies := rfl
@[simp] theorem updSec_bases (s : State) (f : Security → Security) : (s.updSec f).bases = s.bases := rfl
@[simp] theorem updSec_mem (s : State) (f : Security → Security) : (s.updSec f).mem = s.mem := rfl
@[simp] theorem updSec_poison (s : State) (f : Security → Security) : (s.updSec f).poison = s.poison := rfl
@[simp] theorem updSec_tags (s : State) (f : Security → Security) : (s.updSec f).tags = s.tags := rfl
@[simp] theorem updSec_clocks (s : State) (f : Security → Security) : (s.updSec f).clocks = s.clocks := rfl
@[simp] theorem updSec_handles (s : State) (f : Security → Security) : (s.updSec f).handles = s.handles := rfl
@[simp] theorem updSec_tasks (s : State) (f : Security → Security) : (s.updSec f).tasks = s.tasks := rfl
@[simp] theorem updSec_groups (s : State) (f : Security → Security) : (s.updSec f).groups = s.groups := rfl
@[simp] theorem updSec_gangs (s : State) (f : Security → Security) : (s.updSec f).gangs = s.gangs := rfl
@[simp] theorem updSec_disps (s : State) (f : Security → Security) : (s.updSec f).disps = s.disps := rfl
@[simp] theorem updSec_wins (s : State) (f : Security → Security) : (s.updSec f).wins = s.wins := rfl
@[simp] theorem updSec_invals (s : State) (f : Security → Security) : (s.updSec f).invals = s.invals := rfl
@[simp] theorem updSec_bel (s : State) (f : Security → Security) : (s.updSec f).bel = s.bel := rfl
@[simp] theorem updSec_tree (s : State) (f : Security → Security) : (s.updSec f).tree = s.tree := rfl
@[simp] theorem updSec_ld (s : State) (f : Security → Security) : (s.updSec f).ld = s.ld := rfl
@[simp] theorem updSec_pw (s : State) (f : Security → Security) : (s.updSec f).pw = s.pw := rfl
@[simp] theorem updSec_net (s : State) (f : Security → Security) : (s.updSec f).net = s.net := rfl
@[simp] theorem updSec_out (s : State) (f : Security → Security) : (s.updSec f).out = s.out := rfl
@[simp] theorem updSec_time (s : State) (f : Security → Security) : (s.updSec f).time = s.time := rfl
@[simp] theorem updSec_agenda (s : State) (f : Security → Security) : (s.updSec f).agenda = s.agenda := rfl
@[simp] theorem updSec_closed (s : State) (f : Security → Security) : (s.updSec f).closed = s.closed := rfl
@[simp] theorem updSec_barred (s : State) (f : Security → Security) : (s.updSec f).barred = s.barred := rfl
@[simp] theorem updSec_freed (s : State) (f : Security → Security) : (s.updSec f).freed = s.freed := rfl
@[simp] theorem updSec_freeCtr (s : State) (f : Security → Security) : (s.updSec f).freeCtr = s.freeCtr := rfl
@[simp] theorem updSec_nextId (s : State) (f : Security → Security) : (s.updSec f).nextId = s.nextId := rfl

/-! ### updBel -/

@[simp] theorem updBel_cores (s : State) (f : Belfry → Belfry) : (s.updBel f).cores = s.cores := rfl
@[simp] theorem updBel_cur (s : State) (f : Belfry → Belfry) : (s.updBel f).cur = s.cur := rfl
@[simp] theorem updBel_turn (s : State) (f : Belfry → Belfry) : (s.updBel f).turn = s.turn := rfl
@[simp] theorem updBel_ctx (s : State) (f : Belfry → Belfry) : (s.updBel f).ctx = s.ctx := rfl
@[simp] theorem updBel_arg (s : State) (f : Belfry → Belfry) : (s.updBel f).arg = s.arg := rfl
@[simp] theorem updBel_dies (s : State) (f : Belfry → Belfry) : (s.updBel f).dies = s.dies := rfl
@[simp] theorem updBel_bases (s : State) (f : Belfry → Belfry) : (s.updBel f).bases = s.bases := rfl
@[simp] theorem updBel_mem (s : State) (f : Belfry → Belfry) : (s.updBel f).mem = s.mem := rfl
@[simp] theorem updBel_poison (s : State) (f : Belfry → Belfry) : (s.updBel f).poison = s.poison := rfl
@[simp] theorem updBel_tags (s : State) (f : Belfry → Belfry) : (s.updBel f).tags = s.tags := rfl
@[simp] theorem updBel_clocks (s : State) (f : Belfry → Belfry) : (s.updBel f).clocks = s.clocks := rfl
@[simp] theorem updBel_handles (s : State) (f : Belfry → Belfry) : (s.updBel f).handles = s.handles := rfl
@[simp] theorem updBel_tasks (s : State) (f : Belfry → Belfry) : (s.updBel f).tasks = s.tasks := rfl
@[simp] theorem updBel_groups (s : State) (f : Belfry → Belfry) : (s.updBel f).groups = s.groups := rfl
@[simp] theorem updBel_gangs (s : State) (f : Belfry → Belfry) : (s.updBel f).gangs = s.gangs := rfl
@[simp] theorem updBel_disps (s : State) (f : Belfry → Belfry) : (s.updBel f).disps = s.disps := rfl
@[simp] theorem updBel_wins (s : State) (f : Belfry → Belfry) : (s.updBel f).wins = s.wins := rfl
@[simp] theorem updBel_invals (s : State) (f : Belfry → Belfry) : (s.updBel f).invals = s.invals := rfl
@[simp] theorem updBel_tree (s : State) (f : Belfry → Belfry) : (s.updBel f).tree = s.tree := rfl
@[simp] theorem updBel_ld (s : State) (f : Belfry → Belfry) : (s.updBel f).ld = s.ld := rfl
@[simp] theorem updBel_pw (s : State) (f : Belfry → Belfry) : (s.updBel f).pw = s.pw := rfl
@[simp] theorem updBel_sec (s : State) (f : Belfry → Belfry) : (s.updBel f).sec = s.sec := rfl
@[simp] theorem updBel_net (s : State) (f : Belfry → Belfry) : (s.updBel f).net = s.net := rfl
@[simp] theorem updBel_out (s : State) (f : Belfry → Belfry) : (s.updBel f).out = s.out := rfl
@[simp] theorem updBel_time (s : State) (f : Belfry → Belfry) : (s.updBel f).time = s.time := rfl
@[simp] theorem updBel_agenda (s : State) (f : Belfry → Belfry) : (s.updBel f).agenda = s.agenda := rfl
@[simp] theorem updBel_closed (s : State) (f : Belfry → Belfry) : (s.updBel f).closed = s.closed := rfl
@[simp] theorem updBel_barred (s : State) (f : Belfry → Belfry) : (s.updBel f).barred = s.barred := rfl
@[simp] theorem updBel_freed (s : State) (f : Belfry → Belfry) : (s.updBel f).freed = s.freed := rfl
@[simp] theorem updBel_freeCtr (s : State) (f : Belfry → Belfry) : (s.updBel f).freeCtr = s.freeCtr := rfl
@[simp] theorem updBel_nextId (s : State) (f : Belfry → Belfry) : (s.updBel f).nextId = s.nextId := rfl

/-! ### updQueue -/

@[simp] theorem updQueue_cores (s : State) (q : Fin 64) (f : Queue → Queue) : (s.updQueue q f).cores = s.cores := rfl
@[simp] theorem updQueue_cur (s : State) (q : Fin 64) (f : Queue → Queue) : (s.updQueue q f).cur = s.cur := rfl
@[simp] theorem updQueue_turn (s : State) (q : Fin 64) (f : Queue → Queue) : (s.updQueue q f).turn = s.turn := rfl
@[simp] theorem updQueue_ctx (s : State) (q : Fin 64) (f : Queue → Queue) : (s.updQueue q f).ctx = s.ctx := rfl
@[simp] theorem updQueue_arg (s : State) (q : Fin 64) (f : Queue → Queue) : (s.updQueue q f).arg = s.arg := rfl
@[simp] theorem updQueue_dies (s : State) (q : Fin 64) (f : Queue → Queue) : (s.updQueue q f).dies = s.dies := rfl
@[simp] theorem updQueue_bases (s : State) (q : Fin 64) (f : Queue → Queue) : (s.updQueue q f).bases = s.bases := rfl
@[simp] theorem updQueue_mem (s : State) (q : Fin 64) (f : Queue → Queue) : (s.updQueue q f).mem = s.mem := rfl
@[simp] theorem updQueue_poison (s : State) (q : Fin 64) (f : Queue → Queue) : (s.updQueue q f).poison = s.poison := rfl
@[simp] theorem updQueue_tags (s : State) (q : Fin 64) (f : Queue → Queue) : (s.updQueue q f).tags = s.tags := rfl
@[simp] theorem updQueue_clocks (s : State) (q : Fin 64) (f : Queue → Queue) : (s.updQueue q f).clocks = s.clocks := rfl
@[simp] theorem updQueue_handles (s : State) (q : Fin 64) (f : Queue → Queue) : (s.updQueue q f).handles = s.handles := rfl
@[simp] theorem updQueue_tasks (s : State) (q : Fin 64) (f : Queue → Queue) : (s.updQueue q f).tasks = s.tasks := rfl
@[simp] theorem updQueue_groups (s : State) (q : Fin 64) (f : Queue → Queue) : (s.updQueue q f).groups = s.groups := rfl
@[simp] theorem updQueue_gangs (s : State) (q : Fin 64) (f : Queue → Queue) : (s.updQueue q f).gangs = s.gangs := rfl
@[simp] theorem updQueue_disps (s : State) (q : Fin 64) (f : Queue → Queue) : (s.updQueue q f).disps = s.disps := rfl
@[simp] theorem updQueue_wins (s : State) (q : Fin 64) (f : Queue → Queue) : (s.updQueue q f).wins = s.wins := rfl
@[simp] theorem updQueue_invals (s : State) (q : Fin 64) (f : Queue → Queue) : (s.updQueue q f).invals = s.invals := rfl
@[simp] theorem updQueue_tree (s : State) (q : Fin 64) (f : Queue → Queue) : (s.updQueue q f).tree = s.tree := rfl
@[simp] theorem updQueue_ld (s : State) (q : Fin 64) (f : Queue → Queue) : (s.updQueue q f).ld = s.ld := rfl
@[simp] theorem updQueue_pw (s : State) (q : Fin 64) (f : Queue → Queue) : (s.updQueue q f).pw = s.pw := rfl
@[simp] theorem updQueue_sec (s : State) (q : Fin 64) (f : Queue → Queue) : (s.updQueue q f).sec = s.sec := rfl
@[simp] theorem updQueue_net (s : State) (q : Fin 64) (f : Queue → Queue) : (s.updQueue q f).net = s.net := rfl
@[simp] theorem updQueue_out (s : State) (q : Fin 64) (f : Queue → Queue) : (s.updQueue q f).out = s.out := rfl
@[simp] theorem updQueue_time (s : State) (q : Fin 64) (f : Queue → Queue) : (s.updQueue q f).time = s.time := rfl
@[simp] theorem updQueue_agenda (s : State) (q : Fin 64) (f : Queue → Queue) : (s.updQueue q f).agenda = s.agenda := rfl
@[simp] theorem updQueue_closed (s : State) (q : Fin 64) (f : Queue → Queue) : (s.updQueue q f).closed = s.closed := rfl
@[simp] theorem updQueue_barred (s : State) (q : Fin 64) (f : Queue → Queue) : (s.updQueue q f).barred = s.barred := rfl
@[simp] theorem updQueue_freed (s : State) (q : Fin 64) (f : Queue → Queue) : (s.updQueue q f).freed = s.freed := rfl
@[simp] theorem updQueue_freeCtr (s : State) (q : Fin 64) (f : Queue → Queue) : (s.updQueue q f).freeCtr = s.freeCtr := rfl
@[simp] theorem updQueue_nextId (s : State) (q : Fin 64) (f : Queue → Queue) : (s.updQueue q f).nextId = s.nextId := rfl

/-! ### updTask -/

@[simp] theorem updTask_cores (s : State) (tid : BitVec 32) (f : Task → Task) : (s.updTask tid f).cores = s.cores := rfl
@[simp] theorem updTask_cur (s : State) (tid : BitVec 32) (f : Task → Task) : (s.updTask tid f).cur = s.cur := rfl
@[simp] theorem updTask_turn (s : State) (tid : BitVec 32) (f : Task → Task) : (s.updTask tid f).turn = s.turn := rfl
@[simp] theorem updTask_ctx (s : State) (tid : BitVec 32) (f : Task → Task) : (s.updTask tid f).ctx = s.ctx := rfl
@[simp] theorem updTask_arg (s : State) (tid : BitVec 32) (f : Task → Task) : (s.updTask tid f).arg = s.arg := rfl
@[simp] theorem updTask_dies (s : State) (tid : BitVec 32) (f : Task → Task) : (s.updTask tid f).dies = s.dies := rfl
@[simp] theorem updTask_bases (s : State) (tid : BitVec 32) (f : Task → Task) : (s.updTask tid f).bases = s.bases := rfl
@[simp] theorem updTask_mem (s : State) (tid : BitVec 32) (f : Task → Task) : (s.updTask tid f).mem = s.mem := rfl
@[simp] theorem updTask_poison (s : State) (tid : BitVec 32) (f : Task → Task) : (s.updTask tid f).poison = s.poison := rfl
@[simp] theorem updTask_tags (s : State) (tid : BitVec 32) (f : Task → Task) : (s.updTask tid f).tags = s.tags := rfl
@[simp] theorem updTask_clocks (s : State) (tid : BitVec 32) (f : Task → Task) : (s.updTask tid f).clocks = s.clocks := rfl
@[simp] theorem updTask_handles (s : State) (tid : BitVec 32) (f : Task → Task) : (s.updTask tid f).handles = s.handles := rfl
@[simp] theorem updTask_groups (s : State) (tid : BitVec 32) (f : Task → Task) : (s.updTask tid f).groups = s.groups := rfl
@[simp] theorem updTask_gangs (s : State) (tid : BitVec 32) (f : Task → Task) : (s.updTask tid f).gangs = s.gangs := rfl
@[simp] theorem updTask_disps (s : State) (tid : BitVec 32) (f : Task → Task) : (s.updTask tid f).disps = s.disps := rfl
@[simp] theorem updTask_wins (s : State) (tid : BitVec 32) (f : Task → Task) : (s.updTask tid f).wins = s.wins := rfl
@[simp] theorem updTask_invals (s : State) (tid : BitVec 32) (f : Task → Task) : (s.updTask tid f).invals = s.invals := rfl
@[simp] theorem updTask_bel (s : State) (tid : BitVec 32) (f : Task → Task) : (s.updTask tid f).bel = s.bel := rfl
@[simp] theorem updTask_tree (s : State) (tid : BitVec 32) (f : Task → Task) : (s.updTask tid f).tree = s.tree := rfl
@[simp] theorem updTask_ld (s : State) (tid : BitVec 32) (f : Task → Task) : (s.updTask tid f).ld = s.ld := rfl
@[simp] theorem updTask_pw (s : State) (tid : BitVec 32) (f : Task → Task) : (s.updTask tid f).pw = s.pw := rfl
@[simp] theorem updTask_sec (s : State) (tid : BitVec 32) (f : Task → Task) : (s.updTask tid f).sec = s.sec := rfl
@[simp] theorem updTask_net (s : State) (tid : BitVec 32) (f : Task → Task) : (s.updTask tid f).net = s.net := rfl
@[simp] theorem updTask_out (s : State) (tid : BitVec 32) (f : Task → Task) : (s.updTask tid f).out = s.out := rfl
@[simp] theorem updTask_time (s : State) (tid : BitVec 32) (f : Task → Task) : (s.updTask tid f).time = s.time := rfl
@[simp] theorem updTask_agenda (s : State) (tid : BitVec 32) (f : Task → Task) : (s.updTask tid f).agenda = s.agenda := rfl
@[simp] theorem updTask_closed (s : State) (tid : BitVec 32) (f : Task → Task) : (s.updTask tid f).closed = s.closed := rfl
@[simp] theorem updTask_barred (s : State) (tid : BitVec 32) (f : Task → Task) : (s.updTask tid f).barred = s.barred := rfl
@[simp] theorem updTask_freed (s : State) (tid : BitVec 32) (f : Task → Task) : (s.updTask tid f).freed = s.freed := rfl
@[simp] theorem updTask_freeCtr (s : State) (tid : BitVec 32) (f : Task → Task) : (s.updTask tid f).freeCtr = s.freeCtr := rfl
@[simp] theorem updTask_nextId (s : State) (tid : BitVec 32) (f : Task → Task) : (s.updTask tid f).nextId = s.nextId := rfl

/-! ### post -/

@[simp] theorem post_cores (s : State) (dt : Nat) (row : Instr) (a : Arg) : (s.post dt row a).cores = s.cores := rfl
@[simp] theorem post_cur (s : State) (dt : Nat) (row : Instr) (a : Arg) : (s.post dt row a).cur = s.cur := rfl
@[simp] theorem post_turn (s : State) (dt : Nat) (row : Instr) (a : Arg) : (s.post dt row a).turn = s.turn := rfl
@[simp] theorem post_ctx (s : State) (dt : Nat) (row : Instr) (a : Arg) : (s.post dt row a).ctx = s.ctx := rfl
@[simp] theorem post_arg (s : State) (dt : Nat) (row : Instr) (a : Arg) : (s.post dt row a).arg = s.arg := rfl
@[simp] theorem post_dies (s : State) (dt : Nat) (row : Instr) (a : Arg) : (s.post dt row a).dies = s.dies := rfl
@[simp] theorem post_bases (s : State) (dt : Nat) (row : Instr) (a : Arg) : (s.post dt row a).bases = s.bases := rfl
@[simp] theorem post_mem (s : State) (dt : Nat) (row : Instr) (a : Arg) : (s.post dt row a).mem = s.mem := rfl
@[simp] theorem post_poison (s : State) (dt : Nat) (row : Instr) (a : Arg) : (s.post dt row a).poison = s.poison := rfl
@[simp] theorem post_tags (s : State) (dt : Nat) (row : Instr) (a : Arg) : (s.post dt row a).tags = s.tags := rfl
@[simp] theorem post_clocks (s : State) (dt : Nat) (row : Instr) (a : Arg) : (s.post dt row a).clocks = s.clocks := rfl
@[simp] theorem post_handles (s : State) (dt : Nat) (row : Instr) (a : Arg) : (s.post dt row a).handles = s.handles := rfl
@[simp] theorem post_tasks (s : State) (dt : Nat) (row : Instr) (a : Arg) : (s.post dt row a).tasks = s.tasks := rfl
@[simp] theorem post_groups (s : State) (dt : Nat) (row : Instr) (a : Arg) : (s.post dt row a).groups = s.groups := rfl
@[simp] theorem post_gangs (s : State) (dt : Nat) (row : Instr) (a : Arg) : (s.post dt row a).gangs = s.gangs := rfl
@[simp] theorem post_disps (s : State) (dt : Nat) (row : Instr) (a : Arg) : (s.post dt row a).disps = s.disps := rfl
@[simp] theorem post_wins (s : State) (dt : Nat) (row : Instr) (a : Arg) : (s.post dt row a).wins = s.wins := rfl
@[simp] theorem post_invals (s : State) (dt : Nat) (row : Instr) (a : Arg) : (s.post dt row a).invals = s.invals := rfl
@[simp] theorem post_bel (s : State) (dt : Nat) (row : Instr) (a : Arg) : (s.post dt row a).bel = s.bel := rfl
@[simp] theorem post_tree (s : State) (dt : Nat) (row : Instr) (a : Arg) : (s.post dt row a).tree = s.tree := rfl
@[simp] theorem post_ld (s : State) (dt : Nat) (row : Instr) (a : Arg) : (s.post dt row a).ld = s.ld := rfl
@[simp] theorem post_pw (s : State) (dt : Nat) (row : Instr) (a : Arg) : (s.post dt row a).pw = s.pw := rfl
@[simp] theorem post_sec (s : State) (dt : Nat) (row : Instr) (a : Arg) : (s.post dt row a).sec = s.sec := rfl
@[simp] theorem post_net (s : State) (dt : Nat) (row : Instr) (a : Arg) : (s.post dt row a).net = s.net := rfl
@[simp] theorem post_out (s : State) (dt : Nat) (row : Instr) (a : Arg) : (s.post dt row a).out = s.out := rfl
@[simp] theorem post_time (s : State) (dt : Nat) (row : Instr) (a : Arg) : (s.post dt row a).time = s.time := rfl
@[simp] theorem post_closed (s : State) (dt : Nat) (row : Instr) (a : Arg) : (s.post dt row a).closed = s.closed := rfl
@[simp] theorem post_barred (s : State) (dt : Nat) (row : Instr) (a : Arg) : (s.post dt row a).barred = s.barred := rfl
@[simp] theorem post_freed (s : State) (dt : Nat) (row : Instr) (a : Arg) : (s.post dt row a).freed = s.freed := rfl
@[simp] theorem post_freeCtr (s : State) (dt : Nat) (row : Instr) (a : Arg) : (s.post dt row a).freeCtr = s.freeCtr := rfl
@[simp] theorem post_nextId (s : State) (dt : Nat) (row : Instr) (a : Arg) : (s.post dt row a).nextId = s.nextId := rfl

/-! ### postLater -/

@[simp] theorem postLater_cores (s : State) (n : Nat) (row : Instr) (a : Arg) : (s.postLater n row a).cores = s.cores := rfl
@[simp] theorem postLater_cur (s : State) (n : Nat) (row : Instr) (a : Arg) : (s.postLater n row a).cur = s.cur := rfl
@[simp] theorem postLater_turn (s : State) (n : Nat) (row : Instr) (a : Arg) : (s.postLater n row a).turn = s.turn := rfl
@[simp] theorem postLater_ctx (s : State) (n : Nat) (row : Instr) (a : Arg) : (s.postLater n row a).ctx = s.ctx := rfl
@[simp] theorem postLater_arg (s : State) (n : Nat) (row : Instr) (a : Arg) : (s.postLater n row a).arg = s.arg := rfl
@[simp] theorem postLater_dies (s : State) (n : Nat) (row : Instr) (a : Arg) : (s.postLater n row a).dies = s.dies := rfl
@[simp] theorem postLater_bases (s : State) (n : Nat) (row : Instr) (a : Arg) : (s.postLater n row a).bases = s.bases := rfl
@[simp] theorem postLater_mem (s : State) (n : Nat) (row : Instr) (a : Arg) : (s.postLater n row a).mem = s.mem := rfl
@[simp] theorem postLater_poison (s : State) (n : Nat) (row : Instr) (a : Arg) : (s.postLater n row a).poison = s.poison := rfl
@[simp] theorem postLater_tags (s : State) (n : Nat) (row : Instr) (a : Arg) : (s.postLater n row a).tags = s.tags := rfl
@[simp] theorem postLater_clocks (s : State) (n : Nat) (row : Instr) (a : Arg) : (s.postLater n row a).clocks = s.clocks := rfl
@[simp] theorem postLater_handles (s : State) (n : Nat) (row : Instr) (a : Arg) : (s.postLater n row a).handles = s.handles := rfl
@[simp] theorem postLater_tasks (s : State) (n : Nat) (row : Instr) (a : Arg) : (s.postLater n row a).tasks = s.tasks := rfl
@[simp] theorem postLater_groups (s : State) (n : Nat) (row : Instr) (a : Arg) : (s.postLater n row a).groups = s.groups := rfl
@[simp] theorem postLater_gangs (s : State) (n : Nat) (row : Instr) (a : Arg) : (s.postLater n row a).gangs = s.gangs := rfl
@[simp] theorem postLater_disps (s : State) (n : Nat) (row : Instr) (a : Arg) : (s.postLater n row a).disps = s.disps := rfl
@[simp] theorem postLater_wins (s : State) (n : Nat) (row : Instr) (a : Arg) : (s.postLater n row a).wins = s.wins := rfl
@[simp] theorem postLater_invals (s : State) (n : Nat) (row : Instr) (a : Arg) : (s.postLater n row a).invals = s.invals := rfl
@[simp] theorem postLater_bel (s : State) (n : Nat) (row : Instr) (a : Arg) : (s.postLater n row a).bel = s.bel := rfl
@[simp] theorem postLater_tree (s : State) (n : Nat) (row : Instr) (a : Arg) : (s.postLater n row a).tree = s.tree := rfl
@[simp] theorem postLater_ld (s : State) (n : Nat) (row : Instr) (a : Arg) : (s.postLater n row a).ld = s.ld := rfl
@[simp] theorem postLater_pw (s : State) (n : Nat) (row : Instr) (a : Arg) : (s.postLater n row a).pw = s.pw := rfl
@[simp] theorem postLater_sec (s : State) (n : Nat) (row : Instr) (a : Arg) : (s.postLater n row a).sec = s.sec := rfl
@[simp] theorem postLater_net (s : State) (n : Nat) (row : Instr) (a : Arg) : (s.postLater n row a).net = s.net := rfl
@[simp] theorem postLater_out (s : State) (n : Nat) (row : Instr) (a : Arg) : (s.postLater n row a).out = s.out := rfl
@[simp] theorem postLater_time (s : State) (n : Nat) (row : Instr) (a : Arg) : (s.postLater n row a).time = s.time := rfl
@[simp] theorem postLater_closed (s : State) (n : Nat) (row : Instr) (a : Arg) : (s.postLater n row a).closed = s.closed := rfl
@[simp] theorem postLater_barred (s : State) (n : Nat) (row : Instr) (a : Arg) : (s.postLater n row a).barred = s.barred := rfl
@[simp] theorem postLater_freed (s : State) (n : Nat) (row : Instr) (a : Arg) : (s.postLater n row a).freed = s.freed := rfl
@[simp] theorem postLater_nextId (s : State) (n : Nat) (row : Instr) (a : Arg) : (s.postLater n row a).nextId = s.nextId := rfl

/-! ### postCore -/

@[simp] theorem postCore_cur (s : State) (c : CoreId) (n : Nat) (row : Instr) (a : Arg) : (s.postCore c n row a).cur = s.cur := rfl
@[simp] theorem postCore_turn (s : State) (c : CoreId) (n : Nat) (row : Instr) (a : Arg) : (s.postCore c n row a).turn = s.turn := rfl
@[simp] theorem postCore_ctx (s : State) (c : CoreId) (n : Nat) (row : Instr) (a : Arg) : (s.postCore c n row a).ctx = s.ctx := rfl
@[simp] theorem postCore_arg (s : State) (c : CoreId) (n : Nat) (row : Instr) (a : Arg) : (s.postCore c n row a).arg = s.arg := rfl
@[simp] theorem postCore_dies (s : State) (c : CoreId) (n : Nat) (row : Instr) (a : Arg) : (s.postCore c n row a).dies = s.dies := rfl
@[simp] theorem postCore_bases (s : State) (c : CoreId) (n : Nat) (row : Instr) (a : Arg) : (s.postCore c n row a).bases = s.bases := rfl
@[simp] theorem postCore_mem (s : State) (c : CoreId) (n : Nat) (row : Instr) (a : Arg) : (s.postCore c n row a).mem = s.mem := rfl
@[simp] theorem postCore_poison (s : State) (c : CoreId) (n : Nat) (row : Instr) (a : Arg) : (s.postCore c n row a).poison = s.poison := rfl
@[simp] theorem postCore_tags (s : State) (c : CoreId) (n : Nat) (row : Instr) (a : Arg) : (s.postCore c n row a).tags = s.tags := rfl
@[simp] theorem postCore_clocks (s : State) (c : CoreId) (n : Nat) (row : Instr) (a : Arg) : (s.postCore c n row a).clocks = s.clocks := rfl
@[simp] theorem postCore_handles (s : State) (c : CoreId) (n : Nat) (row : Instr) (a : Arg) : (s.postCore c n row a).handles = s.handles := rfl
@[simp] theorem postCore_tasks (s : State) (c : CoreId) (n : Nat) (row : Instr) (a : Arg) : (s.postCore c n row a).tasks = s.tasks := rfl
@[simp] theorem postCore_groups (s : State) (c : CoreId) (n : Nat) (row : Instr) (a : Arg) : (s.postCore c n row a).groups = s.groups := rfl
@[simp] theorem postCore_gangs (s : State) (c : CoreId) (n : Nat) (row : Instr) (a : Arg) : (s.postCore c n row a).gangs = s.gangs := rfl
@[simp] theorem postCore_disps (s : State) (c : CoreId) (n : Nat) (row : Instr) (a : Arg) : (s.postCore c n row a).disps = s.disps := rfl
@[simp] theorem postCore_wins (s : State) (c : CoreId) (n : Nat) (row : Instr) (a : Arg) : (s.postCore c n row a).wins = s.wins := rfl
@[simp] theorem postCore_invals (s : State) (c : CoreId) (n : Nat) (row : Instr) (a : Arg) : (s.postCore c n row a).invals = s.invals := rfl
@[simp] theorem postCore_bel (s : State) (c : CoreId) (n : Nat) (row : Instr) (a : Arg) : (s.postCore c n row a).bel = s.bel := rfl
@[simp] theorem postCore_tree (s : State) (c : CoreId) (n : Nat) (row : Instr) (a : Arg) : (s.postCore c n row a).tree = s.tree := rfl
@[simp] theorem postCore_ld (s : State) (c : CoreId) (n : Nat) (row : Instr) (a : Arg) : (s.postCore c n row a).ld = s.ld := rfl
@[simp] theorem postCore_pw (s : State) (c : CoreId) (n : Nat) (row : Instr) (a : Arg) : (s.postCore c n row a).pw = s.pw := rfl
@[simp] theorem postCore_sec (s : State) (c : CoreId) (n : Nat) (row : Instr) (a : Arg) : (s.postCore c n row a).sec = s.sec := rfl
@[simp] theorem postCore_net (s : State) (c : CoreId) (n : Nat) (row : Instr) (a : Arg) : (s.postCore c n row a).net = s.net := rfl
@[simp] theorem postCore_out (s : State) (c : CoreId) (n : Nat) (row : Instr) (a : Arg) : (s.postCore c n row a).out = s.out := rfl
@[simp] theorem postCore_time (s : State) (c : CoreId) (n : Nat) (row : Instr) (a : Arg) : (s.postCore c n row a).time = s.time := rfl
@[simp] theorem postCore_agenda (s : State) (c : CoreId) (n : Nat) (row : Instr) (a : Arg) : (s.postCore c n row a).agenda = s.agenda := rfl
@[simp] theorem postCore_closed (s : State) (c : CoreId) (n : Nat) (row : Instr) (a : Arg) : (s.postCore c n row a).closed = s.closed := rfl
@[simp] theorem postCore_barred (s : State) (c : CoreId) (n : Nat) (row : Instr) (a : Arg) : (s.postCore c n row a).barred = s.barred := rfl
@[simp] theorem postCore_freed (s : State) (c : CoreId) (n : Nat) (row : Instr) (a : Arg) : (s.postCore c n row a).freed = s.freed := rfl
@[simp] theorem postCore_freeCtr (s : State) (c : CoreId) (n : Nat) (row : Instr) (a : Arg) : (s.postCore c n row a).freeCtr = s.freeCtr := rfl
@[simp] theorem postCore_nextId (s : State) (c : CoreId) (n : Nat) (row : Instr) (a : Arg) : (s.postCore c n row a).nextId = s.nextId := rfl

/-! ### postFree -/

@[simp] theorem postFree_cur (s : State) (c : CoreId) (n : Nat) (row : Instr) (a : Arg) : (s.postFree c n row a).cur = s.cur := rfl
@[simp] theorem postFree_turn (s : State) (c : CoreId) (n : Nat) (row : Instr) (a : Arg) : (s.postFree c n row a).turn = s.turn := rfl
@[simp] theorem postFree_ctx (s : State) (c : CoreId) (n : Nat) (row : Instr) (a : Arg) : (s.postFree c n row a).ctx = s.ctx := rfl
@[simp] theorem postFree_arg (s : State) (c : CoreId) (n : Nat) (row : Instr) (a : Arg) : (s.postFree c n row a).arg = s.arg := rfl
@[simp] theorem postFree_dies (s : State) (c : CoreId) (n : Nat) (row : Instr) (a : Arg) : (s.postFree c n row a).dies = s.dies := rfl
@[simp] theorem postFree_bases (s : State) (c : CoreId) (n : Nat) (row : Instr) (a : Arg) : (s.postFree c n row a).bases = s.bases := rfl
@[simp] theorem postFree_mem (s : State) (c : CoreId) (n : Nat) (row : Instr) (a : Arg) : (s.postFree c n row a).mem = s.mem := rfl
@[simp] theorem postFree_poison (s : State) (c : CoreId) (n : Nat) (row : Instr) (a : Arg) : (s.postFree c n row a).poison = s.poison := rfl
@[simp] theorem postFree_tags (s : State) (c : CoreId) (n : Nat) (row : Instr) (a : Arg) : (s.postFree c n row a).tags = s.tags := rfl
@[simp] theorem postFree_clocks (s : State) (c : CoreId) (n : Nat) (row : Instr) (a : Arg) : (s.postFree c n row a).clocks = s.clocks := rfl
@[simp] theorem postFree_handles (s : State) (c : CoreId) (n : Nat) (row : Instr) (a : Arg) : (s.postFree c n row a).handles = s.handles := rfl
@[simp] theorem postFree_tasks (s : State) (c : CoreId) (n : Nat) (row : Instr) (a : Arg) : (s.postFree c n row a).tasks = s.tasks := rfl
@[simp] theorem postFree_groups (s : State) (c : CoreId) (n : Nat) (row : Instr) (a : Arg) : (s.postFree c n row a).groups = s.groups := rfl
@[simp] theorem postFree_gangs (s : State) (c : CoreId) (n : Nat) (row : Instr) (a : Arg) : (s.postFree c n row a).gangs = s.gangs := rfl
@[simp] theorem postFree_disps (s : State) (c : CoreId) (n : Nat) (row : Instr) (a : Arg) : (s.postFree c n row a).disps = s.disps := rfl
@[simp] theorem postFree_wins (s : State) (c : CoreId) (n : Nat) (row : Instr) (a : Arg) : (s.postFree c n row a).wins = s.wins := rfl
@[simp] theorem postFree_invals (s : State) (c : CoreId) (n : Nat) (row : Instr) (a : Arg) : (s.postFree c n row a).invals = s.invals := rfl
@[simp] theorem postFree_bel (s : State) (c : CoreId) (n : Nat) (row : Instr) (a : Arg) : (s.postFree c n row a).bel = s.bel := rfl
@[simp] theorem postFree_tree (s : State) (c : CoreId) (n : Nat) (row : Instr) (a : Arg) : (s.postFree c n row a).tree = s.tree := rfl
@[simp] theorem postFree_ld (s : State) (c : CoreId) (n : Nat) (row : Instr) (a : Arg) : (s.postFree c n row a).ld = s.ld := rfl
@[simp] theorem postFree_pw (s : State) (c : CoreId) (n : Nat) (row : Instr) (a : Arg) : (s.postFree c n row a).pw = s.pw := rfl
@[simp] theorem postFree_sec (s : State) (c : CoreId) (n : Nat) (row : Instr) (a : Arg) : (s.postFree c n row a).sec = s.sec := rfl
@[simp] theorem postFree_net (s : State) (c : CoreId) (n : Nat) (row : Instr) (a : Arg) : (s.postFree c n row a).net = s.net := rfl
@[simp] theorem postFree_out (s : State) (c : CoreId) (n : Nat) (row : Instr) (a : Arg) : (s.postFree c n row a).out = s.out := rfl
@[simp] theorem postFree_time (s : State) (c : CoreId) (n : Nat) (row : Instr) (a : Arg) : (s.postFree c n row a).time = s.time := rfl
@[simp] theorem postFree_agenda (s : State) (c : CoreId) (n : Nat) (row : Instr) (a : Arg) : (s.postFree c n row a).agenda = s.agenda := rfl
@[simp] theorem postFree_closed (s : State) (c : CoreId) (n : Nat) (row : Instr) (a : Arg) : (s.postFree c n row a).closed = s.closed := rfl
@[simp] theorem postFree_barred (s : State) (c : CoreId) (n : Nat) (row : Instr) (a : Arg) : (s.postFree c n row a).barred = s.barred := rfl
@[simp] theorem postFree_freed (s : State) (c : CoreId) (n : Nat) (row : Instr) (a : Arg) : (s.postFree c n row a).freed = s.freed := rfl
@[simp] theorem postFree_nextId (s : State) (c : CoreId) (n : Nat) (row : Instr) (a : Arg) : (s.postFree c n row a).nextId = s.nextId := rfl

/-! ### bump -/

@[simp] theorem bump_cores (s : State) : (s.bump).cores = s.cores := rfl
@[simp] theorem bump_cur (s : State) : (s.bump).cur = s.cur := rfl
@[simp] theorem bump_turn (s : State) : (s.bump).turn = s.turn := rfl
@[simp] theorem bump_ctx (s : State) : (s.bump).ctx = s.ctx := rfl
@[simp] theorem bump_arg (s : State) : (s.bump).arg = s.arg := rfl
@[simp] theorem bump_dies (s : State) : (s.bump).dies = s.dies := rfl
@[simp] theorem bump_bases (s : State) : (s.bump).bases = s.bases := rfl
@[simp] theorem bump_mem (s : State) : (s.bump).mem = s.mem := rfl
@[simp] theorem bump_poison (s : State) : (s.bump).poison = s.poison := rfl
@[simp] theorem bump_tags (s : State) : (s.bump).tags = s.tags := rfl
@[simp] theorem bump_clocks (s : State) : (s.bump).clocks = s.clocks := rfl
@[simp] theorem bump_handles (s : State) : (s.bump).handles = s.handles := rfl
@[simp] theorem bump_tasks (s : State) : (s.bump).tasks = s.tasks := rfl
@[simp] theorem bump_groups (s : State) : (s.bump).groups = s.groups := rfl
@[simp] theorem bump_gangs (s : State) : (s.bump).gangs = s.gangs := rfl
@[simp] theorem bump_disps (s : State) : (s.bump).disps = s.disps := rfl
@[simp] theorem bump_wins (s : State) : (s.bump).wins = s.wins := rfl
@[simp] theorem bump_invals (s : State) : (s.bump).invals = s.invals := rfl
@[simp] theorem bump_bel (s : State) : (s.bump).bel = s.bel := rfl
@[simp] theorem bump_tree (s : State) : (s.bump).tree = s.tree := rfl
@[simp] theorem bump_ld (s : State) : (s.bump).ld = s.ld := rfl
@[simp] theorem bump_pw (s : State) : (s.bump).pw = s.pw := rfl
@[simp] theorem bump_sec (s : State) : (s.bump).sec = s.sec := rfl
@[simp] theorem bump_net (s : State) : (s.bump).net = s.net := rfl
@[simp] theorem bump_out (s : State) : (s.bump).out = s.out := rfl
@[simp] theorem bump_time (s : State) : (s.bump).time = s.time := rfl
@[simp] theorem bump_agenda (s : State) : (s.bump).agenda = s.agenda := rfl
@[simp] theorem bump_closed (s : State) : (s.bump).closed = s.closed := rfl
@[simp] theorem bump_barred (s : State) : (s.bump).barred = s.barred := rfl
@[simp] theorem bump_freed (s : State) : (s.bump).freed = s.freed := rfl
@[simp] theorem bump_freeCtr (s : State) : (s.bump).freeCtr = s.freeCtr := rfl

/-! ### tick -/

@[simp] theorem tick_cores (s : State) : (s.tick).cores = s.cores := rfl
@[simp] theorem tick_cur (s : State) : (s.tick).cur = s.cur := rfl
@[simp] theorem tick_turn (s : State) : (s.tick).turn = s.turn := rfl
@[simp] theorem tick_ctx (s : State) : (s.tick).ctx = s.ctx := rfl
@[simp] theorem tick_arg (s : State) : (s.tick).arg = s.arg := rfl
@[simp] theorem tick_dies (s : State) : (s.tick).dies = s.dies := rfl
@[simp] theorem tick_bases (s : State) : (s.tick).bases = s.bases := rfl
@[simp] theorem tick_mem (s : State) : (s.tick).mem = s.mem := rfl
@[simp] theorem tick_poison (s : State) : (s.tick).poison = s.poison := rfl
@[simp] theorem tick_tags (s : State) : (s.tick).tags = s.tags := rfl
@[simp] theorem tick_clocks (s : State) : (s.tick).clocks = s.clocks := rfl
@[simp] theorem tick_handles (s : State) : (s.tick).handles = s.handles := rfl
@[simp] theorem tick_tasks (s : State) : (s.tick).tasks = s.tasks := rfl
@[simp] theorem tick_groups (s : State) : (s.tick).groups = s.groups := rfl
@[simp] theorem tick_gangs (s : State) : (s.tick).gangs = s.gangs := rfl
@[simp] theorem tick_disps (s : State) : (s.tick).disps = s.disps := rfl
@[simp] theorem tick_wins (s : State) : (s.tick).wins = s.wins := rfl
@[simp] theorem tick_invals (s : State) : (s.tick).invals = s.invals := rfl
@[simp] theorem tick_bel (s : State) : (s.tick).bel = s.bel := rfl
@[simp] theorem tick_tree (s : State) : (s.tick).tree = s.tree := rfl
@[simp] theorem tick_ld (s : State) : (s.tick).ld = s.ld := rfl
@[simp] theorem tick_pw (s : State) : (s.tick).pw = s.pw := rfl
@[simp] theorem tick_sec (s : State) : (s.tick).sec = s.sec := rfl
@[simp] theorem tick_net (s : State) : (s.tick).net = s.net := rfl
@[simp] theorem tick_out (s : State) : (s.tick).out = s.out := rfl
@[simp] theorem tick_time (s : State) : (s.tick).time = s.time := rfl
@[simp] theorem tick_agenda (s : State) : (s.tick).agenda = s.agenda := rfl
@[simp] theorem tick_closed (s : State) : (s.tick).closed = s.closed := rfl
@[simp] theorem tick_barred (s : State) : (s.tick).barred = s.barred := rfl
@[simp] theorem tick_freed (s : State) : (s.tick).freed = s.freed := rfl
@[simp] theorem tick_nextId (s : State) : (s.tick).nextId = s.nextId := rfl

/-! ### addPoison -/

@[simp] theorem addPoison_cores (s : State) (pa n src : Nat) : (s.addPoison pa n src).cores = s.cores := rfl
@[simp] theorem addPoison_cur (s : State) (pa n src : Nat) : (s.addPoison pa n src).cur = s.cur := rfl
@[simp] theorem addPoison_turn (s : State) (pa n src : Nat) : (s.addPoison pa n src).turn = s.turn := rfl
@[simp] theorem addPoison_ctx (s : State) (pa n src : Nat) : (s.addPoison pa n src).ctx = s.ctx := rfl
@[simp] theorem addPoison_arg (s : State) (pa n src : Nat) : (s.addPoison pa n src).arg = s.arg := rfl
@[simp] theorem addPoison_dies (s : State) (pa n src : Nat) : (s.addPoison pa n src).dies = s.dies := rfl
@[simp] theorem addPoison_bases (s : State) (pa n src : Nat) : (s.addPoison pa n src).bases = s.bases := rfl
@[simp] theorem addPoison_mem (s : State) (pa n src : Nat) : (s.addPoison pa n src).mem = s.mem := rfl
@[simp] theorem addPoison_tags (s : State) (pa n src : Nat) : (s.addPoison pa n src).tags = s.tags := rfl
@[simp] theorem addPoison_clocks (s : State) (pa n src : Nat) : (s.addPoison pa n src).clocks = s.clocks := rfl
@[simp] theorem addPoison_handles (s : State) (pa n src : Nat) : (s.addPoison pa n src).handles = s.handles := rfl
@[simp] theorem addPoison_tasks (s : State) (pa n src : Nat) : (s.addPoison pa n src).tasks = s.tasks := rfl
@[simp] theorem addPoison_groups (s : State) (pa n src : Nat) : (s.addPoison pa n src).groups = s.groups := rfl
@[simp] theorem addPoison_gangs (s : State) (pa n src : Nat) : (s.addPoison pa n src).gangs = s.gangs := rfl
@[simp] theorem addPoison_disps (s : State) (pa n src : Nat) : (s.addPoison pa n src).disps = s.disps := rfl
@[simp] theorem addPoison_wins (s : State) (pa n src : Nat) : (s.addPoison pa n src).wins = s.wins := rfl
@[simp] theorem addPoison_invals (s : State) (pa n src : Nat) : (s.addPoison pa n src).invals = s.invals := rfl
@[simp] theorem addPoison_bel (s : State) (pa n src : Nat) : (s.addPoison pa n src).bel = s.bel := rfl
@[simp] theorem addPoison_tree (s : State) (pa n src : Nat) : (s.addPoison pa n src).tree = s.tree := rfl
@[simp] theorem addPoison_ld (s : State) (pa n src : Nat) : (s.addPoison pa n src).ld = s.ld := rfl
@[simp] theorem addPoison_pw (s : State) (pa n src : Nat) : (s.addPoison pa n src).pw = s.pw := rfl
@[simp] theorem addPoison_sec (s : State) (pa n src : Nat) : (s.addPoison pa n src).sec = s.sec := rfl
@[simp] theorem addPoison_net (s : State) (pa n src : Nat) : (s.addPoison pa n src).net = s.net := rfl
@[simp] theorem addPoison_out (s : State) (pa n src : Nat) : (s.addPoison pa n src).out = s.out := rfl
@[simp] theorem addPoison_time (s : State) (pa n src : Nat) : (s.addPoison pa n src).time = s.time := rfl
@[simp] theorem addPoison_agenda (s : State) (pa n src : Nat) : (s.addPoison pa n src).agenda = s.agenda := rfl
@[simp] theorem addPoison_closed (s : State) (pa n src : Nat) : (s.addPoison pa n src).closed = s.closed := rfl
@[simp] theorem addPoison_barred (s : State) (pa n src : Nat) : (s.addPoison pa n src).barred = s.barred := rfl
@[simp] theorem addPoison_freed (s : State) (pa n src : Nat) : (s.addPoison pa n src).freed = s.freed := rfl
@[simp] theorem addPoison_freeCtr (s : State) (pa n src : Nat) : (s.addPoison pa n src).freeCtr = s.freeCtr := rfl
@[simp] theorem addPoison_nextId (s : State) (pa n src : Nat) : (s.addPoison pa n src).nextId = s.nextId := rfl

/-! ### arrive -/

@[simp] theorem arrive_cores (s : State) (pa n : Nat) (e : Need) : (s.arrive pa n e).cores = s.cores := rfl
@[simp] theorem arrive_cur (s : State) (pa n : Nat) (e : Need) : (s.arrive pa n e).cur = s.cur := rfl
@[simp] theorem arrive_turn (s : State) (pa n : Nat) (e : Need) : (s.arrive pa n e).turn = s.turn := rfl
@[simp] theorem arrive_ctx (s : State) (pa n : Nat) (e : Need) : (s.arrive pa n e).ctx = s.ctx := rfl
@[simp] theorem arrive_arg (s : State) (pa n : Nat) (e : Need) : (s.arrive pa n e).arg = s.arg := rfl
@[simp] theorem arrive_dies (s : State) (pa n : Nat) (e : Need) : (s.arrive pa n e).dies = s.dies := rfl
@[simp] theorem arrive_bases (s : State) (pa n : Nat) (e : Need) : (s.arrive pa n e).bases = s.bases := rfl
@[simp] theorem arrive_mem (s : State) (pa n : Nat) (e : Need) : (s.arrive pa n e).mem = s.mem := rfl
@[simp] theorem arrive_poison (s : State) (pa n : Nat) (e : Need) : (s.arrive pa n e).poison = s.poison := rfl
@[simp] theorem arrive_tags (s : State) (pa n : Nat) (e : Need) : (s.arrive pa n e).tags = s.tags := rfl
@[simp] theorem arrive_clocks (s : State) (pa n : Nat) (e : Need) : (s.arrive pa n e).clocks = s.clocks := rfl
@[simp] theorem arrive_handles (s : State) (pa n : Nat) (e : Need) : (s.arrive pa n e).handles = s.handles := rfl
@[simp] theorem arrive_tasks (s : State) (pa n : Nat) (e : Need) : (s.arrive pa n e).tasks = s.tasks := rfl
@[simp] theorem arrive_groups (s : State) (pa n : Nat) (e : Need) : (s.arrive pa n e).groups = s.groups := rfl
@[simp] theorem arrive_gangs (s : State) (pa n : Nat) (e : Need) : (s.arrive pa n e).gangs = s.gangs := rfl
@[simp] theorem arrive_disps (s : State) (pa n : Nat) (e : Need) : (s.arrive pa n e).disps = s.disps := rfl
@[simp] theorem arrive_wins (s : State) (pa n : Nat) (e : Need) : (s.arrive pa n e).wins = s.wins := rfl
@[simp] theorem arrive_invals (s : State) (pa n : Nat) (e : Need) : (s.arrive pa n e).invals = s.invals := rfl
@[simp] theorem arrive_bel (s : State) (pa n : Nat) (e : Need) : (s.arrive pa n e).bel = s.bel := rfl
@[simp] theorem arrive_tree (s : State) (pa n : Nat) (e : Need) : (s.arrive pa n e).tree = s.tree := rfl
@[simp] theorem arrive_ld (s : State) (pa n : Nat) (e : Need) : (s.arrive pa n e).ld = s.ld := rfl
@[simp] theorem arrive_pw (s : State) (pa n : Nat) (e : Need) : (s.arrive pa n e).pw = s.pw := rfl
@[simp] theorem arrive_sec (s : State) (pa n : Nat) (e : Need) : (s.arrive pa n e).sec = s.sec := rfl
@[simp] theorem arrive_net (s : State) (pa n : Nat) (e : Need) : (s.arrive pa n e).net = s.net := rfl
@[simp] theorem arrive_out (s : State) (pa n : Nat) (e : Need) : (s.arrive pa n e).out = s.out := rfl
@[simp] theorem arrive_time (s : State) (pa n : Nat) (e : Need) : (s.arrive pa n e).time = s.time := rfl
@[simp] theorem arrive_barred (s : State) (pa n : Nat) (e : Need) : (s.arrive pa n e).barred = s.barred := rfl
@[simp] theorem arrive_freed (s : State) (pa n : Nat) (e : Need) : (s.arrive pa n e).freed = s.freed := rfl
@[simp] theorem arrive_freeCtr (s : State) (pa n : Nat) (e : Need) : (s.arrive pa n e).freeCtr = s.freeCtr := rfl
@[simp] theorem arrive_nextId (s : State) (pa n : Nat) (e : Need) : (s.arrive pa n e).nextId = s.nextId := rfl

/-! ### updClock -/

@[simp] theorem updClock_cores (s : State) (w : Nat) (f : Clock → Clock) : (s.updClock w f).cores = s.cores := rfl
@[simp] theorem updClock_cur (s : State) (w : Nat) (f : Clock → Clock) : (s.updClock w f).cur = s.cur := rfl
@[simp] theorem updClock_turn (s : State) (w : Nat) (f : Clock → Clock) : (s.updClock w f).turn = s.turn := rfl
@[simp] theorem updClock_ctx (s : State) (w : Nat) (f : Clock → Clock) : (s.updClock w f).ctx = s.ctx := rfl
@[simp] theorem updClock_arg (s : State) (w : Nat) (f : Clock → Clock) : (s.updClock w f).arg = s.arg := rfl
@[simp] theorem updClock_dies (s : State) (w : Nat) (f : Clock → Clock) : (s.updClock w f).dies = s.dies := rfl
@[simp] theorem updClock_bases (s : State) (w : Nat) (f : Clock → Clock) : (s.updClock w f).bases = s.bases := rfl
@[simp] theorem updClock_mem (s : State) (w : Nat) (f : Clock → Clock) : (s.updClock w f).mem = s.mem := rfl
@[simp] theorem updClock_poison (s : State) (w : Nat) (f : Clock → Clock) : (s.updClock w f).poison = s.poison := rfl
@[simp] theorem updClock_tags (s : State) (w : Nat) (f : Clock → Clock) : (s.updClock w f).tags = s.tags := rfl
@[simp] theorem updClock_handles (s : State) (w : Nat) (f : Clock → Clock) : (s.updClock w f).handles = s.handles := rfl
@[simp] theorem updClock_tasks (s : State) (w : Nat) (f : Clock → Clock) : (s.updClock w f).tasks = s.tasks := rfl
@[simp] theorem updClock_groups (s : State) (w : Nat) (f : Clock → Clock) : (s.updClock w f).groups = s.groups := rfl
@[simp] theorem updClock_gangs (s : State) (w : Nat) (f : Clock → Clock) : (s.updClock w f).gangs = s.gangs := rfl
@[simp] theorem updClock_disps (s : State) (w : Nat) (f : Clock → Clock) : (s.updClock w f).disps = s.disps := rfl
@[simp] theorem updClock_wins (s : State) (w : Nat) (f : Clock → Clock) : (s.updClock w f).wins = s.wins := rfl
@[simp] theorem updClock_invals (s : State) (w : Nat) (f : Clock → Clock) : (s.updClock w f).invals = s.invals := rfl
@[simp] theorem updClock_bel (s : State) (w : Nat) (f : Clock → Clock) : (s.updClock w f).bel = s.bel := rfl
@[simp] theorem updClock_tree (s : State) (w : Nat) (f : Clock → Clock) : (s.updClock w f).tree = s.tree := rfl
@[simp] theorem updClock_ld (s : State) (w : Nat) (f : Clock → Clock) : (s.updClock w f).ld = s.ld := rfl
@[simp] theorem updClock_pw (s : State) (w : Nat) (f : Clock → Clock) : (s.updClock w f).pw = s.pw := rfl
@[simp] theorem updClock_sec (s : State) (w : Nat) (f : Clock → Clock) : (s.updClock w f).sec = s.sec := rfl
@[simp] theorem updClock_net (s : State) (w : Nat) (f : Clock → Clock) : (s.updClock w f).net = s.net := rfl
@[simp] theorem updClock_out (s : State) (w : Nat) (f : Clock → Clock) : (s.updClock w f).out = s.out := rfl
@[simp] theorem updClock_time (s : State) (w : Nat) (f : Clock → Clock) : (s.updClock w f).time = s.time := rfl
@[simp] theorem updClock_agenda (s : State) (w : Nat) (f : Clock → Clock) : (s.updClock w f).agenda = s.agenda := rfl
@[simp] theorem updClock_closed (s : State) (w : Nat) (f : Clock → Clock) : (s.updClock w f).closed = s.closed := rfl
@[simp] theorem updClock_barred (s : State) (w : Nat) (f : Clock → Clock) : (s.updClock w f).barred = s.barred := rfl
@[simp] theorem updClock_freed (s : State) (w : Nat) (f : Clock → Clock) : (s.updClock w f).freed = s.freed := rfl
@[simp] theorem updClock_freeCtr (s : State) (w : Nat) (f : Clock → Clock) : (s.updClock w f).freeCtr = s.freeCtr := rfl
@[simp] theorem updClock_nextId (s : State) (w : Nat) (f : Clock → Clock) : (s.updClock w f).nextId = s.nextId := rfl

/-! ### homeWriteEn -/

@[simp] theorem homeWriteEn_cores (s : State) (x : Stamp) (pa n v ben : Nat) (e : Need) (d : Option DieId) : (s.homeWriteEn x pa n v ben e d).cores = s.cores := rfl
@[simp] theorem homeWriteEn_cur (s : State) (x : Stamp) (pa n v ben : Nat) (e : Need) (d : Option DieId) : (s.homeWriteEn x pa n v ben e d).cur = s.cur := rfl
@[simp] theorem homeWriteEn_turn (s : State) (x : Stamp) (pa n v ben : Nat) (e : Need) (d : Option DieId) : (s.homeWriteEn x pa n v ben e d).turn = s.turn := rfl
@[simp] theorem homeWriteEn_ctx (s : State) (x : Stamp) (pa n v ben : Nat) (e : Need) (d : Option DieId) : (s.homeWriteEn x pa n v ben e d).ctx = s.ctx := rfl
@[simp] theorem homeWriteEn_arg (s : State) (x : Stamp) (pa n v ben : Nat) (e : Need) (d : Option DieId) : (s.homeWriteEn x pa n v ben e d).arg = s.arg := rfl
@[simp] theorem homeWriteEn_bases (s : State) (x : Stamp) (pa n v ben : Nat) (e : Need) (d : Option DieId) : (s.homeWriteEn x pa n v ben e d).bases = s.bases := rfl
@[simp] theorem homeWriteEn_clocks (s : State) (x : Stamp) (pa n v ben : Nat) (e : Need) (d : Option DieId) : (s.homeWriteEn x pa n v ben e d).clocks = s.clocks := rfl
@[simp] theorem homeWriteEn_handles (s : State) (x : Stamp) (pa n v ben : Nat) (e : Need) (d : Option DieId) : (s.homeWriteEn x pa n v ben e d).handles = s.handles := rfl
@[simp] theorem homeWriteEn_tasks (s : State) (x : Stamp) (pa n v ben : Nat) (e : Need) (d : Option DieId) : (s.homeWriteEn x pa n v ben e d).tasks = s.tasks := rfl
@[simp] theorem homeWriteEn_groups (s : State) (x : Stamp) (pa n v ben : Nat) (e : Need) (d : Option DieId) : (s.homeWriteEn x pa n v ben e d).groups = s.groups := rfl
@[simp] theorem homeWriteEn_gangs (s : State) (x : Stamp) (pa n v ben : Nat) (e : Need) (d : Option DieId) : (s.homeWriteEn x pa n v ben e d).gangs = s.gangs := rfl
@[simp] theorem homeWriteEn_disps (s : State) (x : Stamp) (pa n v ben : Nat) (e : Need) (d : Option DieId) : (s.homeWriteEn x pa n v ben e d).disps = s.disps := rfl
@[simp] theorem homeWriteEn_wins (s : State) (x : Stamp) (pa n v ben : Nat) (e : Need) (d : Option DieId) : (s.homeWriteEn x pa n v ben e d).wins = s.wins := rfl
@[simp] theorem homeWriteEn_invals (s : State) (x : Stamp) (pa n v ben : Nat) (e : Need) (d : Option DieId) : (s.homeWriteEn x pa n v ben e d).invals = s.invals := rfl
@[simp] theorem homeWriteEn_bel (s : State) (x : Stamp) (pa n v ben : Nat) (e : Need) (d : Option DieId) : (s.homeWriteEn x pa n v ben e d).bel = s.bel := rfl
@[simp] theorem homeWriteEn_tree (s : State) (x : Stamp) (pa n v ben : Nat) (e : Need) (d : Option DieId) : (s.homeWriteEn x pa n v ben e d).tree = s.tree := rfl
@[simp] theorem homeWriteEn_ld (s : State) (x : Stamp) (pa n v ben : Nat) (e : Need) (d : Option DieId) : (s.homeWriteEn x pa n v ben e d).ld = s.ld := rfl
@[simp] theorem homeWriteEn_pw (s : State) (x : Stamp) (pa n v ben : Nat) (e : Need) (d : Option DieId) : (s.homeWriteEn x pa n v ben e d).pw = s.pw := rfl
@[simp] theorem homeWriteEn_sec (s : State) (x : Stamp) (pa n v ben : Nat) (e : Need) (d : Option DieId) : (s.homeWriteEn x pa n v ben e d).sec = s.sec := rfl
@[simp] theorem homeWriteEn_net (s : State) (x : Stamp) (pa n v ben : Nat) (e : Need) (d : Option DieId) : (s.homeWriteEn x pa n v ben e d).net = s.net := rfl
@[simp] theorem homeWriteEn_out (s : State) (x : Stamp) (pa n v ben : Nat) (e : Need) (d : Option DieId) : (s.homeWriteEn x pa n v ben e d).out = s.out := rfl
@[simp] theorem homeWriteEn_time (s : State) (x : Stamp) (pa n v ben : Nat) (e : Need) (d : Option DieId) : (s.homeWriteEn x pa n v ben e d).time = s.time := rfl
@[simp] theorem homeWriteEn_barred (s : State) (x : Stamp) (pa n v ben : Nat) (e : Need) (d : Option DieId) : (s.homeWriteEn x pa n v ben e d).barred = s.barred := rfl
@[simp] theorem homeWriteEn_freed (s : State) (x : Stamp) (pa n v ben : Nat) (e : Need) (d : Option DieId) : (s.homeWriteEn x pa n v ben e d).freed = s.freed := rfl
@[simp] theorem homeWriteEn_freeCtr (s : State) (x : Stamp) (pa n v ben : Nat) (e : Need) (d : Option DieId) : (s.homeWriteEn x pa n v ben e d).freeCtr = s.freeCtr := rfl
@[simp] theorem homeWriteEn_nextId (s : State) (x : Stamp) (pa n v ben : Nat) (e : Need) (d : Option DieId) : (s.homeWriteEn x pa n v ben e d).nextId = s.nextId := rfl

/-! ### homeWrite -/

@[simp] theorem homeWrite_cores (s : State) (x : Stamp) (pa n v : Nat) (e : Need) : (s.homeWrite x pa n v e).cores = s.cores := rfl
@[simp] theorem homeWrite_cur (s : State) (x : Stamp) (pa n v : Nat) (e : Need) : (s.homeWrite x pa n v e).cur = s.cur := rfl
@[simp] theorem homeWrite_turn (s : State) (x : Stamp) (pa n v : Nat) (e : Need) : (s.homeWrite x pa n v e).turn = s.turn := rfl
@[simp] theorem homeWrite_ctx (s : State) (x : Stamp) (pa n v : Nat) (e : Need) : (s.homeWrite x pa n v e).ctx = s.ctx := rfl
@[simp] theorem homeWrite_arg (s : State) (x : Stamp) (pa n v : Nat) (e : Need) : (s.homeWrite x pa n v e).arg = s.arg := rfl
@[simp] theorem homeWrite_bases (s : State) (x : Stamp) (pa n v : Nat) (e : Need) : (s.homeWrite x pa n v e).bases = s.bases := rfl
@[simp] theorem homeWrite_clocks (s : State) (x : Stamp) (pa n v : Nat) (e : Need) : (s.homeWrite x pa n v e).clocks = s.clocks := rfl
@[simp] theorem homeWrite_handles (s : State) (x : Stamp) (pa n v : Nat) (e : Need) : (s.homeWrite x pa n v e).handles = s.handles := rfl
@[simp] theorem homeWrite_tasks (s : State) (x : Stamp) (pa n v : Nat) (e : Need) : (s.homeWrite x pa n v e).tasks = s.tasks := rfl
@[simp] theorem homeWrite_groups (s : State) (x : Stamp) (pa n v : Nat) (e : Need) : (s.homeWrite x pa n v e).groups = s.groups := rfl
@[simp] theorem homeWrite_gangs (s : State) (x : Stamp) (pa n v : Nat) (e : Need) : (s.homeWrite x pa n v e).gangs = s.gangs := rfl
@[simp] theorem homeWrite_disps (s : State) (x : Stamp) (pa n v : Nat) (e : Need) : (s.homeWrite x pa n v e).disps = s.disps := rfl
@[simp] theorem homeWrite_wins (s : State) (x : Stamp) (pa n v : Nat) (e : Need) : (s.homeWrite x pa n v e).wins = s.wins := rfl
@[simp] theorem homeWrite_invals (s : State) (x : Stamp) (pa n v : Nat) (e : Need) : (s.homeWrite x pa n v e).invals = s.invals := rfl
@[simp] theorem homeWrite_bel (s : State) (x : Stamp) (pa n v : Nat) (e : Need) : (s.homeWrite x pa n v e).bel = s.bel := rfl
@[simp] theorem homeWrite_tree (s : State) (x : Stamp) (pa n v : Nat) (e : Need) : (s.homeWrite x pa n v e).tree = s.tree := rfl
@[simp] theorem homeWrite_ld (s : State) (x : Stamp) (pa n v : Nat) (e : Need) : (s.homeWrite x pa n v e).ld = s.ld := rfl
@[simp] theorem homeWrite_pw (s : State) (x : Stamp) (pa n v : Nat) (e : Need) : (s.homeWrite x pa n v e).pw = s.pw := rfl
@[simp] theorem homeWrite_sec (s : State) (x : Stamp) (pa n v : Nat) (e : Need) : (s.homeWrite x pa n v e).sec = s.sec := rfl
@[simp] theorem homeWrite_net (s : State) (x : Stamp) (pa n v : Nat) (e : Need) : (s.homeWrite x pa n v e).net = s.net := rfl
@[simp] theorem homeWrite_out (s : State) (x : Stamp) (pa n v : Nat) (e : Need) : (s.homeWrite x pa n v e).out = s.out := rfl
@[simp] theorem homeWrite_time (s : State) (x : Stamp) (pa n v : Nat) (e : Need) : (s.homeWrite x pa n v e).time = s.time := rfl
@[simp] theorem homeWrite_barred (s : State) (x : Stamp) (pa n v : Nat) (e : Need) : (s.homeWrite x pa n v e).barred = s.barred := rfl
@[simp] theorem homeWrite_freed (s : State) (x : Stamp) (pa n v : Nat) (e : Need) : (s.homeWrite x pa n v e).freed = s.freed := rfl
@[simp] theorem homeWrite_freeCtr (s : State) (x : Stamp) (pa n v : Nat) (e : Need) : (s.homeWrite x pa n v e).freeCtr = s.freeCtr := rfl
@[simp] theorem homeWrite_nextId (s : State) (x : Stamp) (pa n v : Nat) (e : Need) : (s.homeWrite x pa n v e).nextId = s.nextId := rfl

/-! ### chipWrite -/

@[simp] theorem chipWrite_cores (s : State) (x : Stamp) (pa n v ben : Nat) : (s.chipWrite x pa n v ben).cores = s.cores := rfl
@[simp] theorem chipWrite_cur (s : State) (x : Stamp) (pa n v ben : Nat) : (s.chipWrite x pa n v ben).cur = s.cur := rfl
@[simp] theorem chipWrite_turn (s : State) (x : Stamp) (pa n v ben : Nat) : (s.chipWrite x pa n v ben).turn = s.turn := rfl
@[simp] theorem chipWrite_ctx (s : State) (x : Stamp) (pa n v ben : Nat) : (s.chipWrite x pa n v ben).ctx = s.ctx := rfl
@[simp] theorem chipWrite_arg (s : State) (x : Stamp) (pa n v ben : Nat) : (s.chipWrite x pa n v ben).arg = s.arg := rfl
@[simp] theorem chipWrite_dies (s : State) (x : Stamp) (pa n v ben : Nat) : (s.chipWrite x pa n v ben).dies = s.dies := rfl
@[simp] theorem chipWrite_bases (s : State) (x : Stamp) (pa n v ben : Nat) : (s.chipWrite x pa n v ben).bases = s.bases := rfl
@[simp] theorem chipWrite_clocks (s : State) (x : Stamp) (pa n v ben : Nat) : (s.chipWrite x pa n v ben).clocks = s.clocks := rfl
@[simp] theorem chipWrite_handles (s : State) (x : Stamp) (pa n v ben : Nat) : (s.chipWrite x pa n v ben).handles = s.handles := rfl
@[simp] theorem chipWrite_tasks (s : State) (x : Stamp) (pa n v ben : Nat) : (s.chipWrite x pa n v ben).tasks = s.tasks := rfl
@[simp] theorem chipWrite_groups (s : State) (x : Stamp) (pa n v ben : Nat) : (s.chipWrite x pa n v ben).groups = s.groups := rfl
@[simp] theorem chipWrite_gangs (s : State) (x : Stamp) (pa n v ben : Nat) : (s.chipWrite x pa n v ben).gangs = s.gangs := rfl
@[simp] theorem chipWrite_disps (s : State) (x : Stamp) (pa n v ben : Nat) : (s.chipWrite x pa n v ben).disps = s.disps := rfl
@[simp] theorem chipWrite_wins (s : State) (x : Stamp) (pa n v ben : Nat) : (s.chipWrite x pa n v ben).wins = s.wins := rfl
@[simp] theorem chipWrite_invals (s : State) (x : Stamp) (pa n v ben : Nat) : (s.chipWrite x pa n v ben).invals = s.invals := rfl
@[simp] theorem chipWrite_bel (s : State) (x : Stamp) (pa n v ben : Nat) : (s.chipWrite x pa n v ben).bel = s.bel := rfl
@[simp] theorem chipWrite_tree (s : State) (x : Stamp) (pa n v ben : Nat) : (s.chipWrite x pa n v ben).tree = s.tree := rfl
@[simp] theorem chipWrite_ld (s : State) (x : Stamp) (pa n v ben : Nat) : (s.chipWrite x pa n v ben).ld = s.ld := rfl
@[simp] theorem chipWrite_pw (s : State) (x : Stamp) (pa n v ben : Nat) : (s.chipWrite x pa n v ben).pw = s.pw := rfl
@[simp] theorem chipWrite_sec (s : State) (x : Stamp) (pa n v ben : Nat) : (s.chipWrite x pa n v ben).sec = s.sec := rfl
@[simp] theorem chipWrite_net (s : State) (x : Stamp) (pa n v ben : Nat) : (s.chipWrite x pa n v ben).net = s.net := rfl
@[simp] theorem chipWrite_out (s : State) (x : Stamp) (pa n v ben : Nat) : (s.chipWrite x pa n v ben).out = s.out := rfl
@[simp] theorem chipWrite_time (s : State) (x : Stamp) (pa n v ben : Nat) : (s.chipWrite x pa n v ben).time = s.time := rfl
@[simp] theorem chipWrite_agenda (s : State) (x : Stamp) (pa n v ben : Nat) : (s.chipWrite x pa n v ben).agenda = s.agenda := rfl
@[simp] theorem chipWrite_closed (s : State) (x : Stamp) (pa n v ben : Nat) : (s.chipWrite x pa n v ben).closed = s.closed := rfl
@[simp] theorem chipWrite_barred (s : State) (x : Stamp) (pa n v ben : Nat) : (s.chipWrite x pa n v ben).barred = s.barred := rfl
@[simp] theorem chipWrite_freed (s : State) (x : Stamp) (pa n v ben : Nat) : (s.chipWrite x pa n v ben).freed = s.freed := rfl
@[simp] theorem chipWrite_freeCtr (s : State) (x : Stamp) (pa n v ben : Nat) : (s.chipWrite x pa n v ben).freeCtr = s.freeCtr := rfl
@[simp] theorem chipWrite_nextId (s : State) (x : Stamp) (pa n v ben : Nat) : (s.chipWrite x pa n v ben).nextId = s.nextId := rfl

/-! ### dieWrite -/

@[simp] theorem dieWrite_cores (s : State) (d : DieId) (x : Stamp) (pa : Nat) (v : Byte) : (s.dieWrite d x pa v).cores = s.cores := by unfold State.dieWrite; split <;> rfl
@[simp] theorem dieWrite_cur (s : State) (d : DieId) (x : Stamp) (pa : Nat) (v : Byte) : (s.dieWrite d x pa v).cur = s.cur := by unfold State.dieWrite; split <;> rfl
@[simp] theorem dieWrite_turn (s : State) (d : DieId) (x : Stamp) (pa : Nat) (v : Byte) : (s.dieWrite d x pa v).turn = s.turn := by unfold State.dieWrite; split <;> rfl
@[simp] theorem dieWrite_ctx (s : State) (d : DieId) (x : Stamp) (pa : Nat) (v : Byte) : (s.dieWrite d x pa v).ctx = s.ctx := by unfold State.dieWrite; split <;> rfl
@[simp] theorem dieWrite_arg (s : State) (d : DieId) (x : Stamp) (pa : Nat) (v : Byte) : (s.dieWrite d x pa v).arg = s.arg := by unfold State.dieWrite; split <;> rfl
@[simp] theorem dieWrite_bases (s : State) (d : DieId) (x : Stamp) (pa : Nat) (v : Byte) : (s.dieWrite d x pa v).bases = s.bases := by unfold State.dieWrite; split <;> rfl
@[simp] theorem dieWrite_mem (s : State) (d : DieId) (x : Stamp) (pa : Nat) (v : Byte) : (s.dieWrite d x pa v).mem = s.mem := by unfold State.dieWrite; split <;> rfl
@[simp] theorem dieWrite_poison (s : State) (d : DieId) (x : Stamp) (pa : Nat) (v : Byte) : (s.dieWrite d x pa v).poison = s.poison := by unfold State.dieWrite; split <;> rfl
@[simp] theorem dieWrite_tags (s : State) (d : DieId) (x : Stamp) (pa : Nat) (v : Byte) : (s.dieWrite d x pa v).tags = s.tags := by unfold State.dieWrite; split <;> rfl
@[simp] theorem dieWrite_clocks (s : State) (d : DieId) (x : Stamp) (pa : Nat) (v : Byte) : (s.dieWrite d x pa v).clocks = s.clocks := by unfold State.dieWrite; split <;> rfl
@[simp] theorem dieWrite_handles (s : State) (d : DieId) (x : Stamp) (pa : Nat) (v : Byte) : (s.dieWrite d x pa v).handles = s.handles := by unfold State.dieWrite; split <;> rfl
@[simp] theorem dieWrite_tasks (s : State) (d : DieId) (x : Stamp) (pa : Nat) (v : Byte) : (s.dieWrite d x pa v).tasks = s.tasks := by unfold State.dieWrite; split <;> rfl
@[simp] theorem dieWrite_groups (s : State) (d : DieId) (x : Stamp) (pa : Nat) (v : Byte) : (s.dieWrite d x pa v).groups = s.groups := by unfold State.dieWrite; split <;> rfl
@[simp] theorem dieWrite_gangs (s : State) (d : DieId) (x : Stamp) (pa : Nat) (v : Byte) : (s.dieWrite d x pa v).gangs = s.gangs := by unfold State.dieWrite; split <;> rfl
@[simp] theorem dieWrite_disps (s : State) (d : DieId) (x : Stamp) (pa : Nat) (v : Byte) : (s.dieWrite d x pa v).disps = s.disps := by unfold State.dieWrite; split <;> rfl
@[simp] theorem dieWrite_wins (s : State) (d : DieId) (x : Stamp) (pa : Nat) (v : Byte) : (s.dieWrite d x pa v).wins = s.wins := by unfold State.dieWrite; split <;> rfl
@[simp] theorem dieWrite_invals (s : State) (d : DieId) (x : Stamp) (pa : Nat) (v : Byte) : (s.dieWrite d x pa v).invals = s.invals := by unfold State.dieWrite; split <;> rfl
@[simp] theorem dieWrite_bel (s : State) (d : DieId) (x : Stamp) (pa : Nat) (v : Byte) : (s.dieWrite d x pa v).bel = s.bel := by unfold State.dieWrite; split <;> rfl
@[simp] theorem dieWrite_tree (s : State) (d : DieId) (x : Stamp) (pa : Nat) (v : Byte) : (s.dieWrite d x pa v).tree = s.tree := by unfold State.dieWrite; split <;> rfl
@[simp] theorem dieWrite_ld (s : State) (d : DieId) (x : Stamp) (pa : Nat) (v : Byte) : (s.dieWrite d x pa v).ld = s.ld := by unfold State.dieWrite; split <;> rfl
@[simp] theorem dieWrite_pw (s : State) (d : DieId) (x : Stamp) (pa : Nat) (v : Byte) : (s.dieWrite d x pa v).pw = s.pw := by unfold State.dieWrite; split <;> rfl
@[simp] theorem dieWrite_sec (s : State) (d : DieId) (x : Stamp) (pa : Nat) (v : Byte) : (s.dieWrite d x pa v).sec = s.sec := by unfold State.dieWrite; split <;> rfl
@[simp] theorem dieWrite_net (s : State) (d : DieId) (x : Stamp) (pa : Nat) (v : Byte) : (s.dieWrite d x pa v).net = s.net := by unfold State.dieWrite; split <;> rfl
@[simp] theorem dieWrite_out (s : State) (d : DieId) (x : Stamp) (pa : Nat) (v : Byte) : (s.dieWrite d x pa v).out = s.out := by unfold State.dieWrite; split <;> rfl
@[simp] theorem dieWrite_time (s : State) (d : DieId) (x : Stamp) (pa : Nat) (v : Byte) : (s.dieWrite d x pa v).time = s.time := by unfold State.dieWrite; split <;> rfl
@[simp] theorem dieWrite_agenda (s : State) (d : DieId) (x : Stamp) (pa : Nat) (v : Byte) : (s.dieWrite d x pa v).agenda = s.agenda := by unfold State.dieWrite; split <;> rfl
@[simp] theorem dieWrite_closed (s : State) (d : DieId) (x : Stamp) (pa : Nat) (v : Byte) : (s.dieWrite d x pa v).closed = s.closed := by unfold State.dieWrite; split <;> rfl
@[simp] theorem dieWrite_barred (s : State) (d : DieId) (x : Stamp) (pa : Nat) (v : Byte) : (s.dieWrite d x pa v).barred = s.barred := by unfold State.dieWrite; split <;> rfl
@[simp] theorem dieWrite_freed (s : State) (d : DieId) (x : Stamp) (pa : Nat) (v : Byte) : (s.dieWrite d x pa v).freed = s.freed := by unfold State.dieWrite; split <;> rfl
@[simp] theorem dieWrite_freeCtr (s : State) (d : DieId) (x : Stamp) (pa : Nat) (v : Byte) : (s.dieWrite d x pa v).freeCtr = s.freeCtr := by unfold State.dieWrite; split <;> rfl
@[simp] theorem dieWrite_nextId (s : State) (d : DieId) (x : Stamp) (pa : Nat) (v : Byte) : (s.dieWrite d x pa v).nextId = s.nextId := by unfold State.dieWrite; split <;> rfl

/-! ### settled -/

@[simp] theorem settled_cur (s : State) : (s.settled).cur = s.cur := rfl
@[simp] theorem settled_turn (s : State) : (s.settled).turn = s.turn := rfl
@[simp] theorem settled_ctx (s : State) : (s.settled).ctx = s.ctx := rfl
@[simp] theorem settled_arg (s : State) : (s.settled).arg = s.arg := rfl
@[simp] theorem settled_dies (s : State) : (s.settled).dies = s.dies := rfl
@[simp] theorem settled_bases (s : State) : (s.settled).bases = s.bases := rfl
@[simp] theorem settled_mem (s : State) : (s.settled).mem = s.mem := rfl
@[simp] theorem settled_poison (s : State) : (s.settled).poison = s.poison := rfl
@[simp] theorem settled_tags (s : State) : (s.settled).tags = s.tags := rfl
@[simp] theorem settled_clocks (s : State) : (s.settled).clocks = s.clocks := rfl
@[simp] theorem settled_handles (s : State) : (s.settled).handles = s.handles := rfl
@[simp] theorem settled_tasks (s : State) : (s.settled).tasks = s.tasks := rfl
@[simp] theorem settled_groups (s : State) : (s.settled).groups = s.groups := rfl
@[simp] theorem settled_gangs (s : State) : (s.settled).gangs = s.gangs := rfl
@[simp] theorem settled_disps (s : State) : (s.settled).disps = s.disps := rfl
@[simp] theorem settled_wins (s : State) : (s.settled).wins = s.wins := rfl
@[simp] theorem settled_invals (s : State) : (s.settled).invals = s.invals := rfl
@[simp] theorem settled_bel (s : State) : (s.settled).bel = s.bel := rfl
@[simp] theorem settled_tree (s : State) : (s.settled).tree = s.tree := rfl
@[simp] theorem settled_ld (s : State) : (s.settled).ld = s.ld := rfl
@[simp] theorem settled_pw (s : State) : (s.settled).pw = s.pw := rfl
@[simp] theorem settled_sec (s : State) : (s.settled).sec = s.sec := rfl
@[simp] theorem settled_net (s : State) : (s.settled).net = s.net := rfl
@[simp] theorem settled_out (s : State) : (s.settled).out = s.out := rfl
@[simp] theorem settled_time (s : State) : (s.settled).time = s.time := rfl
@[simp] theorem settled_agenda (s : State) : (s.settled).agenda = s.agenda := rfl
@[simp] theorem settled_closed (s : State) : (s.settled).closed = s.closed := rfl
@[simp] theorem settled_barred (s : State) : (s.settled).barred = s.barred := rfl
@[simp] theorem settled_freed (s : State) : (s.settled).freed = s.freed := rfl
@[simp] theorem settled_freeCtr (s : State) : (s.settled).freeCtr = s.freeCtr := rfl
@[simp] theorem settled_nextId (s : State) : (s.settled).nextId = s.nextId := rfl

/-! ### held -/

@[simp] theorem held_cur (s : State) : (s.held).cur = s.cur := rfl
@[simp] theorem held_turn (s : State) : (s.held).turn = s.turn := rfl
@[simp] theorem held_ctx (s : State) : (s.held).ctx = s.ctx := rfl
@[simp] theorem held_arg (s : State) : (s.held).arg = s.arg := rfl
@[simp] theorem held_dies (s : State) : (s.held).dies = s.dies := rfl
@[simp] theorem held_bases (s : State) : (s.held).bases = s.bases := rfl
@[simp] theorem held_mem (s : State) : (s.held).mem = s.mem := rfl
@[simp] theorem held_poison (s : State) : (s.held).poison = s.poison := rfl
@[simp] theorem held_tags (s : State) : (s.held).tags = s.tags := rfl
@[simp] theorem held_clocks (s : State) : (s.held).clocks = s.clocks := rfl
@[simp] theorem held_handles (s : State) : (s.held).handles = s.handles := rfl
@[simp] theorem held_tasks (s : State) : (s.held).tasks = s.tasks := rfl
@[simp] theorem held_groups (s : State) : (s.held).groups = s.groups := rfl
@[simp] theorem held_gangs (s : State) : (s.held).gangs = s.gangs := rfl
@[simp] theorem held_disps (s : State) : (s.held).disps = s.disps := rfl
@[simp] theorem held_wins (s : State) : (s.held).wins = s.wins := rfl
@[simp] theorem held_invals (s : State) : (s.held).invals = s.invals := rfl
@[simp] theorem held_bel (s : State) : (s.held).bel = s.bel := rfl
@[simp] theorem held_tree (s : State) : (s.held).tree = s.tree := rfl
@[simp] theorem held_ld (s : State) : (s.held).ld = s.ld := rfl
@[simp] theorem held_pw (s : State) : (s.held).pw = s.pw := rfl
@[simp] theorem held_sec (s : State) : (s.held).sec = s.sec := rfl
@[simp] theorem held_net (s : State) : (s.held).net = s.net := rfl
@[simp] theorem held_out (s : State) : (s.held).out = s.out := rfl
@[simp] theorem held_time (s : State) : (s.held).time = s.time := rfl
@[simp] theorem held_agenda (s : State) : (s.held).agenda = s.agenda := rfl
@[simp] theorem held_closed (s : State) : (s.held).closed = s.closed := rfl
@[simp] theorem held_barred (s : State) : (s.held).barred = s.barred := rfl
@[simp] theorem held_freed (s : State) : (s.held).freed = s.freed := rfl
@[simp] theorem held_freeCtr (s : State) : (s.held).freeCtr = s.freeCtr := rfl
@[simp] theorem held_nextId (s : State) : (s.held).nextId = s.nextId := rfl

/-! ### What the changed field becomes -/

@[simp] theorem bump_nextId (s : State) : s.bump.nextId = s.nextId + 1 := rfl
@[simp] theorem tick_freeCtr (s : State) : s.tick.freeCtr = s.freeCtr + 1 := rfl
@[simp] theorem updLd_ld (s : State) (f : Loader → Loader) : (s.updLd f).ld = f s.ld := rfl
@[simp] theorem updPw_pw (s : State) (f : Power → Power) : (s.updPw f).pw = f s.pw := rfl
@[simp] theorem updSec_sec (s : State) (f : Security → Security) : (s.updSec f).sec = f s.sec := rfl
@[simp] theorem updBel_bel (s : State) (f : Belfry → Belfry) : (s.updBel f).bel = f s.bel := rfl
@[simp] theorem post_agenda (s : State) (dt : Nat) (row : Instr) (a : Arg) :
    (s.post dt row a).agenda = s.agenda ++ [{ at_ := s.time + dt, row := row, arg := a }] := rfl
@[simp] theorem postLater_agenda (s : State) (n : Nat) (row : Instr) (a : Arg) :
    (s.postLater n row a).agenda = s.agenda ++ [{ at_ := s.time + (n + s.extra), row := row, arg := a }] := rfl
@[simp] theorem postLater_freeCtr (s : State) (n : Nat) (row : Instr) (a : Arg) : (s.postLater n row a).freeCtr = s.freeCtr + 1 := rfl

theorem vector_get_set {α : Type} {n : Nat} (v : Vector α n) (i j : Fin n) (x : α) :
    (v.set i.val x i.isLt).get j = if i = j then x else v.get j := by
  have h : (v.set i.val x i.isLt)[j.val] = if i.val = j.val then x else v[j.val] := Vector.getElem_set ..
  by_cases hij : i = j
  · subst hij; exact h.trans (by simp)
  · rw [if_neg hij]; exact h.trans (if_neg fun e => hij (Fin.ext e))

/-- A core after another core, or itself, has changed. -/
theorem core_setCore (s : State) (c d : CoreId) (x : Core) : (s.setCore c x).core d = if c = d then x else s.core d :=
  vector_get_set ..
@[simp] theorem core_setCore_self (s : State) (c : CoreId) (x : Core) : (s.setCore c x).core c = x := by simp [core_setCore]
theorem core_updCore (s : State) (c d : CoreId) (f : Core → Core) : (s.updCore c f).core d = if c = d then f (s.core c) else s.core d :=
  core_setCore ..
@[simp] theorem core_updCore_self (s : State) (c : CoreId) (f : Core → Core) : (s.updCore c f).core c = f (s.core c) := by
  simp [core_updCore]

/-- A frame after a frame of the same core, or itself, has changed. -/
theorem frame_updFrame (x : Core) (k j : Fin 4) (f : Frame → Frame) : (x.updFrame k f).frame j = if k = j then f (x.frame k) else x.frame j :=
  vector_get_set ..
@[simp] theorem frame_updFrame_self (x : Core) (k : Fin 4) (f : Frame → Frame) : (x.updFrame k f).frame k = f (x.frame k) := by
  simp [frame_updFrame]
theorem frameAt_updFrameAt (s : State) (c d : CoreId) (k j : Fin 4) (f : Frame → Frame) :
    (s.updFrameAt c k f).frameAt d j = if c = d ∧ k = j then f (s.frameAt c k) else s.frameAt d j := by
  unfold State.frameAt State.updFrameAt
  rw [core_updCore]
  split
  · subst_vars
    simp [frame_updFrame]
  · rename_i h
    simp [h]
@[simp] theorem frameAt_updFrameAt_self (s : State) (c : CoreId) (k : Fin 4) (f : Frame → Frame) :
    (s.updFrameAt c k f).frameAt c k = f (s.frameAt c k) := by simp [frameAt_updFrameAt]

@[simp] theorem here_run_updFr (s : State) (f : Frame → Frame) : (s.updFr f).here.run = s.here.run := by
  simp [State.updFr, State.updFrameAt, State.here, Core.updFrame]
@[simp] theorem fr_updFr (s : State) (f : Frame → Frame) : (s.updFr f).fr = f s.fr := by
  simp [State.updFr, State.updFrameAt, State.fr, State.here, Core.updFrame, Core.frame, vector_get_set]
@[simp] theorem fr_updRegs (s : State) (f : Regs → Regs) : (s.updRegs f).fr = { s.fr with r := f s.fr.r } := by simp [State.updRegs]
@[simp] theorem fr_updCtl (s : State) (f : Ctl → Ctl) : (s.updCtl f).fr = { s.fr with ctl := f s.fr.ctl } := by simp [State.updCtl]
@[simp] theorem fr_updMsg (s : State) (f : Msgs → Msgs) : (s.updMsg f).fr = { s.fr with msg := f s.fr.msg } := by simp [State.updMsg]

/-- A base die after another, or itself, has changed. -/
theorem base_updBase (s : State) (d e : DieId) (f : BaseDie → BaseDie) : (s.updBase d f).base e = if d = e then f (s.base d) else s.base e :=
  vector_get_set ..
@[simp] theorem base_updBase_self (s : State) (d : DieId) (f : BaseDie → BaseDie) : (s.updBase d f).base d = f (s.base d) := by
  simp [base_updBase]
theorem hbm_updHbm (s : State) (d e : DieId) (f : HbmCtl → HbmCtl) : (s.updHbm d f).hbm e = if d = e then f (s.hbm d) else s.hbm e := by
  unfold State.hbm State.updHbm
  rw [base_updBase]
  split <;> rfl
theorem island_updIsland (s : State) (i j : Fin 128) (f : Island → Island) :
    (s.updIsland i f).island j = if i = j then f (s.island i) else s.island j := vector_get_set ..
@[simp] theorem island_updIsland_self (s : State) (i : Fin 128) (f : Island → Island) : (s.updIsland i f).island i = f (s.island i) := by
  simp [island_updIsland]

/-- Looking a key up among the entries whose keys pass a test. -/
theorem find_keyed {α : Type} (l : List (Nat × α)) (q : Nat → Bool) (k : Nat) :
    (l.filter fun x => q x.1).find? (·.1 == k) = if q k then l.find? (·.1 == k) else none := by
  have alike : (fun x : Nat × α => decide (q x.1 = true ∧ (x.1 == k) = true)) = fun x => q k && x.1 == k := by
    funext x; rw [Bool.eq_iff_iff]; simp; rintro rfl; rfl
  rw [List.find?_filter, alike]
  cases q k <;> simp

/-- A handle's entry after another's, or its own, has changed. -/
theorem handle_updHandle (s : State) (h g : BitVec 16) (f : HandleEnt → HandleEnt) :
    (s.updHandle h f).handle g = if h = g then f (s.handle h) else s.handle g := by
  unfold State.updHandle
  generalize f (s.handle h) = new
  simp only [State.handle, putHandle, List.find?_append, find_keyed _ (fun k => decide (k < h.toNat)),
    find_keyed _ (fun k => decide (h.toNat < k))]
  by_cases same : h = g
  · subst same
    rcases Classical.em (new = {}) with z | z
    · simp only [if_pos z]; simp [z]
    · simp only [if_neg z]; simp
  · have key : ¬ h.toNat = g.toNat := fun e => same (BitVec.eq_of_toNat_eq e)
    have mid : (if new = {} then [] else [(h.toNat, new)]).find? (·.1 == g.toNat) = none := by split <;> simp [key]
    rw [mid, if_neg same, Option.or_none]
    rcases Nat.lt_or_gt_of_ne key with lt | lt <;> simp [lt, Nat.lt_asymm lt]
@[simp] theorem handle_updHandle_self (s : State) (h : BitVec 16) (f : HandleEnt → HandleEnt) :
    (s.updHandle h f).handle h = f (s.handle h) := by simp [handle_updHandle]

/-! ### updUnit -/

@[simp] theorem updUnit_cur (s : State) (c : CoreId) (u : Fin 2) (g : List CopyCmd → List CopyCmd) : (s.updUnit c u g).cur = s.cur := rfl
@[simp] theorem updUnit_turn (s : State) (c : CoreId) (u : Fin 2) (g : List CopyCmd → List CopyCmd) : (s.updUnit c u g).turn = s.turn := rfl
@[simp] theorem updUnit_ctx (s : State) (c : CoreId) (u : Fin 2) (g : List CopyCmd → List CopyCmd) : (s.updUnit c u g).ctx = s.ctx := rfl
@[simp] theorem updUnit_arg (s : State) (c : CoreId) (u : Fin 2) (g : List CopyCmd → List CopyCmd) : (s.updUnit c u g).arg = s.arg := rfl
@[simp] theorem updUnit_dies (s : State) (c : CoreId) (u : Fin 2) (g : List CopyCmd → List CopyCmd) : (s.updUnit c u g).dies = s.dies := rfl
@[simp] theorem updUnit_bases (s : State) (c : CoreId) (u : Fin 2) (g : List CopyCmd → List CopyCmd) : (s.updUnit c u g).bases = s.bases := rfl
@[simp] theorem updUnit_mem (s : State) (c : CoreId) (u : Fin 2) (g : List CopyCmd → List CopyCmd) : (s.updUnit c u g).mem = s.mem := rfl
@[simp] theorem updUnit_poison (s : State) (c : CoreId) (u : Fin 2) (g : List CopyCmd → List CopyCmd) : (s.updUnit c u g).poison = s.poison := rfl
@[simp] theorem updUnit_tags (s : State) (c : CoreId) (u : Fin 2) (g : List CopyCmd → List CopyCmd) : (s.updUnit c u g).tags = s.tags := rfl
@[simp] theorem updUnit_clocks (s : State) (c : CoreId) (u : Fin 2) (g : List CopyCmd → List CopyCmd) : (s.updUnit c u g).clocks = s.clocks := rfl
@[simp] theorem updUnit_handles (s : State) (c : CoreId) (u : Fin 2) (g : List CopyCmd → List CopyCmd) : (s.updUnit c u g).handles = s.handles := rfl
@[simp] theorem updUnit_tasks (s : State) (c : CoreId) (u : Fin 2) (g : List CopyCmd → List CopyCmd) : (s.updUnit c u g).tasks = s.tasks := rfl
@[simp] theorem updUnit_groups (s : State) (c : CoreId) (u : Fin 2) (g : List CopyCmd → List CopyCmd) : (s.updUnit c u g).groups = s.groups := rfl
@[simp] theorem updUnit_gangs (s : State) (c : CoreId) (u : Fin 2) (g : List CopyCmd → List CopyCmd) : (s.updUnit c u g).gangs = s.gangs := rfl
@[simp] theorem updUnit_disps (s : State) (c : CoreId) (u : Fin 2) (g : List CopyCmd → List CopyCmd) : (s.updUnit c u g).disps = s.disps := rfl
@[simp] theorem updUnit_wins (s : State) (c : CoreId) (u : Fin 2) (g : List CopyCmd → List CopyCmd) : (s.updUnit c u g).wins = s.wins := rfl
@[simp] theorem updUnit_invals (s : State) (c : CoreId) (u : Fin 2) (g : List CopyCmd → List CopyCmd) : (s.updUnit c u g).invals = s.invals := rfl
@[simp] theorem updUnit_bel (s : State) (c : CoreId) (u : Fin 2) (g : List CopyCmd → List CopyCmd) : (s.updUnit c u g).bel = s.bel := rfl
@[simp] theorem updUnit_tree (s : State) (c : CoreId) (u : Fin 2) (g : List CopyCmd → List CopyCmd) : (s.updUnit c u g).tree = s.tree := rfl
@[simp] theorem updUnit_ld (s : State) (c : CoreId) (u : Fin 2) (g : List CopyCmd → List CopyCmd) : (s.updUnit c u g).ld = s.ld := rfl
@[simp] theorem updUnit_pw (s : State) (c : CoreId) (u : Fin 2) (g : List CopyCmd → List CopyCmd) : (s.updUnit c u g).pw = s.pw := rfl
@[simp] theorem updUnit_sec (s : State) (c : CoreId) (u : Fin 2) (g : List CopyCmd → List CopyCmd) : (s.updUnit c u g).sec = s.sec := rfl
@[simp] theorem updUnit_net (s : State) (c : CoreId) (u : Fin 2) (g : List CopyCmd → List CopyCmd) : (s.updUnit c u g).net = s.net := rfl
@[simp] theorem updUnit_out (s : State) (c : CoreId) (u : Fin 2) (g : List CopyCmd → List CopyCmd) : (s.updUnit c u g).out = s.out := rfl
@[simp] theorem updUnit_time (s : State) (c : CoreId) (u : Fin 2) (g : List CopyCmd → List CopyCmd) : (s.updUnit c u g).time = s.time := rfl
@[simp] theorem updUnit_agenda (s : State) (c : CoreId) (u : Fin 2) (g : List CopyCmd → List CopyCmd) : (s.updUnit c u g).agenda = s.agenda := rfl
@[simp] theorem updUnit_closed (s : State) (c : CoreId) (u : Fin 2) (g : List CopyCmd → List CopyCmd) : (s.updUnit c u g).closed = s.closed := rfl
@[simp] theorem updUnit_barred (s : State) (c : CoreId) (u : Fin 2) (g : List CopyCmd → List CopyCmd) : (s.updUnit c u g).barred = s.barred := rfl
@[simp] theorem updUnit_freed (s : State) (c : CoreId) (u : Fin 2) (g : List CopyCmd → List CopyCmd) : (s.updUnit c u g).freed = s.freed := rfl
@[simp] theorem updUnit_freeCtr (s : State) (c : CoreId) (u : Fin 2) (g : List CopyCmd → List CopyCmd) : (s.updUnit c u g).freeCtr = s.freeCtr := rfl
@[simp] theorem updUnit_nextId (s : State) (c : CoreId) (u : Fin 2) (g : List CopyCmd → List CopyCmd) : (s.updUnit c u g).nextId = s.nextId := rfl

/-! ### updCmd -/

@[simp] theorem updCmd_cur (s : State) (c : CoreId) (u : Fin 2) (id : Nat) (g : CopyCmd → CopyCmd) : (s.updCmd c u id g).cur = s.cur := rfl
@[simp] theorem updCmd_turn (s : State) (c : CoreId) (u : Fin 2) (id : Nat) (g : CopyCmd → CopyCmd) : (s.updCmd c u id g).turn = s.turn := rfl
@[simp] theorem updCmd_ctx (s : State) (c : CoreId) (u : Fin 2) (id : Nat) (g : CopyCmd → CopyCmd) : (s.updCmd c u id g).ctx = s.ctx := rfl
@[simp] theorem updCmd_arg (s : State) (c : CoreId) (u : Fin 2) (id : Nat) (g : CopyCmd → CopyCmd) : (s.updCmd c u id g).arg = s.arg := rfl
@[simp] theorem updCmd_dies (s : State) (c : CoreId) (u : Fin 2) (id : Nat) (g : CopyCmd → CopyCmd) : (s.updCmd c u id g).dies = s.dies := rfl
@[simp] theorem updCmd_bases (s : State) (c : CoreId) (u : Fin 2) (id : Nat) (g : CopyCmd → CopyCmd) : (s.updCmd c u id g).bases = s.bases := rfl
@[simp] theorem updCmd_mem (s : State) (c : CoreId) (u : Fin 2) (id : Nat) (g : CopyCmd → CopyCmd) : (s.updCmd c u id g).mem = s.mem := rfl
@[simp] theorem updCmd_poison (s : State) (c : CoreId) (u : Fin 2) (id : Nat) (g : CopyCmd → CopyCmd) : (s.updCmd c u id g).poison = s.poison := rfl
@[simp] theorem updCmd_tags (s : State) (c : CoreId) (u : Fin 2) (id : Nat) (g : CopyCmd → CopyCmd) : (s.updCmd c u id g).tags = s.tags := rfl
@[simp] theorem updCmd_clocks (s : State) (c : CoreId) (u : Fin 2) (id : Nat) (g : CopyCmd → CopyCmd) : (s.updCmd c u id g).clocks = s.clocks := rfl
@[simp] theorem updCmd_handles (s : State) (c : CoreId) (u : Fin 2) (id : Nat) (g : CopyCmd → CopyCmd) : (s.updCmd c u id g).handles = s.handles := rfl
@[simp] theorem updCmd_tasks (s : State) (c : CoreId) (u : Fin 2) (id : Nat) (g : CopyCmd → CopyCmd) : (s.updCmd c u id g).tasks = s.tasks := rfl
@[simp] theorem updCmd_groups (s : State) (c : CoreId) (u : Fin 2) (id : Nat) (g : CopyCmd → CopyCmd) : (s.updCmd c u id g).groups = s.groups := rfl
@[simp] theorem updCmd_gangs (s : State) (c : CoreId) (u : Fin 2) (id : Nat) (g : CopyCmd → CopyCmd) : (s.updCmd c u id g).gangs = s.gangs := rfl
@[simp] theorem updCmd_disps (s : State) (c : CoreId) (u : Fin 2) (id : Nat) (g : CopyCmd → CopyCmd) : (s.updCmd c u id g).disps = s.disps := rfl
@[simp] theorem updCmd_wins (s : State) (c : CoreId) (u : Fin 2) (id : Nat) (g : CopyCmd → CopyCmd) : (s.updCmd c u id g).wins = s.wins := rfl
@[simp] theorem updCmd_invals (s : State) (c : CoreId) (u : Fin 2) (id : Nat) (g : CopyCmd → CopyCmd) : (s.updCmd c u id g).invals = s.invals := rfl
@[simp] theorem updCmd_bel (s : State) (c : CoreId) (u : Fin 2) (id : Nat) (g : CopyCmd → CopyCmd) : (s.updCmd c u id g).bel = s.bel := rfl
@[simp] theorem updCmd_tree (s : State) (c : CoreId) (u : Fin 2) (id : Nat) (g : CopyCmd → CopyCmd) : (s.updCmd c u id g).tree = s.tree := rfl
@[simp] theorem updCmd_ld (s : State) (c : CoreId) (u : Fin 2) (id : Nat) (g : CopyCmd → CopyCmd) : (s.updCmd c u id g).ld = s.ld := rfl
@[simp] theorem updCmd_pw (s : State) (c : CoreId) (u : Fin 2) (id : Nat) (g : CopyCmd → CopyCmd) : (s.updCmd c u id g).pw = s.pw := rfl
@[simp] theorem updCmd_sec (s : State) (c : CoreId) (u : Fin 2) (id : Nat) (g : CopyCmd → CopyCmd) : (s.updCmd c u id g).sec = s.sec := rfl
@[simp] theorem updCmd_net (s : State) (c : CoreId) (u : Fin 2) (id : Nat) (g : CopyCmd → CopyCmd) : (s.updCmd c u id g).net = s.net := rfl
@[simp] theorem updCmd_out (s : State) (c : CoreId) (u : Fin 2) (id : Nat) (g : CopyCmd → CopyCmd) : (s.updCmd c u id g).out = s.out := rfl
@[simp] theorem updCmd_time (s : State) (c : CoreId) (u : Fin 2) (id : Nat) (g : CopyCmd → CopyCmd) : (s.updCmd c u id g).time = s.time := rfl
@[simp] theorem updCmd_agenda (s : State) (c : CoreId) (u : Fin 2) (id : Nat) (g : CopyCmd → CopyCmd) : (s.updCmd c u id g).agenda = s.agenda := rfl
@[simp] theorem updCmd_closed (s : State) (c : CoreId) (u : Fin 2) (id : Nat) (g : CopyCmd → CopyCmd) : (s.updCmd c u id g).closed = s.closed := rfl
@[simp] theorem updCmd_barred (s : State) (c : CoreId) (u : Fin 2) (id : Nat) (g : CopyCmd → CopyCmd) : (s.updCmd c u id g).barred = s.barred := rfl
@[simp] theorem updCmd_freed (s : State) (c : CoreId) (u : Fin 2) (id : Nat) (g : CopyCmd → CopyCmd) : (s.updCmd c u id g).freed = s.freed := rfl
@[simp] theorem updCmd_freeCtr (s : State) (c : CoreId) (u : Fin 2) (id : Nat) (g : CopyCmd → CopyCmd) : (s.updCmd c u id g).freeCtr = s.freeCtr := rfl
@[simp] theorem updCmd_nextId (s : State) (c : CoreId) (u : Fin 2) (id : Nat) (g : CopyCmd → CopyCmd) : (s.updCmd c u id g).nextId = s.nextId := rfl

/-! ### updTile -/

@[simp] theorem updTile_cur (s : State) (c : CoreId) (id : Nat) (g : TileCmd → TileCmd) : (s.updTile c id g).cur = s.cur := rfl
@[simp] theorem updTile_turn (s : State) (c : CoreId) (id : Nat) (g : TileCmd → TileCmd) : (s.updTile c id g).turn = s.turn := rfl
@[simp] theorem updTile_ctx (s : State) (c : CoreId) (id : Nat) (g : TileCmd → TileCmd) : (s.updTile c id g).ctx = s.ctx := rfl
@[simp] theorem updTile_arg (s : State) (c : CoreId) (id : Nat) (g : TileCmd → TileCmd) : (s.updTile c id g).arg = s.arg := rfl
@[simp] theorem updTile_dies (s : State) (c : CoreId) (id : Nat) (g : TileCmd → TileCmd) : (s.updTile c id g).dies = s.dies := rfl
@[simp] theorem updTile_bases (s : State) (c : CoreId) (id : Nat) (g : TileCmd → TileCmd) : (s.updTile c id g).bases = s.bases := rfl
@[simp] theorem updTile_mem (s : State) (c : CoreId) (id : Nat) (g : TileCmd → TileCmd) : (s.updTile c id g).mem = s.mem := rfl
@[simp] theorem updTile_poison (s : State) (c : CoreId) (id : Nat) (g : TileCmd → TileCmd) : (s.updTile c id g).poison = s.poison := rfl
@[simp] theorem updTile_tags (s : State) (c : CoreId) (id : Nat) (g : TileCmd → TileCmd) : (s.updTile c id g).tags = s.tags := rfl
@[simp] theorem updTile_clocks (s : State) (c : CoreId) (id : Nat) (g : TileCmd → TileCmd) : (s.updTile c id g).clocks = s.clocks := rfl
@[simp] theorem updTile_handles (s : State) (c : CoreId) (id : Nat) (g : TileCmd → TileCmd) : (s.updTile c id g).handles = s.handles := rfl
@[simp] theorem updTile_tasks (s : State) (c : CoreId) (id : Nat) (g : TileCmd → TileCmd) : (s.updTile c id g).tasks = s.tasks := rfl
@[simp] theorem updTile_groups (s : State) (c : CoreId) (id : Nat) (g : TileCmd → TileCmd) : (s.updTile c id g).groups = s.groups := rfl
@[simp] theorem updTile_gangs (s : State) (c : CoreId) (id : Nat) (g : TileCmd → TileCmd) : (s.updTile c id g).gangs = s.gangs := rfl
@[simp] theorem updTile_disps (s : State) (c : CoreId) (id : Nat) (g : TileCmd → TileCmd) : (s.updTile c id g).disps = s.disps := rfl
@[simp] theorem updTile_wins (s : State) (c : CoreId) (id : Nat) (g : TileCmd → TileCmd) : (s.updTile c id g).wins = s.wins := rfl
@[simp] theorem updTile_invals (s : State) (c : CoreId) (id : Nat) (g : TileCmd → TileCmd) : (s.updTile c id g).invals = s.invals := rfl
@[simp] theorem updTile_bel (s : State) (c : CoreId) (id : Nat) (g : TileCmd → TileCmd) : (s.updTile c id g).bel = s.bel := rfl
@[simp] theorem updTile_tree (s : State) (c : CoreId) (id : Nat) (g : TileCmd → TileCmd) : (s.updTile c id g).tree = s.tree := rfl
@[simp] theorem updTile_ld (s : State) (c : CoreId) (id : Nat) (g : TileCmd → TileCmd) : (s.updTile c id g).ld = s.ld := rfl
@[simp] theorem updTile_pw (s : State) (c : CoreId) (id : Nat) (g : TileCmd → TileCmd) : (s.updTile c id g).pw = s.pw := rfl
@[simp] theorem updTile_sec (s : State) (c : CoreId) (id : Nat) (g : TileCmd → TileCmd) : (s.updTile c id g).sec = s.sec := rfl
@[simp] theorem updTile_net (s : State) (c : CoreId) (id : Nat) (g : TileCmd → TileCmd) : (s.updTile c id g).net = s.net := rfl
@[simp] theorem updTile_out (s : State) (c : CoreId) (id : Nat) (g : TileCmd → TileCmd) : (s.updTile c id g).out = s.out := rfl
@[simp] theorem updTile_time (s : State) (c : CoreId) (id : Nat) (g : TileCmd → TileCmd) : (s.updTile c id g).time = s.time := rfl
@[simp] theorem updTile_agenda (s : State) (c : CoreId) (id : Nat) (g : TileCmd → TileCmd) : (s.updTile c id g).agenda = s.agenda := rfl
@[simp] theorem updTile_closed (s : State) (c : CoreId) (id : Nat) (g : TileCmd → TileCmd) : (s.updTile c id g).closed = s.closed := rfl
@[simp] theorem updTile_barred (s : State) (c : CoreId) (id : Nat) (g : TileCmd → TileCmd) : (s.updTile c id g).barred = s.barred := rfl
@[simp] theorem updTile_freed (s : State) (c : CoreId) (id : Nat) (g : TileCmd → TileCmd) : (s.updTile c id g).freed = s.freed := rfl
@[simp] theorem updTile_freeCtr (s : State) (c : CoreId) (id : Nat) (g : TileCmd → TileCmd) : (s.updTile c id g).freeCtr = s.freeCtr := rfl
@[simp] theorem updTile_nextId (s : State) (c : CoreId) (id : Nat) (g : TileCmd → TileCmd) : (s.updTile c id g).nextId = s.nextId := rfl

/-! ### updStream -/

@[simp] theorem updStream_cur (s : State) (n : Fin 16) (f : Stream → Stream) : (s.updStream n f).cur = s.cur := rfl
@[simp] theorem updStream_turn (s : State) (n : Fin 16) (f : Stream → Stream) : (s.updStream n f).turn = s.turn := rfl
@[simp] theorem updStream_ctx (s : State) (n : Fin 16) (f : Stream → Stream) : (s.updStream n f).ctx = s.ctx := rfl
@[simp] theorem updStream_arg (s : State) (n : Fin 16) (f : Stream → Stream) : (s.updStream n f).arg = s.arg := rfl
@[simp] theorem updStream_dies (s : State) (n : Fin 16) (f : Stream → Stream) : (s.updStream n f).dies = s.dies := rfl
@[simp] theorem updStream_bases (s : State) (n : Fin 16) (f : Stream → Stream) : (s.updStream n f).bases = s.bases := rfl
@[simp] theorem updStream_mem (s : State) (n : Fin 16) (f : Stream → Stream) : (s.updStream n f).mem = s.mem := rfl
@[simp] theorem updStream_poison (s : State) (n : Fin 16) (f : Stream → Stream) : (s.updStream n f).poison = s.poison := rfl
@[simp] theorem updStream_tags (s : State) (n : Fin 16) (f : Stream → Stream) : (s.updStream n f).tags = s.tags := rfl
@[simp] theorem updStream_clocks (s : State) (n : Fin 16) (f : Stream → Stream) : (s.updStream n f).clocks = s.clocks := rfl
@[simp] theorem updStream_handles (s : State) (n : Fin 16) (f : Stream → Stream) : (s.updStream n f).handles = s.handles := rfl
@[simp] theorem updStream_tasks (s : State) (n : Fin 16) (f : Stream → Stream) : (s.updStream n f).tasks = s.tasks := rfl
@[simp] theorem updStream_groups (s : State) (n : Fin 16) (f : Stream → Stream) : (s.updStream n f).groups = s.groups := rfl
@[simp] theorem updStream_gangs (s : State) (n : Fin 16) (f : Stream → Stream) : (s.updStream n f).gangs = s.gangs := rfl
@[simp] theorem updStream_disps (s : State) (n : Fin 16) (f : Stream → Stream) : (s.updStream n f).disps = s.disps := rfl
@[simp] theorem updStream_wins (s : State) (n : Fin 16) (f : Stream → Stream) : (s.updStream n f).wins = s.wins := rfl
@[simp] theorem updStream_invals (s : State) (n : Fin 16) (f : Stream → Stream) : (s.updStream n f).invals = s.invals := rfl
@[simp] theorem updStream_bel (s : State) (n : Fin 16) (f : Stream → Stream) : (s.updStream n f).bel = s.bel := rfl
@[simp] theorem updStream_tree (s : State) (n : Fin 16) (f : Stream → Stream) : (s.updStream n f).tree = s.tree := rfl
@[simp] theorem updStream_ld (s : State) (n : Fin 16) (f : Stream → Stream) : (s.updStream n f).ld = s.ld := rfl
@[simp] theorem updStream_pw (s : State) (n : Fin 16) (f : Stream → Stream) : (s.updStream n f).pw = s.pw := rfl
@[simp] theorem updStream_sec (s : State) (n : Fin 16) (f : Stream → Stream) : (s.updStream n f).sec = s.sec := rfl
@[simp] theorem updStream_net (s : State) (n : Fin 16) (f : Stream → Stream) : (s.updStream n f).net = s.net := rfl
@[simp] theorem updStream_out (s : State) (n : Fin 16) (f : Stream → Stream) : (s.updStream n f).out = s.out := rfl
@[simp] theorem updStream_time (s : State) (n : Fin 16) (f : Stream → Stream) : (s.updStream n f).time = s.time := rfl
@[simp] theorem updStream_agenda (s : State) (n : Fin 16) (f : Stream → Stream) : (s.updStream n f).agenda = s.agenda := rfl
@[simp] theorem updStream_closed (s : State) (n : Fin 16) (f : Stream → Stream) : (s.updStream n f).closed = s.closed := rfl
@[simp] theorem updStream_barred (s : State) (n : Fin 16) (f : Stream → Stream) : (s.updStream n f).barred = s.barred := rfl
@[simp] theorem updStream_freed (s : State) (n : Fin 16) (f : Stream → Stream) : (s.updStream n f).freed = s.freed := rfl
@[simp] theorem updStream_freeCtr (s : State) (n : Fin 16) (f : Stream → Stream) : (s.updStream n f).freeCtr = s.freeCtr := rfl
@[simp] theorem updStream_nextId (s : State) (n : Fin 16) (f : Stream → Stream) : (s.updStream n f).nextId = s.nextId := rfl

/-! ### updLine -/

@[simp] theorem updLine_cores (s : State) (d : DieId) (a : Nat) (f : LlcLine → LlcLine) : (s.updLine d a f).cores = s.cores := rfl
@[simp] theorem updLine_cur (s : State) (d : DieId) (a : Nat) (f : LlcLine → LlcLine) : (s.updLine d a f).cur = s.cur := rfl
@[simp] theorem updLine_turn (s : State) (d : DieId) (a : Nat) (f : LlcLine → LlcLine) : (s.updLine d a f).turn = s.turn := rfl
@[simp] theorem updLine_ctx (s : State) (d : DieId) (a : Nat) (f : LlcLine → LlcLine) : (s.updLine d a f).ctx = s.ctx := rfl
@[simp] theorem updLine_arg (s : State) (d : DieId) (a : Nat) (f : LlcLine → LlcLine) : (s.updLine d a f).arg = s.arg := rfl
@[simp] theorem updLine_dies (s : State) (d : DieId) (a : Nat) (f : LlcLine → LlcLine) : (s.updLine d a f).dies = s.dies := rfl
@[simp] theorem updLine_mem (s : State) (d : DieId) (a : Nat) (f : LlcLine → LlcLine) : (s.updLine d a f).mem = s.mem := rfl
@[simp] theorem updLine_poison (s : State) (d : DieId) (a : Nat) (f : LlcLine → LlcLine) : (s.updLine d a f).poison = s.poison := rfl
@[simp] theorem updLine_tags (s : State) (d : DieId) (a : Nat) (f : LlcLine → LlcLine) : (s.updLine d a f).tags = s.tags := rfl
@[simp] theorem updLine_clocks (s : State) (d : DieId) (a : Nat) (f : LlcLine → LlcLine) : (s.updLine d a f).clocks = s.clocks := rfl
@[simp] theorem updLine_handles (s : State) (d : DieId) (a : Nat) (f : LlcLine → LlcLine) : (s.updLine d a f).handles = s.handles := rfl
@[simp] theorem updLine_tasks (s : State) (d : DieId) (a : Nat) (f : LlcLine → LlcLine) : (s.updLine d a f).tasks = s.tasks := rfl
@[simp] theorem updLine_groups (s : State) (d : DieId) (a : Nat) (f : LlcLine → LlcLine) : (s.updLine d a f).groups = s.groups := rfl
@[simp] theorem updLine_gangs (s : State) (d : DieId) (a : Nat) (f : LlcLine → LlcLine) : (s.updLine d a f).gangs = s.gangs := rfl
@[simp] theorem updLine_disps (s : State) (d : DieId) (a : Nat) (f : LlcLine → LlcLine) : (s.updLine d a f).disps = s.disps := rfl
@[simp] theorem updLine_wins (s : State) (d : DieId) (a : Nat) (f : LlcLine → LlcLine) : (s.updLine d a f).wins = s.wins := rfl
@[simp] theorem updLine_invals (s : State) (d : DieId) (a : Nat) (f : LlcLine → LlcLine) : (s.updLine d a f).invals = s.invals := rfl
@[simp] theorem updLine_bel (s : State) (d : DieId) (a : Nat) (f : LlcLine → LlcLine) : (s.updLine d a f).bel = s.bel := rfl
@[simp] theorem updLine_tree (s : State) (d : DieId) (a : Nat) (f : LlcLine → LlcLine) : (s.updLine d a f).tree = s.tree := rfl
@[simp] theorem updLine_ld (s : State) (d : DieId) (a : Nat) (f : LlcLine → LlcLine) : (s.updLine d a f).ld = s.ld := rfl
@[simp] theorem updLine_pw (s : State) (d : DieId) (a : Nat) (f : LlcLine → LlcLine) : (s.updLine d a f).pw = s.pw := rfl
@[simp] theorem updLine_sec (s : State) (d : DieId) (a : Nat) (f : LlcLine → LlcLine) : (s.updLine d a f).sec = s.sec := rfl
@[simp] theorem updLine_net (s : State) (d : DieId) (a : Nat) (f : LlcLine → LlcLine) : (s.updLine d a f).net = s.net := rfl
@[simp] theorem updLine_out (s : State) (d : DieId) (a : Nat) (f : LlcLine → LlcLine) : (s.updLine d a f).out = s.out := rfl
@[simp] theorem updLine_time (s : State) (d : DieId) (a : Nat) (f : LlcLine → LlcLine) : (s.updLine d a f).time = s.time := rfl
@[simp] theorem updLine_agenda (s : State) (d : DieId) (a : Nat) (f : LlcLine → LlcLine) : (s.updLine d a f).agenda = s.agenda := rfl
@[simp] theorem updLine_closed (s : State) (d : DieId) (a : Nat) (f : LlcLine → LlcLine) : (s.updLine d a f).closed = s.closed := rfl
@[simp] theorem updLine_barred (s : State) (d : DieId) (a : Nat) (f : LlcLine → LlcLine) : (s.updLine d a f).barred = s.barred := rfl
@[simp] theorem updLine_freed (s : State) (d : DieId) (a : Nat) (f : LlcLine → LlcLine) : (s.updLine d a f).freed = s.freed := rfl
@[simp] theorem updLine_freeCtr (s : State) (d : DieId) (a : Nat) (f : LlcLine → LlcLine) : (s.updLine d a f).freeCtr = s.freeCtr := rfl
@[simp] theorem updLine_nextId (s : State) (d : DieId) (a : Nat) (f : LlcLine → LlcLine) : (s.updLine d a f).nextId = s.nextId := rfl

/-! ### updGang -/

@[simp] theorem updGang_cores (s : State) (h : BitVec 16) (f : Gang → Gang) : (s.updGang h f).cores = s.cores := rfl
@[simp] theorem updGang_cur (s : State) (h : BitVec 16) (f : Gang → Gang) : (s.updGang h f).cur = s.cur := rfl
@[simp] theorem updGang_turn (s : State) (h : BitVec 16) (f : Gang → Gang) : (s.updGang h f).turn = s.turn := rfl
@[simp] theorem updGang_ctx (s : State) (h : BitVec 16) (f : Gang → Gang) : (s.updGang h f).ctx = s.ctx := rfl
@[simp] theorem updGang_arg (s : State) (h : BitVec 16) (f : Gang → Gang) : (s.updGang h f).arg = s.arg := rfl
@[simp] theorem updGang_dies (s : State) (h : BitVec 16) (f : Gang → Gang) : (s.updGang h f).dies = s.dies := rfl
@[simp] theorem updGang_bases (s : State) (h : BitVec 16) (f : Gang → Gang) : (s.updGang h f).bases = s.bases := rfl
@[simp] theorem updGang_mem (s : State) (h : BitVec 16) (f : Gang → Gang) : (s.updGang h f).mem = s.mem := rfl
@[simp] theorem updGang_poison (s : State) (h : BitVec 16) (f : Gang → Gang) : (s.updGang h f).poison = s.poison := rfl
@[simp] theorem updGang_tags (s : State) (h : BitVec 16) (f : Gang → Gang) : (s.updGang h f).tags = s.tags := rfl
@[simp] theorem updGang_clocks (s : State) (h : BitVec 16) (f : Gang → Gang) : (s.updGang h f).clocks = s.clocks := rfl
@[simp] theorem updGang_handles (s : State) (h : BitVec 16) (f : Gang → Gang) : (s.updGang h f).handles = s.handles := rfl
@[simp] theorem updGang_tasks (s : State) (h : BitVec 16) (f : Gang → Gang) : (s.updGang h f).tasks = s.tasks := rfl
@[simp] theorem updGang_groups (s : State) (h : BitVec 16) (f : Gang → Gang) : (s.updGang h f).groups = s.groups := rfl
@[simp] theorem updGang_disps (s : State) (h : BitVec 16) (f : Gang → Gang) : (s.updGang h f).disps = s.disps := rfl
@[simp] theorem updGang_wins (s : State) (h : BitVec 16) (f : Gang → Gang) : (s.updGang h f).wins = s.wins := rfl
@[simp] theorem updGang_invals (s : State) (h : BitVec 16) (f : Gang → Gang) : (s.updGang h f).invals = s.invals := rfl
@[simp] theorem updGang_bel (s : State) (h : BitVec 16) (f : Gang → Gang) : (s.updGang h f).bel = s.bel := rfl
@[simp] theorem updGang_tree (s : State) (h : BitVec 16) (f : Gang → Gang) : (s.updGang h f).tree = s.tree := rfl
@[simp] theorem updGang_ld (s : State) (h : BitVec 16) (f : Gang → Gang) : (s.updGang h f).ld = s.ld := rfl
@[simp] theorem updGang_pw (s : State) (h : BitVec 16) (f : Gang → Gang) : (s.updGang h f).pw = s.pw := rfl
@[simp] theorem updGang_sec (s : State) (h : BitVec 16) (f : Gang → Gang) : (s.updGang h f).sec = s.sec := rfl
@[simp] theorem updGang_net (s : State) (h : BitVec 16) (f : Gang → Gang) : (s.updGang h f).net = s.net := rfl
@[simp] theorem updGang_out (s : State) (h : BitVec 16) (f : Gang → Gang) : (s.updGang h f).out = s.out := rfl
@[simp] theorem updGang_time (s : State) (h : BitVec 16) (f : Gang → Gang) : (s.updGang h f).time = s.time := rfl
@[simp] theorem updGang_agenda (s : State) (h : BitVec 16) (f : Gang → Gang) : (s.updGang h f).agenda = s.agenda := rfl
@[simp] theorem updGang_closed (s : State) (h : BitVec 16) (f : Gang → Gang) : (s.updGang h f).closed = s.closed := rfl
@[simp] theorem updGang_barred (s : State) (h : BitVec 16) (f : Gang → Gang) : (s.updGang h f).barred = s.barred := rfl
@[simp] theorem updGang_freed (s : State) (h : BitVec 16) (f : Gang → Gang) : (s.updGang h f).freed = s.freed := rfl
@[simp] theorem updGang_freeCtr (s : State) (h : BitVec 16) (f : Gang → Gang) : (s.updGang h f).freeCtr = s.freeCtr := rfl
@[simp] theorem updGang_nextId (s : State) (h : BitVec 16) (f : Gang → Gang) : (s.updGang h f).nextId = s.nextId := rfl
@[simp] theorem updGang_gangs (s : State) (h : BitVec 16) (f : Gang → Gang) :
    (s.updGang h f).gangs = updWhere (fun (g : Gang) => g.gid == h) f s.gangs := rfl

/-! ### updDisp -/

@[simp] theorem updDisp_cores (s : State) (id : Nat) (f : Disp → Disp) : (s.updDisp id f).cores = s.cores := rfl
@[simp] theorem updDisp_cur (s : State) (id : Nat) (f : Disp → Disp) : (s.updDisp id f).cur = s.cur := rfl
@[simp] theorem updDisp_turn (s : State) (id : Nat) (f : Disp → Disp) : (s.updDisp id f).turn = s.turn := rfl
@[simp] theorem updDisp_ctx (s : State) (id : Nat) (f : Disp → Disp) : (s.updDisp id f).ctx = s.ctx := rfl
@[simp] theorem updDisp_arg (s : State) (id : Nat) (f : Disp → Disp) : (s.updDisp id f).arg = s.arg := rfl
@[simp] theorem updDisp_dies (s : State) (id : Nat) (f : Disp → Disp) : (s.updDisp id f).dies = s.dies := rfl
@[simp] theorem updDisp_bases (s : State) (id : Nat) (f : Disp → Disp) : (s.updDisp id f).bases = s.bases := rfl
@[simp] theorem updDisp_mem (s : State) (id : Nat) (f : Disp → Disp) : (s.updDisp id f).mem = s.mem := rfl
@[simp] theorem updDisp_poison (s : State) (id : Nat) (f : Disp → Disp) : (s.updDisp id f).poison = s.poison := rfl
@[simp] theorem updDisp_tags (s : State) (id : Nat) (f : Disp → Disp) : (s.updDisp id f).tags = s.tags := rfl
@[simp] theorem updDisp_clocks (s : State) (id : Nat) (f : Disp → Disp) : (s.updDisp id f).clocks = s.clocks := rfl
@[simp] theorem updDisp_handles (s : State) (id : Nat) (f : Disp → Disp) : (s.updDisp id f).handles = s.handles := rfl
@[simp] theorem updDisp_tasks (s : State) (id : Nat) (f : Disp → Disp) : (s.updDisp id f).tasks = s.tasks := rfl
@[simp] theorem updDisp_groups (s : State) (id : Nat) (f : Disp → Disp) : (s.updDisp id f).groups = s.groups := rfl
@[simp] theorem updDisp_gangs (s : State) (id : Nat) (f : Disp → Disp) : (s.updDisp id f).gangs = s.gangs := rfl
@[simp] theorem updDisp_wins (s : State) (id : Nat) (f : Disp → Disp) : (s.updDisp id f).wins = s.wins := rfl
@[simp] theorem updDisp_invals (s : State) (id : Nat) (f : Disp → Disp) : (s.updDisp id f).invals = s.invals := rfl
@[simp] theorem updDisp_bel (s : State) (id : Nat) (f : Disp → Disp) : (s.updDisp id f).bel = s.bel := rfl
@[simp] theorem updDisp_tree (s : State) (id : Nat) (f : Disp → Disp) : (s.updDisp id f).tree = s.tree := rfl
@[simp] theorem updDisp_ld (s : State) (id : Nat) (f : Disp → Disp) : (s.updDisp id f).ld = s.ld := rfl
@[simp] theorem updDisp_pw (s : State) (id : Nat) (f : Disp → Disp) : (s.updDisp id f).pw = s.pw := rfl
@[simp] theorem updDisp_sec (s : State) (id : Nat) (f : Disp → Disp) : (s.updDisp id f).sec = s.sec := rfl
@[simp] theorem updDisp_net (s : State) (id : Nat) (f : Disp → Disp) : (s.updDisp id f).net = s.net := rfl
@[simp] theorem updDisp_out (s : State) (id : Nat) (f : Disp → Disp) : (s.updDisp id f).out = s.out := rfl
@[simp] theorem updDisp_time (s : State) (id : Nat) (f : Disp → Disp) : (s.updDisp id f).time = s.time := rfl
@[simp] theorem updDisp_agenda (s : State) (id : Nat) (f : Disp → Disp) : (s.updDisp id f).agenda = s.agenda := rfl
@[simp] theorem updDisp_closed (s : State) (id : Nat) (f : Disp → Disp) : (s.updDisp id f).closed = s.closed := rfl
@[simp] theorem updDisp_barred (s : State) (id : Nat) (f : Disp → Disp) : (s.updDisp id f).barred = s.barred := rfl
@[simp] theorem updDisp_freed (s : State) (id : Nat) (f : Disp → Disp) : (s.updDisp id f).freed = s.freed := rfl
@[simp] theorem updDisp_freeCtr (s : State) (id : Nat) (f : Disp → Disp) : (s.updDisp id f).freeCtr = s.freeCtr := rfl
@[simp] theorem updDisp_nextId (s : State) (id : Nat) (f : Disp → Disp) : (s.updDisp id f).nextId = s.nextId := rfl
@[simp] theorem updDisp_disps (s : State) (id : Nat) (f : Disp → Disp) :
    (s.updDisp id f).disps = updWhere (fun (x : Disp) => x.id == id) f s.disps := rfl

/-! ### updSnap -/

@[simp] theorem updSnap_cores (s : State) (id : Nat) (f : SnCmd → SnCmd) : (s.updSnap id f).cores = s.cores := rfl
@[simp] theorem updSnap_cur (s : State) (id : Nat) (f : SnCmd → SnCmd) : (s.updSnap id f).cur = s.cur := rfl
@[simp] theorem updSnap_turn (s : State) (id : Nat) (f : SnCmd → SnCmd) : (s.updSnap id f).turn = s.turn := rfl
@[simp] theorem updSnap_ctx (s : State) (id : Nat) (f : SnCmd → SnCmd) : (s.updSnap id f).ctx = s.ctx := rfl
@[simp] theorem updSnap_arg (s : State) (id : Nat) (f : SnCmd → SnCmd) : (s.updSnap id f).arg = s.arg := rfl
@[simp] theorem updSnap_dies (s : State) (id : Nat) (f : SnCmd → SnCmd) : (s.updSnap id f).dies = s.dies := rfl
@[simp] theorem updSnap_bases (s : State) (id : Nat) (f : SnCmd → SnCmd) : (s.updSnap id f).bases = s.bases := rfl
@[simp] theorem updSnap_mem (s : State) (id : Nat) (f : SnCmd → SnCmd) : (s.updSnap id f).mem = s.mem := rfl
@[simp] theorem updSnap_poison (s : State) (id : Nat) (f : SnCmd → SnCmd) : (s.updSnap id f).poison = s.poison := rfl
@[simp] theorem updSnap_tags (s : State) (id : Nat) (f : SnCmd → SnCmd) : (s.updSnap id f).tags = s.tags := rfl
@[simp] theorem updSnap_clocks (s : State) (id : Nat) (f : SnCmd → SnCmd) : (s.updSnap id f).clocks = s.clocks := rfl
@[simp] theorem updSnap_handles (s : State) (id : Nat) (f : SnCmd → SnCmd) : (s.updSnap id f).handles = s.handles := rfl
@[simp] theorem updSnap_tasks (s : State) (id : Nat) (f : SnCmd → SnCmd) : (s.updSnap id f).tasks = s.tasks := rfl
@[simp] theorem updSnap_groups (s : State) (id : Nat) (f : SnCmd → SnCmd) : (s.updSnap id f).groups = s.groups := rfl
@[simp] theorem updSnap_gangs (s : State) (id : Nat) (f : SnCmd → SnCmd) : (s.updSnap id f).gangs = s.gangs := rfl
@[simp] theorem updSnap_disps (s : State) (id : Nat) (f : SnCmd → SnCmd) : (s.updSnap id f).disps = s.disps := rfl
@[simp] theorem updSnap_wins (s : State) (id : Nat) (f : SnCmd → SnCmd) : (s.updSnap id f).wins = s.wins := rfl
@[simp] theorem updSnap_invals (s : State) (id : Nat) (f : SnCmd → SnCmd) : (s.updSnap id f).invals = s.invals := rfl
@[simp] theorem updSnap_bel (s : State) (id : Nat) (f : SnCmd → SnCmd) : (s.updSnap id f).bel = s.bel := rfl
@[simp] theorem updSnap_ld (s : State) (id : Nat) (f : SnCmd → SnCmd) : (s.updSnap id f).ld = s.ld := rfl
@[simp] theorem updSnap_pw (s : State) (id : Nat) (f : SnCmd → SnCmd) : (s.updSnap id f).pw = s.pw := rfl
@[simp] theorem updSnap_sec (s : State) (id : Nat) (f : SnCmd → SnCmd) : (s.updSnap id f).sec = s.sec := rfl
@[simp] theorem updSnap_net (s : State) (id : Nat) (f : SnCmd → SnCmd) : (s.updSnap id f).net = s.net := rfl
@[simp] theorem updSnap_out (s : State) (id : Nat) (f : SnCmd → SnCmd) : (s.updSnap id f).out = s.out := rfl
@[simp] theorem updSnap_time (s : State) (id : Nat) (f : SnCmd → SnCmd) : (s.updSnap id f).time = s.time := rfl
@[simp] theorem updSnap_agenda (s : State) (id : Nat) (f : SnCmd → SnCmd) : (s.updSnap id f).agenda = s.agenda := rfl
@[simp] theorem updSnap_closed (s : State) (id : Nat) (f : SnCmd → SnCmd) : (s.updSnap id f).closed = s.closed := rfl
@[simp] theorem updSnap_barred (s : State) (id : Nat) (f : SnCmd → SnCmd) : (s.updSnap id f).barred = s.barred := rfl
@[simp] theorem updSnap_freed (s : State) (id : Nat) (f : SnCmd → SnCmd) : (s.updSnap id f).freed = s.freed := rfl
@[simp] theorem updSnap_freeCtr (s : State) (id : Nat) (f : SnCmd → SnCmd) : (s.updSnap id f).freeCtr = s.freeCtr := rfl
@[simp] theorem updSnap_nextId (s : State) (id : Nat) (f : SnCmd → SnCmd) : (s.updSnap id f).nextId = s.nextId := rfl

/-! ### updRun -/

@[simp] theorem updRun_cores (s : State) (q : Fin 64) (f : Exec → Exec) : (s.updRun q f).cores = s.cores := rfl
@[simp] theorem updRun_cur (s : State) (q : Fin 64) (f : Exec → Exec) : (s.updRun q f).cur = s.cur := rfl
@[simp] theorem updRun_turn (s : State) (q : Fin 64) (f : Exec → Exec) : (s.updRun q f).turn = s.turn := rfl
@[simp] theorem updRun_ctx (s : State) (q : Fin 64) (f : Exec → Exec) : (s.updRun q f).ctx = s.ctx := rfl
@[simp] theorem updRun_arg (s : State) (q : Fin 64) (f : Exec → Exec) : (s.updRun q f).arg = s.arg := rfl
@[simp] theorem updRun_dies (s : State) (q : Fin 64) (f : Exec → Exec) : (s.updRun q f).dies = s.dies := rfl
@[simp] theorem updRun_bases (s : State) (q : Fin 64) (f : Exec → Exec) : (s.updRun q f).bases = s.bases := rfl
@[simp] theorem updRun_mem (s : State) (q : Fin 64) (f : Exec → Exec) : (s.updRun q f).mem = s.mem := rfl
@[simp] theorem updRun_poison (s : State) (q : Fin 64) (f : Exec → Exec) : (s.updRun q f).poison = s.poison := rfl
@[simp] theorem updRun_tags (s : State) (q : Fin 64) (f : Exec → Exec) : (s.updRun q f).tags = s.tags := rfl
@[simp] theorem updRun_clocks (s : State) (q : Fin 64) (f : Exec → Exec) : (s.updRun q f).clocks = s.clocks := rfl
@[simp] theorem updRun_handles (s : State) (q : Fin 64) (f : Exec → Exec) : (s.updRun q f).handles = s.handles := rfl
@[simp] theorem updRun_tasks (s : State) (q : Fin 64) (f : Exec → Exec) : (s.updRun q f).tasks = s.tasks := rfl
@[simp] theorem updRun_groups (s : State) (q : Fin 64) (f : Exec → Exec) : (s.updRun q f).groups = s.groups := rfl
@[simp] theorem updRun_gangs (s : State) (q : Fin 64) (f : Exec → Exec) : (s.updRun q f).gangs = s.gangs := rfl
@[simp] theorem updRun_disps (s : State) (q : Fin 64) (f : Exec → Exec) : (s.updRun q f).disps = s.disps := rfl
@[simp] theorem updRun_wins (s : State) (q : Fin 64) (f : Exec → Exec) : (s.updRun q f).wins = s.wins := rfl
@[simp] theorem updRun_invals (s : State) (q : Fin 64) (f : Exec → Exec) : (s.updRun q f).invals = s.invals := rfl
@[simp] theorem updRun_tree (s : State) (q : Fin 64) (f : Exec → Exec) : (s.updRun q f).tree = s.tree := rfl
@[simp] theorem updRun_ld (s : State) (q : Fin 64) (f : Exec → Exec) : (s.updRun q f).ld = s.ld := rfl
@[simp] theorem updRun_pw (s : State) (q : Fin 64) (f : Exec → Exec) : (s.updRun q f).pw = s.pw := rfl
@[simp] theorem updRun_sec (s : State) (q : Fin 64) (f : Exec → Exec) : (s.updRun q f).sec = s.sec := rfl
@[simp] theorem updRun_net (s : State) (q : Fin 64) (f : Exec → Exec) : (s.updRun q f).net = s.net := rfl
@[simp] theorem updRun_out (s : State) (q : Fin 64) (f : Exec → Exec) : (s.updRun q f).out = s.out := rfl
@[simp] theorem updRun_time (s : State) (q : Fin 64) (f : Exec → Exec) : (s.updRun q f).time = s.time := rfl
@[simp] theorem updRun_agenda (s : State) (q : Fin 64) (f : Exec → Exec) : (s.updRun q f).agenda = s.agenda := rfl
@[simp] theorem updRun_closed (s : State) (q : Fin 64) (f : Exec → Exec) : (s.updRun q f).closed = s.closed := rfl
@[simp] theorem updRun_barred (s : State) (q : Fin 64) (f : Exec → Exec) : (s.updRun q f).barred = s.barred := rfl
@[simp] theorem updRun_freed (s : State) (q : Fin 64) (f : Exec → Exec) : (s.updRun q f).freed = s.freed := rfl
@[simp] theorem updRun_freeCtr (s : State) (q : Fin 64) (f : Exec → Exec) : (s.updRun q f).freeCtr = s.freeCtr := rfl
@[simp] theorem updRun_nextId (s : State) (q : Fin 64) (f : Exec → Exec) : (s.updRun q f).nextId = s.nextId := rfl

end Sys2Proof.Machine
end

