-- ==== Sys2Proof/Laws/Issue.lean ====
section
/-! SUPPORT. What the issue of one operation can do: it runs, it does nothing under a false predicate, it takes its trap, or it holds. -/

namespace Sys2Proof.Machine

open Sys2Proof

theorem drawSum_alone (o : SlotOp) (f : Op → Nat) : drawSum [o] f = f o.op := by simp [drawSum]

theorem covers_zero (x : Core) : x.covers 0 0 0 0 = true := by simp [Core.covers]

/-- A slot alone never conflicts with itself (R204). -/
theorem selfConflict_alone (s : State) (o : SlotOp) : selfConflict s [o] = none := by
  cases h : o.op.matrix <;> simp [selfConflict, h]

/-- A slot alone is judged by itself (R204). -/
theorem judged_alone (s : State) (o : SlotOp) : judged s [o] = [o] := by simp [judged, selfConflict_alone]

/-- A bundle whose results in flight are those from before it holds for no mirror (R29). -/
theorem mirrorHold_old {s w : State} (h : ∀ r ∈ w.fr.infl, ∃ q ∈ s.fr.infl, q.seq = r.seq) : mirrorHold s w = false := by
  simp only [mirrorHold, List.any_eq_false]
  intro r hr
  have e : s.fr.infl.any (fun q => q.seq == r.seq) = true := by
    obtain ⟨q, hq, hs⟩ := h r hr
    exact List.any_eq_true.mpr ⟨q, hq, by simp [hs]⟩
  simp [e]

/-- A bundle that leaves the results in flight as they are holds for no mirror (R29). -/
theorem mirrorHold_same {s w : State} (h : w.fr.infl = s.fr.infl) : mirrorHold s w = false :=
  mirrorHold_old fun r hr => ⟨r, h ▸ hr, rfl⟩

/-- Without a granule written there is no mirror to hold for (R29). -/
theorem mirrorHold_new {s w : State} (h : ∀ r ∈ w.fr.infl, (∃ q ∈ s.fr.infl, q.seq = r.seq) ∨ r.granule = none) : mirrorHold s w = false := by
  simp only [mirrorHold, List.any_eq_false]
  intro r hr
  rcases h r hr with ⟨q, hq, hs⟩ | hg
  · have e : s.fr.infl.any (fun q => q.seq == r.seq) = true := List.any_eq_true.mpr ⟨q, hq, by simp [hs]⟩
    simp [e]
  · simp [hg]

/-- The bits of a lone operation raise no trap when it is legal and its mode is right. -/
theorem bitTrap_alone {s : State} {p : BitVec 3} {cls : Nat} {op : Op} (h : op.legal s.ctx = true)
    (m : op.priv = true → s.fr.id.mode = true) : bitTrap s [s.alone p cls op] = none := by
  cases hp : op.priv
  · simp [bitTrap, State.alone, h, hp]
  · simp [bitTrap, State.alone, h, m hp]


theorem issueOne_alone (s : State) (p : BitVec 3) (cls : Nat) (op : Op) :
    issueOne s p cls op = .next (issue s [s.alone p cls op] s.ctx.ew s.ctx.hasHdr) := rfl

/-- A bundle that reads nothing on chip learns nothing (R113). -/
@[simp] theorem observeUses_nil (w s : State) : w.observeUses s [] = w := by
  unfold State.observeUses
  split <;> simp [State.observe]

/-- A ready operation whose meaning gives a working state issues: the bundle is committed. -/
theorem issueOne_ready {s w : State} {p : BitVec 3} {cls : Nat} {op : Op} (h : Ready s p cls op)
    (e : op.sem s.ctx s s.settled = .ok w) (c : w.closed = false) (m : mirrorHold s w = false) :
    issueOne s p cls op = .next (s.issued cls op.mx op.vec op.sfu op.memp (bankNow s [s.alone p cls op])
      (w.observeUses s [s.alone p cls op])) := by
  have hl : (s.alone p cls op).live s.fr = true := by simpa [State.alone, SlotOp.live] using h.pred
  have hf : [s.alone p cls op].filter (fun o => o.live s.fr) = [s.alone p cls op] := by simp [hl]
  have hb : bitTrap s [s.alone p cls op] = none := bitTrap_alone h.legal h.mode
  have hr : runSlots s [s.alone p cls op] { w := s.settled } = { w := w } := by
    simp only [runSlots, State.alone]; rw [e]
  have hs : ¬ s.fr.ctl.bankHold < slowHold s [s.alone p cls op] := Nat.not_lt.mpr h.slow
  have hw : s.admits s.cur (bundleWeight s.fr.id.ewtab s.ctx.ew s.ctx.hasHdr [cls]) = true := h.window
  rw [issueOne_alone]
  unfold issue
  simp only [hb, hf, h.free, h.banks, judged_alone, hs, hr, drawSum_alone, c, m]
  simp [State.alone, h.perm, hw, State.issued, State.weightOf]

/-- An operation whose predicate is false does nothing: its bundle is committed alone (R64). -/
theorem issueOne_off {s : State} {p : BitVec 3} {cls : Nat} {op : Op} (h : ReadyOff s p cls op) :
    issueOne s p cls op = .next (s.issued cls 0 0 0 0 [] s.settled) := by
  have hl : (s.alone p cls op).live s.fr = false := by simpa [State.alone, SlotOp.live] using h.pred
  have hf : [s.alone p cls op].filter (fun o => o.live s.fr) = [] := by simp [hl]
  have hb : bitTrap s [s.alone p cls op] = none := bitTrap_alone h.legal h.mode
  have hw : s.admits s.cur (bundleWeight s.fr.id.ewtab s.ctx.ew s.ctx.hasHdr [cls]) = true := h.window
  have hp : operandsPending s [] = false := by simp [operandsPending]
  have hr : bankReads s [] = [] := by simp [bankReads, bankGranules, dedup, bankLoads]
  have hs : slowHold s [] = 0 := by simp [slowHold, bankHold, hr, fullest]
  have hn : bankNow s [] = [] := by simp [bankNow, hr, dedup]
  have hc : judged s [] = [] := by simp [judged, selfConflict]
  have hm : mirrorHold s s.settled = false := mirrorHold_same (by simp [State.settled])
  rw [issueOne_alone]
  unfold issue
  simp only [hb, hf, hp, hs, hn, hc, hm, runSlots, settled_closed, h.isOpen, drawSum]
  simp [covers_zero, State.alone, hw, State.issued, State.weightOf]

/-- An operation with illegal bits takes the illegal-instruction trap (R61, R62). -/
theorem issueOne_illegal {s : State} {p : BitVec 3} {cls : Nat} {op : Op} (h : op.legal s.ctx = false) :
    issueOne s p cls op = .next (s.takeTrap { cause := Cause.illegalInstruction, slot := s.ctx.slot } s.fr.ctl.pc) := by
  simp [issueOne, issue, bitTrap, h]

/-- A privileged operation in user mode takes the privilege trap, whatever its predicate (R62). -/
theorem issueOne_privilege {s : State} {p : BitVec 3} {cls : Nat} {op : Op} (h : op.legal s.ctx = true)
    (q : op.priv = true) (m : s.fr.id.mode = false) :
    issueOne s p cls op = .next (s.takeTrap { cause := Cause.privilege, slot := s.ctx.slot } s.fr.ctl.pc) := by
  simp [issueOne, issue, bitTrap, h, q, m]

/-- A ready operation that raises a trap takes it, and its bundle issues nothing (R63). -/
theorem issueOne_trap {s : State} {p : BitVec 3} {cls : Nat} {op : Op} {t : Trap} (h : Ready s p cls op)
    (e : op.sem s.ctx s s.settled = .error (.trap t)) :
    issueOne s p cls op = .next (s.takeTrap { t with slot := s.ctx.slot } s.fr.ctl.pc) := by
  have hl : (s.alone p cls op).live s.fr = true := by simpa [State.alone, SlotOp.live] using h.pred
  have hf : [s.alone p cls op].filter (fun o => o.live s.fr) = [s.alone p cls op] := by simp [hl]
  have hb : bitTrap s [s.alone p cls op] = none := bitTrap_alone h.legal h.mode
  have hr : runSlots s [s.alone p cls op] { w := s.settled } = { w := s.settled, trap := some (.trap t, s.ctx.slot) } := by
    simp only [runSlots, State.alone]; rw [e]
  have hs : ¬ s.fr.ctl.bankHold < slowHold s [s.alone p cls op] := Nat.not_lt.mpr h.slow
  rw [issueOne_alone]
  unfold issue
  simp only [hb, hf, h.free, h.banks, judged_alone, hs, hr, drawSum_alone]
  simp [State.alone, h.perm, State.stop]

/-! ## From an operation's meaning to its instruction -/

/-- A readable scalar source reads as its register. -/
theorem getS_ok {s : State} {f : BitVec 6} (h : Readable s f) : getS s f = .ok (s.rdS f) := by
  unfold Readable at h; simp [getS, h]

@[simp] theorem result_closed (w : State) (k : Fin 4) (lat : Nat) (d : Dest) (b : Mask) (v : Vec) (u : Option (Fin 3)) :
    (w.result k lat d b v u).closed = w.closed := rfl
@[simp] theorem sResult_closed (c : SlotCtx) (n : BitVec 1) (d : BitVec 6) (lat : Nat) (v : Word) (w : State) :
    (sResult c n d lat v w).closed = w.closed := rfl

/-- A ready instruction is its operation, ready. -/
theorem SlotReady.ready {s : State} {i : Instr} {p : BitVec 3} {cls : Nat} {op : Op} (h : SlotReady i s)
    (ho : opOf i = some (p, cls, op)) : Ready s p cls op := by
  unfold SlotReady at h; rw [ho] at h; exact h

/-- An instruction whose operation works the state `w` wherever it is ready completes as `w`. -/
theorem completesAs_of_sem {s w : State} {i : Instr} {p : BitVec 3} {cls : Nat} {op : Op} (ho : opOf i = some (p, cls, op))
    (he : exec i s = issueOne s p cls op) (hs : Ready s p cls op → op.sem s.ctx s s.settled = .ok w) (hc : w.closed = s.closed) :
    CompletesAs s i w := by
  intro h hm
  have r := h.ready ho
  rw [he, issueOne_ready r (hs r) (by rw [hc]; exact r.isOpen) hm]
  unfold State.after; rw [ho]

/-- An instruction whose operation raises a trap wherever it is ready takes it. -/
theorem trapsWith_of_sem {s : State} {i : Instr} {p : BitVec 3} {cls : Nat} {op : Op} {t : Trap} (ho : opOf i = some (p, cls, op))
    (he : exec i s = issueOne s p cls op) (hs : Ready s p cls op → op.sem s.ctx s s.settled = .error (.trap t)) :
    TrapsWith s i t := by
  intro h
  have r := h.ready ho
  rw [he, issueOne_trap r (hs r)]

end Sys2Proof.Machine
end

