-- ==== Sys2Proof/Laws/Memory.lean ====
section
/-! SUPPORT. Memory: its canonical form, which every memory operation keeps, reads after writes, and what the memory of a state becomes
under the shared writes. -/

namespace Sys2Proof.Machine

open Sys2Proof

/-! ## The canonical form -/

/-- The canonical form of a list by its first cell and the rest. -/
theorem wf_cons (c : Host.Cell) (m : List Host.Cell) :
    Memory.wf (c :: m) = true ↔ (∀ d ∈ m.head?, c.1 < d.1) ∧ c.2 ≠ 0 ∧ Memory.wf m = true := by
  cases m <;> simp [Memory.wf, and_assoc, and_left_comm]

/-- The canonical form said of the whole list: rising addresses, no entry that reads as an unlisted one. -/
theorem wf_iff (m : List Host.Cell) : Memory.wf m = true ↔ m.Pairwise (fun a b => a.1 < b.1) ∧ ∀ c ∈ m, c.2 ≠ 0 := by
  have rising : IsTrans Host.Cell (fun a b => a.1 < b.1) := ⟨fun _ _ _ => Nat.lt_trans⟩
  rw [← List.isChain_iff_pairwise]
  induction m with
  | nil => simp [Memory.wf]
  | cons c m rest =>
    rw [wf_cons, List.isChain_cons, List.forall_mem_cons]
    tauto

/-- A part of a canonical memory is canonical. -/
theorem wf_filter {m : List Host.Cell} (h : Memory.wf m = true) (p : Host.Cell → Bool) : Memory.wf (m.filter p) = true := by
  rw [wf_iff] at h ⊢
  exact ⟨h.1.sublist List.filter_sublist, fun c hc => h.2 c (List.mem_filter.mp hc).1⟩

/-- A cell of a value is no unlisted one and stands in the value's range. -/
theorem mem_cellsOf {a v n : Nat} {c : Host.Cell} (hc : c ∈ cellsOf a v n) : c.2 ≠ 0 ∧ a ≤ c.1 ∧ c.1 < a + n := by
  induction n generalizing a v with
  | zero => simp [cellsOf] at hc
  | succ n ih =>
    have later (h : c ∈ cellsOf (a + 1) (v / 256) n) : c.2 ≠ 0 ∧ a ≤ c.1 ∧ c.1 < a + (n + 1) := (ih h).imp_right (by omega)
    simp only [cellsOf] at hc
    split at hc
    · exact later hc
    · rename_i kept
      rcases List.mem_cons.mp hc with here | hc
      · subst here; exact ⟨kept, by simp⟩
      · exact later hc

/-- The cells of a value are canonical. -/
theorem wf_cellsOf (a v n : Nat) : Memory.wf (cellsOf a v n) = true := by
  induction n generalizing a v with
  | zero => rfl
  | succ n ih =>
    simp only [cellsOf]
    split
    · exact ih ..
    · rename_i kept
      exact (wf_cons ..).mpr ⟨fun d hd => (mem_cellsOf (List.mem_of_mem_head? hd)).2.1, kept, ih ..⟩

theorem wf_append {l m : List Host.Cell} (hl : Memory.wf l = true) (hm : Memory.wf m = true) (h : ∀ c ∈ l, ∀ d ∈ m, c.1 < d.1) :
    Memory.wf (l ++ m) = true := by
  rw [wf_iff] at *
  refine ⟨List.pairwise_append.mpr ⟨hl.1, hm.1, h⟩, fun c hc => ?_⟩
  rcases List.mem_append.mp hc with hc | hc
  · exact hl.2 c hc
  · exact hm.2 c hc

/-- A write keeps the canonical form. -/
theorem wf_write {m : List Host.Cell} (h : Memory.wf m = true) (a n v : Nat) : Memory.wf (Memory.write m a n v) = true := by
  unfold Memory.write cellsBelow cellsFrom
  refine wf_append (wf_filter h _) (wf_append (wf_cellsOf a v n) (wf_filter h _) fun c hc d hd => ?_) fun c hc d hd => ?_
  · have h1 := (mem_cellsOf hc).2.2
    have h2 : a + n ≤ d.1 := by simpa using (List.mem_filter.mp hd).2
    omega
  · have h1 : c.1 < a := by simpa using (List.mem_filter.mp hc).2
    rcases List.mem_append.mp hd with hd | hd
    · have := (mem_cellsOf hd).2.1; omega
    · have h2 : a + n ≤ d.1 := by simpa using (List.mem_filter.mp hd).2
      omega

theorem wf_writeEn {m : List Host.Cell} (h : Memory.wf m = true) (a n v ben : Nat) : Memory.wf (Memory.writeEn m a n v ben) = true :=
  wf_write h ..

/-- Dropping a range keeps the canonical form. -/
theorem wf_dropRange {m : List Host.Cell} (h : Memory.wf m = true) (a n : Nat) : Memory.wf (dropRange m a n) = true := by
  unfold dropRange cellsBelow cellsFrom
  refine wf_append (wf_filter h _) (wf_filter h _) fun c hc d hd => ?_
  have h1 : c.1 < a := by simpa using (List.mem_filter.mp hc).2
  have h2 : a + n ≤ d.1 := by simpa using (List.mem_filter.mp hd).2
  omega

/-- Two canonical memories that read alike at every address are the same list. -/
theorem find_eq_some {m : List Host.Cell} (h : Memory.wf m = true) (c : Host.Cell) :
    m.find? (fun x => x.1 == c.1) = some c ↔ c ∈ m := by
  refine ⟨List.mem_of_find?_eq_some, fun hc => ?_⟩
  obtain ⟨d, found⟩ : ∃ d, m.find? (fun x => x.1 == c.1) = some d := by
    rw [← Option.isSome_iff_exists, List.find?_isSome]; exact ⟨c, hc, by simp⟩
  have same : d.1 = c.1 := by simpa using List.find?_some found
  have apart : Std.Symm (fun a b : Host.Cell => a.1 ≠ b.1) := ⟨fun _ _ ne => ne.symm⟩
  have once : m.Pairwise (fun a b => a.1 ≠ b.1) := ((wf_iff m).mp h).1.imp fun lt => Nat.ne_of_lt lt
  by_cases e : d = c
  · rw [found, e]
  · exact absurd same (once.forall (List.mem_of_find?_eq_some found) hc e)

/-! ## Reads after writes -/

theorem find_none {m : List Host.Cell} {a : Nat} (h : ∀ c ∈ m, c.1 ≠ a) : m.find? (fun c => c.1 == a) = none := by
  simpa using fun x y hxy => h (x, y) hxy

/-- A byte of the cells of a value. -/
theorem byte_cellsOf (a v n x : Nat) :
    Memory.byte (cellsOf a v n) x = if a ≤ x ∧ x < a + n then BitVec.ofNat 8 (v >>> (8 * (x - a))) else 0 := by
  induction n generalizing a v with
  | zero => simp [cellsOf, Memory.byte, Memory.unlisted]
  | succ n ih =>
    unfold cellsOf
    dsimp only
    by_cases hx : x = a
    · subst hx
      have hn : (cellsOf (x + 1) (v / 256) n).find? (fun c => c.1 == x) = none :=
        find_none fun c hc => by have := (mem_cellsOf hc).2.1; omega
      split
      · rename_i hb
        simp only [Memory.byte, hn]
        simp [← hb]
      · simp [Memory.byte]
    · have hy : Memory.byte (if BitVec.ofNat 8 v = Memory.unlisted then cellsOf (a + 1) (v / 256) n
          else (a, BitVec.ofNat 8 v) :: cellsOf (a + 1) (v / 256) n) x = Memory.byte (cellsOf (a + 1) (v / 256) n) x := by
        split
        · rfl
        · have : ¬ a = x := fun h => hx h.symm
          simp [Memory.byte, this]
      rw [hy, ih]
      by_cases h1 : a + 1 ≤ x ∧ x < a + 1 + n
      · have h2 : a ≤ x ∧ x < a + (n + 1) := by omega
        rw [if_pos h1, if_pos h2]
        congr 1
        have : x - a = (x - (a + 1)) + 1 := by omega
        rw [this, show (256 : Nat) = 2 ^ 8 from rfl, ← Nat.shiftRight_eq_div_pow, ← Nat.shiftRight_add]
        congr 1; omega
      · have h2 : ¬ (a ≤ x ∧ x < a + (n + 1)) := by omega
        rw [if_neg h1, if_neg h2]

/-- Reading a byte after a write: the value's byte inside the range, the byte before outside. -/
theorem byte_write (m : List Host.Cell) (a n v x : Nat) :
    Memory.byte (Memory.write m a n v) x
      = if a ≤ x ∧ x < a + n then BitVec.ofNat 8 (v >>> (8 * (x - a))) else Memory.byte m x := by
  have value := byte_cellsOf a v n x
  simp only [Memory.byte, Memory.write, cellsBelow, cellsFrom, List.find?_append, find_keyed _ (fun k => decide (k < a)),
    find_keyed _ (fun k => decide (a + n ≤ k))] at value ⊢
  by_cases inside : a ≤ x ∧ x < a + n
  · rw [if_pos inside] at value ⊢
    simpa [show ¬ x < a by omega, show ¬ a + n ≤ x by omega] using value
  · have none_there : (cellsOf a v n).find? (·.1 == x) = none := find_none fun c hc same => inside (same ▸ (mem_cellsOf hc).2)
    rw [if_neg inside, none_there]
    by_cases below : x < a
    · simp [below, show ¬ a + n ≤ x by omega]
    · simp [below, show a + n ≤ x by omega]

/-! ## The memory of a state -/

theorem memOk_reset : State.reset.MemOk := rfl

/-- What a write at the home leaves in memory: the bytes that win are written, the others stand. -/
theorem homeWriteEn_mem (s : State) (x : Stamp) (pa n v ben : Nat) (e : Need) (d : Option DieId) :
    (s.homeWriteEn x pa n v ben e d).mem = if s.winsAt x pa n ben = ones n then Memory.write s.mem pa n v
      else Memory.writeEn s.mem pa n v (s.winsAt x pa n ben) := rfl

theorem memOk_homeWriteEn {s : State} (h : s.MemOk) (x : Stamp) (pa n v ben : Nat) (e : Need) (d : Option DieId) :
    (s.homeWriteEn x pa n v ben e d).MemOk := by
  unfold State.MemOk
  rw [homeWriteEn_mem]
  split
  · exact wf_write h ..
  · exact wf_writeEn h ..

theorem memOk_homeWrite {s : State} (h : s.MemOk) (x : Stamp) (pa n v : Nat) (e : Need) : (s.homeWrite x pa n v e).MemOk :=
  memOk_homeWriteEn h ..

/-- A fold of operations that keep the canonical form keeps it. -/
theorem memOk_foldl {α : Type} {f : State → α → State} (hf : ∀ s a, s.MemOk → (f s a).MemOk) (l : List α) {s : State} (h : s.MemOk) :
    (l.foldl f s).MemOk := by
  induction l generalizing s with
  | nil => exact h
  | cons a l ih => exact ih (hf s a h)

theorem memOk_flushDie {s : State} (h : s.MemOk) (d : DieId) (p : Nat → Bool) : (s.flushDie d p).MemOk := by
  have moved : ((((s.dies.get d).l2.filter fun b => p b.1).foldl (fun s b => s.homeByte d b) s)).MemOk :=
    memOk_foldl (fun _ _ hs => memOk_homeWriteEn hs ..) _ h
  unfold State.flushDie
  dsimp only
  split <;> exact moved

theorem memOk_dieFlush {s : State} (h : s.MemOk) (d : DieId) : (s.dieFlush d).MemOk := memOk_flushDie h ..

/-- A die's write touches no memory. -/
theorem memOk_dieWrite {s : State} (h : s.MemOk) (d : DieId) (x : Stamp) (pa : Nat) (v : Byte) : (s.dieWrite d x pa v).MemOk := by
  simpa [State.MemOk] using h

/-- A die's caches are not home memory. -/
theorem memOk_updDie {s : State} (h : s.MemOk) (d : DieId) (f : Die → Die) : (s.updDie d f).MemOk := h

theorem memOk_l2Fill {s : State} (h : s.MemOk) (d : DieId) (a : Nat) : (s.l2Fill d a).MemOk := by
  unfold State.l2Fill
  dsimp only
  split
  · exact h
  split
  · exact h
  split
  · exact h
  split
  · exact h
  · refine memOk_updDie (memOk_flushDie ?_ ..) ..
    exact h

theorem memOk_writeBack {s : State} (h : s.MemOk) (c : CoreId) (scope : Nat) (p : Nat → Bool) : (s.writeBack c scope p).MemOk := by
  unfold State.writeBack
  split
  · exact h
  · have near (l : List L1Byte) (f : Core → Core) : (l.foldl (fun s b =>
        (s.l2Fill (dieOf c) (b.pa / 64 * 64)).dieWrite (dieOf c) b.m.stamp b.pa b.val) (s.updCore c f)).MemOk :=
      memOk_foldl (fun _ _ hs => memOk_dieWrite (memOk_l2Fill hs ..) ..) _ h
    have home (l : List L1Byte) (f : Core → Core) : (l.foldl (fun s b =>
        s.homeWriteEn b.m.stamp b.pa 1 b.val.toNat 1 .touch (some (dieOf c))) (s.updCore c f)).MemOk :=
      memOk_foldl (fun _ _ hs => memOk_homeWriteEn hs ..) _ h
    dsimp only
    split
    · exact near ..
    · split <;> exact home ..

theorem memOk_released {s : State} (h : s.MemOk) (c : CoreId) (scope : Nat) : (s.released c scope).MemOk := by
  unfold State.released
  dsimp only
  split <;> exact h

theorem memOk_release {s : State} (h : s.MemOk) (c : CoreId) (scope : Nat) : (s.release c scope).MemOk := by
  unfold State.release
  dsimp only
  split
  · exact h
  · refine memOk_released ?_ ..
    split
    · exact memOk_dieFlush (memOk_writeBack h c scope _) _
    · exact memOk_writeBack h c scope _

theorem memOk_learnSeen {s : State} (h : s.MemOk) (w scope : Nat) : (s.learnSeen w scope).MemOk := by
  unfold State.learnSeen
  dsimp only
  split <;> exact h

theorem memOk_acquire {s : State} (h : s.MemOk) (c : CoreId) (scope : Nat) : (s.acquire c scope).MemOk := by
  unfold State.acquire
  split
  · exact h
  · exact memOk_learnSeen (s := s.updCore c _) h ..

theorem memOk_chipWrite {s : State} (h : s.MemOk) (x : Stamp) (pa n v ben : Nat) : (s.chipWrite x pa n v ben).MemOk := by
  unfold State.chipWrite State.MemOk
  dsimp only
  split
  · exact wf_write h ..
  · exact wf_writeEn h ..

theorem memOk_zeroRange {s : State} (h : s.MemOk) (pa n : Nat) : (s.zeroRange pa n).MemOk := by
  unfold State.zeroRange State.MemOk
  exact wf_dropRange h ..

theorem memOk_zeroHbm {s : State} (h : s.MemOk) : s.zeroHbm.MemOk := wf_filter h _

end Sys2Proof.Machine
end

