-- ==== Sys2Proof/Laws/PerInstr.lean ====
section
/-! SUPPORT. One law of the syntax for each instruction: the word that encodes it carries, in the class and predicate fields of its slot,
the class and predicate with which the machine issues it. -/

open Sys2Proof Sys2Proof.Machine

namespace Sys2Proof.Laws

/-- Packing and unpacking the fields of a slot (R40). -/
theorem unpack_pack (x : SlotW) : SlotW.unpack x.pack = x := by
  obtain ⟨c, p, o, n, d, a, b⟩ := x
  have h (k : Nat) : (SlotW.pack ⟨c, p, o, n, d, a, b⟩).getLsbD k = if k < 6 then b.getLsbD k else if k - 6 < 6 then a.getLsbD (k - 6)
      else if k - 6 - 6 < 6 then d.getLsbD (k - 6 - 6) else if k - 6 - 6 - 6 < 1 then n.getLsbD (k - 6 - 6 - 6)
      else if k - 6 - 6 - 6 - 1 < 7 then o.getLsbD (k - 6 - 6 - 6 - 1) else if k - 6 - 6 - 6 - 1 - 7 < 3 then
        p.getLsbD (k - 6 - 6 - 6 - 1 - 7) else c.getLsbD (k - 6 - 6 - 6 - 1 - 7 - 3) := by
    have e : BitVec.getLsbD (w := 3 + 3 + 7 + 1 + 6 + 6 + 6) (c ++ p ++ o ++ n ++ d ++ a ++ b) k =
      if k < 6 then b.getLsbD k else if k - 6 < 6 then a.getLsbD (k - 6)
      else if k - 6 - 6 < 6 then d.getLsbD (k - 6 - 6) else if k - 6 - 6 - 6 < 1 then n.getLsbD (k - 6 - 6 - 6)
      else if k - 6 - 6 - 6 - 1 < 7 then o.getLsbD (k - 6 - 6 - 6 - 1) else if k - 6 - 6 - 6 - 1 - 7 < 3 then
        p.getLsbD (k - 6 - 6 - 6 - 1 - 7) else c.getLsbD (k - 6 - 6 - 6 - 1 - 7 - 3) := by
      simp only [BitVec.getLsbD_append]
    exact e
  have g (w : Nat) (x : BitVec w) (s : Nat) (e : ∀ i, i < w → (SlotW.pack ⟨c, p, o, n, d, a, b⟩).getLsbD (s + i) = x.getLsbD i) :
      (SlotW.pack ⟨c, p, o, n, d, a, b⟩).extractLsb' s w = x := by
    apply BitVec.eq_of_getLsbD_eq
    intro i hi
    simp [hi, e i hi]
  simp only [SlotW.unpack, SlotW.mk.injEq]
  refine ⟨g _ _ _ ?_, g _ _ _ ?_, g _ _ _ ?_, g _ _ _ ?_, g _ _ _ ?_, g _ _ _ ?_, g _ _ _ ?_⟩ <;> intro i hi <;> rw [h] <;>
    (repeat' split) <;> first | omega | (congr 1; omega)

end Sys2Proof.Laws

namespace Sys2Proof.Laws.ClassAndPredicate

/-- The word of an instruction holds its class and its predicate (R40). -/
def Statement (i : Instr) : Prop := ∀ w p cls op, encode i = some w → opOf i = some (p, cls, op) →
  (SlotW.unpack w).cls.toNat = cls ∧ (SlotW.unpack w).p = p

theorem of_pack {i : Instr} {x : SlotW} {p : BitVec 3} {cls : Nat} {op : Op} (h : encode i = some x.pack) (g : opOf i = some (p, cls, op))
    (hc : x.cls.toNat = cls) (hp : x.p = p) : Statement i := by
  intro w q c o h1 g1
  rw [h] at h1; rw [g] at g1
  cases h1; cases g1
  rw [unpack_pack]; exact ⟨hc, hp⟩

theorem of_none {i : Instr} (g : opOf i = none) : Statement i := by
  intro w q c o _ g1; rw [g] at g1; cases g1

theorem add (p : BitVec 3) (n : BitVec 1) (d : BitVec 6) (a : BitVec 6) (b : BitVec 6) : Statement (.add p n d a b) := of_pack rfl rfl rfl rfl
theorem sub (p : BitVec 3) (n : BitVec 1) (d : BitVec 6) (a : BitVec 6) (b : BitVec 6) : Statement (.sub p n d a b) := of_pack rfl rfl rfl rfl
theorem mul (p : BitVec 3) (n : BitVec 1) (d : BitVec 6) (a : BitVec 6) (b : BitVec 6) : Statement (.mul p n d a b) := of_pack rfl rfl rfl rfl
theorem mulh (p : BitVec 3) (n : BitVec 1) (d : BitVec 6) (a : BitVec 6) (b : BitVec 6) : Statement (.mulh p n d a b) := of_pack rfl rfl rfl rfl
theorem mulhn (p : BitVec 3) (n : BitVec 1) (d : BitVec 6) (a : BitVec 6) (b : BitVec 6) : Statement (.mulhn p n d a b) := of_pack rfl rfl rfl rfl
theorem div (p : BitVec 3) (n : BitVec 1) (d : BitVec 6) (a : BitVec 6) (b : BitVec 6) : Statement (.div p n d a b) := of_pack rfl rfl rfl rfl
theorem divn (p : BitVec 3) (n : BitVec 1) (d : BitVec 6) (a : BitVec 6) (b : BitVec 6) : Statement (.divn p n d a b) := of_pack rfl rfl rfl rfl
theorem rem (p : BitVec 3) (n : BitVec 1) (d : BitVec 6) (a : BitVec 6) (b : BitVec 6) : Statement (.rem p n d a b) := of_pack rfl rfl rfl rfl
theorem remn (p : BitVec 3) (n : BitVec 1) (d : BitVec 6) (a : BitVec 6) (b : BitVec 6) : Statement (.remn p n d a b) := of_pack rfl rfl rfl rfl
theorem andR (p : BitVec 3) (n : BitVec 1) (d : BitVec 6) (a : BitVec 6) (b : BitVec 6) : Statement (.andR p n d a b) := of_pack rfl rfl rfl rfl
theorem orR (p : BitVec 3) (n : BitVec 1) (d : BitVec 6) (a : BitVec 6) (b : BitVec 6) : Statement (.orR p n d a b) := of_pack rfl rfl rfl rfl
theorem xor (p : BitVec 3) (n : BitVec 1) (d : BitVec 6) (a : BitVec 6) (b : BitVec 6) : Statement (.xor p n d a b) := of_pack rfl rfl rfl rfl
theorem andn (p : BitVec 3) (n : BitVec 1) (d : BitVec 6) (a : BitVec 6) (b : BitVec 6) : Statement (.andn p n d a b) := of_pack rfl rfl rfl rfl
theorem shl (p : BitVec 3) (n : BitVec 1) (d : BitVec 6) (a : BitVec 6) (b : BitVec 6) : Statement (.shl p n d a b) := of_pack rfl rfl rfl rfl
theorem shr (p : BitVec 3) (n : BitVec 1) (d : BitVec 6) (a : BitVec 6) (b : BitVec 6) : Statement (.shr p n d a b) := of_pack rfl rfl rfl rfl
theorem sar (p : BitVec 3) (n : BitVec 1) (d : BitVec 6) (a : BitVec 6) (b : BitVec 6) : Statement (.sar p n d a b) := of_pack rfl rfl rfl rfl
theorem rotr (p : BitVec 3) (n : BitVec 1) (d : BitVec 6) (a : BitVec 6) (b : BitVec 6) : Statement (.rotr p n d a b) := of_pack rfl rfl rfl rfl
theorem min (p : BitVec 3) (n : BitVec 1) (d : BitVec 6) (a : BitVec 6) (b : BitVec 6) : Statement (.min p n d a b) := of_pack rfl rfl rfl rfl
theorem max (p : BitVec 3) (n : BitVec 1) (d : BitVec 6) (a : BitVec 6) (b : BitVec 6) : Statement (.max p n d a b) := of_pack rfl rfl rfl rfl
theorem minn (p : BitVec 3) (n : BitVec 1) (d : BitVec 6) (a : BitVec 6) (b : BitVec 6) : Statement (.minn p n d a b) := of_pack rfl rfl rfl rfl
theorem maxn (p : BitVec 3) (n : BitVec 1) (d : BitVec 6) (a : BitVec 6) (b : BitVec 6) : Statement (.maxn p n d a b) := of_pack rfl rfl rfl rfl
theorem clz (p : BitVec 3) (n : BitVec 1) (d : BitVec 6) (a : BitVec 6) : Statement (.clz p n d a) := of_pack rfl rfl rfl rfl
theorem popc (p : BitVec 3) (n : BitVec 1) (d : BitVec 6) (a : BitVec 6) : Statement (.popc p n d a) := of_pack rfl rfl rfl rfl
theorem abs (p : BitVec 3) (n : BitVec 1) (d : BitVec 6) (a : BitVec 6) : Statement (.abs p n d a) := of_pack rfl rfl rfl rfl
theorem ext (p : BitVec 3) (n : BitVec 1) (d : BitVec 6) (a : BitVec 6) (b : BitVec 6) : Statement (.ext p n d a b) := of_pack rfl rfl rfl rfl
theorem ins (p : BitVec 3) (n : BitVec 1) (d : BitVec 6) (a : BitVec 6) (b : BitVec 6) : Statement (.ins p n d a b) := of_pack rfl rfl rfl rfl
theorem lea1 (p : BitVec 3) (n : BitVec 1) (d : BitVec 6) (a : BitVec 6) (b : BitVec 6) : Statement (.lea1 p n d a b) := of_pack rfl rfl rfl rfl
theorem lea2 (p : BitVec 3) (n : BitVec 1) (d : BitVec 6) (a : BitVec 6) (b : BitVec 6) : Statement (.lea2 p n d a b) := of_pack rfl rfl rfl rfl
theorem lea4 (p : BitVec 3) (n : BitVec 1) (d : BitVec 6) (a : BitVec 6) (b : BitVec 6) : Statement (.lea4 p n d a b) := of_pack rfl rfl rfl rfl
theorem lea8 (p : BitVec 3) (n : BitVec 1) (d : BitVec 6) (a : BitVec 6) (b : BitVec 6) : Statement (.lea8 p n d a b) := of_pack rfl rfl rfl rfl
theorem mov (p : BitVec 3) (n : BitVec 1) (d : BitVec 6) (a : BitVec 6) : Statement (.mov p n d a) := of_pack rfl rfl rfl rfl
theorem cmp (p : BitVec 3) (c : BitVec 4) (d : BitVec 3) (a : BitVec 6) (b : BitVec 6) : Statement (.cmp p c d a b) := of_pack rfl rfl rfl rfl
theorem addi (p : BitVec 3) (n : BitVec 1) (d : BitVec 6) (a : BitVec 6) (i : BitVec 6) : Statement (.addi p n d a i) := of_pack rfl rfl rfl rfl
theorem muli (p : BitVec 3) (n : BitVec 1) (d : BitVec 6) (a : BitVec 6) (i : BitVec 6) : Statement (.muli p n d a i) := of_pack rfl rfl rfl rfl
theorem andi (p : BitVec 3) (n : BitVec 1) (d : BitVec 6) (a : BitVec 6) (i : BitVec 6) : Statement (.andi p n d a i) := of_pack rfl rfl rfl rfl
theorem ori (p : BitVec 3) (n : BitVec 1) (d : BitVec 6) (a : BitVec 6) (i : BitVec 6) : Statement (.ori p n d a i) := of_pack rfl rfl rfl rfl
theorem xori (p : BitVec 3) (n : BitVec 1) (d : BitVec 6) (a : BitVec 6) (i : BitVec 6) : Statement (.xori p n d a i) := of_pack rfl rfl rfl rfl
theorem shli (p : BitVec 3) (n : BitVec 1) (d : BitVec 6) (a : BitVec 6) (i : BitVec 6) : Statement (.shli p n d a i) := of_pack rfl rfl rfl rfl
theorem shri (p : BitVec 3) (n : BitVec 1) (d : BitVec 6) (a : BitVec 6) (i : BitVec 6) : Statement (.shri p n d a i) := of_pack rfl rfl rfl rfl
theorem sari (p : BitVec 3) (n : BitVec 1) (d : BitVec 6) (a : BitVec 6) (i : BitVec 6) : Statement (.sari p n d a i) := of_pack rfl rfl rfl rfl
theorem movi (p : BitVec 3) (n : BitVec 1) (d : BitVec 6) (i : BitVec 6) : Statement (.movi p n d i) := of_pack rfl rfl rfl rfl
theorem movhi (p : BitVec 3) (n : BitVec 1) (d : BitVec 6) (a : BitVec 6) (i : BitVec 6) : Statement (.movhi p n d a i) := of_pack rfl rfl rfl rfl
theorem cmpi (p : BitVec 3) (c : BitVec 4) (d : BitVec 3) (a : BitVec 6) (i : BitVec 6) : Statement (.cmpi p c d a i) := of_pack rfl rfl rfl rfl
theorem lds (p : BitVec 3) (w : BitVec 3) (n : BitVec 1) (d : BitVec 6) (a : BitVec 6) (o : BitVec 4) (m : BitVec 2) : Statement (.lds p w n d a o m) := of_pack rfl rfl rfl rfl
theorem sts (p : BitVec 3) (w : BitVec 2) (d : BitVec 6) (a : BitVec 6) (o : BitVec 4) (m : BitVec 2) : Statement (.sts p w d a o m) := of_pack rfl rfl rfl rfl
theorem vset (p : BitVec 3) (v : BitVec 3) (a : BitVec 6) : Statement (.vset p v a) := of_pack rfl rfl rfl rfl
theorem vget (p : BitVec 3) (n : BitVec 1) (d : BitVec 6) (v : BitVec 3) : Statement (.vget p n d v) := of_pack rfl rfl rfl rfl
theorem csrr (p : BitVec 3) (n : BitVec 1) (d : BitVec 6) (c : BitVec 12) : Statement (.csrr p n d c) := of_pack rfl rfl rfl rfl
theorem csrw (p : BitVec 3) (h : BitVec 6) (a : BitVec 6) (l : BitVec 6) : Statement (.csrw p h a l) := of_pack rfl rfl rfl rfl
theorem trap (p : BitVec 3) (t : BitVec 6) : Statement (.trap p t) := of_pack rfl rfl rfl rfl
theorem tret (p : BitVec 3) : Statement (.tret p) := of_pack rfl rfl rfl rfl
theorem dchk (p : BitVec 3) (a : BitVec 6) (b : BitVec 6) : Statement (.dchk p a b) := of_pack rfl rfl rfl rfl
theorem dchkV (p : BitVec 3) (a : BitVec 6) (b : BitVec 6) : Statement (.dchkV p a b) := of_pack rfl rfl rfl rfl
theorem dchkA (p : BitVec 3) (a : BitVec 6) (b : BitVec 6) : Statement (.dchkA p a b) := of_pack rfl rfl rfl rfl
theorem join (p : BitVec 3) (n : BitVec 1) (d : BitVec 6) (a : BitVec 6) : Statement (.join p n d a) := of_pack rfl rfl rfl rfl
theorem leave (p : BitVec 3) (a : BitVec 6) : Statement (.leave p a) := of_pack rfl rfl rfl rfl
theorem yield (p : BitVec 3) : Statement (.yield p) := of_pack rfl rfl rfl rfl
theorem yieldEv (p : BitVec 3) : Statement (.yieldEv p) := of_pack rfl rfl rfl rfl
theorem step (p : BitVec 3) (a : BitVec 6) : Statement (.step p a) := of_pack rfl rfl rfl rfl
theorem mirror (p : BitVec 3) (e : BitVec 3) (a : BitVec 6) : Statement (.mirror p e a) := of_pack rfl rfl rfl rfl
theorem prep (p : BitVec 3) (t : BitVec 3) (i : BitVec 12) : Statement (.prep p t i) := of_pack rfl rfl rfl rfl
theorem xfer (p : BitVec 3) (t : BitVec 3) : Statement (.xfer p t) := of_pack rfl rfl rfl rfl
theorem xfere (p : BitVec 3) (t : BitVec 3) (w : BitVec 6) : Statement (.xfere p t w) := of_pack rfl rfl rfl rfl
theorem xfera (p : BitVec 3) (t : BitVec 3) (w : BitVec 6) : Statement (.xfera p t w) := of_pack rfl rfl rfl rfl
theorem call (p : BitVec 3) (t : BitVec 3) (l : BitVec 6) : Statement (.call p t l) := of_pack rfl rfl rfl rfl
theorem ret (p : BitVec 3) (a : BitVec 6) : Statement (.ret p a) := of_pack rfl rfl rfl rfl
theorem halt (p : BitVec 3) : Statement (.halt p) := of_pack rfl rfl rfl rfl
theorem loop (p : BitVec 3) (c : BitVec 6) (o : BitVec 12) : Statement (.loop p c o) := of_pack rfl rfl rfl rfl
theorem loops (p : BitVec 3) (c : BitVec 6) (s : BitVec 2) (o : BitVec 10) : Statement (.loops p c s o) := of_pack rfl rfl rfl rfl
theorem lbrk (p : BitVec 3) : Statement (.lbrk p) := of_pack rfl rfl rfl rfl
theorem lbrkD (p : BitVec 3) : Statement (.lbrkD p) := of_pack rfl rfl rfl rfl
theorem pand (p : BitVec 3) (d : BitVec 3) (a : BitVec 3) (b : BitVec 3) : Statement (.pand p d a b) := of_pack rfl rfl rfl rfl
theorem por (p : BitVec 3) (d : BitVec 3) (a : BitVec 3) (b : BitVec 3) : Statement (.por p d a b) := of_pack rfl rfl rfl rfl
theorem pxor (p : BitVec 3) (d : BitVec 3) (a : BitVec 3) (b : BitVec 3) : Statement (.pxor p d a b) := of_pack rfl rfl rfl rfl
theorem pnot (p : BitVec 3) (d : BitVec 3) (a : BitVec 3) : Statement (.pnot p d a) := of_pack rfl rfl rfl rfl
theorem pmov (p : BitVec 3) (d : BitVec 3) (a : BitVec 3) : Statement (.pmov p d a) := of_pack rfl rfl rfl rfl
theorem pall (p : BitVec 3) (d : BitVec 3) (a : BitVec 3) (w : BitVec 6) : Statement (.pall p d a w) := of_pack rfl rfl rfl rfl
theorem pany (p : BitVec 3) (d : BitVec 3) (a : BitVec 3) (w : BitVec 6) : Statement (.pany p d a w) := of_pack rfl rfl rfl rfl
theorem mpush (p : BitVec 3) (a : BitVec 3) : Statement (.mpush p a) := of_pack rfl rfl rfl rfl
theorem mpushIn (p : BitVec 3) (a : BitVec 3) : Statement (.mpushIn p a) := of_pack rfl rfl rfl rfl
theorem minv (p : BitVec 3) : Statement (.minv p) := of_pack rfl rfl rfl rfl
theorem mpop (p : BitVec 3) : Statement (.mpop p) := of_pack rfl rfl rfl rfl
theorem mget (p : BitVec 3) (d : BitVec 3) : Statement (.mget p d) := of_pack rfl rfl rfl rfl
theorem vadd (p : BitVec 3) (t : BitVec 3) (n : BitVec 1) (d : BitVec 6) (a : BitVec 6) (b : BitVec 6) : Statement (.vadd p t n d a b) := of_pack rfl rfl rfl rfl
theorem vsub (p : BitVec 3) (t : BitVec 3) (n : BitVec 1) (d : BitVec 6) (a : BitVec 6) (b : BitVec 6) : Statement (.vsub p t n d a b) := of_pack rfl rfl rfl rfl
theorem vmul (p : BitVec 3) (t : BitVec 3) (n : BitVec 1) (d : BitVec 6) (a : BitVec 6) (b : BitVec 6) : Statement (.vmul p t n d a b) := of_pack rfl rfl rfl rfl
theorem vfma (p : BitVec 3) (t : BitVec 3) (n : BitVec 1) (d : BitVec 6) (a : BitVec 6) (b : BitVec 6) : Statement (.vfma p t n d a b) := of_pack rfl rfl rfl rfl
theorem vmin (p : BitVec 3) (t : BitVec 3) (n : BitVec 1) (d : BitVec 6) (a : BitVec 6) (b : BitVec 6) : Statement (.vmin p t n d a b) := of_pack rfl rfl rfl rfl
theorem vmax (p : BitVec 3) (t : BitVec 3) (n : BitVec 1) (d : BitVec 6) (a : BitVec 6) (b : BitVec 6) : Statement (.vmax p t n d a b) := of_pack rfl rfl rfl rfl
theorem vneg (p : BitVec 3) (t : BitVec 3) (n : BitVec 1) (d : BitVec 6) (a : BitVec 6) : Statement (.vneg p t n d a) := of_pack rfl rfl rfl rfl
theorem vabs (p : BitVec 3) (t : BitVec 3) (n : BitVec 1) (d : BitVec 6) (a : BitVec 6) : Statement (.vabs p t n d a) := of_pack rfl rfl rfl rfl
theorem vcmp (p : BitVec 3) (c : BitVec 3) (t : BitVec 2) (d : BitVec 3) (a : BitVec 6) (b : BitVec 6) : Statement (.vcmp p c t d a b) := of_pack rfl rfl rfl rfl
theorem vsel (p : BitVec 3) (n : BitVec 1) (d : BitVec 6) (a : BitVec 6) (b : BitVec 6) : Statement (.vsel p n d a b) := of_pack rfl rfl rfl rfl
theorem vand (p : BitVec 3) (n : BitVec 1) (d : BitVec 6) (a : BitVec 6) (b : BitVec 6) : Statement (.vand p n d a b) := of_pack rfl rfl rfl rfl
theorem vor (p : BitVec 3) (n : BitVec 1) (d : BitVec 6) (a : BitVec 6) (b : BitVec 6) : Statement (.vor p n d a b) := of_pack rfl rfl rfl rfl
theorem vxor (p : BitVec 3) (n : BitVec 1) (d : BitVec 6) (a : BitVec 6) (b : BitVec 6) : Statement (.vxor p n d a b) := of_pack rfl rfl rfl rfl
theorem vshl (p : BitVec 3) (n : BitVec 1) (d : BitVec 6) (a : BitVec 6) (b : BitVec 6) : Statement (.vshl p n d a b) := of_pack rfl rfl rfl rfl
theorem vshr (p : BitVec 3) (n : BitVec 1) (d : BitVec 6) (a : BitVec 6) (b : BitVec 6) : Statement (.vshr p n d a b) := of_pack rfl rfl rfl rfl
theorem vsar (p : BitVec 3) (n : BitVec 1) (d : BitVec 6) (a : BitVec 6) (b : BitVec 6) : Statement (.vsar p n d a b) := of_pack rfl rfl rfl rfl
theorem vmov (p : BitVec 3) (n : BitVec 1) (d : BitVec 6) (a : BitVec 6) : Statement (.vmov p n d a) := of_pack rfl rfl rfl rfl
theorem vcvt (p : BitVec 3) (n : BitVec 1) (d : BitVec 6) (a : BitVec 6) (k : BitVec 4) (h : BitVec 1) : Statement (.vcvt p n d a k h) := of_pack rfl rfl rfl rfl
theorem vcvtz (p : BitVec 3) (n : BitVec 1) (d : BitVec 6) (a : BitVec 6) (k : BitVec 4) (h : BitVec 1) : Statement (.vcvtz p n d a k h) := of_pack rfl rfl rfl rfl
theorem vpack8 (p : BitVec 3) (n : BitVec 1) (d : BitVec 6) (a : BitVec 6) (z : BitVec 1) (t : BitVec 2) (q : BitVec 2) : Statement (.vpack8 p n d a z t q) := of_pack rfl rfl rfl rfl
theorem vunpk8 (p : BitVec 3) (n : BitVec 1) (d : BitVec 6) (a : BitVec 6) (t : BitVec 2) (q : BitVec 2) : Statement (.vunpk8 p n d a t q) := of_pack rfl rfl rfl rfl
theorem vqnt4 (p : BitVec 3) (n : BitVec 1) (d : BitVec 6) (a : BitVec 6) (t : BitVec 2) : Statement (.vqnt4 p n d a t) := of_pack rfl rfl rfl rfl
theorem vdq4 (p : BitVec 3) (n : BitVec 1) (d : BitVec 6) (a : BitVec 6) (h : BitVec 1) (f : BitVec 1) : Statement (.vdq4 p n d a h f) := of_pack rfl rfl rfl rfl
theorem vrcp (p : BitVec 3) (n : BitVec 1) (d : BitVec 6) (a : BitVec 6) : Statement (.vrcp p n d a) := of_pack rfl rfl rfl rfl
theorem vrsq (p : BitVec 3) (n : BitVec 1) (d : BitVec 6) (a : BitVec 6) : Statement (.vrsq p n d a) := of_pack rfl rfl rfl rfl
theorem vexp2 (p : BitVec 3) (n : BitVec 1) (d : BitVec 6) (a : BitVec 6) : Statement (.vexp2 p n d a) := of_pack rfl rfl rfl rfl
theorem vlog2 (p : BitVec 3) (n : BitVec 1) (d : BitVec 6) (a : BitVec 6) : Statement (.vlog2 p n d a) := of_pack rfl rfl rfl rfl
theorem vtanh (p : BitVec 3) (n : BitVec 1) (d : BitVec 6) (a : BitVec 6) : Statement (.vtanh p n d a) := of_pack rfl rfl rfl rfl
theorem vsigm (p : BitVec 3) (n : BitVec 1) (d : BitVec 6) (a : BitVec 6) : Statement (.vsigm p n d a) := of_pack rfl rfl rfl rfl
theorem vsin (p : BitVec 3) (n : BitVec 1) (d : BitVec 6) (a : BitVec 6) : Statement (.vsin p n d a) := of_pack rfl rfl rfl rfl
theorem vcos (p : BitVec 3) (n : BitVec 1) (d : BitVec 6) (a : BitVec 6) : Statement (.vcos p n d a) := of_pack rfl rfl rfl rfl
theorem vredAdd (p : BitVec 3) (n : BitVec 1) (d : BitVec 6) (a : BitVec 6) (t : BitVec 3) : Statement (.vredAdd p n d a t) := of_pack rfl rfl rfl rfl
theorem vredMax (p : BitVec 3) (n : BitVec 1) (d : BitVec 6) (a : BitVec 6) (t : BitVec 3) : Statement (.vredMax p n d a t) := of_pack rfl rfl rfl rfl
theorem vredMin (p : BitVec 3) (n : BitVec 1) (d : BitVec 6) (a : BitVec 6) (t : BitVec 3) : Statement (.vredMin p n d a t) := of_pack rfl rfl rfl rfl
theorem vscanAdd (p : BitVec 3) (n : BitVec 1) (d : BitVec 6) (a : BitVec 6) (t : BitVec 3) : Statement (.vscanAdd p n d a t) := of_pack rfl rfl rfl rfl
theorem vtopk (p : BitVec 3) (n : BitVec 1) (d : BitVec 6) (a : BitVec 6) (k : BitVec 3) : Statement (.vtopk p n d a k) := of_pack rfl rfl rfl rfl
theorem vgmax (p : BitVec 3) (n : BitVec 1) (d : BitVec 6) (a : BitVec 6) (g : BitVec 3) : Statement (.vgmax p n d a g) := of_pack rfl rfl rfl rfl
theorem vperm (p : BitVec 3) (n : BitVec 1) (d : BitVec 6) (a : BitVec 6) (b : BitVec 6) : Statement (.vperm p n d a b) := of_pack rfl rfl rfl rfl
theorem viota (p : BitVec 3) (n : BitVec 1) (d : BitVec 6) (a : BitVec 6) : Statement (.viota p n d a) := of_pack rfl rfl rfl rfl
theorem vbcast (p : BitVec 3) (n : BitVec 1) (d : BitVec 6) (a : BitVec 6) (b : BitVec 6) : Statement (.vbcast p n d a b) := of_pack rfl rfl rfl rfl
theorem vextr (p : BitVec 3) (n : BitVec 1) (d : BitVec 6) (a : BitVec 6) (b : BitVec 6) : Statement (.vextr p n d a b) := of_pack rfl rfl rfl rfl
theorem vmkc (p : BitVec 3) (d : BitVec 3) (a : BitVec 6) (w : BitVec 2) : Statement (.vmkc p d a w) := of_pack rfl rfl rfl rfl
theorem mmaAcc (p : BitVec 3) (f : BitVec 3) (d : BitVec 6) (a : BitVec 6) (b : BitVec 6) : Statement (.mmaAcc p f d a b) := of_pack rfl rfl rfl rfl
theorem mmaOvw (p : BitVec 3) (f : BitVec 3) (d : BitVec 6) (a : BitVec 6) (b : BitVec 6) : Statement (.mmaOvw p f d a b) := of_pack rfl rfl rfl rfl
theorem mmaDec (p : BitVec 3) (f : BitVec 3) (d : BitVec 6) (a : BitVec 6) (b : BitVec 6) : Statement (.mmaDec p f d a b) := of_pack rfl rfl rfl rfl
theorem mdecay (p : BitVec 3) (a : BitVec 6) : Statement (.mdecay p a) := of_pack rfl rfl rfl rfl
theorem mzero (p : BitVec 3) (d : BitVec 6) : Statement (.mzero p d) := of_pack rfl rfl rfl rfl
theorem mcvt (p : BitVec 3) (d : BitVec 6) (a : BitVec 6) (z : BitVec 1) (t : BitVec 2) : Statement (.mcvt p d a z t) := of_pack rfl rfl rfl rfl
theorem mtrn (p : BitVec 3) (d : BitVec 6) (a : BitVec 6) : Statement (.mtrn p d a) := of_pack rfl rfl rfl rfl
theorem mldt (p : BitVec 3) (d : BitVec 6) (a : BitVec 6) (b : BitVec 6) : Statement (.mldt p d a b) := of_pack rfl rfl rfl rfl
theorem mrel (p : BitVec 3) (t : BitVec 4) : Statement (.mrel p t) := of_pack rfl rfl rfl rfl
theorem mstt (p : BitVec 3) (d : BitVec 6) (a : BitVec 6) (b : BitVec 6) : Statement (.mstt p d a b) := of_pack rfl rfl rfl rfl
theorem mnest (p : BitVec 3) (l : BitVec 3) : Statement (.mnest p l) := of_pack rfl rfl rfl rfl
theorem mnwaitN (p : BitVec 3) : Statement (.mnwaitN p) := of_pack rfl rfl rfl rfl
theorem mnwaitT (p : BitVec 3) : Statement (.mnwaitT p) := of_pack rfl rfl rfl rfl
theorem mnwaitNt (p : BitVec 3) : Statement (.mnwaitNt p) := of_pack rfl rfl rfl rfl
theorem mrag (p : BitVec 3) (a : BitVec 6) : Statement (.mrag p a) := of_pack rfl rfl rfl rfl
theorem mscale (p : BitVec 3) (d : BitVec 6) (a : BitVec 6) (b : BitVec 6) : Statement (.mscale p d a b) := of_pack rfl rfl rfl rfl
theorem ldv (p : BitVec 3) (d : BitVec 6) (a : BitVec 6) (o : BitVec 4) (m : BitVec 2) : Statement (.ldv p d a o m) := of_pack rfl rfl rfl rfl
theorem stv (p : BitVec 3) (d : BitVec 6) (a : BitVec 6) (o : BitVec 4) (m : BitVec 2) : Statement (.stv p d a o m) := of_pack rfl rfl rfl rfl
theorem ldvg (p : BitVec 3) (d : BitVec 6) (a : BitVec 6) (b : BitVec 6) : Statement (.ldvg p d a b) := of_pack rfl rfl rfl rfl
theorem stvs (p : BitVec 3) (d : BitVec 6) (a : BitVec 6) (b : BitVec 6) : Statement (.stvs p d a b) := of_pack rfl rfl rfl rfl
theorem ldvb (p : BitVec 3) (d : BitVec 6) (a : BitVec 6) (o : BitVec 4) (m : BitVec 2) : Statement (.ldvb p d a o m) := of_pack rfl rfl rfl rfl
theorem aadd (p : BitVec 3) (d : BitVec 6) (a : BitVec 6) (o : BitVec 4) (m : BitVec 2) : Statement (.aadd p d a o m) := of_pack rfl rfl rfl rfl
theorem amin (p : BitVec 3) (d : BitVec 6) (a : BitVec 6) (o : BitVec 4) (m : BitVec 2) : Statement (.amin p d a o m) := of_pack rfl rfl rfl rfl
theorem amax (p : BitVec 3) (d : BitVec 6) (a : BitVec 6) (o : BitVec 4) (m : BitVec 2) : Statement (.amax p d a o m) := of_pack rfl rfl rfl rfl
theorem aand (p : BitVec 3) (d : BitVec 6) (a : BitVec 6) (o : BitVec 4) (m : BitVec 2) : Statement (.aand p d a o m) := of_pack rfl rfl rfl rfl
theorem aor (p : BitVec 3) (d : BitVec 6) (a : BitVec 6) (o : BitVec 4) (m : BitVec 2) : Statement (.aor p d a o m) := of_pack rfl rfl rfl rfl
theorem axch (p : BitVec 3) (d : BitVec 6) (a : BitVec 6) (o : BitVec 4) (m : BitVec 2) : Statement (.axch p d a o m) := of_pack rfl rfl rfl rfl
theorem acas (p : BitVec 3) (d : BitVec 6) (a : BitVec 6) (o : BitVec 4) (m : BitVec 2) : Statement (.acas p d a o m) := of_pack rfl rfl rfl rfl
theorem aaddf (p : BitVec 3) (d : BitVec 6) (a : BitVec 6) (o : BitVec 4) (m : BitVec 2) : Statement (.aaddf p d a o m) := of_pack rfl rfl rfl rfl
theorem vaadd (p : BitVec 3) (d : BitVec 6) (a : BitVec 6) (b : BitVec 6) : Statement (.vaadd p d a b) := of_pack rfl rfl rfl rfl
theorem fence (p : BitVec 3) (k : BitVec 16) : Statement (.fence p k) := of_pack rfl rfl rfl rfl
theorem acq (p : BitVec 3) (s : BitVec 3) : Statement (.acq p s) := of_pack rfl rfl rfl rfl
theorem rel (p : BitVec 3) (s : BitVec 3) : Statement (.rel p s) := of_pack rfl rfl rfl rfl
theorem flush (p : BitVec 3) (s : BitVec 3) (a : BitVec 6) (b : BitVec 6) : Statement (.flush p s a b) := of_pack rfl rfl rfl rfl
theorem invl (p : BitVec 3) (a : BitVec 6) (b : BitVec 6) : Statement (.invl p a b) := of_pack rfl rfl rfl rfl
theorem cpy (p : BitVec 3) (d : BitVec 6) (a : BitVec 6) (b : BitVec 6) : Statement (.cpy p d a b) := of_pack rfl rfl rfl rfl
theorem cpym (p : BitVec 3) (d : BitVec 6) (a : BitVec 6) (b : BitVec 6) : Statement (.cpym p d a b) := of_pack rfl rfl rfl rfl
theorem cpyw (p : BitVec 3) (d : BitVec 6) (a : BitVec 6) (b : BitVec 6) : Statement (.cpyw p d a b) := of_pack rfl rfl rfl rfl
theorem sbind (p : BitVec 3) (d : BitVec 6) (a : BitVec 6) (m : BitVec 2) (q : BitVec 4) : Statement (.sbind p d a m q) := of_pack rfl rfl rfl rfl
theorem sunb (p : BitVec 3) (d : BitVec 6) : Statement (.sunb p d) := of_pack rfl rfl rfl rfl
theorem sdrn (p : BitVec 3) (d : BitVec 6) : Statement (.sdrn p d) := of_pack rfl rfl rfl rfl
theorem owntCore (p : BitVec 3) (a : BitVec 6) (b : BitVec 6) : Statement (.owntCore p a b) := of_pack rfl rfl rfl rfl
theorem owntEng (p : BitVec 3) (a : BitVec 6) (b : BitVec 6) : Statement (.owntEng p a b) := of_pack rfl rfl rfl rfl
theorem owntF (p : BitVec 3) (a : BitVec 6) (b : BitVec 6) : Statement (.owntF p a b) := of_pack rfl rfl rfl rfl
theorem ownw (p : BitVec 3) (a : BitVec 6) (b : BitVec 6) : Statement (.ownw p a b) := of_pack rfl rfl rfl rfl
theorem evpop (p : BitVec 3) (d : BitVec 6) : Statement (.evpop p d) := of_pack rfl rfl rfl rfl
theorem evpost (p : BitVec 3) (a : BitVec 6) (b : BitVec 6) : Statement (.evpost p a b) := of_pack rfl rfl rfl rfl
theorem bara (p : BitVec 3) (b : BitVec 4) : Statement (.bara p b) := of_pack rfl rfl rfl rfl
theorem barw (p : BitVec 3) (b : BitVec 4) : Statement (.barw p b) := of_pack rfl rfl rfl rfl
theorem barx (p : BitVec 3) (d : BitVec 6) (a : BitVec 6) (b : BitVec 4) : Statement (.barx p d a b) := of_pack rfl rfl rfl rfl
theorem whpre (p : BitVec 3) (a : BitVec 6) : Statement (.whpre p a) := of_pack rfl rfl rfl rfl
theorem whwait (p : BitVec 3) (d : BitVec 6) (a : BitVec 6) : Statement (.whwait p d a) := of_pack rfl rfl rfl rfl
theorem whpin (p : BitVec 3) (d : BitVec 6) (a : BitVec 6) : Statement (.whpin p d a) := of_pack rfl rfl rfl rfl
theorem whunp (p : BitVec 3) (a : BitVec 6) : Statement (.whunp p a) := of_pack rfl rfl rfl rfl
theorem whqry (p : BitVec 3) (d : BitVec 6) (a : BitVec 6) : Statement (.whqry p d a) := of_pack rfl rfl rfl rfl
theorem whmap (p : BitVec 3) (d : BitVec 6) (a : BitVec 6) : Statement (.whmap p d a) := of_pack rfl rfl rfl rfl
theorem snlook (p : BitVec 3) (d : BitVec 6) (a : BitVec 6) : Statement (.snlook p d a) := of_pack rfl rfl rfl rfl
theorem snsave (p : BitVec 3) (a : BitVec 6) (b : BitVec 6) : Statement (.snsave p a b) := of_pack rfl rfl rfl rfl
theorem snload (p : BitVec 3) (a : BitVec 6) (b : BitVec 6) : Statement (.snload p a b) := of_pack rfl rfl rfl rfl
theorem snrel (p : BitVec 3) (a : BitVec 6) : Statement (.snrel p a) := of_pack rfl rfl rfl rfl
theorem snhash (p : BitVec 3) (d : BitVec 6) (a : BitVec 6) (b : BitVec 6) : Statement (.snhash p d a b) := of_pack rfl rfl rfl rfl
theorem rtpred (p : BitVec 3) (a : BitVec 6) (b : BitVec 6) : Statement (.rtpred p a b) := of_pack rfl rfl rfl rfl
theorem rtdisp (p : BitVec 3) (a : BitVec 6) (b : BitVec 6) : Statement (.rtdisp p a b) := of_pack rfl rfl rfl rfl
theorem tinvr (p : BitVec 3) (d : BitVec 6) (a : BitVec 6) (b : BitVec 6) : Statement (.tinvr p d a b) := of_pack rfl rfl rfl rfl
theorem tinva (p : BitVec 3) (a : BitVec 6) : Statement (.tinva p a) := of_pack rfl rfl rfl rfl
theorem prfl (p : BitVec 3) (l : BitVec 1) (a : BitVec 6) (o : BitVec 4) (m : BitVec 2) : Statement (.prfl p l a o m) := of_pack rfl rfl rfl rfl
theorem bundleIssue : Statement (.bundleIssue) := of_none rfl
theorem resultComplete : Statement (.resultComplete) := of_none rfl
theorem loadComplete : Statement (.loadComplete) := of_none rfl
theorem prepFetchComplete : Statement (.prepFetchComplete) := of_none rfl
theorem loopBufferFill : Statement (.loopBufferFill) := of_none rfl
theorem trapEntry : Statement (.trapEntry) := of_none rfl
theorem matrixOpStart : Statement (.matrixOpStart) := of_none rfl
theorem matrixOpComplete : Statement (.matrixOpComplete) := of_none rfl
theorem tileFetchLand : Statement (.tileFetchLand) := of_none rfl
theorem tileFetchFault : Statement (.tileFetchFault) := of_none rfl
theorem tileStorePerformed : Statement (.tileStorePerformed) := of_none rfl
theorem nestBundleIssue : Statement (.nestBundleIssue) := of_none rfl
theorem nestEnd : Statement (.nestEnd) := of_none rfl
theorem copyPiecePerformed : Statement (.copyPiecePerformed) := of_none rfl
theorem copyComplete : Statement (.copyComplete) := of_none rfl
theorem engineFault : Statement (.engineFault) := of_none rfl
theorem multicastPieceLand : Statement (.multicastPieceLand) := of_none rfl
theorem streamFillArrive : Statement (.streamFillArrive) := of_none rfl
theorem streamDrainWrite : Statement (.streamDrainWrite) := of_none rfl
theorem barrierArrival : Statement (.barrierArrival) := of_none rfl
theorem eventRecordPost : Statement (.eventRecordPost) := of_none rfl
theorem windowAccessArrive : Statement (.windowAccessArrive) := of_none rfl
theorem tableWalk : Statement (.tableWalk) := of_none rfl
theorem taskPlace : Statement (.taskPlace) := of_none rfl
theorem lentWindowZeroed : Statement (.lentWindowZeroed) := of_none rfl
theorem swthrExpiry : Statement (.swthrExpiry) := of_none rfl
theorem sliceExpiry : Statement (.sliceExpiry) := of_none rfl
theorem taskComplete : Statement (.taskComplete) := of_none rfl
theorem completionRecordWrite : Statement (.completionRecordWrite) := of_none rfl
theorem errorToken : Statement (.errorToken) := of_none rfl
theorem deadlineExpiry : Statement (.deadlineExpiry) := of_none rfl
theorem priorityAging : Statement (.priorityAging) := of_none rfl
theorem h3waitExpiry : Statement (.h3waitExpiry) := of_none rfl
theorem stealRequest : Statement (.stealRequest) := of_none rfl
theorem stealBackoffExpiry : Statement (.stealBackoffExpiry) := of_none rfl
theorem gangStart : Statement (.gangStart) := of_none rfl
theorem scheduleSelect : Statement (.scheduleSelect) := of_none rfl
theorem transferWindowOpen : Statement (.transferWindowOpen) := of_none rfl
theorem transferWindowClose : Statement (.transferWindowClose) := of_none rfl
theorem gangCut : Statement (.gangCut) := of_none rfl
theorem gangGraceExpiry : Statement (.gangGraceExpiry) := of_none rfl
theorem gsliceExpiry : Statement (.gsliceExpiry) := of_none rfl
theorem gangResume : Statement (.gangResume) := of_none rfl
theorem preemptTask : Statement (.preemptTask) := of_none rfl
theorem contextSave : Statement (.contextSave) := of_none rfl
theorem contextRestore : Statement (.contextRestore) := of_none rfl
theorem hungExpiry : Statement (.hungExpiry) := of_none rfl
theorem handleFillAllocation : Statement (.handleFillAllocation) := of_none rfl
theorem evictorVictim : Statement (.evictorVictim) := of_none rfl
theorem handleFillComplete : Statement (.handleFillComplete) := of_none rfl
theorem handleFillFault : Statement (.handleFillFault) := of_none rfl
theorem evictionDrainComplete : Statement (.evictionDrainComplete) := of_none rfl
theorem handleFlip : Statement (.handleFlip) := of_none rfl
theorem pinWaitRetry : Statement (.pinWaitRetry) := of_none rfl
theorem hwaitExpiry : Statement (.hwaitExpiry) := of_none rfl
theorem rgraceExpiry : Statement (.rgraceExpiry) := of_none rfl
theorem pinwaitExpiry : Statement (.pinwaitExpiry) := of_none rfl
theorem lanternSubmission : Statement (.lanternSubmission) := of_none rfl
theorem lanternPrefetchSend : Statement (.lanternPrefetchSend) := of_none rfl
theorem lanternAgeExpiry : Statement (.lanternAgeExpiry) := of_none rfl
theorem ingressAppend : Statement (.ingressAppend) := of_none rfl
theorem dispatchComplete : Statement (.dispatchComplete) := of_none rfl
theorem snsaveComplete : Statement (.snsaveComplete) := of_none rfl
theorem snloadComplete : Statement (.snloadComplete) := of_none rfl
theorem snapshotEngineFault : Statement (.snapshotEngineFault) := of_none rfl
theorem snapshotEvict : Statement (.snapshotEvict) := of_none rfl
theorem pxctlClr : Statement (.pxctlClr) := of_none rfl
theorem queueDoorbell : Statement (.queueDoorbell) := of_none rfl
theorem submissionEntryStart : Statement (.submissionEntryStart) := of_none rfl
theorem nopc : Statement (.nopc) := of_none rfl
theorem launch : Statement (.launch) := of_none rfl
theorem launchi : Statement (.launchi) := of_none rfl
theorem gang : Statement (.gang) := of_none rfl
theorem wait : Statement (.wait) := of_none rfl
theorem loopc : Statement (.loopc) := of_none rfl
theorem ifc : Statement (.ifc) := of_none rfl
theorem write : Statement (.write) := of_none rfl
theorem signal : Statement (.signal) := of_none rfl
theorem chain : Statement (.chain) := of_none rfl
theorem endC : Statement (.endC) := of_none rfl
theorem qackResume : Statement (.qackResume) := of_none rfl
theorem qackDiscard : Statement (.qackDiscard) := of_none rfl
theorem preemptGo : Statement (.preemptGo) := of_none rfl
theorem registerWrite : Statement (.registerWrite) := of_none rfl
theorem hostWindowAccess : Statement (.hostWindowAccess) := of_none rfl
theorem hwmapWrite : Statement (.hwmapWrite) := of_none rfl
theorem hctlQuiesce : Statement (.hctlQuiesce) := of_none rfl
theorem hctlQuiesceComplete : Statement (.hctlQuiesceComplete) := of_none rfl
theorem hctlUnquiesce : Statement (.hctlUnquiesce) := of_none rfl
theorem hctlRemap : Statement (.hctlRemap) := of_none rfl
theorem hctlRemapComplete : Statement (.hctlRemapComplete) := of_none rfl
theorem hctlClrstat : Statement (.hctlClrstat) := of_none rfl
theorem hbmActivation : Statement (.hbmActivation) := of_none rfl
theorem trackerReset : Statement (.trackerReset) := of_none rfl
theorem hbmUncorrectable : Statement (.hbmUncorrectable) := of_none rfl
theorem llcpartWrite : Statement (.llcpartWrite) := of_none rfl
theorem formatWindowWrite : Statement (.formatWindowWrite) := of_none rfl
theorem hsetGo : Statement (.hsetGo) := of_none rfl
theorem nolnusRead : Statement (.nolnusRead) := of_none rfl
theorem nolnusWrite : Statement (.nolnusWrite) := of_none rfl
theorem nolnusAlloc : Statement (.nolnusAlloc) := of_none rfl
theorem nolnusFree : Statement (.nolnusFree) := of_none rfl
theorem nolnusDigest : Statement (.nolnusDigest) := of_none rfl
theorem nolnusReloc : Statement (.nolnusReloc) := of_none rfl
theorem readDisturbRelocation : Statement (.readDisturbRelocation) := of_none rfl
theorem wearLevelMove : Statement (.wearLevelMove) := of_none rfl
theorem flashProgramFailure : Statement (.flashProgramFailure) := of_none rfl
theorem flashUncorrectable : Statement (.flashUncorrectable) := of_none rfl
theorem loaderGo : Statement (.loaderGo) := of_none rfl
theorem loaderAbort : Statement (.loaderAbort) := of_none rfl
theorem stagetExpiry : Statement (.stagetExpiry) := of_none rfl
theorem loaderFlip : Statement (.loaderFlip) := of_none rfl
theorem draintExpiry : Statement (.draintExpiry) := of_none rfl
theorem mapnextInstall : Statement (.mapnextInstall) := of_none rfl
theorem migrationFill : Statement (.migrationFill) := of_none rfl
theorem mapRetire : Statement (.mapRetire) := of_none rfl
theorem boostBoundary : Statement (.boostBoundary) := of_none rfl
theorem sensorSample : Statement (.sensorSample) := of_none rfl
theorem throttleRecover : Statement (.throttleRecover) := of_none rfl
theorem currentLimitRecover : Statement (.currentLimitRecover) := of_none rfl
theorem pwcmdSave : Statement (.pwcmdSave) := of_none rfl
theorem emergencySaveComplete : Statement (.emergencySaveComplete) := of_none rfl
theorem hardTrip : Statement (.hardTrip) := of_none rfl
theorem moduleReset : Statement (.moduleReset) := of_none rfl
theorem psreqWrite : Statement (.psreqWrite) := of_none rfl
theorem powerUp : Statement (.powerUp) := of_none rfl
theorem clrhold : Statement (.clrhold) := of_none rfl
theorem clrsusp : Statement (.clrsusp) := of_none rfl
theorem attest : Statement (.attest) := of_none rfl
theorem keyadd : Statement (.keyadd) := of_none rfl
theorem keyrevoke : Statement (.keyrevoke) := of_none rfl
theorem debugAuth : Statement (.debugAuth) := of_none rfl
theorem secure : Statement (.secure) := of_none rfl
theorem decommission : Statement (.decommission) := of_none rfl
theorem ownershipClaim : Statement (.ownershipClaim) := of_none rfl
theorem attestationRequest : Statement (.attestationRequest) := of_none rfl
theorem ownleaseRenew : Statement (.ownleaseRenew) := of_none rfl
theorem ownhand : Statement (.ownhand) := of_none rfl
theorem leaseExpiry : Statement (.leaseExpiry) := of_none rfl
theorem handoverLapse : Statement (.handoverLapse) := of_none rfl
theorem netWrite : Statement (.netWrite) := of_none rfl
theorem netRead : Statement (.netRead) := of_none rfl
theorem netSend : Statement (.netSend) := of_none rfl
theorem flitCrcFail : Statement (.flitCrcFail) := of_none rfl
theorem nop : Statement (.nop) := of_none rfl
theorem l1WriteBack : Statement (.l1WriteBack) := of_none rfl
theorem atomicComplete : Statement (.atomicComplete) := of_none rfl
theorem vectorLoadLand : Statement (.vectorLoadLand) := of_none rfl
theorem sramUncorrectable : Statement (.sramUncorrectable) := of_none rfl
theorem nolnusCommandDone : Statement (.nolnusCommandDone) := of_none rfl
theorem bundleFetch : Statement (.bundleFetch) := of_none rfl

end Sys2Proof.Laws.ClassAndPredicate
end

