-- ==== Sys2Proof/Tests/Slice0.lean ====
section
/-! SUPPORT. The model's own tests: ill-formed terms that WellFormed refuses, words written out from the manual's encodings, single steps on small
states whose results are worked out from the manual, and for every statement with hypotheses a state and operands that meet them. -/

set_option Elab.async false

namespace Sys2Proof.Tests

open Sys2Proof Sys2Proof.Machine

/-! ## Small states -/

/-- After reset, with a bundle of nops as the head bundle of core 0. -/
def head : State := State.reset.withFetchWord 32 0xE0000000

/-- Registers of a small program: S1 0x10_0040 (an address of the code page), S2 6, S3 7, S4 0x20_0040 (local store), S5 -1,
S6 the most negative number, S7 64. -/
def someRegs : List Word := [0, 0x100040#64, 6, 7, 0x200040#64, 0xFFFFFFFFFFFFFFFF#64, 0x8000000000000000#64, 64]

/-- The same with registers, a footprint of 64 granules, a writable page of HBM at 0x10_0000 and local store at 0x20_0000. -/
def base : State :=
  let s := head.updFr fun f => { f with
    id := { f.id with foot := 64, codelim := 0x110000#64, task := 9 },
    tr := { f.tr with handler := 0x100100#64 },
    r := { f.r with s := Vector.ofFn fun i : Fin 48 => someRegs.getD i.val (BitVec.ofNat 64 i.val) } }
  s.updCore 0 fun x => { x with
    l1tlb := [{ asid := 0, va := 0x100000, log := 16, pa := 0x100000, flags := 0x3F#8 },
              { asid := 0, va := 0x200000, log := 16, pa := lsBase 0, flags := 0xAF#8 }] }

/-- The frame's privileged mode. -/
def sys : State := base.updFr fun f => { f with id := { f.id with mode := true } }

/-- The next state of an outcome, or the state after reset. -/
def outOf (o : Out) : State :=
  match o with
  | .next t => t
  | _ => State.reset

/-- Whether an outcome is a next state. -/
def isNext (o : Out) : Bool :=
  match o with
  | .next _ => true
  | _ => false

/-- `Ready` as a check. -/
def readyOp (s : State) (p : BitVec 3) (cls : Nat) (op : Op) : Bool :=
  op.legal s.ctx && (!op.priv || s.fr.id.mode) && s.fr.pval p.toNat && !operandsPending s [s.alone p cls op]
    && !(bankNow s [s.alone p cls op]).any (s.agedBanks s.cur).contains && decide (slowHold s [s.alone p cls op] ≤ s.fr.ctl.bankHold)
    && (s.here.refillTo (s.cyc s.cur)).covers op.mx op.vec op.sfu op.memp && s.admits s.cur (s.weightOf cls) && !s.closed

/-- `SlotReady` as a check. -/
def ready (s : State) (i : Instr) : Bool :=
  match opOf i with
  | some (p, cls, op) => readyOp s p cls op
  | none => false

theorem slotReady_of_ready {s : State} {i : Instr} (h : ready s i = true) : SlotReady i s := by
  unfold ready at h
  unfold SlotReady
  split at h
  · rename_i p cls op e
    simp only [readyOp, Bool.and_eq_true, Bool.not_eq_true', Bool.or_eq_true, decide_eq_true_eq] at h
    obtain ⟨⟨⟨⟨⟨⟨⟨⟨h1, h2⟩, h3⟩, h4⟩, h9⟩, h5⟩, h6⟩, h7⟩, h8⟩ := h
    try rw [e]
    refine ⟨h1, fun hp => ?_, h3, h4, h9, h5, h6, h7, h8⟩
    rcases h2 with h2 | h2
    · rw [hp] at h2; exact absurd h2 (by decide)
    · exact h2
  · exact absurd h (by decide)

/-- Whether every instruction of a list is ready. -/
def allReady (s : State) (l : List Instr) : Bool := l.all (ready s)

theorem slotReady_all {s : State} {l : List Instr} (h : allReady s l = true) : ∀ i ∈ l, SlotReady i s := fun i hi =>
  slotReady_of_ready (List.all_eq_true.mp h i hi)

/-- Ready, with nothing in flight that could take a port from a write to a mirrored granule (R29). -/
structure Issues (i : Instr) (s : State) : Prop where
  ready : SlotReady i s
  quiet : ∀ w, mirrorHold s w = false

theorem mirrorHold_quiet {s : State} (h : s.fr.infl = []) (w : State) : mirrorHold s w = false := by
  simp only [mirrorHold, h, List.any_nil, Bool.not_false, Bool.true_and, Bool.and_false]
  refine List.any_eq_false.mpr fun r _ => ?_
  cases r.granule <;> simp

/-- Whether every instruction of a list issues at every state of a list. -/
def allIssue (ss : List State) (l : List Instr) : Bool := ss.all fun s => allReady s l && s.fr.infl.isEmpty

theorem issues_each {ss : List State} {l : List Instr} (h : allIssue ss l = true) : ∀ s ∈ ss, ∀ i ∈ l, Issues i s := fun s hs i hi => by
  have hr := List.all_eq_true.mp h s hs
  rw [Bool.and_eq_true] at hr
  exact ⟨slotReady_all hr.1 i hi, mirrorHold_quiet (List.isEmpty_iff.mp hr.2)⟩

theorem issues_all {s : State} {l : List Instr} (h : allIssue [s] l = true) : ∀ i ∈ l, Issues i s := issues_each h s (List.mem_singleton.mpr rfl)

theorem issues_of {s : State} {i : Instr} (h : allIssue [s] [i] = true) : Issues i s := issues_all h i (List.mem_singleton.mpr rfl)

/-- A register is readable where the poison list names it nowhere. -/
theorem readable_of {s : State} {f : BitVec 6} (h : (s.fr.r.sPoison.find? (·.1 == f.toNat)).isNone = true) : Readable s f :=
  Option.isNone_iff_eq_none.mp h

/-- The result in flight that issued last: its destination, low 64 bits and the cycle after which it is there. -/
def lastResult (o : Out) : Option (Dest × Nat × Nat) :=
  (outOf o).fr.infl.getLast?.map fun r => (r.dest, r.data.toNat % 2 ^ 64, r.due)

/-- The cause of the trap that an outcome has taken or requested, with the address it reports. -/
def trapOfOut (o : Out) : Option (Nat × Nat) :=
  let t := (outOf o).fr.tr
  if t.intrap then some (t.ecause.toNat % 256, t.evaddr.toNat) else none

end Sys2Proof.Tests
namespace Sys2Proof.Tests

open Sys2Proof Sys2Proof.Machine

/-! ## WellFormed: an ill-formed term for each check -/

/-- Scalar fields: S61 is no source (R20), S48 no destination, NW = 1 asks for DST 0 (R53). -/
theorem test_wf_scalar : ([.add 0 0 1 61 2, .add 0 0 1 2 61, .add 0 0 48 2 3, .add 0 1 1 2 3, .mov 0 0 1 61, .movi 0 0 48 1,
    .vget 0 1 1 0] : List Instr).all (fun i => !i.wf) = true := by decide +kernel

/-- Compares: cc to 9 and a predicate other than P0 (R24, R139); predicate operations likewise; widths b8, b16, b32 (R146). -/
theorem test_wf_predicates : ([.cmp 0 10 1 2 3, .cmp 0 0 0 2 3, .cmpi 0 0 0 2 3, .pand 0 0 1 2, .pall 0 1 1 3, .xfere 0 0 3,
    .xfera 0 0 3] : List Instr).all (fun i => !i.wf) = true := by decide +kernel

/-- Memory forms: width code 7, address mode 3, odd pairs, scope codes above 4 (R20, R52, R107, R140, R228, R232). -/
theorem test_wf_memory : ([.lds 0 7 0 1 2 0 0, .lds 0 3 0 1 2 0 3, .sts 0 3 61 2 0 0, .ldv 0 48 2 0 0, .stv 0 62 2 0 0, .ldvg 0 0 61 0,
    .aadd 0 48 2 0 0, .acas 0 3 2 0 0, .evpop 0 3, .acq 0 7, .flush 0 7 1 2, .cpyw 0 1 2 3] : List Instr).all (fun i => !i.wf) = true := by
  decide +kernel

/-- Vector fields: 63 names nothing, BP is no V destination, a "same" conversion has h = 0, and the operations' own limits (R50, R179,
R186, R189, R192, R193, R196, R199, R200). -/
theorem test_wf_vector : ([.vadd 0 0 0 0 63 0, .vadd 0 0 0 0x3C 0 0, .vcmp 0 6 1 0 0 0, .vcvt 0 0 0 0 4 1, .vdq4 0 0 0 0 1 0,
    .vscanAdd 0 0 0 0 1, .vgmax 0 0 0 0 0, .vbcast 0 0 0x3D 0 0, .vextr 0 0 48 0 0, .vmkc 0 1 0 3] : List Instr).all (fun i => !i.wf) = true := by
  decide +kernel

/-- Matrix fields, streams and control registers (R202, R245, R258). -/
theorem test_wf_others : ([.mmaAcc 0 0 0x3D 1 2, .mmaDec 0 3 0 1 2, .mdecay 0 0x3D, .mrag 0 0x3E, .mscale 0 0 0x3D 0, .mldt 0 0x3D 1 2,
    .sbind 0 0x20 1 0 4, .sbind 0 0x20 1 1 1, .sbind 0 0 1 1 4, .sunb 0 0, .csrr 0 0 1 0xFFF, .csrw 0 0x3F 1 0x3F,
    .ret 0 61, .call 0 0 48] : List Instr).all (fun i => !i.wf) = true := by decide +kernel

/-- An event has no fields and is well-formed; so is an operation within its limits. -/
theorem test_wf_good : ([.bundleIssue, .powerUp, .add 0 0 47 60 60, .add 0 1 0 60 60, .evpop 0 46, .sbind 0 0x2F 60 2 15,
    .mmaDec 0 2 0 1 2, .vgmax 0 0 0 0 7] : List Instr).all Instr.wf = true := by decide +kernel

/-! ## Decoding words that the manual writes out -/

/-- R71, R154, R134-R140: scalar and control words. -/
theorem test_decode_scalar : [0x09805149, 0x00F06C00, 0x00C070C4, 0x01303146, 0x02A8910C, 0x01C02007, 0x00104083].map (decodeTableWord 32)
    = [some (.addi 2 0 5 5 9), some (.mov 0 0 6 48), some (.ext 0 0 7 3 4), some (.cmp 0 6 3 5 6), some (.lds 0 5 0 9 4 3 0),
       some (.movi 0 0 2 7), some (.mul 0 0 4 2 3)] := by decide +kernel

/-- R154, R159, R172-R176: transfers, loops, the mask stack. -/
theorem test_decode_control : [0xA0001007, 0xA0201A00, 0xA0280A00, 0xA0300000, 0xA0386003, 0xA0402804, 0xA0480000, 0xA0481000,
      0xA0C00040, 0xA0C00081, 0xA0C80000, 0xA0D00000, 0xA0D83000].map (decodeTableWord 32)
    = [some (.prep 0 1 7), some (.call 0 1 40), some (.ret 0 40), some (.halt 0), some (.loop 0 6 3), some (.loops 0 2 2 4),
       some (.lbrk 0), some (.lbrkD 0), some (.mpush 0 1), some (.mpushIn 0 2), some (.minv 0), some (.mpop 0), some (.mget 0 3)] := by
  decide +kernel

/-- R258: system words. -/
theorem test_decode_system : [0x03105402, 0x03190182, 0x03200005, 0x03280000, 0x03300146, 0x03301146, 0x033870C0, 0x034000C0, 0x03480000,
      0x03480001, 0x03500240, 0x03582100].map (decodeTableWord 32)
    = [some (.csrr 0 0 5 0x402), some (.csrw 0 0x10 6 2), some (.trap 0 5), some (.tret 0), some (.dchk 0 5 6), some (.dchkV 0 5 6),
       some (.join 0 0 7 3), some (.leave 0 3), some (.yield 0), some (.yieldEv 0), some (.step 0 9), some (.mirror 0 2 4)] := by
  decide +kernel

/-- R71, R184-R200: vector words. -/
theorem test_decode_vector : [0x20004063, 0x20C02011, 0x22403001, 0x23004001, 0x23084001, 0x23A81005, 0x23D01F82, 0x23A02041].map
      (decodeTableWord 32)
    = [some (.vadd 0 0 0 4 1 35), some (.vfma 0 0 0 2 0 17), some (.vcmp 0 2 0 3 0 1), some (.vcvt 0 0 4 0 0 1), some (.vcvtz 0 0 4 0 0 1),
       some (.vgmax 0 0 1 0 5), some (.vmkc 0 1 0x3E 2), some (.vtopk 0 0 2 1 1)] := by decide +kernel

/-- R202-R226: matrix words; and the nop (R40). -/
theorem test_decode_matrix : [0x40000010, 0x40B81093, 0x41000F80, 0x41480880, 0x41380000, 0x41400001, 0x41400002, 0x41400003, 0x41201006,
      0x413000C7, 0xE0000000].map (decodeTableWord 32)
    = [some (.mmaAcc 0 0 0 0 16), some (.mmaDec 0 7 1 2 19), some (.mdecay 0 0x3E), some (.mrag 0 34), some (.mnest 0 0), some (.mnwaitN 0),
       some (.mnwaitT 0), some (.mnwaitNt 0), some (.mldt 0 1 0 6), some (.mstt 0 0 3 7), some .nop] := by decide +kernel

/-- Words that no row has: a class without units, a nop with other bits, opcodes that no row takes (R40, R42, R61). -/
theorem test_decode_refused : [0xC0000000, 0xFFFFFFFF, 0xE0000001, 0xBF000000, 0x5F000000].map (decodeTableWord 32) = List.replicate 5 none := by
  decide +kernel

end Sys2Proof.Tests
namespace Sys2Proof.Tests

open Sys2Proof Sys2Proof.Machine

/-! ## Scalar operations: results and witnesses of the statements' hypotheses -/

/-- A state of `base` with registers 2 and 3 replaced. -/
def with23 (a b : Word) : State := base.updRegs fun r => { r with s := (r.s.set 2 a).set 3 b }
/-- The register value that an instruction puts in flight over those registers. -/
def value (i : Instr) (a b : Word) : Option Nat := (lastResult (exec i (with23 a b))).map (·.2.1)

/-- R134, on 6 and 7, and on -1 and 64, by hand. -/
theorem test_scalar_values :
    ([.add 0 0 8 2 3, .sub 0 0 8 2 3, .mul 0 0 8 2 3, .andR 0 0 8 2 3, .orR 0 0 8 2 3, .xor 0 0 8 2 3, .andn 0 0 8 2 3, .shl 0 0 8 2 3,
      .lea1 0 0 8 2 3, .lea2 0 0 8 2 3, .lea4 0 0 8 2 3, .lea8 0 0 8 2 3, .mov 0 0 8 2, .clz 0 0 8 2, .popc 0 0 8 2] : List Instr).map
        (fun i => value i 6 7)
      = [13, 0xFFFFFFFFFFFFFFFF, 42, 6, 7, 1, 0, 768, 13, 20, 34, 62, 6, 61, 2].map some := by decide +kernel

/-- R134: signs, wraps, and amounts of b[5:0]. -/
theorem test_scalar_corners :
    [value (.mulh 0 0 8 2 3) (-1) (-1), value (.mulhn 0 0 8 2 3) (-1) (-1), value (.shl 0 0 8 2 3) 5 64, value (.shr 0 0 8 2 3) (-2) 65,
      value (.sar 0 0 8 2 3) (-2) 65, value (.rotr 0 0 8 2 3) 1 1, value (.min 0 0 8 2 3) (-1) 1, value (.minn 0 0 8 2 3) (-1) 1,
      value (.max 0 0 8 2 3) (-1) 1, value (.maxn 0 0 8 2 3) (-1) 1, value (.abs 0 0 8 2) (-5) 0, value (.clz 0 0 8 2) 0 0]
      = [0, 0xFFFFFFFFFFFFFFFE, 5, 0x7FFFFFFFFFFFFFFF, 0xFFFFFFFFFFFFFFFF, 0x8000000000000000, 0xFFFFFFFFFFFFFFFF, 1, 1, 0xFFFFFFFFFFFFFFFF,
         5, 64].map some := by decide +kernel

/-- R134, R133: ABS of the most negative number is itself; a multiply lands after three cycles, an add after one. -/
theorem test_scalar_latency :
    [lastResult (exec (.abs 0 0 8 6) base), lastResult (exec (.mul 0 0 8 2 3) base), lastResult (exec (.add 0 0 8 2 3) base)]
      = [some (.s 8, 0x8000000000000000, 0), some (.s 8, 42, 2), some (.s 8, 13, 0)] := by decide +kernel

/-- R135's table. -/
theorem test_divide :
    ([(7, 0xFFFFFFFFFFFFFFFE), (0xFFFFFFFFFFFFFFF9, 2), (42, 0), (0x8000000000000000, 0xFFFFFFFFFFFFFFFF)] : List (Word × Word)).map
        (fun x => [value (.div 0 0 8 2 3) x.1 x.2, value (.rem 0 0 8 2 3) x.1 x.2, value (.divn 0 0 8 2 3) x.1 x.2])
      = [[some 0xFFFFFFFFFFFFFFFD, some 1, some 0], [some 0xFFFFFFFFFFFFFFFD, some 0xFFFFFFFFFFFFFFFF, some 0x7FFFFFFFFFFFFFFC],
         [some 0xFFFFFFFFFFFFFFFF, some 42, some 0xFFFFFFFFFFFFFFFF], [some 0x8000000000000000, some 0, some 0]] := by decide +kernel

/-- R136's table. -/
theorem test_bit_fields :
    [value (.ext 0 0 8 2 3) 0x000000F00ABCD000#64 0x10F0C#64, value (.ext 0 0 8 2 3) 0x000000F00ABCD000#64 0xF0C#64,
      (lastResult (exec (.ins 0 0 7 2 3)
        ((with23 0x000000F00ABCD000#64 0xF0C#64).updRegs fun r => { r with s := r.s.set 7 0x1111111111111111#64 }))).map (·.2.1)]
      = [some 0xFFFFFFFFFFFFABCD, some 0xABCD, some 0x111111111D000111] := by decide +kernel

/-- R54, R137: immediates without a header run from -32 to 31; shift amounts are raw. -/
theorem test_immediates :
    [value (.addi 0 0 8 2 0x3F) 6 0, value (.muli 0 0 8 2 0x20) 1 0, value (.andi 0 0 8 2 0x20) (-1) 0, value (.shri 0 0 8 2 0x3F) (-1) 0,
      value (.movi 0 0 8 0x1F) 0 0] = [some 5, some 0xFFFFFFFFFFFFFFE0, some 0xFFFFFFFFFFFFFFE0, some 1, some 31] := by decide +kernel

/-- R139: signed and unsigned compares of -1 with 1. -/
theorem test_compares :
    ((List.range 10).map fun c => value (.cmp 0 (BitVec.ofNat 4 c) 3 2 3) (-1) 1)
      = [0, 1, 1, 1, 0, 0, 0, 0, 1, 1].map some := by decide +kernel

/-- S0 discards what is written to it (R20): the result lands, and S0 reads zero. -/
theorem test_s0 : ((outOf (step (outOf (exec (.addi 0 0 0 2 1) { base with turn := 0 })))).fr.r.s.toList.getD 0 1) = 0 := by decide +kernel

theorem witness_ScalarArithmetic : Readable base 2 ∧ Readable base 3 ∧ ∀ i ∈ ([.add 0 0 0 2 3, .add 0 1 0 2 3, .sub 0 0 1 2 3, .mul 0 0 1 2 3, .mulh 0 0 1 2 3,
      .mulhn 0 0 1 2 3, .andR 0 0 1 2 3, .orR 0 0 1 2 3, .xor 0 0 1 2 3, .andn 0 0 1 2 3, .shl 0 0 1 2 3, .shr 0 0 1 2 3, .sar 0 0 1 2 3,
      .rotr 0 0 1 2 3, .min 0 0 1 2 3, .max 0 0 1 2 3, .minn 0 0 1 2 3, .maxn 0 0 1 2 3, .abs 0 0 1 2, .lea1 0 0 1 2 3, .lea2 0 0 1 2 3,
      .lea4 0 0 1 2 3, .lea8 0 0 1 2 3, .mov 0 0 1 2, .clz 0 0 1 2, .popc 0 0 47 2] : List Instr), Issues i base := by
  and_intros <;> first | decide +kernel | exact readable_of (by decide +kernel) | exact issues_all (by decide +kernel)

theorem witness_ScalarDivide : Readable base 6 ∧ Readable base 5 ∧ base.here.divFree ≤ base.cyc base.cur ∧ base.rdS 0 = 0 ∧ base.rdS 5 = BitVec.allOnes 64
    ∧ base.rdS 6 = BitVec.intMin 64 ∧ (∀ i ∈ ([.div 0 0 1 6 5, .divn 0 0 1 2 3, .rem 0 1 0 2 0, .remn 0 0 1 2 3] : List Instr), Issues i base) := by
  and_intros <;> first | decide +kernel | exact readable_of (by decide +kernel) | exact issues_all (by decide +kernel)

/-- The divider busy. -/
def dividing : State := base.updCore 0 fun x => { x with divFree := 1 }
theorem witness_ScalarDivide_busy : dividing.cyc dividing.cur < dividing.here.divFree
    ∧ ∀ i ∈ ([.div 0 0 1 6 5, .remn 0 0 1 2 3] : List Instr), Issues i dividing := by
  and_intros <;> first | decide +kernel | exact issues_all (by decide +kernel)

theorem witness_ScalarBitFields : okS3 1 0 2 3 = true ∧ ∀ i ∈ ([.ext 0 0 1 2 3, .ins 0 0 1 2 3, .ins 0 1 0 2 3] : List Instr), Issues i base := by
  and_intros <;> first | decide +kernel | exact issues_all (by decide +kernel)

theorem witness_ScalarImmediates : ∀ i ∈ ([.addi 0 0 1 2 32, .muli 0 0 1 2 31, .andi 0 0 1 2 3, .ori 0 0 1 2 3, .xori 0 0 1 2 3, .shli 0 0 1 2 63,
      .shri 0 0 1 2 63, .sari 0 0 1 2 63, .movi 0 0 1 63, .movhi 0 0 1 2 3] : List Instr), Issues i base := by
  and_intros <;> first | decide +kernel | exact issues_all (by decide +kernel)

/-- The head bundle's slot 1 under a header with an extension for it (R43, R45). -/
def extended : State := { base with ctx := { slot := 1, hdr := .hx 1 5, hasHdr := true } }
theorem witness_ScalarImmediates_header : extended.ctx.hx = some 5 ∧ Issues (.addi 0 0 1 2 3) extended :=
  ⟨by decide +kernel, issues_of (by decide +kernel)⟩

theorem witness_ScalarComparesAndViews : base.fr.predWritable 3 = true ∧ base.fr.predWritable 0 = false ∧ viewOk 0 = true
    ∧ viewOk (base.rdS 5) = false ∧ ∀ i ∈ ([.cmp 0 9 3 2 3, .cmpi 0 0 7 2 3, .vset 0 7 0, .vset 0 0 5, .vget 0 0 1 0] : List Instr), Issues i base := by
  and_intros <;> first | decide +kernel | exact issues_all (by decide +kernel)

/-- Inside an open pipelined level, where P4 to P7 are the level's own (R24). -/
def piped : State := base.updCtl fun c => { c with
  depth := 1, lv := c.lv.set 0 { isOpen := true, pipe := true, stages := 2, lcnt := 5, lstart := 0x100000#64, lstop := 0x100000#64 } }
theorem witness_PredicateLogic : base.fr.predWritable 1 = true ∧ piped.fr.predWritable 4 = false
    ∧ (∀ i ∈ ([.pand 0 1 2 3, .por 0 1 0 3, .pxor 0 7 2 3, .pnot 0 1 2, .pmov 0 1 2, .pall 0 1 2 0, .pany 0 1 2 2] : List Instr), Issues i base)
    ∧ (∀ i ∈ ([.pand 0 4 2 3, .cmp 0 0 4 2 3, .pall 0 5 2 0] : List Instr), Issues i piped) := by
  and_intros <;> first | decide +kernel | exact issues_all (by decide +kernel)

/-- One mask, and a full stack of sixteen. -/
def masked (n : Nat) : State := base.updRegs fun r => { r with mstack := List.replicate n 5 }
theorem witness_MaskStackOperations : base.fr.r.mstack.length < 16 ∧ base.fr.visible = [] ∧ (masked 1).fr.visible = [5] ∧ 16 ≤ (masked 16).fr.r.mstack.length
    ∧ ∀ s ∈ [base, masked 1, masked 16], ∀ i ∈ ([.mpush 0 1, .mpushIn 0 1, .minv 0, .mpop 0, .mget 0 7] : List Instr), Issues i s := by
  and_intros <;> first | decide +kernel | exact issues_each (by decide +kernel)

/-- R172-R176 on a stack of one mask 5, all ones below it. -/
theorem test_mask_stack : [(outOf (exec (.minv 0) (masked 1))).fr.r.mstack.map (·.toNat % 16), (outOf (exec (.mpop 0) (masked 1))).fr.r.mstack.map (·.toNat % 16),
    (outOf (exec (.mpushIn 0 0) (masked 1))).fr.r.mstack.map (·.toNat % 16)] = [[10], [], [0]] := by decide +kernel

/-- A target that is ready, one that is still being fetched, one out of range. -/
def targets : State := base.updCtl fun c => { c with
  tg := ((c.tg.set 1 { valid := true, filled := true, addr := 0x100080#64 }).set 2 { valid := true, addr := 0x100080#64 }).set 3
    { valid := true, outRange := true, filled := true } }
/-- A mask stack whose top has no lane, over the targets. -/
def noLanes : State := targets.updRegs fun r => { r with mstack := [0] }
theorem witness_TransfersTaken :
    base.fr.id.codeOk (base.fr.ctl.pc + BitVec.ofInt 64 (immL base.ctx 7 * 16)) = true
    ∧ base.fr.id.codeOk (base.fr.ctl.pc + BitVec.ofInt 64 (immL base.ctx 0x800 * 16)) = false ∧ targets.fr.visible = []
    ∧ ((masked 1).fr.visible ≠ [] ∧ (masked 1).fr.active.toNat % 2 ^ (512 >>> 0) ≠ 0)
    ∧ (∀ i ∈ ([.prep 0 1 7, .prep 0 1 0x800, .xfer 0 1, .xfer 0 2, .xfer 0 3, .xfer 0 0, .xfere 0 1 0, .xfera 0 1 2] : List Instr), Issues i targets)
    ∧ (noLanes.fr.visible ≠ [] ∧ noLanes.fr.active.toNat % 2 ^ (512 >>> 0) = 0)
    ∧ ∀ s ∈ [masked 1, noLanes], ∀ i ∈ ([.xfere 0 1 0, .xfera 0 1 0] : List Instr), Issues i s := by
  and_intros <;> first | decide +kernel | exact issues_all (by decide +kernel) | exact issues_each (by decide +kernel)

/-- R151: a transfer to a target that is ready goes there. -/
theorem test_transfer : (outOf (exec (.xfer 0 1) targets)).fr.ctl.pc = 0x100080#64 := by decide +kernel

theorem witness_CallsAndReturns : Readable base 1 ∧ piped.fr.ctl.floor < piped.fr.ctl.depth ∧ base.fr.ctl.depth ≤ base.fr.ctl.floor
    ∧ (canonical (base.rdS 7) = true ∧ (base.rdS 7).getLsbD 3 = false ∧ (base.rdS 7).toNat % 8 ≤ base.fr.ctl.depth)
    ∧ canonical (base.rdS 6) = false ∧ base.fr.ctl.depth < (base.rdS 2).toNat % 8
    ∧ (∀ i ∈ ([.call 0 1 40, .call 0 3 40, .call 0 0 40, .ret 0 7, .ret 0 6, .ret 0 2, .halt 0] : List Instr), Issues i targets)
    ∧ Issues (.ret 0 7) piped := by
  and_intros <;> first | decide +kernel | exact readable_of (by decide +kernel) | exact issues_all (by decide +kernel) | exact issues_of (by decide +kernel)

/-- R152: the link holds the next bundle's address and the floor. -/
theorem test_call_link : lastResult (exec (.call 0 1 40) targets) = some (.s 40, 0x100010, 0) := by decide +kernel

/-- Code that ends two bundles after the head bundle. -/
def ending : State := base.updFr fun f => { f with id := { f.id with codelim := f.ctl.pc + 0x20 } }
/-- All six levels open, and one open level that stops at the head bundle. -/
def sixOpen : State := base.updCtl fun c => { c with depth := 6, lv := Vector.replicate 6 { isOpen := true, lcnt := 2, stages := 1, lstop := 0x100100#64 } }
theorem witness_LoopsOpenAndBreak : Readable base 2
    ∧ ending.fr.id.codelim.toNat ≤ (ending.fr.ctl.pc + BitVec.ofInt 64 (16 * immL ending.ctx 3)).toNat ∧ 6 ≤ sixOpen.fr.ctl.depth
    ∧ (base.fr.ctl.pc + BitVec.ofInt 64 (16 * immL base.ctx 3)).toNat < base.fr.id.codelim.toNat
    ∧ piped.fr.ctl.floor < piped.fr.ctl.depth ∧ (0 < (base.rdS 2).toInt ∧ (base.rdS 2).toInt < 2 ^ 47) ∧ (base.rdS 0).toInt ≤ 0
    ∧ 2 ^ 47 ≤ ((with23 0x0000800000000000#64 0).rdS 2).toInt
    ∧ ∀ s ∈ [base, ending, sixOpen, piped], ∀ i ∈ ([.loop 0 2 3, .loop 0 0 3, .loops 0 2 1 3, .loops 0 0 3 4] : List Instr), Issues i s := by
  and_intros <;> first | decide +kernel | exact readable_of (by decide +kernel) | exact issues_each (by decide +kernel)

/-- R159: LOOPS.3 over 6 opens a level of 6 + 2 counted issues. -/
theorem test_loops : (((outOf (exec (.loops 0 2 2 4) base)).fr.ctl.lv.toList.head?.map fun x => (x.lcnt, x.stages, x.lstart.toNat, x.lstop.toNat)),
    (outOf (exec (.loops 0 2 2 4) base)).fr.ctl.depth) = (some (8, 3, 0x100010, 0x100040), 1) := by decide +kernel

theorem witness_LoopsOpenAndBreak_break : base.fr.ctl.depth ≤ base.fr.ctl.floor ∧ (piped.fr.ctl.depth ≤ 6 ∧ piped.fr.ctl.floor < piped.fr.ctl.depth)
    ∧ ∀ s ∈ [base, piped], ∀ i ∈ ([.lbrk 0, .lbrkD 0] : List Instr), Issues i s := by
  and_intros <;> first | decide +kernel | exact issues_each (by decide +kernel)

/-- The open level's last counted issue. -/
def lastTime : State := piped.updCtl fun c => { c with lv := c.lv.set 0 { (c.lv.get 0) with lcnt := 1 } }
theorem witness_BackEdges : piped.closed = false ∧ piped.admits piped.cur (bundleWeight piped.fr.id.ewtab piped.ctx.ew piped.ctx.hasHdr []) = true
    ∧ (piped.fr.ctl.depth ≤ 6 ∧ piped.fr.ctl.floor < piped.fr.ctl.depth) ∧ (piped.fr.ctl.lv.get 0).lstop = piped.fr.ctl.pc ∧ 1 < (piped.fr.ctl.lv.get 0).lcnt
    ∧ (lastTime.fr.ctl.lv.get 0).lcnt ≤ 1 ∧ base.fr.ctl.depth ≤ base.fr.ctl.floor := by
  decide +kernel

/-- R160: a bundle at LSTOP goes back while the count is above one, and on when it is not. -/
theorem test_back_edge : [(outOf (exec .nop piped)).fr.ctl.pc.toNat, (outOf (exec .nop lastTime)).fr.ctl.pc.toNat] = [0x100000, 0x100010] := by decide +kernel

end Sys2Proof.Tests
namespace Sys2Proof.Tests

open Sys2Proof Sys2Proof.Machine

/-! ## Memory operations: results and witnesses -/

/-- Whether a check of an access answers pieces, none of which must wait for an access under way, and what they are used for leaves every
stack open. -/
def accessTo (s : State) (va n : Nat) (k : Access) (ctl : Bool) (oc : Nat) (use : List (Seg × Walked) → State) : Bool :=
  match checkAccess s va n k ctl with
  | .ok l => l.all (fun x => !s.mustWait s.cur s.nextId oc x.1.pa x.1.len) && !(use l).closed
  | .error _ => false
/-- The same for the access alone. -/
def goodAccess (s : State) (va n : Nat) (k : Access) (ctl : Bool) (oc : Nat) : Bool := accessTo s va n k ctl oc fun _ => s
/-- The cause of a refused access. -/
def badAccess (s : State) (va n : Nat) (k : Access) : Option Nat :=
  match checkAccess s va n k false with
  | .error (.trap t) => some t.cause.toNat
  | _ => none
/-- Where the single piece of an access lies. -/
def oneMem (s : State) (va n : Nat) (k : Access) : Bool :=
  match checkAccess s va n k false with
  | .ok [(g, _)] => g.off == 0 && g.len == n && decide (placeOf s.cur g.pa = .mem)
  | _ => false
/-- The same in the core's own local store. -/
def oneLocal (s : State) (va n : Nat) (k : Access) : Bool :=
  match checkAccess s va n k false with
  | .ok [(g, _)] => g.off == 0 && g.len == n && (placeOf s.cur g.pa == .ownLs (g.pa - lsBase s.cur))
  | _ => false
/-- Whether a check passes. -/
def isOk {α : Type} (x : Except Stop α) : Bool :=
  match x with
  | .ok _ => true
  | .error _ => false
/-- The effective address of a form, where there is one. -/
def addrOf (s : State) (a : BitVec 6) (m : BitVec 2) : Option Word :=
  match effAddr s.ctx s a m with
  | .ok x => some x
  | .error _ => none
/-- No stack of a state is quiesced. -/
def opened (s : State) : Bool := (List.range 8).all fun d => !(s.base (Fin.ofNat 8 d)).hbm.hctl.getLsbD 0

theorem allOpen_of_opened {s : State} (h : opened s = true) : s.AllOpen := by
  intro pa
  unfold State.stackClosed
  split
  · rename_i k _
    have := List.all_eq_true.mp h (k % 8) (List.mem_range.mpr (Nat.mod_lt _ (by decide)))
    simpa [Fin.ofNat, Nat.mod_mod] using this
  · rfl

/-- Register 8 poisoned. -/
def poisonedReg : State := base.updRegs fun r => { r with sPoison := [(8, 1)] }
/-- Tile 0 of the own local store owned by the engines, the second one by the core. -/
def ownedTile : State := base.updFr fun f => { f with sys := f.sys.setOwn [0] true }
/-- The core's window lent to task 7. -/
def lentCore : State := base.updCore 0 fun x => { x with lentTo := some 7 }

theorem witness_EffectiveAddresses : poisonedReg.fr.r.sPoison.find? (·.1 == (8#6).toNat) = some (8, 1) ∧ Readable base 1 ∧ Readable base 6
    ∧ canonical (base.rdS 1) = true ∧ canonical (base.rdS 6) = false ∧ extended.ctx.hx = some 5
    ∧ ({ hdr := .hi 64 } : SlotCtx).hdr = .hi 64 := by
  and_intros <;> first | decide +kernel | exact readable_of (by decide +kernel)

/-- R55, R142: an address that does not translate, a tile of the engines, a lent window, a range that leaves the space. -/
theorem test_access_causes : [badAccess base 0x300000 8 .read, badAccess ownedTile 0x200040 8 .read, badAccess lentCore 0x200040 8 .read,
    badAccess base (2 ^ 57 - 4) 8 .read] = [some Cause.translation.toNat, some Cause.owner.toNat, some Cause.windowLent.toNat, some Cause.address.toNat] := by
  decide +kernel

theorem witness_AccessChecksInOrder : inRange57 (2 ^ 57 - 4) 8 = false ∧ inRange57 0x100040 8 = true
    ∧ (badAccess base 0x300000 8 .read).isSome = true ∧ (badAccess ownedTile 0x200040 8 .write).isSome = true
    ∧ (badAccess lentCore 0x200040 8 .write).isSome = true ∧ goodAccess base 0x100040 8 .read true 0 = true
    ∧ ∀ s ∈ [base, ownedTile, lentCore], ∀ i ∈ ([.lds 0 3 0 8 1 0 0, .sts 0 3 2 1 0 0] : List Instr), Issues i s := by
  and_intros <;> first | decide +kernel | exact issues_each (by decide +kernel)

theorem witness_ScalarLoads : base.AllOpen ∧ addrOf base 1 0 = some (base.rdS 1) ∧ (accessTo base (va57 (base.rdS 1)) 8 .read true 3 fun l => bindLoad base.ctx base.settled l 3
        { dest := .s 8, ben := firstBytes 8, lat := some 0, n := 8 } 5 .loadComplete) = true
    ∧ oneMem base (va57 (base.rdS 1)) 8 .read = true ∧ (∀ i ∈ ([.lds 0 3 0 8 1 3 0, .lds 0 6 0 8 1 0 0, .lds 0 0 1 0 4 0 0] : List Instr), Issues i base) := by
  and_intros <;> first | decide +kernel | exact allOpen_of_opened (by decide +kernel) | exact issues_all (by decide +kernel)

/-- R140: a byte is loaded with its sign or without; the code page's own words are the data (0xE0 in the top byte of a nop). -/
theorem test_lds : (([.lds 0 2 0 8 9 0 0, .lds 0 6 0 8 9 0 0] : List Instr).map fun i =>
    ((outOf (exec i (base.updRegs fun r => { r with s := r.s.set 9 0x100000#64 }))).fr.loads.map fun q => (q.form, q.data.toNat % 2 ^ 32)))
      = [[(0, 0xE0000000)], [(1, 0xE0000000)]] := by decide +kernel

theorem witness_ScalarStores : Readable base 2 ∧ base.AllOpen ∧ (accessTo base (va57 (base.rdS 1)) 8 .write true 0 fun l => storeAt base.settled l 0 6 0xFF) = true
    ∧ oneMem base (va57 (base.rdS 1)) 8 .write = true ∧ oneLocal base (va57 (base.rdS 4)) 4 .write = true
    ∧ (∀ i ∈ ([.sts 0 3 2 1 0 0, .sts 0 2 2 4 0 0, .sts 0 0 5 1 0 0] : List Instr), Issues i base) := by
  and_intros <;> first | decide +kernel | exact readable_of (by decide +kernel) | exact allOpen_of_opened (by decide +kernel) | exact issues_all (by decide +kernel)

/-- R140: STS.b8 of -1 stores one byte and leaves its neighbours, little end first. -/
theorem test_sts : (let t := outOf (exec (.sts 0 1 5 1 0 0) base)
    (t.coreRead 0 0x100040 4, t.coreRead 0 0x10003F 1)) = (0xFFFF, 0) := by decide +kernel

/-- What a load does with its pieces, where its destination takes it. -/
def loadsTo (s : State) (n least : Nat) (l : List (Seg × Walked)) : State :=
  match loadDest s.ctx s (xOpd s.ctx 0 0x20) [] s.settled with
  | .ok (d, v) => bindLoad s.ctx v l 0 { dest := d, ben := s.fr.enables 4, form := 2, n := n } least .vectorLoadLand
  | .error _ => s
/-- Whether the lanes of a gather or scatter pass their checks, and their use leaves every stack open. -/
def lanesTo (s : State) (k : Access) (aligned : Bool) (use : List (Seg × Walked) → State) : Bool :=
  match laneSegs s k aligned (s.rdS 1) 0 128 with
  | .ok l => l.all (fun x => !s.mustWait s.cur s.nextId 0 x.1.pa x.1.len) && !(use l).closed
  | .error _ => false

theorem witness_VectorLoadsAndStores : addrOf base 1 0 = some (base.rdS 1) ∧ base.closed = false
    ∧ accessTo base (va57 (base.rdS 1)) 512 .read false 0 (loadsTo base 512 6) = true
    ∧ accessTo base (va57 (base.rdS 1)) 4 .read false 0 (loadsTo base 4 6) = true
    ∧ (accessTo base (va57 (base.rdS 1)) 512 .write false 0 fun l => storeAt base.settled l 0 0 (2 ^ 512 - 1)) = true
    ∧ isOk (loadDest base.ctx base (xOpd base.ctx 0 0x20) [] base.settled) = true
    ∧ isOk (readV base.ctx base (xOpd base.ctx 0 0x21) 4 false ([], base.settled)) = true
    ∧ lanesTo base .read false (loadsTo base 512 10) = true ∧ isOk (scatterSrcs base.ctx base base.settled 0x21 0x22) = true
    ∧ (lanesTo base .write false fun l => storeAt base.settled l 0 0 (2 ^ 512 - 1)) = true
    ∧ (∀ i ∈ ([.ldv 0 0x20 1 0 0, .ldvb 0 0x20 1 0 0, .stv 0 0x21 1 0 0, .ldvg 0 0x20 1 0x21, .stvs 0 0x21 1 0x22] : List Instr), Issues i base) := by
  and_intros <;> first | decide +kernel | exact issues_all (by decide +kernel)

end Sys2Proof.Tests
namespace Sys2Proof.Tests

open Sys2Proof Sys2Proof.Machine

/-- One AADD of 3 on the word at 0x10_0040, to register 8, its access about to be performed at home. -/
def atomic (op : Nat) : State :=
  { base.updFr (fun f => { f with atoms := [{ id := 5, op := op, pa := 0x100040, x := 3, new := 9, dest := 8 }] }) with
    arg := { id := 5 }, mem := Memory.write [] 0x100040 8 5 }
theorem witness_AtomicsLeaveTheCore : Readable base 2 ∧ Readable base (2 + 1) ∧ addrOf base 1 0 = some (base.rdS 1) ∧ va57 (base.rdS 1) % 8 = 0
    ∧ va57 (base.rdS 2) % 8 ≠ 0 ∧ addrOf base 2 0 = some (base.rdS 2) ∧ base.closed = false
    ∧ (accessTo base (va57 (base.rdS 1)) 8 .atomic false 0 fun l => (base.settled.learn l).startAtomic base.ctx { pa := 0x100040, va := 0x100040 }) = true
    ∧ (lanesTo base .atomic true fun l => l.foldl (fun (w : State) g =>
        w.startAtomic base.ctx { op := 7, pa := g.1.pa, va := g.1.va, x := 0 }) (base.settled.learn l)) = true
    ∧ isOk (scatterSrcs base.ctx base base.settled 0x21 0x22) = true
    ∧ (∀ i ∈ ([.aadd 0 2 1 0 0, .amin 0 2 1 0 0, .amax 0 2 1 0 0, .aand 0 2 1 0 0, .aor 0 2 1 0 0, .axch 0 2 1 0 0, .acas 0 2 1 0 0, .aaddf 0 2 1 0 0,
      .vaadd 0 0x21 1 0x22] : List Instr), Issues i base) := by
  and_intros <;> first | decide +kernel | exact readable_of (by decide +kernel) | exact issues_all (by decide +kernel)

theorem witness_AtomicsPerformAtHome : (∀ a, (atomic 0).fr.atoms.head? = some a → ((atomic 0).frameAt 0 0).atoms.find? (·.id == (atomic 0).arg.id) = some a
      ∧ ((atomic 0).frameAt 0 0).atoms = [a] ∧ (atomic 0).mustWait 0 a.id a.oc a.pa 8 = false ∧ 0 < a.dest ∧ a.dest < 48 ∧ a.dead = false)
    ∧ (atomic 0).fr.atoms.isEmpty = false ∧ placeOf 0 0x100040 = .mem ∧ (atomic 0).AllOpen ∧ (atomic 0).poisonOf 0x100040 8 = none
    ∧ (∀ d, ((atomic 0).dies.get d).l2 = []) ∧ (atomic 0).invals = [] ∧ (∀ b ∈ ((atomic 0).core 0).l1, b.dirty = true → b.pa < 0x100040) := by
  and_intros
  · intro a h
    obtain rfl := Option.some.inj h
    decide +kernel
  all_goals first | decide +kernel | exact allOpen_of_opened (by decide +kernel)

/-- R232: 5 in memory and the operand 3; ACAS compares 5 with 3. -/
theorem test_atomics : ((List.range 7).map fun op => let t := outOf (exec .atomicComplete (atomic op))
    (Memory.read t.mem 0x100040 8, (t.fr.r.s.get 8).toNat)) = [(8, 5), (3, 5), (5, 5), (1, 5), (7, 5), (3, 5), (5, 5)] := by decide +kernel

/-- An atomic outstanding, and an L1 with a store in it. -/
theorem witness_OrderingOperations : (!(atomic 0).fr.atoms.isEmpty) = true ∧ Issues (.fence 0 7) (atomic 0)
    ∧ base.coreBusy base.cur true true = false ∧ base.acquireWaits = false ∧ (atomic 0).acquireWaits = true ∧ base.releaseWaits = false ∧ (atomic 0).releaseWaits = true
    ∧ (base.settled.release base.cur 1).closed = false
    ∧ (base.settled.writeBack base.cur 1 (inParts (base.settled.physParts (va57 (base.rdS 1)) 64))).closed = false ∧ Readable base 1 ∧ Readable base 7 ∧ base.rdS 0 = 0 ∧ va57 (base.rdS 1) + (base.rdS 7).toNat ≤ 2 ^ 57
    ∧ (canonical (base.rdS 6) = false) ∧ base.AllOpen ∧ oneMem base (va57 (base.rdS 1) / 64 * 64) 64 .read = true
    ∧ (badAccess base 0 64 .read).isSome = true ∧ addrOf base 2 0 = some (base.rdS 2)
    ∧ (∀ i ∈ ([.fence 0 7, .acq 0 0, .acq 0 1, .rel 0 1, .flush 0 1 1 7, .flush 0 1 1 0, .invl 0 6 7, .flush 0 0 6 7, .prfl 0 0 1 0 0, .prfl 0 0 2 0 0] : List Instr),
        Issues i base) ∧ Issues (.acq 0 1) (atomic 0) ∧ Issues (.rel 0 1) (atomic 0) := by
  and_intros <;> first | decide +kernel | exact allOpen_of_opened (by decide +kernel) | exact readable_of (by decide +kernel) | exact issues_all (by decide +kernel) | exact issues_of (by decide +kernel)

/-- R109: FENCE while an access is outstanding stands until it has been performed; the instruction itself has issued. -/
theorem test_fence : ((outOf (exec (.fence 0 7) (atomic 0))).fr.msg.fences.length, (outOf (exec (.fence 0 7) base)).fr.msg.fences.length) = (1, 0) := by
  decide +kernel

/-- A translation walk asked for at an address. -/
def walking (w : Word) : State := { base with arg := { w0 := w } }
/-- Whether an address translates in the frame's address space. -/
def walks (s : State) (va : Nat) : Bool :=
  match lookup s (dieOf 0) (s.core 0).l1tlb s.fr.sys.asid s.fr.sys.ptroot va with
  | .ok _ => true
  | .error _ => false
/-- TINVA's word for address space 0, and for address space 6, which no translation is in. -/
def space0 : Inval := { every := false, asid := 0 }
def space6 : Inval := { every := false, asid := 6 }
/-- The privileged mode with S8 zero and an atomic of the address space under way; the same after TINVA has asked; the atomic done; and a
full list of invalidations. -/
def invalidating (n : Nat) : State :=
  let s := sys.updRegs fun r => { r with s := r.s.set 8 0 }
  let a : Atomic := { id := 5, pa := 0x100040 }
  let asked (t : State) : State := { t.updCtl (fun c => { c with inval := some 7 }) with invals := [{ id := 7, ids := [5], ranges := [] }] }
  match n with
  | 0 => s.updFr fun f => { f with atoms := [a] }
  | 1 => asked (s.updFr fun f => { f with atoms := [a] })
  | 2 => asked s
  | _ => { s with invals := List.replicate 8 { id := 7, ids := [5], ranges := [] } }
theorem witness_TranslationsInvalidated : Readable sys 2 ∧ Readable sys 1 ∧ ((sys.rdS 5) >>> 17).toNat ≠ 0 ∧ ((sys.rdS 2) >>> 17).toNat = 0
    ∧ sys.rdS 0 = 0 ∧ sys.rdS 7 ≠ 0 ∧ canonical (sys.rdS 1) = true
    ∧ inRange57 (va57 (sys.rdS 1)) (sys.rdS 7).toNat = true ∧ inRange57 (va57 (sys.rdS 1)) (sys.rdS 5).toNat = false
    ∧ walks (walking 0x100040) 0x100040 = true ∧ walks (walking 0x300000) 0x300000 = false
    ∧ (∀ i ∈ ([.tinva 0 2, .tinva 0 5, .tinvr 0 7 1 2, .tinvr 0 7 1 5, .tinvr 0 0 1 2, .tinvr 0 5 1 2] : List Instr), Issues i sys) := by
  and_intros <;> first | decide +kernel | exact readable_of (by decide +kernel) | exact issues_all (by decide +kernel)

theorem witness_TranslationsInvalidated_protocol : sys.fr.ctl.inval = none ∧ sys.invals = [] ∧ sys.invalIds space6 = [] ∧ (sys.settled.invalidate space6).closed = false
    ∧ (invalidating 0).fr.ctl.inval = none ∧ (invalidating 0).invals = [] ∧ (invalidating 0).invalIds space0 ≠ []
    ∧ (invalidating 1).fr.ctl.inval = some 7 ∧ (∃ q ∈ (invalidating 1).invals, q.id = 7 ∧ ∃ a ∈ q.ids, (invalidating 1).underWay a = true)
    ∧ (invalidating 2).fr.ctl.inval = some 7 ∧ (∀ q ∈ (invalidating 2).invals, q.id = 7 → ∀ a ∈ q.ids, (invalidating 2).underWay a = false)
    ∧ ((invalidating 2).settled.settleDrains.updCtl fun c => { c with inval := none }).closed = false
    ∧ (invalidating 3).fr.ctl.inval = none ∧ 8 ≤ (invalidating 3).invals.length
    ∧ ∀ s ∈ [invalidating 0, invalidating 1, invalidating 2, invalidating 3], ∀ i ∈ ([.tinva 0 8, .tinvr 0 7 1 8] : List Instr), Issues i s := by
  and_intros <;> first | decide +kernel | exact issues_each (by decide +kernel)

/-! ## Vector operations -/

/-- The first two operand-file entries hold `a` and `b`. -/
def ofes (a b : Vec) : State := base.updRegs fun r => { r with ofe := (r.ofe.set 0 a).set 1 b }
/-- The low bytes of the result that an instruction over them puts in flight. -/
def vvalue (i : Instr) (n : Nat) (a b : Vec) : Option Nat := (outOf (exec i (ofes a b))).fr.infl.getLast?.map fun r => r.data.toNat % 2 ^ (8 * n)
/-- Whether an instruction's sources can be read and its result be taken: the hypotheses of `VectorGives`. -/
def vectorOk (s : State) (lat : Nat) (d : BitVec 6) (srcs : List VSrc) : Bool :=
  match readSrcs s.ctx s srcs ([], s.settled) with
  | .ok (_, seen, v) => v.closed == s.closed && (match writeV s.ctx s (vDest s.ctx 0 d) seen lat allBytes 0 (some s.ctx.vUnit) v with
    | .ok u => u.closed == s.closed
    | .error _ => false)
  | .error _ => false

/-- R183 on f32 1.5 and -2, by hand. -/
theorem test_vector_arithmetic :
    [vvalue (.vadd 0 0 0 0x22 0x20 0x21) 4 0x3FC00000 0xC0000000, vvalue (.vsub 0 0 0 0x22 0x20 0x21) 4 0x3FC00000 0xC0000000,
      vvalue (.vmul 0 0 0 0x22 0x20 0x21) 4 0x3FC00000 0xC0000000, vvalue (.vmin 0 0 0 0x22 0x20 0x21) 4 0x3FC00000 0xC0000000,
      vvalue (.vmax 0 0 0 0x22 0x20 0x21) 4 0x3FC00000 0xC0000000, vvalue (.vneg 0 0 0 0x22 0x20) 4 0x3FC00000 0,
      vvalue (.vabs 0 0 0 0x22 0x20) 4 0xC0000000 0, vvalue (.vfma 0 0 0 0x21 0x20 0x20) 4 0x3FC00000 0xC0000000]
      = [0xBF000000, 0x40600000, 0xC0400000, 0xC0000000, 0x3FC00000, 0xBFC00000, 0x40000000, 0x3E800000].map some := by decide +kernel

/-- R183 on i16 -6 and 10, i8, and the smaller of 32768 and 32767 as u16. -/
theorem test_vector_integers :
    [vvalue (.vadd 0 4 0 0x22 0x20 0x21) 2 0xFFFA 0x0A, vvalue (.vsub 0 5 0 0x22 0x20 0x21) 1 0x01 0x02, vvalue (.vmin 0 5 0 0x22 0x20 0x21) 1 0x80 0x7F,
      vvalue (.vmin 0 7 0 0x22 0x20 0x21) 2 0x8000 0x7FFF] = [4, 0xFF, 0x80, 0x7FFF].map some := by decide +kernel

theorem witness_VectorArithmetic : vectorOk base 4 0x22 [typedSrc 1 0x20 0, typedSrc 2 0x21 0, typedSrc 0 0x22 0] = true
    ∧ vectorOk base 2 0x03 [typedSrc 1 0x01 3, typedSrc 2 0x12 3] = true
    ∧ (∀ i ∈ ([.vadd 0 0 0 0x22 0x20 0x21, .vsub 0 1 0 0x22 0x20 0x21, .vmul 0 2 0 0x22 0x20 0x21, .vfma 0 0 0 0x22 0x20 0x21, .vfma 0 0 1 0 0x20 0x21, .vmin 0 4 0 0x22 0x20 0x21,
      .vmax 0 5 0 0x22 0x20 0x21, .vneg 0 3 0 0x22 0x20, .vabs 0 0 0 0x22 0x20, .vadd 0 3 0 0x03 0x01 0x12] : List Instr),
        Issues i (base.updCtl fun c => { c with bankHold := 9 })) := by
  and_intros <;> first | decide +kernel | exact issues_all (by decide +kernel)

theorem test_vector_logic :
    [vvalue (.vand 0 0 0x22 0x20 0x21) 4 0xF0F0 0x3C21, vvalue (.vor 0 0 0x22 0x20 0x21) 4 0xF0F0 0x3C21, vvalue (.vxor 0 0 0x22 0x20 0x21) 4 0xF0F0 0x3C21,
      vvalue (.vshl 0 0 0x22 0x20 0x21) 4 0xF0F0 0x21, vvalue (.vshr 0 0 0x22 0x20 0x21) 4 0x80000000 4, vvalue (.vsar 0 0 0x22 0x20 0x21) 4 0x80000000 4,
      vvalue (.vmov 0 0 0x22 0x20) 4 77 0, vvalue (.vsel 0 0 0x22 0x20 0x21) 4 77 88, vvalue (.vperm 0 0 0x22 0x20 0x21) 4 0x900000005#4096 1,
      vvalue (.viota 0 0 0x22 0x20) 8 5 0]
      = [0x3020, 0xFCF1, 0xCCD1, 0x1E1E0, 0x8000000, 0xF8000000, 77, 77, 9, 0x600000005].map some := by decide +kernel

theorem witness_VectorLogicAndMoves : vectorOk base 2 0x22 [{ j := 1, f := 0x20 }, { j := 2, f := 0x21 }] = true
    ∧ (∀ i ∈ ([.vand 0 0 0x22 0x20 0x21, .vor 0 0 0x22 0x20 0x21, .vxor 0 0 0x22 0x20 0x21, .vshl 0 0 0x22 0x20 0x21, .vshr 0 0 0x22 0x20 0x21,
      .vsar 0 0 0x22 0x20 0x21, .vmov 0 0 0x22 0x20, .vsel 0 0 0x22 0x20 0x21, .vperm 0 0 0x22 0x20 0x21, .viota 0 0 0x22 0x20] : List Instr), Issues i base) := by
  and_intros <;> first | decide +kernel | exact issues_all (by decide +kernel)

/-- R184: a compare of f32 NaN with itself, and of i32 -1 and 1; R200: a mask of the first five bytes. -/
theorem test_vector_masks : [vvalue (.vcmp 0 0 0 2 0x20 0x21) 1 0x7FC00000 0x7FC00000, vvalue (.vcmp 0 2 2 2 0x20 0x21) 1 0xFFFFFFFF 1,
    vvalue (.vmkc 0 2 0x20 0) 1 5 0] = [some 0xFE, some 0x01, some 0x1F] := by decide +kernel

theorem witness_VectorComparesAndMasks : vectorOk base 4 0x22 [{ j := 1, f := 0x20, b := 4, isF32 := true }, { j := 2, f := 0x21, b := 4, isF32 := true }] = true
    ∧ vectorOk base 2 0x22 [{ j := 1, f := 0x20 }] = true
    ∧ (∀ i ∈ ([.vcmp 0 0 0 2 0x20 0x21, .vcmp 0 5 2 2 0x20 0x21, .vmkc 0 2 0x20 0] : List Instr), Issues i base) := by
  and_intros <;> first | decide +kernel | exact issues_all (by decide +kernel)

end Sys2Proof.Tests
namespace Sys2Proof.Tests

open Sys2Proof Sys2Proof.Machine

/-- R186's table: bf16 with ties to even, and towards zero; a NaN is the canonical one. -/
theorem test_conversions :
    [vvalue (.vcvt 0 0 0x22 0x20 0 0) 8 0x7F8000013F8180003F8080003F800000 0, vvalue (.vcvtz 0 0 0x22 0x20 0 0) 8 0x7F8000013F8180003F8080003F800000 0]
      = [some 0x7FC03F823F803F80, some 0x7FC03F813F803F80] := by decide +kernel

/-- R187's table on 19, 500, 2^-10 and NaN: e4m3 and e5m2, to nearest even and towards zero; and e4m3 20 back to f32. -/
theorem test_pack : (([(0, 0), (1, 0), (0, 1), (1, 1)] : List (BitVec 1 × BitVec 2)).map fun x =>
      vvalue (.vpack8 0 0 0x22 0x20 x.1 x.2 0) 4 0x7FC000003A80000043FA000041980000 0)
      = [0x7F007E5A, 0x7F007E59, 0x7E14604D, 0x7E145F4C].map some
    ∧ vvalue (.vunpk8 0 0 0x22 0x20 0 0) 4 0x5A 0 = some 0x41A00000 := by decide +kernel

theorem witness_VectorConversions : vectorOk base 3 0x22 [{ j := 1, f := 0x20, b := 4, isF32 := true }] = true ∧ vectorOk base 6 0x22 [{ j := 1, f := 0x20, isF32 := true }] = true
    ∧ vectorOk base 3 0x22 [{ j := 1, f := 0x20, b := 1 }] = true ∧ vectorOk base 3 0x22 [{ j := 1, f := 0x20 }] = true
    ∧ (∀ i ∈ ([.vcvt 0 0 0x22 0x20 0 1, .vcvtz 0 0 0x22 0x20 6 0, .vpack8 0 0 0x22 0x20 1 1 3, .vunpk8 0 0 0x22 0x20 3 2, .vqnt4 0 0 0x22 0x20 1,
      .vdq4 0 0 0x22 0x20 0 0, .vdq4 0 0 0x22 0x20 1 1] : List Instr), Issues i base) := by
  and_intros <;> first | decide +kernel | exact issues_all (by decide +kernel)

/-- R190: VEXP2 of 128 is infinity and of -149 the smallest subnormal; the reciprocal of -0; the square root of -1; log2 of 1; sigma of 0. -/
theorem test_special_functions : [vvalue (.vexp2 0 0 0x22 0x20) 8 0xC315000043000000 0, vvalue (.vrcp 0 0 0x22 0x20) 4 0x80000000 0,
    vvalue (.vrsq 0 0 0x22 0x20) 4 0xBF800000 0, vvalue (.vlog2 0 0 0x22 0x20) 4 0x3F800000 0, vvalue (.vsigm 0 0 0x22 0x20) 4 0 0]
      = [0x000000017F800000, 0xFF800000, 0x7FC00000, 0, 0x3F000000].map some := by decide +kernel

/-- R191, R192 on 1, 2, -3 as i32 in the first elements, with zeros behind them. -/
theorem test_reductions : [vvalue (.vredAdd 0 0 0x22 0x20 3) 4 0xFFFFFFFD0000000200000001 0, vvalue (.vredMax 0 0 0x22 0x20 3) 4 0xFFFFFFFD0000000200000001 0,
    vvalue (.vredMin 0 0 0x22 0x20 3) 4 0xFFFFFFFD0000000200000001 0, vvalue (.vscanAdd 0 0 0x22 0x20 3) 12 0xFFFFFFFD0000000200000001 0]
      = [0, 2, 0xFFFFFFFD, 0x0000000300000001].map some := by decide +kernel

theorem witness_VectorFunctionsAndReductions : vectorOk base 16 0x22 [{ j := 1, f := 0x20, isF32 := true }] = true ∧ vectorOk base 9 0x22 [typedSrc 1 0x20 0] = true
    ∧ vectorOk base 9 0x22 [typedSrc 1 0x20 6] = true
    ∧ (∀ i ∈ ([.vrcp 0 0 0x22 0x20, .vrsq 0 0 0x22 0x20, .vexp2 0 0 0x22 0x20, .vlog2 0 0 0x22 0x20, .vtanh 0 0 0x22 0x20, .vsigm 0 0 0x22 0x20,
      .vsin 0 0 0x22 0x20, .vcos 0 0 0x22 0x20, .vredAdd 0 0 0x22 0x20 0, .vredAdd 0 0 0x22 0x20 6, .vredMax 0 0 0x22 0x20 5, .vredMin 0 0 0x22 0x20 7,
      .vscanAdd 0 0 0x22 0x20 0] : List Instr), Issues i base) := by
  and_intros <;> first | decide +kernel | exact issues_all (by decide +kernel)

/-- R194's VA0: -1 but for elements 5, 40, 70 and 100. -/
def routed : Vec := BitVec.ofNat 4096 (buildNat 32 (fun e =>
  if e = 5 then 0x40200000 else if e = 40 ∨ e = 70 then 0x40400000 else if e = 100 then 0x3F800000 else 0xBF800000) 128)
/-- The example of R194: the maxima of four groups, and the two best of the first four elements of VA1, which holds 8 behind them. -/
theorem test_routing :
    vvalue (.vgmax 0 0 0x22 0x20 5) 16 routed 0 = some 0x3F800000404000004040000040200000
    ∧ ((outOf (exec (.vtopk 0 0 0x22 0x20 1) ((ofes 0x41000000410000003F800000404000004040000040200000#4096 0).updRegs fun r => { r with mstack := [15] }))).fr.infl.getLast?.map
        fun r => [r.data.toNat % 2 ^ 96, r.data.toNat / 2 ^ 2048 % 2 ^ 96]) = some [0xFFFFFFFF0000000200000001, 0xFF8000004040000040400000] := by decide +kernel

theorem witness_VectorRoutingAndExtraction : vectorOk base 6 0x22 [{ j := 1, f := 0x20, isF32 := true }] = true
    ∧ vectorOk base 2 0x22 [{ j := 1, f := 0x20 }, { j := 2, f := 0x21 }] = true
    ∧ (∀ i ∈ ([.vgmax 0 0 0x22 0x20 5, .vtopk 0 0 0x22 0x20 7, .vbcast 0 0 0x3C 0x20 0x21, .vextr 0 0 9 0x20 0x21, .vextr 0 1 0 0x20 0x21] : List Instr), Issues i base) := by
  and_intros <;> first | decide +kernel | exact issues_all (by decide +kernel)

/-- R196, R199: byte 2 of 0x11_2280_3344 copied, and extracted as a number with its sign. -/
theorem test_extract : [vvalue (.vbcast 0 0 0x22 0x20 0x21) 3 0x1122803344 2, vvalue (.vextr 0 0 9 0x20 0x21) 8 0x1122803344 0x802]
    = [some 0x808080, some 0xFFFFFFFFFFFFFF80] := by decide +kernel

/-- Streams: entry 0 reads and has an element, 1 reads and has come to its end, 2 writes and has room, 3 writes and is at its end. -/
def streams : State := base.updFr fun f => { f with r := { f.r with streams := (((f.r.streams.set 0
    { mode := 1, gen := 1, depth := 4, left := 2, queue := [{ data := 7 }], base := 0x100000#64, counts := [3], strides := [512] }).set 1 { mode := 1, gen := 2, depth := 4 }).set 2
    { mode := 2, gen := 3, depth := 4, left := 3, base := 0x108000#64, counts := [3], strides := [512] }).set 3 { mode := 2, gen := 4, depth := 4 } } }
/-- Views: 0 of granules, 2 of e4m3 tiles from granule 0 and 3 of e4m3 tiles from granule 64, 4 of f32 accumulators from granule 128, 5 of q4. -/
def tiles : State := base.updFr fun f => { f with
  id := { f.id with foot := 1024 }
  r := { f.r with vw := (((f.r.vw.set 2 (wd ((32 <<< 13) + (1 <<< 25) + (8 <<< 28)))).set 3 (wd (64 + (32 <<< 13) + (1 <<< 25) + (8 <<< 28)))).set 4
    (wd (128 + (128 <<< 13) + (3 <<< 25)))).set 5 (wd (512 + (17 <<< 13) + (4 <<< 25) + (11 <<< 28))) } }
/-- Whether an element exists and is one granule. -/
def granule (s : State) (v : Fin 8) (i : Nat) : Option Bool :=
  match s.fr.elem v i with
  | .ok e => some (e.shape == 0 && !s.lentZeroing e)
  | .error _ => none

theorem witness_VectorOperandForms : granule tiles 0 3 = some true ∧ granule tiles 2 1 = some false ∧ granule tiles 4 20 = none
    ∧ (streams.fr.stream 4).mode = 0 ∧ (∀ q ∈ streams.fr.r.oPoison, q.1 ≠ 4)
    ∧ ((streams.fr.stream 1).mode = 1 ∧ (streams.fr.stream 1).queue = [] ∧ (streams.fr.stream 1).left = 0)
    ∧ ((streams.fr.stream 0).mode = 1 ∧ (streams.fr.stream 0).queue = [{ data := 7 }]
      ∧ ([(0, 7)] : Seen).find? (fun x => x.1 == (0 : Fin 16)) = some (0, 7))
    ∧ (tiles.poisoned (tiles.rsPa 0 0 3) 512 = false)
    ∧ 2 ≤ (streams.fr.stream 2).mode ∧ 0 < (streams.fr.stream 2).left ∧ (streams.fr.stream 2).queue.length < (streams.fr.stream 2).depth
    ∧ (streams.fr.stream 2).stopped = false ∧ (2 ≤ (streams.fr.stream 3).mode ∧ (streams.fr.stream 3).left = 0) ∧ streams.fr.r.bpPoison = none := by
  decide +kernel

/-! ## Matrix unit -/

/-- The physical span of an M operand. -/
def spanOpd (s : State) (o : Opd) (k : Nat) : Option Span :=
  match mElem s o (fun sh et => tileKind sh et == some k || (k == 9 && sh == 3 && et == 0)) with
  | .ok e => some (s.elemSpan e)
  | .error _ => none
/-- The matrix unit's waiting place taken. -/
def waitingM : State := tiles.updCore 0 fun x => { x with mwait := some {} }
/-- Spans that do not meet. -/
def apart (a b : Option Span) : Bool :=
  match a, b with
  | some x, some y => !x.meets y
  | _, _ => false

/-- The same views, but 5 of e4m3 tiles and 3 of f32 accumulators, so that a tile stands on either side of a transpose and a conversion. -/
def moves : State := tiles.updRegs fun r => { r with vw := (r.vw.set 5 (wd (512 + (32 <<< 13) + (1 <<< 25) + (8 <<< 28)))).set 3 (wd (640 + (128 <<< 13) + (3 <<< 25))) }
/-- Whether MSCALE's two factors can be read, and leave every stack open. -/
def scales (s : State) (a b : BitVec 6) : Bool :=
  match factorOf s.ctx s (tOpd s.ctx 1 a) ([], s.settled) with
  | .ok (pa, _, x) => (match factorOf s.ctx s (tOpd s.ctx 2 b) x with
    | .ok (pb, _, _, w) => w.closed == s.closed && (match mElem s (mOpd s.ctx 0 0) (fun sh et => sh == 3 && et == 0) with
      | .ok e => !(s.elemSpan e).meets pa && !(s.elemSpan e).meets pb
      | .error _ => false)
    | .error _ => false)
  | .error _ => false

theorem witness_MatrixOperationsIssue : apart (spanOpd tiles (mOpd tiles.ctx 0 0) 9) (spanOpd tiles (tOpd tiles.ctx 1 0) 0) = true
    ∧ apart (spanOpd tiles (mOpd tiles.ctx 0 0) 9) (spanOpd tiles (tOpd tiles.ctx 2 0x10) 0) = true ∧ mWaits tiles.ctx tiles = false
    ∧ mWaits waitingM.ctx waitingM = true ∧ scales tiles 0x20 0x21 = true
    ∧ isOk (mElem tiles (mOpd tiles.ctx 0 0x10) fun sh _ => sh == 3) = false
    ∧ apart (spanOpd moves (mOpd moves.ctx 0 0x10) 0) (spanOpd moves (tOpd moves.ctx 1 0x10) 9) = true
    ∧ apart (spanOpd moves (mOpd moves.ctx 0 0x10) 0) (spanOpd moves (tOpd moves.ctx 1 0) 0) = true ∧ mWaits moves.ctx moves = false
    ∧ ∀ s ∈ [tiles, waitingM, moves], ∀ i ∈ ([.mmaAcc 0 0 0 0 0x10, .mmaOvw 0 0 0 0 0x10, .mmaDec 0 0 0 0 0x10, .mmaAcc 0 0 0x10 0 0x10, .mzero 0 0,
      .mcvt 0 0x10 0x10 0 0, .mtrn 0 0x10 0, .mscale 0 0 0x20 0x21] : List Instr), Issues i s := by
  and_intros <;> first | decide +kernel | exact issues_each (by decide +kernel)

/-- R207: the operation takes the waiting place, its operands' spans resolved; 64 cycles for two e4m3 tiles. -/
theorem test_mma : ((outOf (exec (.mmaAcc 0 0 0 0 0x10) tiles)).here.mwait.map fun o => (o.dst.pa - o.a.pa, o.b.pa - o.a.pa, o.dst.len, o.occ))
    = some (128 * 512, 64 * 512, 65536, 64) := by decide +kernel

/-- A nest that runs, and a tile command outstanding whose rows all come from one address. -/
def nesting : State := base.updFr fun f => { f with mat := { f.mat with nest := { running := true, ended := true, first := 0, last := 1 } } }
def fetchingTile : State := { (tiles.updCore 0 fun x => { x with tiles := [{ id := 5, shape := 1, va := 0x100000#64, elem := { pa := tiles.rsPa 0 0 0, len := 16384 } }] })
  with arg := { id := 5 } }
/-- The ragged record of R215: FIRST 0, SPAN 4, LIVE 3. -/
def raggedV : Vec := 0x0003040000000001#4096
/-- The tiles with a descriptor of pitch 128 in S9. -/
def pitched : State := tiles.updRegs fun r => { r with s := r.s.set 9 128 }
theorem witness_MatrixStateAndTileCommands : isOk (readV base.ctx base (tOpd base.ctx 1 0x20) 4 true ([], base.settled)) = true
    ∧ (ragLive raggedV).isSome = true ∧ ragLive 0 = none ∧ nesting.fr.mat.nest.running = true ∧ mWaits nesting.ctx nesting = true
    ∧ (fetchingTile.here.tiles.any fun x => x.slot == fetchingTile.here.run) = true
    ∧ Readable pitched 1 ∧ Readable pitched 9 ∧ isOk (mElem pitched (tOpd pitched.ctx 1 0) fun sh _ => decide (1 ≤ sh) && decide (sh ≤ 4)) = true
    ∧ isOk (mElem pitched (mOpd pitched.ctx 0 0x10) fun sh _ => decide (1 ≤ sh) && decide (sh ≤ 4)) = true
    ∧ (bits (pitched.rdS 9) 37 3 ≠ 7 ∧ bits (pitched.rdS 9) 0 32 % 64 = 0 ∧ rowSize 4 ≤ bits (pitched.rdS 9) 0 32 ∧ bits (pitched.rdS 9) 32 5 = 0)
    ∧ ((pitched.rdS 1).toNat % 64 = 0 ∧ (tiles.rdS 9).toNat % 64 ≠ 0 ∧ ∀ r ∈ List.range 128, canonical (pitched.rdS 1 + wd (128 * r)) = true)
    ∧ ((fetchingTile.here.tiles.filter (·.store == false)).length < 4 ∧ mWaits pitched.ctx pitched = false)
    ∧ (∀ i ∈ ([.mdecay 0 0x20, .mrag 0 0x20, .mrag 0 0x3D, .mrel 0 3, .mnwaitN 0, .mnwaitT 0, .mnwaitNt 0, .mldt 0 1 0 9, .mldt 0 1 0 2, .mstt 0 0x10 1 9] : List Instr),
        Issues i pitched) ∧ (∀ i ∈ ([.mnwaitN 0, .mnwaitT 0, .mnwaitNt 0, .mldt 0 1 1 2, .mstt 0 0x10 1 2] : List Instr), Issues i fetchingTile)
    ∧ ∀ s ∈ [nesting, waitingM], ∀ i ∈ ([.mnwaitN 0, .mnwaitNt 0] : List Instr), Issues i s := by
  and_intros <;> first | decide +kernel | exact readable_of (by decide +kernel) | exact issues_all (by decide +kernel) | exact issues_each (by decide +kernel)

theorem test_ragged : (ragLive raggedV).map (·.toNat) = some 7 := by decide +kernel

end Sys2Proof.Tests
namespace Sys2Proof.Tests

open Sys2Proof Sys2Proof.Machine

/-- Whether an answer of an engine's translation is a piece list of one whole piece in HBM, and whether it is a fault. -/
def oneSeg (x : Except Trap (List (Seg × Walked))) (n : Nat) : Bool :=
  match x with
  | .ok [(g, _)] => g.off == 0 && g.len == n && physClass g.pa != .window
  | _ => false
def faults {α : Type} (x : Except Trap α) : Bool :=
  match x with
  | .ok _ => false
  | .error _ => true

/-- The bundle at 0x10_0000 is an MNEST of level 0, which is open and holds it alone. -/
def nestable : State :=
  let s := State.reset.withFetchWord 32 (((encode (.mnest 0 0)).map (·.toNat)).getD 0)
  s.updCtl fun c => { c with depth := 1, lv := c.lv.set 0 { isOpen := true, stages := 1, lcnt := 2, lstart := s.fr.ctl.pc, lstop := s.fr.ctl.pc } }
/-- The program that the nest would bind. -/
def nestProgram (s : State) : Option (List (Nat × NestBundle)) :=
  match nestFetch s s.settled [s.fr.ctl.pc] with
  | .ok (prog, w) => if w.closed = s.closed then prog.mapM fun x => (nestBundle x.2 0).map fun y => (x.1, y) else none
  | .error _ => none

theorem witness_NestsStartAndIssue :
    ((0#3).toNat < nestable.fr.ctl.depth ∧ nestable.fr.ctl.depth ≤ 6 ∧ nestable.fr.ctl.floor ≤ 0 ∧ (nestable.fr.ctl.lv.get 0).lidx = 0)
    ∧ mWaits nestable.ctx nestable = false ∧ (levelOf nestable.fr.ctl.lv 0).lstart = nestable.fr.ctl.pc
    ∧ (nestProgram nestable).map (fun l => (nestShapeOk nestable.fr.ctl.lv 0 1 nestable.fr.ctl.pc l, (nestRegs (l.flatMap fun x => x.2.names.1)).length)) = some (true, 0)
    ∧ Issues (.mnest 0 0) nestable ∧ Issues (.mnest 0 0) base ∧ base.fr.ctl.depth ≤ (0#3).toNat
    ∧ (nestable.updCore 0 fun x => { x with mwait := some {} }).here.mwait.isSome = true ∧ Issues (.mnest 0 0) (nestable.updCore 0 fun x => { x with mwait := some {} }) := by
  and_intros <;> first | decide +kernel | exact issues_of (by decide +kernel)

/-- R222-R224: MNEST starts the nest, its own bundle is skipped twice, and the nest ends. -/
theorem test_nest : let t := outOf (exec (.mnest 0 0) nestable)
    let u := outOf (exec .nestBundleIssue t)
    let v := outOf (exec .nestBundleIssue u)
    [(t.fr.mat.nest.running, t.fr.mat.nest.ended), (u.fr.mat.nest.running, u.fr.mat.nest.ended), (v.fr.mat.nest.running, v.fr.mat.nest.ended)]
      = [(true, false), (true, false), (true, true)] := by decide +kernel

/-- A nest whose program's one bundle is an MZERO of the accumulator that view 4 names. -/
def issuing : State :=
  let s := State.reset.withFetchWord 32 (((encode (.mzero 0 0)).map (·.toNat)).getD 0)
  let prog := match nestFetch s s.settled [s.fr.ctl.pc] with
    | .ok (l, _) => l
    | .error _ => []
  tiles.updFr fun f => { f with mat := { f.mat with nest := {
    running := true, last := 1, depth := 1, program := prog, pos := s.fr.ctl.pc, views := (List.range 6).map fun i => f.r.vw.toList.getD (i + 2) 0,
    lv := (Vector.replicate 6 {}).set 0 { isOpen := true, stages := 1, lcnt := 2, lstart := s.fr.ctl.pc, lstop := s.fr.ctl.pc } } } }
/-- Whether the nest's next bundle is one of operations that issues. -/
def nestIssues (s : State) : Bool :=
  let n := s.fr.mat.nest
  match n.program.find? (·.1 == n.pos.toNat) with
  | none => false
  | some (a, b) => match nestBundle b ((a - (levelOf n.lv n.first).lstart.toNat) / 16) with
    | some (.ops ops) =>
      let v := s.updFr fun f => f.nestView
      let live := ops.filter fun o => o.live v.fr
      let r := runSlots v live { w := v }
      !live.isEmpty && !operandsPending v live && (selfConflict v live).isNone && r.trap.isNone && r.holds.isEmpty
        && (s.here.refillTo (s.cyc s.cur)).covers (drawSum live (·.mx)) 0 0 (drawSum live (·.memp))
        && s.admits s.cur (bundleWeight s.fr.id.ewtab (headerWeight b) (hasHeader b) (ops.map (·.cls))) && r.w.cur == s.cur && r.w.here.run == s.here.run
    | _ => false

theorem witness_NestsStartAndIssue_events : (let t := outOf (exec (.mnest 0 0) nestable)
    t.fr.mat.nest.running = true ∧ t.fr.mat.nest.ended = false ∧ (t.fr.mat.nest.program.find? (·.1 == t.fr.mat.nest.pos.toNat)).isSome = true)
    ∧ nestIssues issuing = true ∧ issuing.fr.mat.nest.ended = false ∧ nesting.fr.mat.nest.running = true ∧ nesting.fr.mat.nest.ended = true := by
  decide +kernel

/-- R223: the nest's MZERO takes the waiting place. -/
theorem test_nest_issue : (outOf (exec .nestBundleIssue issuing)).here.mwait.map (fun o => (o.kind, o.dst.len)) = some (.mzero, 65536) := by decide +kernel

/-- Matrix operations in the unit, at cycle `p` of four: of 8-bit tiles, and of the other kinds, all over zeros. -/
def running (p : Nat) (k : MKind) : State := tiles.updCore 0 fun x => { x with
  mrun := some { kind := k, dst := { pa := tiles.rsPa 0 0 65536, len := 65536 }, a := { pa := tiles.rsPa 0 0 0, len := 16384 },
                 b := { pa := tiles.rsPa 0 0 32768, len := 16384 }, occ := 4, pos := p, ends := 9, readable := 3 } }
/-- A running operation, brought to this cycle, that is at its end and reads no poisoned byte. -/
def cleanRun (s : State) : Bool :=
  match ((s.runUnit 0).core 0).mrun with
  | some o => decide (o.occ ≤ o.pos) && o.readBytes.all fun p => !s.poisoned p.1 p.2
  | none => false
/-- The operation's own access of its cycle, as a read or a write of another party that takes its port, and one in another cycle. -/
def portsOf (o : MOp) (n : Nat) : List (Nat × Nat × Port) :=
  match n with
  | 0 => (o.nowReads.take 1).map fun g => (o.upTo, g % 16, .read)
  | 1 => (o.nowWrites.take 1).map fun g => (o.upTo, g % 16, .write)
  | _ => [(o.upTo + 1, 0, .read)]
theorem witness_MatrixUnitAtWork : (waitingM.here.mrun = none ∧ waitingM.here.mwait.isSome = true)
    ∧ (([.mzero, .mma 0 0, .mma 0 6, .mscale, .mcvt 0 false, .mtrn 1] : List MKind).all fun k => cleanRun (running 4 k)) = true
    ∧ (((running 2 (.mma 0 0)).runUnit 0).core 0).mrun.map (fun o => (o.pos, o.occ)) = some (2, 4)
    ∧ (((({ running 4 .mscale with poison := [(tiles.rsPa 0 0 65536, 1)] }).runUnit 0).core 0).mrun.bind fun o =>
        o.readBytes.find? fun (p : Nat × Nat) => ({ running 4 .mscale with poison := [(tiles.rsPa 0 0 65536, 1)] } : State).poisoned p.1 p.2).isSome = true
    ∧ (tiles.frameAt 0 0).ctl.halted = false
    ∧ ((running 2 (.mma 0 0)).here.mrun.map fun o => ((portsOf o 0).any (fun p => o.nowReads.any fun g => g % 16 == p.2.1),
        (portsOf o 1).any (fun p => o.nowWrites.any fun g => g % 16 == p.2.1), (portsOf o 2).all fun p => p.1 != o.upTo)) = some (true, true, true) := by
  decide +kernel

/-- R278: a taken port loses the cycle, and a free one does not; R29: a read takes the partner's port when its own is taken. -/
theorem test_lost_cycle : (running 2 (.mma 0 0)).here.mrun.map (fun o => (List.range 3).map fun n => (o.run [] (portsOf o n) 1).pos) = some [2, 2, 3]
    ∧ (running 2 (.mma 0 0)).here.mrun.map (fun o => (o.run (o.nowReads.map fun g => (g, (g + 1) % 16)) ((portsOf o 0).take 1) 1).pos) = some 3 := by
  decide +kernel

/-- R203: the waiting MZERO starts, and is over 8 x 4 cycles later in a core of MXDIV x4. -/
theorem test_matrix_start : let t := outOf (exec .matrixOpStart (waitingM.updCore 0 fun x => { x with mwait := some { kind := .mzero, occ := 8 } }))
    (t.here.mwait.isNone, t.here.mrun.map (·.ends)) = (true, some 31) := by decide +kernel

/-- Engines that have the core's translations. -/
def engine : State := fetchingTile.updCore 0 fun x => { x with utlb := Vector.replicate 3 x.l1tlb }
/-- The frame whose space the engine's command has. -/
def commandFrame : Frame := (engine.frameAt 0 0).under 0 0
/-- The command, as a store of the tile's rows in order. -/
def storing (s : State) : State × Option (Trap × Nat) :=
  storeRows 0 commandFrame { shape := 1, va := 0x100000#64, pitch := 128, elem := { pa := engine.rsPa 0 0 0, len := 16384 } } s 0 128
/-- A fetch whose rows have come, and one whose first row faulted: their granules take the banks. -/
def fetched (n : Nat) (e : Option (Trap × Nat)) : State := { engine.updCore 0 (fun x => { x with
  tiles := x.tiles.map fun t => { t with got := some (n, 0x1122, 0), fault := e, pos := (t.landGranules n).length - 16 } }) with arg := engine.arg }
/-- The same, with its element's first bank taken by older accesses. -/
def blocked (s : State) : State := ({ s with time := s.time + 16 }).updCore 0 fun x => { x with
  ports := (List.range 16).map fun b => (({ s with time := s.time + 16 } : State).cyc 0 - 1, b, .write) }
/-- Whether the fetch's rows all come whole and clean. -/
def rowsCome (s : State) (x : TileCmd) (f : Frame) : Bool :=
  (List.range 128).all fun r => match engineSegs s 0 f 2 .read (va57 (x.rowVa r)) (rowSize x.shape) with
    | .ok l => (s.segsPoison (dieOf 0) l).isNone && decide (s.engineRead 0 l < 2 ^ (8 * rowSize x.shape))
        && (x.shape != 4 || l.all fun y => (s.sidecarPoison 0 y.1).isNone && decide (s.sidecar 0 y.1.pa < 2 ^ 32))
    | .error _ => false
/-- The same fetch as of shape 4, and its lines. -/
def nibbles : State := engine.updCore 0 fun x => { x with tiles := x.tiles.map fun t => { t with shape := 4 } }
def fetchLines (s : State) (x : TileCmd) (f : Frame) : List Nat := (List.range 128).flatMap fun r =>
  match engineSegs s 0 f 2 .read (va57 (x.rowVa r)) (rowSize x.shape) with
  | .ok l => memLines 0 l
  | .error _ => []
/-- The state after reset with such lines under fetch by core 0. -/
def underFetch (l : List Nat) : State := State.reset.updCore 0 fun x => { x with tiles := [{ lines := l }] }
theorem pinned_underFetch (l : List Nat) : (underFetch l).pinnedLines 0 = l := by
  have : (underFetch l).pinnedLines 0 = (l ++ []) ++ [] := by rfl
  simpa using this
theorem dedup_of_nodup (l : List Nat) (h : l.Nodup) : dedup l = l := by
  suffices ∀ (l acc : List Nat), (acc ++ l).Nodup →
      l.foldl (fun acc x => if acc.contains x then acc else acc ++ [x]) acc = acc ++ l by simpa [dedup] using this l [] (by simpa)
  intro l
  induction l with
  | nil => simp
  | cons a l ih =>
    intro acc h
    have : a ∉ acc := by
      intro m; exact (List.nodup_append.1 h).2.2 a m a (by simp) rfl
    rw [List.foldl_cons, if_neg (by simpa using this), ih _ (by simpa using h)]
    simp
theorem slice_lt (a : Nat) : l2Slice a < 2 ^ 4 := by
  suffices ∀ (l : List Nat) (x : Nat), x < 2 ^ 4 → l.foldl (fun x i => x ^^^ field a (6 + 4 * i) 4) x < 2 ^ 4 from
    this _ _ (Nat.lt_of_lt_of_le (Nat.mod_lt _ (by decide)) (by decide))
  intro l
  induction l with
  | nil => exact fun x h => h
  | cons i l ih => exact fun x h => ih _ (Nat.xor_lt_two_pow h (Nat.mod_lt _ (by decide)))
/-- The sets of the L2 are free (Config.l2Set), so some set has thirteen lines: a fetch of one is held by the pins of the others (R322). -/
theorem witness_TileFetchAtWork_held : ∃ (l : List Nat) (a : Nat), (underFetch l).fetchHeldByPins 0 [a] = true := by
  obtain ⟨y, hy⟩ := Finite.exists_infinite_fiber fun i : Nat =>
    ((⟨l2Slice (64 * i), slice_lt _⟩, ⟨Config.l2Set (64 * i / 64) % 8192, Nat.mod_lt _ (by decide)⟩) : Fin 16 × Fin 8192)
  obtain ⟨t, hs, hc⟩ := Set.Infinite.exists_subset_card_eq (Set.infinite_coe_iff.1 hy) 13
  obtain ⟨a, ha⟩ := Finset.card_pos.1 (by omega : 0 < t.card)
  have place : ∀ i ∈ t, l2Place (64 * i) = (y.1.val, y.2.val) := fun i hi => by
    have := hs hi
    simp only [Set.mem_preimage, Set.mem_singleton_iff] at this
    rw [← this]; rfl
  have nd : ((t.erase a).toList.map (64 * ·)).Nodup := (Finset.nodup_toList _).map fun i j h => by simpa using h
  refine ⟨(t.erase a).toList.map (64 * ·), 64 * a, ?_⟩
  have all : ((t.erase a).toList.map (64 * ·)).filter (fun b => l2Place b == l2Place (64 * a)) = (t.erase a).toList.map (64 * ·) := by
    refine List.filter_eq_self.2 fun b hb => ?_
    obtain ⟨i, hi, rfl⟩ := List.mem_map.1 hb
    simp [place a ha, place i (Finset.mem_of_mem_erase (Finset.mem_toList.1 hi))]
  have len : ((t.erase a).toList.map (64 * ·)).length = 12 := by simp [Finset.card_erase_of_mem ha, hc]
  have : ∃ x, x ∈ t.erase a := Finset.card_pos.1 (by rw [Finset.card_erase_of_mem ha, hc]; decide)
  simp [State.fetchHeldByPins, show dieOf 0 = 0 from rfl, pinned_underFetch, dedup_of_nodup _ nd, pinsFull, all, len, l2PinWays,
    Finset.eq_empty_iff_forall_notMem]
  simpa using this
def tileAt (s : State) : TileCmd := ((s.core 0).tiles.head?).getD {}
def tileFr (s : State) : Frame := (s.frameAt 0 (tileAt s).slot).under (tileAt s).root (tileAt s).asid
theorem witness_TileFetchAtWork : (∀ s ∈ [engine, nibbles], (s.core 0).tiles.find? (·.id == s.arg.id) = some (tileAt s)
      ∧ 1 ≤ (tileAt s).shape ∧ (tileAt s).shape ≤ 4 ∧ (tileAt s).got = none ∧ (tileAt s).tag = none
      ∧ rowsCome s (tileAt s) (tileFr s) = true ∧ s.fetchHeldByPins 0 (fetchLines s (tileAt s) (tileFr s)) = false)
    ∧ faults (engineSegs fetchingTile 0 (fetchingTile.frameAt 0 0) 2 .read 0x100000 128) = true ∧ (tileAt fetchingTile).got = none
    ∧ (∀ s ∈ [fetched 128 none, fetched 0 (some ({}, 0))], (s.core 0).tiles.find? (·.id == s.arg.id) = some (tileAt s)
      ∧ ((tileAt s).got.map fun g => (s.tileTurn 0 (tileAt s) ((tileAt s).landGranules g.1) .tileFetchLand).2) = some true)
    ∧ ((blocked (fetched 128 none)).tileTurn 0 (tileAt (fetched 128 none)) ((tileAt (fetched 128 none)).landGranules 128) .tileFetchLand).2 = false
    ∧ (engine.tileTurn 0 (tileAt engine) (tileAt engine).elem.granules .tileStorePerformed).2 = false := by
  and_intros <;> decide +kernel
/-- A store whose element's granules have all but had their banks. -/
def storer : State := { engine.updCore 0 (fun x => { x with tiles := x.tiles.map fun t =>
  { t with shape := 1, va := 0x100000#64, pitch := 128, store := true, pos := t.elem.granules.length } }) with arg := engine.arg }
def stored (s : State) : State × Option (Trap × Nat) := let t := (s.tileTurn 0 (tileAt s) (tileAt s).elem.granules .tileStorePerformed).1
  storeRows 0 ((t.frameAt 0 (tileAt s).slot).under (tileAt s).root (tileAt s).asid) (tileAt s) t 0 128
theorem witness_TileFetchAtWork_store : (storer.tileTurn 0 (tileAt storer) (tileAt storer).elem.granules .tileStorePerformed).2 = true
    ∧ (stored storer).2.isNone = true
    ∧ (stored (storer.updCore 0 fun x => { x with tiles := x.tiles.map fun t => { t with va := 0x300000#64 } })).2.isSome = true
    ∧ (storing engine).2.isNone = true ∧ engine.poisoned (engine.rsPa 0 0 0) 128 = false
    ∧ oneSeg (engineSegs engine 0 commandFrame 2 .write 0x100000 128) 128 = true ∧ engine.yieldsAt { by_ := {} } 0x100000 128 = 0
    ∧ (engine.frameAt 0 0).ctl.halted = false := by
  and_intros <;> decide +kernel

/-- R217: the row's bytes have come, then they stand in the element; the first word of row 0 is the nop at 0x10_0000. -/
theorem test_tile_fetch : (let t := outOf (exec .tileFetchLand engine)
    let u := outOf (exec .tileFetchLand { t.updCore 0 (fun x => { x with tiles := x.tiles.map fun y => { y with pos := (y.landGranules 128).length } }) with
      arg := engine.arg })
    (t.here.tiles.map fun y => y.got.map fun g => (g.1, g.2.1 % 2 ^ 32), Memory.read u.mem (engine.rsPa 0 0 0) 4, u.here.tiles.length))
    = ([some (128, 0xE0000000)], 0xE0000000, 0) := by decide +kernel

/-- A descriptor of 64 bytes in register 2, one of a reserved bit in register 5, and a full copy unit. -/
def copying : State := (with23 64 0).updCore 0 fun x => { x with utlb := Vector.replicate 3 x.l1tlb }
def fullUnit : State := copying.updCore 0 fun x => { x with cu := Vector.replicate 2 (List.replicate 16 {}) }
/-- Task 9 in the table, its event queue full and no ring of its own behind it; S9 a descriptor of no byte that asks for a record. -/
def noRoom (s : State) : State := { s.updFr (fun f => { f with msg := { f.msg with evq := List.replicate 256 0 } }) with
  tasks := [{ tid := 9, place := some (0, 0), st := .resident }] }
def noBytes : State := (noRoom copying).updRegs fun r => { r with s := r.s.set 9 (1 <<< 37) }
theorem witness_CopyCommands : Readable copying 2 ∧ Readable copying 1 ∧ Readable copying (2 + 1) ∧ copying.fr.id.valid = true
    ∧ (bits (copying.rdS 2) 56 8 = 0 ∧ bits (copying.rdS 2) 38 2 = 0) ∧ bits (copying.rdS 5) 56 8 ≠ 0 ∧ bits (copying.rdS 6) 56 8 ≠ 0
    ∧ isOk (copySide copying (copying.rdS 1) 0 1 64) = true ∧ isOk (copySide copying (copying.rdS 4) 0 1 64) = true
    ∧ isOk (copySide copying (copying.rdS 1) 0 0 64) = true ∧ (copying.here.cu.get copying.ctx.unit).length < 16 ∧ 16 ≤ (fullUnit.here.cu.get fullUnit.ctx.unit).length
    ∧ (bits (copying.rdS 7) 48 16 = 0 ∧ bits (copying.rdS 7) 21 11 = 0 ∧ bits (copying.rdS 7) 0 21 + 64 ≤ 0x200000)
    ∧ (bits (noBytes.rdS 9) 0 32 = 0 ∧ (BitVec.ofNat 24 (bits (noBytes.rdS 9) 32 24)).getLsbD 5 = true
      ∧ noBytes.signalWaits 9 (BitVec.ofNat 24 (bits (noBytes.rdS 9) 32 24)) = true ∧ (noBytes.here.cu.get noBytes.ctx.unit).length < 16)
    ∧ Issues (.cpy 0 4 1 9) noBytes ∧ Issues (.cpy 0 4 1 0) copying
    ∧ (∀ i ∈ ([.cpy 0 4 1 2, .cpyw 0 4 1 2, .cpym 0 7 1 2, .cpym 0 5 1 2, .cpy 0 4 1 5, .cpyw 0 4 1 6] : List Instr), Issues i copying) ∧ Issues (.cpy 0 4 1 2) fullUnit := by
  and_intros <;> first | decide +kernel | exact readable_of (by decide +kernel) | exact issues_all (by decide +kernel) | exact issues_of (by decide +kernel)

/-- A plain copy of 64 bytes from the code page to itself, half a page further; a multicast of 64 bytes to core 1; and a command that has failed. -/
def pieces (q : CopyCmd) : State := { copying.updCore 0 (fun x => { x with cu := x.cu.set 0 [q] }) with
  arg := { id := 5, w0 := 1, w1 := 64, v := 0x1122 } }
def plainQ : CopyCmd := { id := 5, task := 9, src := 0x100000#64, dst := 0x108000#64, len := 64 }
def multiQ : CopyCmd := { id := 5, task := 9, src := 0x100000#64, len := 64, multi := true, targets := [(1, 0, false)] }
/-- The unit has served its command in this cycle. -/
def served (s : State) : State := s.updCore 0 fun x => { x with cuTurn := x.cuTurn.set 0 (1, 0) }
/-- A task on core 1 whose first tile belongs to the engines. -/
def openTarget (s : State) : State := s.updCore 1 fun x => { x with
  frames := Vector.replicate 4 ({ id := { valid := true }, sys := (({} : SysRegs).touch [0]).setOwn [0] true } : Frame) }
/-- The task's event queue empty. -/
def emptied (s : State) : State := s.updFr fun f => { f with msg := { f.msg with evq := [] } }
theorem witness_CopyUnitAtWork : (pieces plainQ).cmdOf 0 0 5 = some plainQ ∧ (pieces multiQ).cmdOf 0 0 5 = some multiQ
    ∧ oneSeg (engineSegs (pieces plainQ) 0 ((pieces plainQ).taskFrame 0 0 9) 0 .read 0x100000 64) 64 = true
    ∧ oneSeg (engineSegs (pieces plainQ) 0 ((pieces plainQ).taskFrame 0 0 9) 0 .write 0x108000 64) 64 = true
    ∧ faults (engineSegs (pieces plainQ) 0 ((pieces plainQ).taskFrame 0 0 9) 0 .read 0x300000 64) = true
    ∧ (pieces plainQ).windowHolds 0 9 ((pieces plainQ).reach 0 (((pieces plainQ).taskFrame 0 0 9).under 0 0) plainQ) = false ∧ (pieces plainQ).holds 0 0 9 = true
    ∧ (pieces plainQ).unitTurn 0 0 0 = none ∧ (served (pieces plainQ)).unitTurn 0 0 0 = some 0 ∧ (served (pieces plainQ)).cmdOf 0 0 5 = some plainQ
    ∧ (pieces plainQ).yieldsAt ((pieces plainQ).unitStamp plainQ.by_) 0x108000 64 = 0 ∧ (∀ d, ((pieces plainQ).dies.get d).l2 = [])
    ∧ (pieces multiQ).unitTurn 0 0 0 = none ∧ multiQ.target 1 = some (1, 0, false) ∧ ((pieces multiQ).core 1).lentTo = none
    ∧ ((openTarget (pieces multiQ)).cmdOf 0 0 5 = some multiQ ∧ ((openTarget (pieces multiQ)).core 1).lentTo = none
      ∧ (tilesOf 0 64).all ((openTarget (pieces multiQ)).core 1).tileOpen = true) ∧ (((pieces multiQ).updCore 1 fun x => { x with lentTo := some 7 }).core 1).lentTo.isSome = true
    ∧ ((pieces plainQ).frameAt 0 0).ctl.halted = false := by
  and_intros <;> decide +kernel

/-- Commands that have ended: without a record, with one that has room or must wait, and with a fault. -/
def recordQ : CopyCmd := { plainQ with sig := 32 }
def failedQ : CopyCmd := { plainQ with failed := some { cause := Cause.address } }
theorem witness_CopyUnitAtWork_ends : plainQ.ended = none ∧ plainQ.targets.any (fun t => !t.2.2 && t.2.1 != plainQ.len) = false ∧ plainQ.failed = none
    ∧ (pieces plainQ).signalWaits 9 plainQ.sig = false ∧ (noRoom (pieces recordQ)).cmdOf 0 0 5 = some recordQ ∧ (noRoom (pieces recordQ)).signalWaits 9 recordQ.sig = true
    ∧ (emptied (noRoom (pieces recordQ))).cmdOf 0 0 5 = some recordQ ∧ (emptied (noRoom (pieces recordQ))).signalWaits 9 recordQ.sig = false
    ∧ ((emptied (noRoom (pieces recordQ))).msgOf 9).evq.length < 256 ∧ ((emptied (noRoom (pieces recordQ))).msgOf 9).spill = []
    ∧ ((emptied (noRoom (pieces recordQ))).task 9).isSome = true
    ∧ ((emptied (noRoom (pieces recordQ))).sysOf 9).asid = ((emptied (noRoom (pieces recordQ))).taskFrame 0 0 9).sys.asid
    ∧ (pieces failedQ).cmdOf 0 0 5 = some failedQ ∧ (pieces failedQ).holds 0 0 9 = true ∧ ((pieces failedQ).frameAt 0 0).ctl.halted = false
    ∧ (∀ x ∈ ((pieces failedQ).core 0).cu.get 0, x.id = failedQ.id → x = failedQ) := by
  and_intros <;> decide +kernel

/-- R240: the piece of a copy. -/
theorem test_copy : (let t := outOf (exec .copyPiecePerformed (pieces plainQ))
    (Memory.read t.mem 0x108000 4, (t.cmdOf 0 0 5).map (·.done))) = (0xE0000000, some 64) := by decide +kernel

/-- Stream events: a fill of stream 0 under way, and an element of stream 2 to drain; the same without the engines' translations. -/
def filling (u : Nat) (w : Word) (tlb : Bool) : State := { (streams.updCore 0 fun x => { x with utlb := if tlb then Vector.replicate 3 x.l1tlb else x.utlb }).updFr (fun f =>
    { f with r := { f.r with streams := (f.r.streams.set 0 { (f.r.streams.get 0) with fills := 1 }).set 2 { (f.r.streams.get 2) with queue := [{ data := 0x77 }] } } }) with
  arg := { tid := 9, u := u, id := u + 1, w0 := w } }
/-- Four held issue cycles, as SBIND asks for, with a descriptor of one element per count at 0x10_0040, and one bank for streams. -/
def binding : State := (({ base with mem := Memory.write base.mem 0x100040 64 (0x100000 + (1 <<< 64) + (1 <<< 96) + (1 <<< 128) + (1 <<< 160)) }).updCtl fun c => { c with heldFor := 4 }).updFr
  fun f => { f with sys := { f.sys with bankrole := 1 } }
/-- The same with an atomic outstanding, which its release waits for. -/
def releasing : State := binding.updFr fun f => { f with atoms := [{ id := 5, pa := 0x100040 }] }
/-- The descriptor that a state's memory holds at an address, and whether it is well-formed. -/
def descAt (s : State) (va : Nat) : Option Bool :=
  match readAt s s.settled va 64 with
  | .ok (v, w) => some ((patternOfDesc v).isSome && !(w.releaseThen s.ctx 2).closed && w.cur == s.cur && w.here.run == s.here.run)
  | .error _ => none
theorem witness_StreamsBindAndUnbind : Readable binding 1 ∧ (binding.rdS 1).toNat % 64 = 0 ∧ (binding.fr.stream 3).mode = 0 ∧ 3 / 8 < binding.fr.sys.streamBanks.length
    ∧ canonical (binding.rdS 1) = true ∧ (4 ≤ binding.fr.ctl.heldFor ∧ binding.releaseWaits = false) ∧ descAt binding 0x100040 = some true
    ∧ (base.fr.ctl.heldFor < 4) ∧ (releasing.releaseWaits = true ∧ 4 ≤ releasing.fr.ctl.heldFor) ∧ descAt binding 0x100080 = some false
    ∧ (base.rdS 2).toNat % 64 ≠ 0 ∧ (streams.fr.stream 0).mode = 1 ∧ (((streams.fr.stream 0).queue.any fun y => y.tag != 0) = false)
    ∧ (base.fr.stream 0).mode ≠ 2 ∧ ((streams.fr.stream 2).mode = 2 ∧ (streams.fr.stream 2).queue = []) ∧ ((filling 2 0 true).fr.stream 2).queue ≠ []
    ∧ (∀ i ∈ ([.sbind 0 0x23 1 1 4, .sbind 0 0x23 2 1 4] : List Instr), Issues i binding) ∧ (∀ i ∈ ([.sunb 0 0x20, .sdrn 0 0x22, .sdrn 0 0x20] : List Instr), Issues i streams)
    ∧ Issues (.sdrn 0 0x22) (filling 2 0 true) := by
  and_intros <;> first | decide +kernel | exact readable_of (by decide +kernel) | exact issues_all (by decide +kernel) | exact issues_of (by decide +kernel)

theorem witness_StreamsBindAndUnbind_events : (filling 0 0 true).holds 0 0 9 = true ∧ ((filling 0 0 true).fr.stream 0).gen = 1 ∧ ((filling 0 0 true).fr.stream 0).stopped = false
    ∧ ((filling 0 0 true).fr.stream 0).fills ≠ 0 ∧ (filling 0 0 true).ordering 0 = false ∧ (filling 0 0 true).unitTurn 0 0 1 = none
    ∧ (filling 2 0 true).unitTurn 0 0 3 = none ∧ (filling 2 0 true).yieldsAt ((filling 2 0 true).stamp (unitWriter 0 0)) 0x108000 512 = 0
    ∧ ((filling 2 0 false).frameAt 0 0).ctl.halted = false ∧ oneSeg (engineSegs (filling 0 0 true) 0 (filling 0 0 true).fr 0 .read 0x100000 512) 512 = true
    ∧ faults (engineSegs (filling 0 0 false) 0 (filling 0 0 false).fr 0 .read 0x100000 512) = true
    ∧ oneSeg (engineSegs (filling 2 0 true) 0 (filling 2 0 true).fr 0 .write 0x108000 512) 512 = true ∧ ((filling 2 0 true).fr.stream 2).queue = [{ data := 0x77 }]
    ∧ faults (engineSegs (filling 2 0 false) 0 (filling 2 0 false).fr 0 .write 0x108000 512) = true := by
  decide +kernel

/-- R246: an element is drained to memory. -/
theorem test_drain : Memory.read (outOf (exec .streamDrainWrite (filling 2 0 true))).mem 0x108000 2 = 0x77 := by decide +kernel

end Sys2Proof.Tests
namespace Sys2Proof.Tests

open Sys2Proof Sys2Proof.Machine

/-- A window store of core 0 to the local store of core 2 under way, which is lit and whose slot 0 covers it, or dark. -/
def windowStore (lit : Bool) : State := { base.updCore 2 (fun x => { x with
    cond := if lit then .idle else .dark, frames := Vector.replicate 4 ({ id := { foot := 64, valid := true } } : Frame) }) with
  wins := [{ id := 5, c := 0, k := 0, pa := winBase 2, n := 4, write := true, v := 0x11223344, ben := 0xF }], arg := { id := 5 } }
theorem witness_OwnerBitsAndWindowAccesses : Readable sys 2 ∧ Readable sys 3 ∧ (sys.rdS 2).toNat + (sys.rdS 3).toNat ≤ 512
    ∧ ¬ ((sys.rdS 5).toNat + (sys.rdS 3).toNat ≤ 512) ∧ sys.classedTouch sys.cur [6, 7] = false ∧ sys.enginesTouch sys.cur [6, 7] = false
    ∧ (∀ i ∈ ([.owntCore 0 2 3, .owntEng 0 2 3, .owntF 0 2 3, .ownw 0 2 3, .owntEng 0 5 3, .ownw 0 2 0] : List Instr), Issues i sys) := by
  and_intros <;> first | decide +kernel | exact readable_of (by decide +kernel) | exact issues_all (by decide +kernel)

/-- An atomic and a copy that hold the tile which the owner operations name (R119, R232, R242). -/
def tileAtomic : State := sys.updFr fun f => { f with atoms := [{ pa := lsBase 0 + 6 * 4096 }] }
def tileCopy : State := sys.updCore 0 fun x => { x with cu := x.cu.set 0 [{ id := 5, task := 9, tiles := [6] }] }
theorem witness_OwnerBitsAndWindowAccesses_held : tileAtomic.classedTouch 0 [6, 7] = true ∧ tileCopy.enginesTouch 0 [6, 7] = true
    ∧ Issues (.owntEng 0 2 3) tileAtomic ∧ ∀ i ∈ ([.owntCore 0 2 3, .ownw 0 2 3] : List Instr), Issues i tileCopy := by
  and_intros <;> first | decide +kernel | exact issues_of (by decide +kernel) | exact issues_all (by decide +kernel)

/-- The same store whose bank another engine has in its cycle. -/
def bankBusy : State := { (windowStore true).updCore 2 (fun x => { x with ports := (List.range 16).map fun b => (3, b, .write) }) with time := 4 }
theorem witness_OwnerBitsAndWindowAccesses_window : placeOf 0 (winBase 2) = .window 2 0
    ∧ (∀ w, (windowStore true).wins.head? = some w → (windowStore true).wins.find? (·.id == (windowStore true).arg.id) = some w ∧ (windowStore true).wins = [w]
      ∧ w.order = none ∧ w.write = true ∧ placeOf w.c w.pa = .window 2 0 ∧ ((windowStore true).core w.c).atomics = []
      ∧ ((windowStore true).accessBank w 0).isSome = true ∧ (bankBusy.accessBank w 0).isNone = true)
    ∧ (windowStore true).wins.isEmpty = false ∧ (windowStore true).invals = [] ∧ (windowStore true).windowRefuses 2 0 4 true (some 0) = none
    ∧ ((windowStore false).windowRefuses 2 0 4 true (some 0)).isSome = true ∧ ((windowStore false).frameAt 0 0).ctl.halted = false := by
  and_intros
  rotate_left
  · intro w h
    obtain rfl := Option.some.inj h
    decide +kernel
  all_goals decide +kernel

/-- R319: the store lands in the window. -/
theorem test_window : Memory.read (outOf (exec .windowAccessArrive (windowStore true))).mem (winBase 2) 4 = 0x11223344 := by decide +kernel

/-- Task 9 in group 6, alone; its barrier object 3 armed for it, with an arrival; a record in its event queue. -/
def messages (armed : Bool) : State := { base.updFr (fun f => { f with msg := { f.msg with
    bars := f.msg.bars.set 3 { armed := armed, group := 6, target := 1, arrived := 1 }, evq := [0x22222222222222221111111111111111#128] } }) with
  groups := [{ gid := 6, members := [(9, 0)] }], arg := { tid := 9, u := 3, w0 := 9 } }
theorem witness_EventsAndBarriers : (messages true).fr.msg.spill = [] ∧ Readable (messages true) 2 ∧ Readable (messages true) 3
    ∧ bits ((messages true).rdS 5) 48 16 ≠ 0 ∧ bits ((messages true).rdS 3) 48 16 = 0 ∧ (messages true).releaseWaits = false ∧ (messages true).task 7 = none
    ∧ ((messages true).settled.release 0 3).closed = false ∧ ((messages true).group 6).map (·.has 9) = some true ∧ bits ((messages true).rdS 2) 16 48 = 0
    ∧ ((messages true).group 7).isNone = true ∧ ((messages true).fr.msg.bars.get 3).armed = true ∧ ((messages false).fr.msg.bars.get 3).armed = false
    ∧ (((messages true).fr.msg.bars.get 3).target ≤ ((messages true).fr.msg.bars.get 3).arrived ∧ ((messages true).fr.msg.bars.get 3).pend = 0)
    ∧ ((messages true).fr.msg.bars.get 3).group = 6 ∧ (messages true).acquireWaits = false
    ∧ ((messages true).settled.release 0 ((messages true).groupScope ((messages true).barGroup ((messages true).fr.msg.bars.get 3)))).closed = false
    ∧ ∀ s ∈ [messages true, messages false], ∀ i ∈ ([.evpop 0 10, .evpost 0 3 2, .evpost 0 5 2, .barx 0 2 0 3, .barx 0 3 0 3, .bara 0 3, .barw 0 3] : List Instr),
        Issues i s := by
  and_intros <;> first | decide +kernel | exact readable_of (by decide +kernel) | exact issues_each (by decide +kernel)

/-- The same while an atomic is outstanding, and before the arrival; task 7 in the table with no room for a record. -/
def busyMessages : State := (messages true).updFr fun f => { f with atoms := [{ id := 5, pa := 0x100040 }] }
def noArrival : State := (messages true).updFr fun f => { f with msg := { f.msg with bars := f.msg.bars.set 3 { armed := true, group := 6, target := 1 } } }
def fullTarget : State := { (messages true).updFr (fun f => { f with msg := { f.msg with evq := List.replicate 256 0 } }) with
  tasks := [{ tid := 7, place := some (0, 0), st := .resident }] }
theorem witness_EventsAndBarriers_holds : busyMessages.releaseWaits = true ∧ busyMessages.acquireWaits = true ∧ (busyMessages.fr.msg.bars.get 3).armed = true
    ∧ (noArrival.fr.msg.bars.get 3).arrived < (noArrival.fr.msg.bars.get 3).target ∧ (fullTarget.task 7).isSome = true
    ∧ (fullTarget.sysOf 7).asid = fullTarget.fr.sys.asid ∧ fullTarget.recordWaits 7 = true ∧ fullTarget.releaseWaits = false
    ∧ ∀ s ∈ [busyMessages, noArrival, fullTarget], ∀ i ∈ ([.evpost 0 3 2, .bara 0 3, .barw 0 3] : List Instr), Issues i s := by
  and_intros <;> first | decide +kernel | exact issues_each (by decide +kernel)

/-- A task of the table that stands in a slot, and events to it; no such task. -/
def posted : State := { messages true with tasks := [{ tid := 9, place := some (0, 0), st := .resident }] }
theorem witness_EventsAndBarriers_events : (posted.task 9).isSome = true ∧ (posted.task 9).bind (·.place) = some (0, 0) ∧ (posted.frameAt 0 0).sys.asid = posted.arg.h
    ∧ (posted.frameAt 0 0).msg.evq.length < 256 ∧ (posted.frameAt 0 0).msg.spill = [] ∧ (messages true).task 9 = none ∧ posted.holds 0 0 9 = true := by
  decide +kernel

/-- R249, R263: BARW completes and disarms; an arrival is counted; EVPOP takes both words. -/
theorem test_messages : [((outOf (exec (.barw 0 3) (messages true))).fr.msg.bars.get 3).arrived, ((outOf (exec .barrierArrival posted)).fr.msg.bars.get 3).arrived,
    (outOf (exec (.evpop 0 10) (messages true))).fr.msg.evq.length, (outOf (exec (.evpop 0 10) (messages true))).fr.loads.length] = [0, 2, 0, 2] := by decide +kernel

/-- As many switch cycles served as the table takes to answer a JOIN; groups of another space, of another task, and of none; a second ready slot. -/
def joining : State := { base.updFr (fun f => { f with ctl := { f.ctl with swHeld := 40 + Config.extraLatency base.freeCtr, bankHold := 1000 }, id := { f.id with steps := 10, stepn := 3 } }) with
  groups := [{ gid := 2, asid := 1 }, { gid := 3, members := [(4, 0)] }, { gid := 10, members := [(9, 0)] }] }
/-- A ready task in slot 1. -/
def twoTasks : State := joining.updFrameAt 0 1 fun f => { f with id := { f.id with valid := true } }
/-- A group of 1024 tasks, S9 a group that the host has made, no cycle served; and as many cycles as the table takes to acknowledge. -/
def fullGroup : State := { (joining.updRegs fun r => { r with s := r.s.set 9 0x8000 }).updCtl (fun c => { c with swHeld := 0 }) with
  groups := joining.groups ++ [{ gid := 11, members := (List.range 1024).map fun i => (BitVec.ofNat 32 (i + 16), i) }] }
def leaving : State := joining.updCtl fun c => { c with swHeld := Config.extraLatency joining.freeCtr }
theorem witness_GroupsYieldsAndChecks : Readable joining 11 ∧ Readable joining 8 ∧ bits (joining.rdS 5) 16 48 ≠ 0 ∧ bits (joining.rdS 11) 16 48 = 0
    ∧ 40 + joining.extra ≤ joining.fr.ctl.swHeld ∧ joining.group 11 = none
    ∧ (joining.group 10).map (fun g => (g.asid == joining.fr.sys.asid, g.has 9)) = some (true, true)
    ∧ (joining.group 3).map (fun g => (g.asid == joining.fr.sys.asid, g.has 9)) = some (true, false)
    ∧ (joining.group 2).map (fun g => g.asid == joining.fr.sys.asid) = some false
    ∧ (fullGroup.group 11).map (fun g => (g.has 9, g.members.length)) = some (false, 1024) ∧ fullGroup.fr.ctl.swHeld < 40 + fullGroup.extra
    ∧ (fullGroup.group 0x8000).isNone = true ∧ ((fullGroup.rdS 9).setWidth 16 : BitVec 16) = 0x8000
    ∧ (∀ i : Fin 16, ¬ ((joining.fr.msg.bars.get i).armed = true ∧ (joining.fr.msg.bars.get i).group = 10))
    ∧ leaving.extra ≤ leaving.fr.ctl.swHeld ∧ (leaving.group 10).map (·.has 9) = some true ∧ leaving.rdS 10 = 10
    ∧ (∀ s ∈ [fullGroup, leaving], ∀ i ∈ ([.join 0 0 8 10, .join 0 0 8 11, .join 0 0 8 9, .leave 0 10] : List Instr), Issues i s)
    ∧ (joining.fr.id.stepn.toNat ≤ ((joining.rdS 8).setWidth 32 : BitVec 32).toNat ∧ ((joining.rdS 8).setWidth 32 : BitVec 32).toNat ≤ joining.fr.id.steps.toNat)
    ∧ joining.fr.id.steps.toNat < ((joining.rdS 11).setWidth 32 : BitVec 32).toNat
    ∧ (bits 0x80030004#64 13 3 = 0 ∧ bits 0x80030004#64 20 11 = 0 ∧ bits 0x80030004#64 16 4 ≠ bits 0x80030004#64 0 13 % 16) ∧ joining.bankTaken 4 3 = false
    ∧ ((0#64).toNat % 512 = 0 ∧ 512 ≤ joining.fr.id.foot * 512 ∧ joining.poisoned (joining.rsPa 0 0 0) 512 = false) ∧ (joining.rdS 2).toNat % 512 ≠ 0
    ∧ joining.fr.id.foot * 512 < 0 + 65536 ∧ joining.here.nextReady = none ∧ (twoTasks.here.nextReady = some 1 ∧ Issues (.yield 0) twoTasks)
    ∧ (joining.rdS 2 = joining.rdS 2 ∧ joining.rdS 2 ≠ joining.rdS 3)
    ∧ (∀ i ∈ ([.join 0 0 8 11, .join 0 0 8 10, .join 0 0 8 3, .join 0 0 8 2, .join 0 0 8 5, .leave 0 10, .leave 0 5, .yield 0, .yieldEv 0, .step 0 8, .step 0 11,
        .mirror 0 1 0, .mirror 0 1 5, .dchk 0 2 2, .dchk 0 2 3, .dchkV 0 0 0, .dchkV 0 2 0, .dchkA 0 0 0] : List Instr), Issues i joining) := by
  and_intros <;> first | decide +kernel | exact readable_of (by decide +kernel) | exact issues_all (by decide +kernel) | exact issues_each (by decide +kernel) | exact issues_of (by decide +kernel) | exact Nat.le_refl _ | exact Nat.lt_of_lt_of_le (by decide : 0 < 40) (Nat.le_add_right 40 _)

/-- R262: a new group of one; R268: DCHK of unequal registers ends the task, whose cause may not enter its handler (R404). -/
theorem test_groups : joinResult { gid := 11, members := [(9, 0)] } 9 = 1
    ∧ trapOfOut (exec (.dchk 0 2 3) base) = none ∧ (outOf (exec (.dchk 0 2 3) base)).fr.ctl.ended = true := by decide +kernel

/-- An atomic in a tile that the engines gain by the new BANKROLE. -/
def touching : State := sys.updFr fun f => { f with atoms := [{ pa := lsBase 0 + 4096 * (sys.fr.sys.gainedTiles (sys.rdS 2)).headD 0 }] }
theorem witness_ControlRegisters : Readable sys 2 ∧ (∀ b, b < 64 → ¬ (0 ≤ b ∧ b < 0 + 16) → (sys.rdS 2).getLsbD b = false) ∧ (sys.rdS 2).getLsbD 1 = true
    ∧ bits (sys.rdS 3) (2 * 0) 2 = 3 ∧ (∀ b, b < 32 → bits (sys.rdS 2) (2 * b) 2 ≠ 3)
    ∧ (∃ q ∈ streams.fr.r.streams.toList, q.mode ≠ 0 ∧ bits (sys.rdS 2) (2 * q.bank) 2 ≠ 1) ∧ (¬ ∃ q ∈ sys.fr.r.streams.toList, q.mode ≠ 0 ∧ bits (sys.rdS 2) (2 * q.bank) 2 ≠ 1)
    ∧ sys.enginesTouch 0 (sys.fr.sys.lostTiles (sys.rdS 2)) = false ∧ sys.classedTouch 0 (sys.fr.sys.gainedTiles (sys.rdS 2)) = false
    ∧ (touching.classedTouch 0 (touching.fr.sys.gainedTiles (touching.rdS 2)) = true ∧ Issues (.csrw 0 4 2 0) touching)
    ∧ (base.fr.id.mode = false ∧ okCsrw 32 2 1 = true ∧ okCsrr 0 8 0x801 = true)
    ∧ (∀ i ∈ ([.csrr 0 0 8 3, .csrr 0 0 8 0x801, .csrw 0 16 2 0, .csrw 0 16 2 2, .csrw 0 16 2 6, .csrw 0 32 2 0, .csrw 0 32 2 1, .csrw 0 32 2 2, .csrw 0 32 2 3,
        .csrw 0 32 2 4, .csrw 0 4 2 0, .csrw 0 4 3 0, .csrw 0 0 2 3] : List Instr), Issues i sys) := by
  and_intros <;> first | decide +kernel | exact readable_of (by decide +kernel) | exact issues_all (by decide +kernel) | exact issues_of (by decide +kernel)

/-- R33, R34: CSRR of CODELIM, and ASID written in privileged mode; in user mode it is a privilege trap. -/
theorem test_control_registers : (lastResult (exec (.csrr 0 0 8 6) base)).map (·.2.1) = some 0x110000 ∧ (outOf (exec (.csrw 0 32 2 1) sys)).fr.sys.asid = 6
    ∧ trapOfOut (exec (.csrw 0 32 2 1) base) = some (Cause.privilege.toNat, 0) := by decide +kernel

/-- Inside a handler, entered from 0x10_0040 with one level and one mask; without a handler; with a trap due. -/
def handling (st : Word) : State := base.updFr fun f => { f with
  r := { f.r with mstack := [7] }
  tr := { f.tr with intrap := true, estatus := st, epc := 0x100040#64, shadow := { mfloor := 1, depth := 1 } } }
def trapDue : State := base.updFr fun f => { f with tr := { f.tr with due := [{ cause := Cause.owner, async := true, evaddr := 0x1234 }] } }
theorem witness_ExceptionEntryAndReturn : base.fr.tr.intrap = false ∧ base.fr.tr.handler ≠ 0 ∧ causeEnters Cause.owner = true ∧ (handling 0).fr.tr.intrap = true
    ∧ (handling 0).fr.tr.held.length < 8 ∧ base.fr.ctl.ended = false ∧ State.reset.fr.tr.handler = 0 ∧ trapDue.fr.tr.due ≠ [] ∧ base.fr.infl = []
    ∧ (bits 9#64 15 49 = 0 ∧ bits 9#64 3 5 ≤ 1 ∧ bits 9#64 0 3 ≤ 1) ∧ ¬ (bits 10#64 0 3 ≤ 1) ∧ (handling 9).fr.tr.held = []
    ∧ Issues (.trap 0 5) base ∧ Issues (.tret 0) base ∧ Issues (.tret 0) (handling 9) ∧ Issues (.tret 0) (handling 10) := by
  and_intros <;> first | decide +kernel | exact issues_of (by decide +kernel)

/-- R271, R274, R275: TRAP 5's trap, taken at the boundary, goes to the handler with cause 0xC5 and the next bundle's address; TRET goes to EPC;
a due trap is taken with its address. -/
theorem test_exceptions : (let t := outOf (exec .trapEntry (outOf (exec (.trap 0 5) base)))
      (t.fr.tr.ecause.toNat, t.fr.tr.epc.toNat, t.fr.ctl.pc.toNat)) = (0xC5, 0x100010, 0x100100)
    ∧ (outOf (exec (.tret 0) (handling 9))).fr.ctl.pc = 0x100040#64
    ∧ trapOfOut (exec .trapEntry trapDue) = some (Cause.owner.toNat, 0x1234) := by decide +kernel

end Sys2Proof.Tests
namespace Sys2Proof.Tests

open Sys2Proof Sys2Proof.Machine

/-- Handles 6 (absent), 7 (resident in slot 0 of die 0), 8 (faulted) and 9 (no weights), all of die 0 but 9; a free slot 1. -/
def handled : State := { base with
  handles := [(6, { size := 1, version := 3 }), (7, { size := 1, st := 2, version := 4 }), (8, { size := 1, st := 6 })]
  ld := { base.ld with maps := [{ layers := [[6, 7, 8]] }] }
  bases := base.bases.set 0 { (base.base 0) with hslot := 0x0000000100000002#64, hpool := 0x40000000#64, slots := [{ st := .resident, handle := 7, lastUse := 3 }, {}] } }
/-- Handle 7 pinned by the task. -/
def pinned : State := { (handled.updMsg fun m => { m with pins := [7] }) with
  handles := [(6, { size := 1 }), (7, { size := 1, st := 2, pins := 1 })] }
/-- Four pins held. -/
def fourPins : State := handled.updMsg fun m => { m with pins := [1, 2, 3, 4] }
theorem witness_HandleOperations : Readable handled 2 ∧ bits (handled.rdS 5) 16 48 ≠ 0 ∧ bits (handled.rdS 2) 16 48 = 0 ∧ (handled.handle 7).st ≠ 0 ∧ (handled.handle 9).size = 0
    ∧ ((handled.handle 6).st = 0 ∧ (handled.handle 6).size ≠ 0 ∧ (handled.handle 6).flipp = false) ∧ handled.residentDie 6 = some 0 ∧ (handled.base 0).awaits 6 = false
    ∧ handled.residentDie 9 = none ∧ handled.ld.gate = false ∧ handled.deferred = false ∧ (handled.fr.msg.waits.find? fun w => w.h == 6 && w.pin == true) = none
    ∧ handled.fr.msg.pins.length < 4 ∧ (handled.handle 8).st = 6 ∧ (handled.handle 7).pins < 4096 ∧ pinned.fr.msg.pins.contains 7 = true ∧ handled.fr.msg.pins.contains 7 = false
    ∧ 4 ≤ fourPins.fr.msg.pins.length ∧ bits (handled.rdS 5) 32 32 ≠ 0 ∧ bits (handled.rdS 2) 32 32 = 0
    ∧ ((handled.mapVer 0).bind fun m => m.word 0 1) = some 7
    ∧ (handled.settled.promote 7).closed = false ∧ handled.admitted 5 = none ∧ handled.fr.id.tokgrp = 0
    ∧ ∀ s ∈ [handled, pinned, fourPins], ∀ i ∈ ([.whpre 0 2, .whpre 0 3, .whpre 0 5, .whwait 0 10 2, .whwait 0 10 3, .whwait 0 10 8, .whwait 0 10 9, .whpin 0 10 3, .whunp 0 3,
        .whqry 0 10 3, .whmap 0 10 2, .whmap 0 10 5] : List Instr), Issues i s := by
  and_intros <;> first | decide +kernel | exact readable_of (by decide +kernel) | exact issues_each (by decide +kernel)

/-- R251, R335: WHPIN takes a pin; WHUNP gives it back, in the table from the next tick; WHPRE queues a fill; WHQRY's VERSION and state. -/
theorem test_handles : ((outOf (exec (.whpin 0 10 3) handled)).handle 7).pins = 1 ∧ (outOf (exec (.whunp 0 3) pinned)).fr.msg.pins = []
    ∧ (outOf (exec .pinWaitRetry { pinned with arg := { h := 7, u := 1 } })).handle 7 = { size := 1, st := 2 }
    ∧ ((outOf (exec (.whpre 0 2) handled)).base 0).fills.length = 1
    ∧ (outOf (exec (.whqry 0 10 3) handled)).fr.loads.getLast?.map (fun q => q.data.toNat % 2 ^ 64) = some 0x400000002 := by decide +kernel

/-- A fill of handle 6 is queued, or waits in the pin-wait queue; slot 1 is free or both are taken; a low level of spare slots. -/
def filling6 (q : Bool) (full : Bool) : State := { handled with
  arg := { h := 6 }
  bases := handled.bases.set 0 { (handled.base 0) with
    fills := if q then [(6, false, 1)] else [], pinq := if q then [] else [6]
    slots := if full then [{ st := .resident, handle := 7, lastUse := 3 }, { st := .resident, handle := 7, lastUse := 2 }] else (handled.base 0).slots
    hpar1 := if full then 0x000000C800000001#64 else 0 } }
/-- The victim of a fill was chosen in this cycle already. -/
def victimMet : State := { filling6 true true with bases := (filling6 true true).bases.set 0 { ((filling6 true true).base 0) with
  slots := [{ st := .resident, handle := 7, lastUse := 3 }, { st := .evicting, handle := 7, lastUse := 2, chosen := some base.time }] } }
/-- Slot 1 is filling with handle 6, whose data stand in the flash's block 0, or nowhere; or it drains; tables of the rest. -/
def slotOne (st : SlotSt) (hst : Nat) (ok : Bool) : State := { handled with
  arg := { h := 6, u := 1 }
  handles := [(6, { size := 1, st := hst, slot := 1, shape := some (64, false) })]
  bases := handled.bases.set 0 { (handled.base 0) with
    slots := [{}, { st := st, handle := 6 }]
    nl := { (handled.base 0).nl with blocks := if ok then [{ written := 1 }] else [], pages := [(0, 0x5A)], open_ := [{ lfa := 0, phys := 0 }, { lfa := 0, phys := 1, failed := true }] }
    pinTimers := [(6, 0, 0)], pinq := [6] } }
/-- A device that is up. -/
def powered (s : State) : State := { s with pw := { s.pw with ready := true, pstate := 0 } }
/-- The task waits on handle 6 since its timer 0. -/
def waiting6 : State := (slotOne .filling 1 true).updMsg fun m => { m with waits := [{ h := 6 }], waitFrom := some 0 }
def waitsHere : State := { waiting6 with tasks := [{ tid := 9, place := some (0, 0), st := .resident }], arg := { h := 6, u := 1, tid := 9 } }
/-- The slot drains while an atomic is under way. -/
def draining : State := (slotOne .evicting 5 true).updFr fun f => { f with atoms := [{ id := 5, pa := 0x100040 }] }
/-- The page has been read, or has failed at a block that it has left; a fill that has only prefetch asking. -/
def pageRead (n : Nat) : State := { slotOne .filling 1 true with arg := { h := 6, u := 1, id := n } }
/-- The read of a fill's first page that is under way under a number, and whether it has failed. -/
def openRead (s : State) (n : Nat) : Option Bool :=
  allDies.findSome? fun k => ((s.base k).nl.open_.find? fun r => r.lfa == 0 && r.phys + 1 == n).map (·.failed)
/-- The page's block under relocation, once flash has its power. -/
def relocating : State := powered ((slotOne .filling 1 true).updBase 0 fun b => { b with nl := { b.nl with moving := [(0, 1)] } })
theorem witness_HandleEvents_pages : openRead (pageRead 1) 1 = some false ∧ openRead (pageRead 2) 2 = some true ∧ (pageRead 1).flashStack 0 = some 0
    ∧ (pageRead 1).yieldsAt ((pageRead 1).stamp (fillWriter 0)) (((pageRead 1).base 0).slotPa 1) 64 = 0 ∧ ((pageRead 1).handle 6).flipp = false
    ∧ (pageRead 1).waitersOf 6 = [] ∧ ((pageRead 1).handle 6).shape = some (64, false)
    ∧ (powered (pageRead 0)).flashOn = true ∧ (powered (pageRead 0)).readsAhead 0 1 = false ∧ (pageRead 0).demanded 6 = true
    ∧ relocating.readsAhead 0 1 = true ∧ (relocating.flashStack 0) = some 0 ∧ (waitsHere.waitsOver {}) = true := by
  and_intros <;> decide +kernel

theorem witness_HandleEvents : (handled.handle 6).st = 0 ∧ ((handled.handle 7).st = 2 ∧ (handled.handle 7).pins = 0) ∧ ¬ ((pinned.handle 7).st = 2 ∧ (pinned.handle 7).pins = 0)
    ∧ ((filling6 true false).base 0).fills = [(6, false, 1)] ∧ (((filling6 true false).base 0).slots.any fun y => y.reserved == some 6) = false
    ∧ ((filling6 true false).base 0 |>.slot 1).st = .free ∧ (∀ k, k < 2 → ((filling6 true true).base 0 |>.slot k).chosen ≠ some (filling6 true true).time)
    ∧ victimMet.fillVictim 0 [] = some 1 ∧ (victimMet.base 0).fills = [(6, false, 1)] ∧ ((victimMet.base 0).slot 1).st = .evicting ∧ ((filling6 true true).base 0 |>.slot 1).st = .resident ∧ (filling6 true true).victim 0 = some 1
    ∧ bits ((filling6 true false).base 0).hpar1 0 16 ≤ ((filling6 true false).base 0).spare ∧ ((filling6 true true).base 0).spare + 1 = bits ((filling6 true true).base 0).hpar1 0 16
    ∧ ((filling6 false false).base 0).pinq = [6]
    ∧ (((slotOne .evicting 5 true).base 0).slot 1 = { st := .evicting, handle := 6 }) ∧ (slotOne .evicting 5 true).waitersOf 6 = [] ∧ ((slotOne .evicting 5 true).handle 6).flipp = false
    ∧ (slotOne .evicting 5 true).invalIds { every := true, range := some (residentBase + ((slotOne .evicting 5 true).base 0).slotPa 1, ((slotOne .evicting 5 true).base 0).slotSize) } = []
    ∧ draining.invalIds { every := true, range := some (residentBase + (draining.base 0).slotPa 1, (draining.base 0).slotSize) } ≠ []
    ∧ ((draining.base 0).slot 1).st = .evicting
    ∧ (((slotOne .filling 1 true).base 0).slot 1 = { st := .filling, handle := 6 }) ∧ ((slotOne .filling 1 true).handle 6).st = 1 ∧ (slotOne .filling 1 true).pageOk 0 = true
    ∧ (slotOne .filling 1 false).pageOk 0 = false
    ∧ (waitsHere.holds 0 0 9 = true ∧ (waitsHere.frameAt 0 0).msg.waitFrom = some 0 ∧ waitsHere.waitsOver (waitsHere.frameAt 0 0).msg = false) ∧ handled.fr.msg.waitFrom = none
    ∧ ((slotOne .filling 1 true).base 0).pinTimers = [(6, 0, 0)] ∧ (waitsHere.waitersOf 6).length = 1 ∧ (waitsHere.base 0).pinTimers = [(6, 0, 0)] := by
  decide +kernel

/-- R330: a fill's bytes come from the flash into the slot's frames, and the handle is resident. -/
theorem test_fill : (let t := outOf (exec .handleFillComplete (pageRead 1))
    (Memory.read t.mem 0x40010000 1, (t.handle 6).st)) = (0x5A, 2) := by decide +kernel

/-- A dispatch record at 0x10_0040 without groups chosen, and the base die's translation; a dispatch under way; a Lantern entry that is old. -/
def dispatching : State := { handled with
  mem := Memory.write handled.mem 0x100040 64 (0x104000 + (0x105000 <<< 64) + (0x106000 <<< 128) + (8 <<< (8 * 0x26)))
  bases := handled.bases.set 0 { (handled.base 0) with tlb := handled.here.l1tlb, lnage := 1, lnq := [{ handle := 6 }], lnout := [] }
  disps := [{ id := 5, c := 0, k := 0, tid := 9, logits := 0x105000#64, groups := [(0, 0)] }], arg := { id := 5, h := 6, w0 := 0x100000000#64 }, time := 1000000 }
/-- A dispatch whose record is still to be read, at an address. -/
def asked (va : Word) (l : List (Nat × Nat)) : Disp := { id := 5, tid := 9, record := va, groups := l }
/-- Whether its record makes a dispatch, and without groups. -/
def dispatches (s : State) (q : Disp) : Option Bool :=
  match prepareDispatch s q with
  | .ok (q, _) => some q.groups.isEmpty
  | .error _ => none
/-- Whether the logits of a dispatch's group are read. -/
def ingresses (s : State) (q : Disp) : Bool :=
  match ingressRead (s.partyLearns (ingressWriter 0) q.by_) 0 (s.dispSpace q) (q.logitVa 0) 512 with
  | .ok (v, w) => (appendExperts 0 (w.dispSpace q) q 0 0 v w 0 ((rankLogits v 128).take q.ke)).2.isNone
  | .error _ => false
theorem witness_RoutingAndDispatch : Readable dispatching 1 ∧ (bits (dispatching.rdS 2) 32 8 = 0) ∧ isOk (readV base.ctx dispatching (xOpd base.ctx 1 0x20) 4 true ([], dispatching.settled)) = true
    ∧ dispatching.ld.gate = false ∧ dispatching.releaseWaits = false ∧ dispatches dispatching (asked (dispatching.rdS 1) []) = some true
    ∧ dispatches dispatching (asked (dispatching.rdS 6) []) = none ∧ (dispatching.settled.release 0 3).closed = false ∧ (dispatching.disps.any fun x => x.ended) = false
    ∧ (∀ q, dispatching.disps.head? = some q → ingresses dispatching q = true ∧ dispatching.signalWaits 9 (q.tag ++ 0x20#8) = false)
    ∧ (noRoom dispatching).signalWaits 9 ((0 : BitVec 16) ++ 0x20#8) = true ∧ (firstEntry (dispatching.base 0).lnq) = some { handle := 6 }
    ∧ (512 ≤ bits 0x0000000000000200#64 0 16) ∧ ¬ (512 ≤ bits dispatching.arg.w0 0 16 ∨ ((dispatching.mapVer dispatching.ld.mapcur).map (·.layers.length)).getD 0 ≤ bits dispatching.arg.w0 16 16)
    ∧ bits (dispatching.base 0).lnctl 0 8 ≤ 255 ∧ (dispatching.base 0).lnout.length < bits (dispatching.base 0).lnctl 0 8
    ∧ (0 + ticksOfUs (dispatching.base 0).lnage.toNat < dispatching.time ∧ (dispatching.base 0).lnage ≠ 0)
    ∧ (dispatching.disps.find? (·.id == dispatching.arg.id)).isSome = true ∧ dispatching.groupDie (dispatching.requestMap 0) 0 0 = some 0 ∧ dispatching.groupDie 0 1 0 = none
    ∧ dispatching.holds 0 0 9 = true ∧ (dispatching.frameAt 0 0).ctl.halted = false
    ∧ (∀ i ∈ ([.rtpred 0 0x20 2, .rtdisp 0 0x20 1, .rtdisp 0 0x20 6] : List Instr), Issues i dispatching) := by
  and_intros <;> first | decide +kernel | exact readable_of (by decide +kernel) | exact issues_all (by decide +kernel)

/-- Whether an operation alone in its bundle does not issue for a false predicate. -/
def off (s : State) (i : Instr) : Bool :=
  match opOf i with
  | some (p, cls, op) => op.legal s.ctx && (!op.priv || s.fr.id.mode) && !s.fr.pval p.toNat && s.admits s.cur (s.weightOf cls) && !s.closed
  | none => false
theorem witness_IssueChecks : (Instr.wf (.add 0 0 63 2 3) = false ∧ (opOf (.add 0 0 63 2 3)).isSome = true) ∧ base.fr.id.mode = false
    ∧ (opOf (.tinva 0 2)).map (fun x => x.2.2.legal base.ctx) = some true ∧ (opOf (.csrr 0 0 8 0x801)).map (fun x => x.2.2.legal base.ctx) = some true
    ∧ off base (.add 1 0 8 2 3) = true ∧ off base (.mldt 1 1 0 2) = true := by
  decide +kernel

/-- Results in flight to each kind of destination, a load that has come, a target and a level to fill. -/
def inFlight (d : Dest) : State := { base.updFr (fun f => { f with
  infl := [{ seq := 1, dest := d, ben := firstBytes 8, data := 0xABC, lat := some 0 }]
  loads := [{ id := 5, dest := .s 8, ben := firstBytes 8, data := 0x80, form := 1, n := 1 }]
  ctl := { f.ctl with tg := f.ctl.tg.set 1 { valid := true, addr := 0x100000#64 }, lv := f.ctl.lv.set 1 { isOpen := true, lstart := 0x100010#64, lstop := 0x100010#64 } } }) with
  arg := { id := 5, u := 1, w0 := 0x100000#64, w1 := base.fr.sys.ptroot, h := base.fr.sys.asid } }
theorem witness_ResultsAndFetches : firstResult base.fr.infl = none ∧ ([Dest.s 8, .s 0, .pred 3, .mask 2, .rs 0].all fun d => (firstResult (inFlight d).fr.infl).map (·.dest) == some d) = true
    ∧ ((inFlight .none).fr.loads.find? fun l => l.id == (inFlight .none).arg.id && l.parts == 0).isSome = true ∧ (base.fr.loads.find? fun l => l.id == 5 && l.parts == 0) = none
    ∧ (((inFlight .none).fr.ctl.tg.get 1).valid = true ∧ ((inFlight .none).fr.ctl.tg.get 1).addr = (inFlight .none).arg.w0) ∧ (base.fr.ctl.tg.get 1).valid = false
    ∧ ((inFlight .none).fr.ctl.lv.get 1).lstart = (inFlight .none).arg.w0 + 16 ∧ (base.fr.ctl.lv.get 1).lstart ≠ 0x100000#64 + 16
    ∧ faults (fetchUnder (inFlight .none) 0 0 base.fr.sys.ptroot base.fr.sys.asid 0x100000#64) = false := by
  decide +kernel

/-- R140: a byte 0x80 lands with its sign; a result in a register. -/
theorem test_landing : ((outOf (exec .loadComplete (inFlight .none))).fr.r.s.get 8).toNat = 0xFFFFFFFFFFFFFF80
    ∧ ((outOf (exec .resultComplete (inFlight (.s 8)))).fr.r.s.get 8).toNat = 0xABC
    ∧ ((outOf (exec .prepFetchComplete (inFlight .none))).fr.ctl.tg.get 1).filled = true := by decide +kernel

/-- States whose next move is of each kind: a bundle, a package event, a core's event, a result, a trap, a nest, the expiries, a tick. -/
def moveKind (s : State) : Nat :=
  match s.nextMove.2 with
  | .bundle _ => 0
  | .package _ => 1
  | .core _ _ => 2
  | .result _ _ => 3
  | .trap _ => 4
  | .nest _ => 5
  | .swthr _ => 6
  | .slice _ => 7
  | .tick => 8
  | .switch _ _ => 9
/-- The head bundle's fetch has met a quiesced stack, and so has an event of the package. -/
def barredHead : State := { head with closed := true }
/-- The place of the head bundle, still held, and free again. -/
def heldPlace : State := { head with barred := [head.placeHeld 0 .bundleIssue] }
def freePlace : State := { head with arg := (head.placeHeld 0 .bundleIssue).2.arg }
theorem witness_StepRunsDecoded_bars : ([.package { row := .handleFlip }, .bundle 0, .nest 0, .core 0 { row := .handleFlip }] : List Move).all (fun m => (head.bar 0 m).isSome) = true
    ∧ barredHead.closed = true ∧ head.closed = false ∧ heldPlace.placed 0 .bundleIssue = true ∧ head.placed 0 .bundleIssue = false
    ∧ freePlace.arg.u = 1 ∧ freePlace.resumes .bundleIssue = true ∧ freePlace.fetchHeld = false ∧ freePlace.placed freePlace.cur .bundleIssue = false
    ∧ faults (headBundle freePlace.takeLoopBuffer) = false ∧ { freePlace with arg := { u := 1, tid := 5 } }.resumes .bundleIssue = false
    ∧ moveKind { head with freed := [(none, { row := .handleFlip })] } = 1 := by decide +kernel

/-- Every event form's hypothesis (R105). -/
theorem witness_EventFormsComplete : base.MemOk ∧ (base.mem.isEmpty = false) := by
  and_intros <;> first | decide +kernel | (unfold State.MemOk; decide +kernel)

theorem witness_StepRunsDecoded : moveKind head = 0 ∧ moveKind { head with agenda := [{ row := .handleFlip }] } = 1
    ∧ moveKind { (head.updCore 0 fun x => { x with events := [{ row := .matrixOpStart }] }) with time := 3000, agenda := [] } = 2
    ∧ moveKind { head with turn := 256, agenda := [] } = 8 ∧ faults (headBundle (head.prepare head.nextMove.1 head.nextMove.2).takeLoopBuffer) = false := by
  decide +kernel

end Sys2Proof.Tests
namespace Sys2Proof.Tests

open Sys2Proof Sys2Proof.Machine

/-- The snapshot tree on, with a complete node 1 that the task holds by its reference 1 and one pool granule of payload at granule 2; the base die
reaches the code page; its record, a chunk of one token, stands at 0x10_0040. -/
def snap (en : Bool) : State := { (base.updCtl fun c => { c with swHeld := Config.extraLatency base.freeCtr }).updMsg fun m => { m with holds := [1] } with
  mem := Memory.write base.mem 0x100040 16 (1 + (0x100060 <<< 64))
  bases := base.bases.set 0 { (base.base 0) with tlb := base.here.l1tlb }
  tree := { pxctl := if en then 0x80000000#64 else 0, pxbase := 0x50000000#64, pxpool := 0x60000000#64, pxnodes := 8, pxpsize := 16
            nodes := [{ idx := 1, key := 5, st := 2, refs := 1, counts := [1], tokAt := 1, dataAt := 2, seq := 1 }] } }
/-- Whether a record is read, and is well formed. -/
def looks (s : State) (va : Word) : Option Bool :=
  match lookRecord s.settled.tick 0 s.fr.space va with
  | .ok (x, _) => some x.isSome
  | .error _ => none
/-- Whether a chunk's single piece of HBM is read as a classed access. -/
def chunkRead (s : State) (va : Nat) : Bool :=
  match classed s va (4 * s.tree.chunk) .read false 0 with
  | .ok [(g, _)] => decide (placeOf s.cur g.pa = .mem)
  | _ => false
/-- The tree while S8 names the reference that the task holds. -/
def held : State := (snap true).updRegs fun r => { r with s := r.s.set 8 1 }
theorem witness_SnapshotTree : Readable (snap true) 1 ∧ Readable (snap true) 3 ∧ (snap true).AllOpen
    ∧ (bits (held.rdS 8) 32 32 = 0 ∧ held.fr.msg.holds.contains 1 = true ∧ held.rdS 8 = 1)
    ∧ held.fr.msg.holds.contains 2 = false ∧ (held.tree.named 1).isSome = true ∧ held.fr.id.valid = true
    ∧ (snap true).extra ≤ (snap true).fr.ctl.swHeld ∧ (snap true).tree.enabled = true ∧ (snap false).tree.enabled = false
    ∧ looks (snap true) ((snap true).rdS 1) = some true ∧ looks (snap true) ((snap true).rdS 2) = none ∧ looks (snap true) 0x100044#64 = some false
    ∧ canonical ((snap true).rdS 1) = true ∧ chunkRead (snap true) 0x100040 = true
    ∧ (∀ i ∈ ([.snrel 0 2, .snrel 0 8, .snlook 0 10 1, .snlook 0 10 2, .snhash 0 10 1 3, .snsave 0 2 1, .snload 0 2 1, .snsave 0 2 3] : List Instr), Issues i (snap true))
    ∧ Issues (.snrel 0 8) held := by
  and_intros <;> first | decide +kernel | exact readable_of (by decide +kernel) | exact allOpen_of_opened (by decide +kernel) | exact issues_all (by decide +kernel) | exact issues_of (by decide +kernel) | exact Nat.le_refl _

/-- A snapshot command: of a state of its fields, with the tree above. -/
def snapping (q : SnCmd) : State := { snap true with tree := { (snap true).tree with cmds := [{ q with id := 5, tid := 9, counts := [1] }] }, arg := { id := 5, tid := 9, w0 := 13 } }
/-- A tree whose one node is not held, with too little room. -/
def evicting : State := { snap true with tree := { (snap true).tree with pxlow := 15, nodes := (snap true).tree.nodes.map fun n => { n with refs := 0 } } }
/-- Its node a leaf from the next cycle on. -/
def laterLeaf : State := { evicting with tree := { evicting.tree with nodes := evicting.tree.nodes.map fun n => { n with leafAt := evicting.time + 1 } } }
/-- The command of such a state. -/
def cmdOf (s : State) : SnCmd := s.tree.cmds.headD {}
/-- The command's granule of the register space, its bank free or taken. -/
def bankOf (s : State) : Bool := (s.engineBank (cmdOf s).c (granuleAt (cmdOf s).spans (cmdOf s).pos) 512 (!(cmdOf s).save) (cmdOf s).waited).isSome
def portsTaken (s : State) : State := { s.updCore 0 (fun x => { x with ports := (List.range 16).flatMap fun b => [(3, b, .write), (3, b, .read)] }) with time := 4 }
/-- Whether the engine reads bytes at an address. -/
def engineReads (s : State) (va : Word) (n : Nat) : Bool := !faults (snapRead s 0 (((s.taskFrame 0 0 9).under 0 0).space) va n)
def oneGranule : List Span := [{ pa := (snap true).rsPa 0 0 0, len := 512 }]
theorem witness_SnapshotTree_engine : ((snapping {}).tree.cmds.find? fun q => q.id == (snapping {}).arg.id) = some (cmdOf (snapping {})) ∧ (snap true).tree.cmds = []
    ∧ ((cmdOf (snapping { ended := some 0 })).ended = some 0 ∧ (snapping { ended := some 0 }).signalWaits 9 0 = false)
    ∧ (cmdOf (snapping {})).ended = none ∧ (cmdOf (snapping {})).words = 0 ∧ sigEv (cmdOf (snapping {})).sig = false
    ∧ ((snapping {}).tree.cmds.any fun x => x.ended.isSome && dieOf x.c == 0) = false
    ∧ engineReads (snapping {}) 0x100040#64 64 = true ∧ engineReads (snapping {}) 0x300000#64 64 = false
    ∧ ((cmdOf (snapping { words := 1 })).ok = false ∧ (cmdOf (snapping { ok := true, words := 1 })).ok = true ∧ (snapping {}).tree.enabled = true)
    ∧ (cmdOf (snapping { built := some 1 })).built = some 1
    ∧ (let s := snapping { save := true, ok := true, words := 1, spans := oneGranule }
       (cmdOf s).pos < (cmdOf s).size ∧ bankOf s = true ∧ bankOf (portsTaken s) = false ∧ (cmdOf s).spans ≠ [])
    ∧ (let s := snapping { save := true, ok := true, words := 1, pos := 1, data := [(0, none)] }
       (cmdOf s).size ≤ (cmdOf s).pos ∧ (cmdOf s).spans = [] ∧ s.saveParent (cmdOf s) 0 = some 0 ∧ engineReads s 0x100040#64 4 = true
         ∧ s.tree.children 0 0 (cmdOf s).hash = [] ∧ (s.snapMsg (cmdOf s)).holds.length < 64 ∧ (s.tree.place 1).isSome = true
         ∧ (s.tree.place 1).map (fun x => inMemory (s.tree.poolPa x.2.1) (4 * s.tree.chunk) && inMemory (s.tree.poolPa x.2.2) 512) = some true
         ∧ (s.tree.place 1).map (fun x => inMemory ({ s.tree with pxpool := 1 <<< 54 }.poolPa x.2.1) (4 * s.tree.chunk)) = some false
         ∧ s.saveParent { cmdOf s with node := 2 } 0 = none ∧ s.saveParent { cmdOf s with node := 1 } 0 = some 1)
    ∧ (let s := snapping { node := 1, ok := true, words := 1 }
       (s.tree.named 1).map (fun n => (n.st, s.mayUse (s.snapMsg (cmdOf s)) n.idx, n.counts == (cmdOf s).counts)) = some (2, true, true)
         ∧ (s.tree.named 2).isNone = true)
    ∧ (let s := snapping { words := 2, spans := oneGranule, data := [(0, none)] }
       (cmdOf s).pos < (cmdOf s).size ∧ bankOf s = true ∧ bankOf (portsTaken s) = false ∧ (cmdOf s).data[(cmdOf s).pos]?.isSome = true)
    ∧ (snapping {}).holds 0 0 9 = true ∧ ((snapping {}).frameAt 0 0).ctl.halted = false ∧ (snap true).tree.low = false ∧ (snap true).evictChoice = none
    ∧ evicting.tree.low = true ∧ evicting.evictChoice.map (·.idx) = some 1
    ∧ laterLeaf.evictChoice = none ∧ laterLeaf.tree.nodes.any (fun m => m.st == 2 && m.refs == 0 && m.kids == 0 && decide (laterLeaf.time < m.leafAt)) = true := by
  and_intros <;> decide +kernel

/-- R345, R347, R352: SNREL drops a hold; the unheld node is evicted; the hash of one token 1 from 0 is (0x1000001B3, folded). -/
theorem test_snapshots : (outOf (exec (.snrel 0 8) held)).fr.msg.holds = []
    ∧ (outOf (exec .snapshotEvict evicting)).tree.nodes.length = 0 ∧ hashTokens 0 1 1 = 0x100000001B3 ^^^ 0x200 := by decide +kernel

/-- The package at work with one task: in a state, in a place, for a queue whose context stands. -/
def tasked (t : Task) : State := { base with
  pw := { base.pw with ready := true, pstate := 0, pwctl := 0 }, arg := { tid := 9, n := 0 }
  tasks := [{ t with tid := 9, foot := 4, code := 0x100000#64 }]
  bel := { base.bel with queues := base.bel.queues.set 0 { ctx := some { ctxpool := 0x70000000#64, ctxpages := 64, clogn := 4 }, run := some { mine := [9] }, st := 1 } } }
/-- The task in slot 0 of core 0. -/
def placed (t : Task) : State := tasked { t with st := .resident, place := some (0, 0) }
/-- A ready task, and every core dark. -/
def darkened : State := { tasked { st := .ready } with cores := Vector.replicate 256 ({ cond := .dark } : Core) }
/-- The same, and it has halted. -/
def haltedTask : State := (placed {}).updCtl fun c => { c with halted := true }
/-- A task whose footprint no core has room for. -/
def tooBig : State := { tasked {} with tasks := [{ tid := 9, st := .ready, foot := 1000000 }] }
theorem witness_TaskLife : base.task 9 = none ∧ ((tasked { st := .ready }).task 9).map (·.st) = some .ready ∧ (tasked { st := .ready }).mayPlace = true
    ∧ ((tasked { st := .ready }).cutArea { tid := 9, foot := 4 }).isSome = true ∧ base.cutArea { tid := 9 } = none
    ∧ (tasked { st := .ready }).mayHold { tid := 9, foot := 4 } 1 = true ∧ darkened.placesFor { tid := 9, foot := 4 } = []
    ∧ ((placed {}).frameAt 0 0).ctl.ended = false ∧ (placed {}).workLeft 0 0 9 = false ∧ ((placed {}).updCtl fun c => { c with ended := true }).fr.ctl.ended = true
    ∧ (placed {}).releaseBusy 0 ((placed {}).cyc 0) = false ∧ (atomic 0).workLeft 0 0 9 = true ∧ (placed {}).matrixLeft 0 0 = false ∧ (placed {}).accessLeft 0 0 = false
    ∧ (∀ e ∈ (placed {}).agenda, ¬ (e.row = .errorToken ∧ e.arg.tid = 9 ∧ e.at_ ≤ (placed {}).time)) ∧ (haltedTask.frameAt 0 0).ctl.halted = true
    ∧ ((placed { kept := true }).task 9).map (·.kept) = some true
    ∧ (tasked { st := .ready }).beingCut { tid := 9, foot := 4 } = false ∧ ((placed {}).frameAt 0 0).id.task = 9
    ∧ (let s := tasked { st := .ready }
       ((s.cleared 1 ((neighbours 1).flatMap fun n => (s.core n.2).residents.map (·.id.task))).mayHold { tid := 9, foot := 4 } 1) = true)
    ∧ (everyCore.all fun c => !((tooBig.cleared c []).mayHold { tid := 9, st := .ready, foot := 1000000 } c)) = true := by
  and_intros <;> decide +kernel

/-- Core 1 hungry, with a task queued at a core that its first request asks; a second slot of core 0 ready; a window that is being zeroed; a record to write. -/
def hungry : State := { (tasked { st := .ready, bal := 1, flags := 0x10, bound := victimOf 1 (xorshift (base.core 1).rng) 0 }) with arg := { c := 1 } }
def twoReady (p : Nat) : State := base.updCore 0 fun x => { x with frames := x.frames.set 1 { id := { valid := true, prio := p } } }
def zeroing : State := { base.updCore 1 (fun x => { x with lentTo := some 9, zeroing := true }) with arg := { c := 1, tid := 9 }, mem := Memory.write base.mem (winBase 1) 1 7 }
def recording (n : Nat) : State := { base with
  bases := base.bases.set 0 { (base.base 0) with tlb := base.here.l1tlb }
  bel := { base.bel with queues := base.bel.queues.set 0 { ctx := some { cring := 0x100200#64, clogn := 0 }, recs := [{ tid := 9, bytes := List.replicate 32 1 }], recCount := n } } }
/-- A core that may hold a task is a place for it (the premise of TASK_PLACE in witness_TaskLife). -/
theorem placesFor_ne_nil {s : State} {t : Task} (h3 : t.heat ≠ 3) (h : s.mayHold t 1 = true) : s.placesFor t ≠ [] := by
  unfold State.placesFor
  simp only [h3, ne_eq, not_false_eq_true, if_true]
  exact List.ne_nil_of_mem (List.mem_filter.mpr ⟨List.mem_map.mpr ⟨1, by decide, rfl⟩, h⟩)

theorem witness_TaskLife_steals : hungry.hungry 1 = true ∧ base.hungry 0 = false ∧ ((victimOf 1 (xorshift (hungry.core 1).rng) 0).bind hungry.queueTail).isSome = true
    ∧ ((hungry.queueTail ((victimOf 1 (xorshift (hungry.core 1).rng) 0).getD 0)).map fun t => (hungry.stealable t, hungry.heatAllows t 1)) = some (true, true)
    ∧ base.here.nextReady = none ∧ (twoReady 1).here.nextReady = some 1 ∧ (twoReady 1).fr.id.prio < ((twoReady 1).here.frame 1).id.prio
    ∧ ((zeroing.core 1).lentTo = some 9 ∧ (zeroing.core 1).zeroing = true) ∧ (recording 0).belfryWrite 0 0x100200#64 28 1 ≠ none
    ∧ ({ recording 0 with bases := base.bases, mem := [] } : State).belfryWrite 0 0x100200#64 28 1 = none
    ∧ 2 ^ 0 ≤ (BitVec.ofNat 32 1 - ((recording 1).queue 0).qchead).toNat ∧ ¬ (2 ^ 0 ≤ (BitVec.ofNat 32 0 - ((recording 0).queue 0).qchead).toNat) := by
  decide +kernel

/-- R287, R302, R310, R393: ended and gone; stolen; the window zeroed; the record performed. -/
theorem test_tasks : ((outOf (exec .taskComplete { placed {} with arg := { tid := 9, u := 2 } })).task 9).isNone = true
    ∧ ((outOf (exec .stealRequest hungry)).task 9).map (·.bound) = some (some 1)
    ∧ Memory.read (outOf (exec .lentWindowZeroed zeroing)).mem (winBase 1) 1 = 0
    ∧ Memory.read (outOf (exec .completionRecordWrite (recording 0))).mem 0x100200 1 = 1 := by decide +kernel

/-- A gang of task 9: on a core or not, started or not; at its cut since tick 0. -/
def ganged (g : Gang) : State := { placed { gang := some 3 } with gangs := [{ g with gid := 3, members := [9] }], arg := { tid := 9, h := 3, u := 1 } }
def saved : State := { placed { preempt := some 1 } with arg := { tid := 9, u := 1 } }
def restored : State := { placed { restoring := true, saved := some {} } with arg := { tid := 9 } }
/-- The same, its area in HBM at 0x40_0000 with S1 = 0x77 in it, a result of the buffer and a byte of the footprint. -/
def areaRestored : State := let s := restored.updFr fun f => { f with sys := { f.sys with ctxsave := 0x400000#64 } }
  { s with bases := s.bases.set 0 { (s.base 0) with tlb := [{ va := 0x400000, log := 21, pa := 0x400000, flags := 0xBF#8 }] }
           tasks := s.tasks.map fun t => { t with saved := some { frame := { infl := [{ dest := .s 8, data := 5 }] } } }
           mem := Memory.write (Memory.write s.mem 0x400048 1 0x77) 0x430800 1 0x66 }
/-- A started gang that is to be cut; one at its cut, its grace over; one while another gang of its priority waits. -/
def running3 : State := { ganged { started := true } with arg := { tid := 9, h := 3 } }
def cutting : State := { ganged { cutAt := some 0, started := true } with arg := { h := 3 } }
def waitingGang : State := { running3 with tasks := running3.tasks ++ [{ tid := 7, st := .ready, gang := some 4 }] }
theorem witness_GangsAndContexts : ((placed {}).task 9).map (fun t => (t.place, t.preempt, t.restoring)) = some (some (0, 0), none, false)
    ∧ (placed {}).haltIssued { place := some (0, 0) } = false ∧ haltedTask.haltIssued { place := some (0, 0) } = true
    ∧ (saved.task 9).map (fun t => (t.place, t.preempt)) = some (some (0, 0), some 1) ∧ saved.saveWaits 0 0 9 = false ∧ (atomic 0).saveWaits 0 0 9 = true
    ∧ (restored.task 9).map (fun t => (t.saved.isSome, t.restoring)) = some (true, true) ∧ ((restored.frameAt 0 0).id.lent.any fun d => (restored.core d).zeroing) = false
    ∧ (restored.task 9).map (fun t => restored.areaRead t 0 0x40 384) = some none
    ∧ (areaRestored.task 9).map (fun t => (areaRestored.areaRead t 0x400000#64 0x40 384, ((areaRestored.takeArea t 0 0 {} areaRestored.fr).areaRange t 0x400000#64 0x30800
        (64 * 512)).map (·.1))) = some (some (0x77 * 2 ^ 64), some 0x66)
    ∧ (saved.fr.sys.touched = 0 ∧ saved.fr.id.heat ≠ 3 ∧ saved.waitsOver saved.fr.msg = true) ∧ (waiting6.waitsOver waiting6.fr.msg) = false
    ∧ (placed {}).releaseBusy 0 ((placed {}).cyc 0) = false ∧ (placed {}).fr.infl = [] ∧ (placed {}).here.l1 = [] ∧ ((placed {}).dies.get 0).l2 = []
    ∧ ((ganged {}).gangs.find? (·.gid == 3)).isSome = true ∧ base.gangs = [] ∧ (ganged {}).gangPlaced { members := [9] } = true
    ∧ (ganged {}).gangTasks { members := [9] } ≠ []
    ∧ (running3.gangs.head?.map fun g => (g.cutAt, (running3.gangTasks g).map fun t => (running3.cutHolds g t, t.place.isSome))) = some (none, [(false, true)])
    ∧ (running3.gangs.head?.map fun g => (running3.gangTasks g).all (·.gang == some g.gid)) = some true ∧ restored.tasks.all (·.tid == 9) = true
    ∧ ((cutting.gangTasks { members := [9] }).all fun t => (cutting.crossDieOf t.tid).isEmpty && (cutting.frameAt 0 0).infl.isEmpty) = true
    ∧ (cutting.gangs.find? (·.gid == 3)).map (·.cutAt) = some (some 0)
    ∧ ((restored.task 9).bind (·.saved)).map (fun v => (v.tiles.isEmpty, v.lents.isEmpty, Memory.wf v.foot)) = some (true, true, true)
    ∧ (waitingGang.gangs.find? (·.gid == 3)).map (fun g => (g.started, waitingGang.tasks.any fun t => t.st == .ready && t.gang.isSome && t.gang != some g.gid
        && g.members.any fun m => ((waitingGang.task m).map fun x => waitingGang.basePrio x == waitingGang.basePrio t).getD false)) = some (true, true) := by
  and_intros <;> decide +kernel

/-- R411: a restore takes S1 and the footprint from the area, and zeroes its STAMP. -/
theorem test_restore : let t := outOf (exec .contextRestore areaRestored)
    ((t.fr.r.s.get 1).toNat, Memory.read t.mem (t.rsPa 0 0 0) 1, t.fr.id.foot) = (0x77, 0x66, 64) := by decide +kernel

/-- R306, R401, R408, R412: a gang starts; its members are saved when the grace is over; a context is saved and the slot is free. -/
theorem test_gangs : ((outOf (exec .gangStart (ganged {}))).gangs.map (·.started)) = [true]
    ∧ ((outOf (exec .gangGraceExpiry { ganged { cutAt := some 0, started := true } with arg := { h := 3 } })).task 9).map (·.preempt) = some (some 5)
    ∧ ((outOf (exec .contextSave saved)).task 9).map (fun t => (t.saved.isSome, t.place)) = some (true, none)
    ∧ ((outOf (exec .contextSave saved)).frameAt 0 0).resident = false := by decide +kernel

end Sys2Proof.Tests
namespace Sys2Proof.Tests

open Sys2Proof Sys2Proof.Machine

/-- Queue 0 of a Belfry that runs, with a stream at 0x10_4000 whose command 7 is under way with the words of the argument; an image at 0x10_1000
with a bundle and its SHA3-512 digest (worked out outside the model), a launch record at 0x10_2000 that names it, and an empty gang table at 0x10_3000. -/
def belfry (w0 w1 w2 w3 : Word) (f : Exec → Exec) : State := { base with
  pw := { base.pw with ready := true, pstate := 0, pwctl := 0 }, agenda := []
  mem := Memory.write (Memory.write (Memory.write (Memory.write base.mem 0x101000 0x24 (0x444F4C53 + (1 <<< 32) + (0x100 <<< 64) + (0x110 <<< 96) + (0x110 <<< 128) + (4 <<< 256)))
    0x1010C0 64 0xb145cbc8851be689e1f2421e3ad790e8902910dca9f5e35db7a20c1029238a928573eda1e76e579adc69668c83e3bf57df5f430d0250420d7bd727948c799aee)
    0x102000 8 0x101000) 0x104000 8 0
  bases := base.bases.set 0 { (base.base 0) with tlb := base.here.l1tlb }
  arg := { id := 7, w0 := w0, w1 := w1, w2 := w2, w3 := w3 }
  bel := { base.bel with bfctl := 1, queues := base.bel.queues.set 0 { qctl := 0x401, st := 1, ctx := some { ctxpool := 0x70000000#64, ctxpages := 64, cring := 0x100200#64, clogn := 4 }, run := some (f { cmd := some 7, len := 4, addr := 0x104000#64, turn := some 0 }) } } }
/-- A queue without a stream, one that is frozen, and one with an entry to start. -/
def idleQueue (st : Nat) (run : Option Exec) (tail : BitVec 32) : State := { belfry 0 0 0 0 id with
  bel := { (belfry 0 0 0 0 id).bel with queues := base.bel.queues.set 0 { qctl := 0x401, st := st, cause := 1, run := run, qtail := tail } } }
/-- What becomes of the queue's stream: its index, loops, and state, and the number of tasks. -/
def streamOf (o : Out) : Option (List Nat) :=
  ((outOf o).queue 0).run.map fun r => [r.idx, ((outOf o).queue 0).st, (outOf o).tasks.length] ++ r.loops.flatMap fun x => [x.1, x.2.1, x.2.2]

/-- R72-R74, R395, R396: the image is in order (its digest included), and the record launches. -/
theorem test_launch : streamOf (exec .launch (belfry 0x10001 0x102000 6 0 id)) = some [1, 1, 1] := by decide +kernel
/-- R396: a record whose image cannot be read freezes the queue. -/
theorem test_launch_refused : streamOf (exec .launch (belfry 0x10001 0x102040 6 0 id)) = some [0, 2, 0] := by decide +kernel

/-- R393, R394: NOPC goes on; a loop of one command, three times; IFC on memory 0 = 0 goes on and on 0 ≠ 0 skips; END outside a loop ends, in one freezes. -/
theorem test_commands : [streamOf (exec .nopc (belfry 0 0 0 0 id)), streamOf (exec .loopc (belfry 0x100000005 3 0 0 id)),
    streamOf (exec .ifc (belfry 0x100000006 0x104000 0xFF 0 id)), streamOf (exec .ifc (belfry 0x100010006 0x104000 0xFF 0 id)),
    streamOf (exec .endC (belfry 15 0 0 0 id)), streamOf (exec .endC (belfry 15 0 0 0 fun r => { r with loops := [(0, 2, 1)] }))]
      = [some [1, 1, 0], some [1, 1, 0, 1, 1, 3], some [1, 1, 0], some [2, 1, 0], none, some [0, 2, 0, 0, 2, 1]] := by decide +kernel

/-- Whether a launch's records pass (R396), and a gang's; that those of test_launch pass stands there. -/
def launches (s : State) (base : Word) (n : Nat) : Bool := (launchStatus (s.readRecords 0 base (List.range n)).1 n false).isNone
def gangs (s : State) : Bool :=
  match s.readGang 0 0x103000#64 1 false with
  | some (t, _, rows, v) => gangTableOk t 1 false rows && (launchStatus (v.readRecords 0 0x102000#64 (List.range 1)).1 1 true).isNone && v.freeGang.isSome
  | none => false
theorem witness_BelfryStreams : (bits 0x100000000#64 32 32 ≠ 0) ∧ bit ((idleQueue 0 none 0).queue 0).qctl 7 = false
    ∧ 2 ^ bits ((idleQueue 0 none 0).queue 0).qctl 8 5 < (17#32 - ((idleQueue 0 none 0).queue 0).qhead).toNat ∧ (1#32 - ((idleQueue 0 none 0).queue 0).qhead).toNat ≤ 2 ^ bits ((idleQueue 0 none 0).queue 0).qctl 8 5
    ∧ (idleQueue 0 none 1).nextQueue = some 0 ∧ (idleQueue 0 (some {}) 1).nextQueue = some 0 ∧ (idleQueue 0 none 0).nextQueue = none ∧ (idleQueue 0 none 1).belfryBusy < 4
    ∧ (((belfry 0 0 0 0 id).queue 0).run.map (·.cmd) = some (some 7) ∧ ((belfry 0 0 0 0 id).queue 0).st ≠ 2)
    ∧ launches (belfry 0x10001 0x102040 6 0 id) 0x102040 1 = false ∧ launches (belfry 0x10001 0x102040 6 0 id) 0x102040 0 = true ∧ gangs (belfry 0x10003 0x102000 6 0x103000 id) = true
    ∧ faults ((belfry 0 0 0 0 id).belfryRead 0 0x104000#64 4) = false ∧ ((belfry 0 0 0 0 id).belfryWrite 0 0x104000#64 8 1).isSome = true
    ∧ ((belfry 0 0 0 0 id).belfryWrite 0 0x300000#64 8 1).isSome = false ∧ (onlyBits 0x10001 0x3FFFF00FF = true ∧ onlyBits 0x100000005 0xFFFF000000FF = true)
    ∧ ((belfry 0 0 0 0 fun r => { r with mine := [9] }).queue 0).run.map (·.mine) = some [9] ∧ ((recording 0).queue 0).recs.any (fun y => !y.old) = true
    ∧ (launchStatus ((belfry 0x10001 0x102000 6 0 id).readRecords 0 0x102000#64 (List.range 1)).1 1 false).isNone = true
    ∧ ((belfry 0 0 0 0 id).belfryRead 0 0x104003#64 8).toOption.isSome = true ∧ faults ((belfry 0 0 0 0 id).belfryRead 0 0x300000#64 8) = true
    ∧ (3 < 4 ∧ ¬ (0 + 5 < 4) ∧ (onlyBits 0x3000200FF 0x3000100FF = false ∧ bits 0x100000000#64 32 32 = 1 ∧ onlyBits 0x1 0x3000100FF = true))
    ∧ ((idleQueue 2 (some {}) 1).queue 0).st = 2 ∧ (idleQueue 2 none 1).task 9 = none ∧ ((placed {}).task 9).map (·.st) = some .resident := by
  and_intros <;> decide +kernel

/-- A controller whose bank 3 has counted row 6 once and row 8 up to one short of the second threshold 0x2000. -/
def counting : HbmCtl := { tracker := [(3, [(6, 1), (8, 0x1FFF)] ++ List.replicate 14 (0, 0))], llcpart := 0x4010 }
/-- Stack 0 with bits of HCTL; and an argument. -/
def stack (h : Word) (a : Arg) : State := { base with bases := base.bases.set 0 { (base.base 0) with hbm := { hctl := h } }, arg := a }
/-- The same with requests under way, LLC lines or flit bytes. -/
def stackBusy : State := { stack 1 { u := 1 } with agenda := [{ at_ := 9, row := .hbmActivation, arg := { n := 0x1040, u := 8 } }] }
/-- A line of the stack in the LLC, whole and clean; and one with its first sector dirty. -/
def lines : State := { stack 0 { n := 0x1040, u := 8 } with bases := base.bases.set 0 { (base.base 0) with
  hbm := { captured := [(3, 6, 0)], llc := [{ pa := 0x1040, valid := 15 }, { pa := 0x1080, valid := 1, dirty := 1 }] } } }
/-- A captured row that the interval has not used, with a dirty line; a row that the next activation captures, by its line 0x1040. -/
def releasedRow : State := let h := (lines.hbm 0)
  lines.updHbm 0 fun h' => { h' with llc := [{ pa := (h.rowLines 0 3 6).headD 1, valid := 15, dirty := 2 }] }
def captures : State := (stack 0 { n := 0x1040, u := 15, id := 4 }).updHbm 0 fun h => { h with
  tracker := [(Machine.bankOf h.inForce 0x1040, (rowOf 0x1040, 0x1FFF) :: List.replicate 15 (0, 0))] }
/-- A valid format window over the first page; the core's L1 and the die's L2 with the line 0x1040. -/
def windowed : State := { lines with ld := { lines.ld with windows := lines.ld.windows.set 0 { code := 1, len := 0x2000, scl := 0x10000 } } }
def cached : State := { lines.updCore 0 (fun x => { x with l1 := [{ pa := 0x1048, val := 5 }] }) with
  dies := lines.dies.set 0 { (lines.dies.get 0) with lines := [0x1040] } }
theorem witness_HbmController_lines : ((releasedRow.hbm 0).captured = [(3, 6, 0)] ∧ 0 < bits (releasedRow.hbm 0).rhctl 0 24
      ∧ ((releasedRow.hbm 0).llc.all fun y => ((releasedRow.hbm 0).rowLines 0 3 6).contains y.pa && y.dirty != 0) = true)
    ∧ runsOf 15 = [4] ∧ (captures.hbm 0).captured = []
    ∧ (((captures.hbm 0).activate (Machine.bankOf (captures.hbm 0).inForce 0x1040) (rowOf 0x1040)).captured.length = 1)
    ∧ (windowed.sidecarAt 0x1040).isSome = true ∧ (lines.sidecarAt 0x1040).isNone = true ∧ lines.arg.id < 2 ∧ (0 < 8 ∧ 0x1040 + 8 ≤ 0x1040 + 64)
    ∧ (15 &&& 15 = 15 ∧ 0 &&& sectorsOf 0x1040 0x1040 8 ≠ sectorsOf 0x1040 0x1040 8)
    ∧ ((cached.core 0).l1.any fun b => b.pa / 64 * 64 == 0x1040) = true ∧ (cached.dies.get 0).lines.contains 0x1040 = true ∧ poisonUnit 0x1040 = 64
    ∧ ¬ (bits 0x4810#64 8 8 < bits (lines.hbm 0).llcpart 8 8) ∧ (lines.hbm 0).captured.drop ((lines.hbm 0).captured.length - bits 0x4810#64 0 8 * 1024) = (lines.hbm 0).captured := by
  and_intros <;> decide +kernel

/-- Runs of a line that go to HBM, with its free choices named: whether the data were corrected, and whether the row is activated. -/
def requestOf (s : State) (fixed act : Bool) : State :=
  let s' := s.tick.tick.updHbm 0 fun x => { x.request (pseudoChannel x.inForce 0x1040) 4 with herr := if fixed then count2 x.herr 1 0 else x.herr }
  if !act then s' else (s'.updHbm 0 fun x => x.activate (Machine.bankOf x.inForce 0x1040) (rowOf 0x1040)).rowsMoved 0 (s'.hbm 0).captured
/-- Whatever they are, one activation of a row that has not been counted captures nothing. -/
theorem witness_HbmController_runs : ∃ t, exec .hbmActivation { lines with arg := { n := 0x1040, u := 15, id := 4 } } = .next t
    ∧ (t.hbm 0).captured = (lines.hbm 0).captured := by
  let s : State := { lines with arg := { n := 0x1040, u := 15, id := 4 } }
  refine ⟨requestOf s (s.tick.pick 2 == 0) (s.pick 2 == 0), rfl, ?_⟩
  have : ∀ f a, ((requestOf s f a).hbm 0).captured = (lines.hbm 0).captured := by decide +kernel
  exact this _ _

theorem witness_HbmController : (counting.tracker.find? fun t => t.1 == 3).isSome = true ∧ bits counting.rhctl 32 24 = 0x2000 ∧ 0 < counting.capacity
    ∧ (counting.capacity = 0x10 * 1024 ∧ ({ counting with llcpart := 0x4000 } : HbmCtl).capacity = 0 ∧ (((counting.tracker.find? fun t => t.1 == 3).map (·.2)).getD []).length = 16)
    ∧ bit ((stack 1 {}).hbm 0).hctl 0 = true ∧ bit ((stack 0 {}).hbm 0).hctl 4 = false ∧ bit ((stack 0x12 {}).hbm 0).hctl 4 = true ∧ bit ((stack 2 {}).hbm 0).hctl 1 = true
    ∧ ((stack 1 {}).arg.u = 0 ∧ stackBusy.arg.u ≠ 0 ∧ (stackBusy.agenda.any fun e => e.row == .hbmActivation && e.arg.d == 0) = true
      ∧ ((stack 1 { u := 1 }).agenda.any fun e => e.row == .hbmActivation && e.arg.d == 0) = false)
    ∧ ((lines.hbm 0).llc.any (·.pa == 0x1040) = true ∧ sectorsOf 0x1040 0x1050 16 = 2 ∧ (1 : Nat) &&& 2 ≠ 2 ∧ (lines.hbm 0).llc.length < (lines.hbm 0).general
      ∧ ((lines.hbm 0).captured.all fun c => !(c.1 == Machine.bankOf (lines.hbm 0).inForce 0x1040 && c.2.1 == rowOf 0x1040)) = true
      ∧ 0x1040 + 8 ≤ 0x1040 / 64 * 64 + 64)
    ∧ (psDecode 0x9100 = none ∧ (psDecode 0).isSome = true ∧ poisonUnit 0x1040 = poisonUnit 0x1047)
    ∧ (lines.hbm 0).llc.length ≤ (128 - bits 0x2010#64 8 8 - bits 0x2010#64 0 8) * 16384
    ∧ (bits 0x10000#64 16 48 ≠ 0) ∧ ¬ (bits 0x4010#64 16 48 ≠ 0 ∨ 16 < bits 0x4010#64 0 8 ∨ 112 < bits 0x4010#64 8 8 + bits 0x4010#64 0 8)
    ∧ (stack 0 {}).llcUsed 0 ≤ 0x40 * 16 ∧ (bits 2#64 1 11 ≠ 0) ∧ (bits 0x1000#64 52 12 = 0 ∧ bits 0x1000#64 1 11 = 0 ∧ bit 0x1000#64 0 = false)
    ∧ ((base.handle 0).st = 0 ∧ (base.handle 0).flipp = false ∧ base.currentDie 0 = none ∧ base.residentDie 0 = none) ∧ (handled.handle 7).st = 2 := by
  and_intros <;> decide +kernel

/-- R428, R429: one more activation of row 8 captures it; R377, R378: quiesce, its completion and a refused remap; R406: an uncorrectable line is poisoned. -/
theorem test_hbm : (counting.activate 3 8).captured = [(3, 8, 0)] ∧ (counting.activate 3 6).captured = []
    ∧ ((outOf (exec .hctlQuiesce (stack 0 {}))).hbm 0).hctl = 1 ∧ ((outOf (exec .hctlQuiesceComplete (stack 1 { u := 1 }))).hbm 0).hctl = 3
    ∧ ((outOf (exec .hctlRemap (stack 1 {}))).hbm 0).hctl = 0x21 ∧ (outOf (exec .hbmUncorrectable (stack 0 { n := 0x1044 }))).poisoned 0x1040 1 = true := by decide +kernel

/-- Logical block 0 of stack 0 with page 0 written, and page 1 failed; a command of one page, to HBM at 0x8000. -/
def flash (w0 w1 w2 : Word) : State := { base with
  bases := base.bases.set 0 { (base.base 0) with nl := { blocks := [{ written := 2, failed := [1] }], pages := [(0, 0x5A)] } }
  arg := { w0 := w0, w1 := w1, w2 := w2, w3 := 0x9000 }
  pw := { base.pw with ready := true, pstate := 0 } }
/-- STATUS and RESULT that a command's end is to report. -/
def nlEnd (o : Out) : Option (Nat × Nat) := ((outOf o).agenda.find? fun e => e.row == .nolnusCommandDone).map fun e => (e.arg.n, e.arg.w0.toNat)
/-- Block 0 under relocation from physical block 0 to 5, with a page read open at block 9, and a block left behind. -/
def flashMoving (w0 : Word) : State := { flash w0 0x8000 0 with
  bases := base.bases.set 0 { (base.base 0) with nl := { blocks := [{ written := 2, failed := [1] }], moving := [(0, 5)], stale := [(9, true)], open_ := [{ phys := 9 }] } } }
theorem witness_FlashCommands : (bits 0x10000#64 8 8 = 0 ∧ nlCount { w0 := 0x10000 } = 1 ∧ nlLfa { w0 := 0x10000 } = 0 ∧ nlLfa { w0 := 0x100010000 } = 1 ∧ nlCount {} = 0)
    ∧ ((flash 0 0 0).blockOf 0).isSome = true ∧ (flash 0 0 0).pageOk 0 = true ∧ ((flash 0 0 0).blockOf 1).map (fun x => x.2.failed) = some [1] ∧ (flash 0 0 0).blockOf 512 = none
    ∧ ((flashMoving 0x10001).nlWaits (flashMoving 0x10001).arg = true ∧ (flash 0x10001 0x8000 0).nlWaits (flash 0x10001 0x8000 0).arg = false)
    ∧ (flash 0x10001 0x8000 0).yieldsAt ((flash 0x10001 0x8000 0).stamp (baseWriter 0 10)) 0x8000 pageSize = 0
    ∧ (((flashMoving 0).base 0).nl.moving.find? (fun m => m.1 == 0)).isSome = true ∧ ((flash 0 0 0).base 0).nl.moving = []
    ∧ (((flashMoving 0).base 0).nl.open_.any fun r => r.lfa == 0 && r.phys != 0 && !r.failed) = true ∧ ((flash 0 0 0).base 0).nl.open_ = []
    ∧ bits (({ nlctl := 1 } : Nolnus).nlctl) 0 32 ≤ countOf ({} : Nolnus).reads 0 + 1
    ∧ ((flash 0 0 0).base 0).nl.spare ≠ 0 ∧ ({ spare := 0 } : Nolnus).spare = 0 ∧ (flash 0 0 0).blockBusy 0 = false ∧ handled.blockBusy 0 = true ∧ (flash 0 0 0).flashStack 0 = some 0 ∧ (flash 0 0 0).flashStack 1 = none
    ∧ ((flash 0 0 0).base 0).nl.spread = false ∧ ((flash 0 0 0).base 0).nl.nlhead = ((flash 0 0 0).base 0).nl.nltail ∧ (base.base 0).nl.block 0 = none
    ∧ inMemory (flash 0 0 0).arg.w3.toNat 32 = true ∧ (flash 0 0 0).flashOn = true ∧ base.flashOn = false ∧ (flash 0 0 0).readsAhead 0 4 = false
    ∧ (flashMoving 0).readsAhead 0 4 = true ∧ (((flash 0 0 0).blockOf 0).map fun x => x.2.failed.contains 0) = some false
    ∧ (((flashMoving 0).blockOf 0).map fun x => (((flashMoving 0).base 0).nl.open_.any fun r => r.lfa == 0 && r.phys != x.2.phys && !r.failed)) = some true
    ∧ ({ nltail := 1 } : Nolnus).nlhead ≠ ({ nltail := 1 } : Nolnus).nltail := by
  and_intros <;> decide +kernel

/-- R436: a page beyond the blocks, a page that failed, a page that has been written, and an encoding that is reserved. -/
theorem test_flash : [nlEnd (exec .nolnusRead (flash 0x20000010000 0x8000 0)), nlEnd (exec .nolnusWrite (flash 0x10000 0x8000 0)), nlEnd (exec .nolnusRead (flash 0 0x8000 0)),
    nlEnd (exec .nolnusFree (flash 0x20000010000 0 0)), nlEnd (exec .nolnusFree (flash 0x10000 0 0))] = [some (2, 0), some (3, 0), some (1, 0), some (2, 0), some (0, 0)] := by decide +kernel

end Sys2Proof.Tests
namespace Sys2Proof.Tests

open Sys2Proof Sys2Proof.Machine

/-! ## Choices over long lists -/

theorem minOf_mem {α : Type} (f : α → Nat) : ∀ l : List α, l ≠ [] → ∃ x ∈ l, minOf f l = some (f x)
  | [], h => absurd rfl h
  | x :: xs, _ => by
    cases xs with
    | nil => exact ⟨x, by simp, rfl⟩
    | cons y ys =>
      obtain ⟨z, hz, e⟩ := minOf_mem f (y :: ys) (by simp)
      unfold minOf
      rw [e]
      rcases Nat.le_total (f x) (f z) with h | h
      · exact ⟨x, by simp, by simp [Nat.min_eq_left h]⟩
      · exact ⟨z, List.mem_cons_of_mem _ hz, by simp [Nat.min_eq_right h]⟩

/-- A stack with a free block has a least worn one: the premises of FlashCommands that name it are met. -/
theorem leastWorn_isSome {n : Nolnus} {p : Nat} (h : p ∈ n.freePhys) : n.leastWorn.isSome = true := by
  obtain ⟨x, hx, e⟩ := minOf_mem (countOf n.erases) n.freePhys (List.ne_nil_of_mem h)
  unfold Nolnus.leastWorn
  simp only [e, Option.bind_some]
  rw [List.find?_isSome]
  exact ⟨x, hx, by simp⟩
theorem witness_FlashCommands_leastWorn : ((flash 0 0 0).base 0).nl.leastWorn.isSome = true :=
  leastWorn_isSome (p := 1) (List.mem_filter.mpr ⟨List.mem_range.mpr (by decide), by decide +kernel⟩)

/-- Fresh blocks are found while the stack has room and the first logical blocks are free. -/
theorem flashAlloc_isSome {s : State} {d : DieId} {n : Nat} (h : (s.base d).nl.blocks.length + n ≤ min stackBlocks (physBlocks - (s.base d).nl.retired.length - (s.base d).nl.moving.length - (s.base d).nl.stale.length))
    (hn : n ≤ logicalBlocks) (hf : ((List.range n).all fun j => (s.flashStack (0 + j)).isNone) = true) : (s.flashAlloc d n).isSome = true := by
  unfold State.flashAlloc
  have e : ((List.range (logicalBlocks + 1 - n)).filter fun b => (List.range n).all fun j => (s.flashStack (b + j)).isNone).isEmpty = false := by
    rw [List.isEmpty_eq_false_iff]
    exact List.ne_nil_of_mem (List.mem_filter.mpr ⟨List.mem_range.mpr (by omega), hf⟩)
  simp only [e]
  rw [if_neg (by simp; omega)]
  rfl

/-! ## The loader and the expert maps -/

/-- A shard of 512 bytes of zeros for handle 6. -/
def shard : Shard := { handle := 6, codelen := 512, src := 0x50000000, digest := sha3 0 512 }
/-- The loader in a phase of generation 1 with shards; an argument. -/
def loading (ph : Nat) (l : List Shard) (a : Arg) : State := { handled with ld := { handled.ld with phase := ph, gen := 1, shards := l, nlayer := 2 }, arg := a }
/-- The same in roll mode. -/
def rolling (l : List Shard) (a : Arg) : State := { loading 4 l a with ld := { (loading 4 l a).ld with ldctl := 4, roll := true } }
/-- Handle 6 with a staged value. -/
def stagedHandle (s : State) : State := { s with handles := [(6, { size := 1, staged := some (1, 512, none) })] }
/-- A map of version 1 stands at 0x10_0040: one layer of one expert, handle 6. -/
def mapped : State := { handled with
  arg := { w0 := 0x100040 }
  mem := Memory.write (Memory.write (Memory.write handled.mem 0x100040 64 (1 + (1 <<< 32) + (0x100080 <<< 64))) 0x100080 16 (1 + (0x1000C0 <<< 64))) 0x1000C0 4 6 }
/-- Handle 6 is nonresident and of the value of handle 7, which is resident. -/
def migrating (a : Arg) : State := { handled with handles := [(6, { size := 1, version := 4 }), (7, { size := 1, st := 2, version := 4 })], arg := { a with h := 6, w0 := 7 } }
/-- The same while slot 1 fills. -/
def migrated : State := { migrating { u := 1, n := 1 } with
  handles := [(6, { size := 1, version := 4, st := 1, slot := 1, shape := some (64, false) }), (7, { size := 1, st := 2, version := 4 })]
  bases := handled.bases.set 0 { (handled.base 0) with slots := [{ st := .resident, handle := 7 }, { st := .filling, handle := 6 }] } }

theorem witness_LoaderAndMaps : (base.ld.phase = 0 ∧ base.arg.u = 0 ∧ base.readManifest base.ld.ldman.toNat = none) ∧ (loading 2 [shard] { u := 1, id := 1 }).ld.shards[0]? = some shard
    ∧ (inHbm shard.src shard.bytes = true ∧ base.poisoned shard.src shard.bytes = false ∧ inHbm 0x8000000000 512 = false)
    ∧ ((handled.base 0).nl.spare ≠ 0 ∧ handled.residentDie 6 = some 0)
    ∧ (handled.flashAlloc 0 (ceilDiv shard.pages 512)).isSome = true
    ∧ ((loading 2 [shard] { id := 1 }).ld.phase = 2 ∧ (loading 2 [shard] { id := 1 }).ld.gen = (loading 2 [shard] { id := 1 }).arg.id) ∧ handled.admittedRun = false
    ∧ ((rolling [shard] { u := 2, id := 1 }).ld.layer.toNat + 1 < (rolling [shard] { u := 2, id := 1 }).ld.nlayer ∧ bit (rolling [shard] {}).ld.ldctl 2 = true ∧ (rolling [shard] {}).ld.roll = true ∧ (loading 4 [shard] {}).ld.roll = false)
    ∧ (stagedHandle (loading 4 [shard] { u := 2, id := 1 })).handle 6 ≠ handled.handle 6 ∧ ((handled.handle 6).staged = none)
    ∧ (loading 4 [shard] { u := 3, id := 1 }).oldBlocks = [] :=
  ⟨by decide +kernel, rfl, by decide +kernel, by decide +kernel,
    flashAlloc_isSome (by decide +kernel) (by decide +kernel) (by decide +kernel),
    by decide +kernel, by decide +kernel, by decide +kernel, by decide +kernel, by decide +kernel, by decide +kernel⟩
theorem witness_LoaderAndMaps_staging : sha3 (handled.homeRead shard.src shard.bytes) shard.bytes = shard.digest
    ∧ (loading 4 [{ shard with old := 0, oldLen := 1 }] {}).oldBlocks = [0] ∧ handled.blockBusy 0 = true :=
  ⟨(congrArg (fun v => sha3 v shard.bytes) (show handled.homeRead shard.src shard.bytes = 0 by decide +kernel)).trans
      (congrArg (sha3 0) (show shard.bytes = 512 by decide +kernel)), by decide +kernel, by decide +kernel⟩
theorem witness_LoaderAndMaps_maps : handled.readMap 0x8000000000 = none ∧ (mapped.readMap 0x100040).map (fun m => (m.ver, m.layers)) = some (1, [[6]]) ∧ (mapped.handle 6).size ≠ 0
    ∧ (migrating {}).residentDie 6 = some 0 ∧ ((migrating {}).base 0).awaits 6 = false
    ∧ ((List.range ((migrating {}).base 0).slots.length).find? fun i => (((migrating {}).base 0).slot i).st == .free) = some 1
    ∧ ((migrated.base 0).slot 1).st = .filling ∧ (migrated.waitersOf 6 = [] ∧ (migrated.handle 6).st = 1)
    ∧ (let pa := (migrated.base 0).slotPa 1
       let v := migrated.partyReads (baseWriter 0 7) [((migrated.base 0).slotPa 0, 64)]
       v.yieldsAt (v.stamp (baseWriter 0 7)) pa 64 = 0 ∧ migrated.poisoned ((migrated.base 0).slotPa 0) 64 = false) := by
  and_intros <;> decide +kernel

/-- R441, R443, R445: an unreadable manifest aborts with reason 1, LDABORT with 5; a map is installed; a resident copy fills a new slot. -/
theorem test_loader : ((outOf (exec .loaderGo base)).ld.phase, (outOf (exec .loaderGo base)).ld.reason) = (6, 1)
    ∧ (outOf (exec .loaderAbort (loading 2 [shard] {}))).ld.reason = 5 ∧ (outOf (exec .stagetExpiry (loading 2 [shard] { id := 1 }))).ld.reason = 3
    ∧ (outOf (exec .mapnextInstall mapped)).ld.mapcur = 1 ∧ ((outOf (exec .migrationFill migrated)).handle 6).st = 2 := by decide +kernel

/-! ## Power -/

/-- Power state with an argument. -/
def power (p : Power) (a : Arg) : State := { base with pw := p, arg := a }
/-- Island 0 changed. -/
def island0 (f : Island → Island) : Power := { base.pw with pstate := 0, islands := base.pw.islands.set 0 (f {}) }
theorem witness_PowerEvents : ((power { base.pw with pstate := 1 } {}).forcedLevel 0 = some 4 ∧ (power { base.pw with pstate := 2 } {}).forcedLevel 0 = some 0)
    ∧ ((power (island0 fun x => { x with hold := true }) {}).forcedLevel 0 = some 8 ∧ (power { island0 id with save := 1 } {}).forcedLevel 0 = some 8)
    ∧ ((power (island0 fun x => { x with caplvl := 12 }) {}).forcedLevel 0 = some (stepDown 14) ∧ (power (island0 fun x => { x with level := 12 }) {}).forcedLevel 0 = some (stepUp 12))
    ∧ (power (island0 id) {}).forcedLevel 0 = none
    ∧ (2 ≤ ((List.range 4).filter fun k => !((power (island0 id) {}).island 0).susp.getLsbD k).length ∧ ((power (island0 id) {}).island 0).susp.getLsbD 4 = false)
    ∧ ((List.range 4).filter fun k => !((power (island0 fun x => { x with susp := 7 }) {}).island 0).susp.getLsbD k).length < 2
    ∧ ((0x0000786E5F460060#64 : Word) = base.pw.pwthr ∧ bits base.pw.pwthr 24 8 = 0x5F ∧ (bits base.pw.pwthr 40 8 : Int) * 100 = 12000)
    ∧ ((placed {}).saveOrder = [9] ∧ (placed {}).haltIssued { place := some (0, 0) } = false ∧ ((placed {}).task 9).map (fun t => (t.preempt, t.restoring, t.gang)) = some (none, false, none))
    ∧ (base.anyResident = false ∧ (placed {}).anyResident = true)
    ∧ ((power (island0 id) {}).psreqRefused 0 = false ∧ (power (island0 id) {}).psreqRefused 1 = false ∧ (power (island0 id) {}).psreqRefused 2 = false
      ∧ (power (island0 id) {}).psreqRefused 3 = false ∧ (placed {}).psreqRefused 3 = true ∧ (power { base.pw with waking := true } {}).psreqRefused 0 = true)
    ∧ (bits base.pw.pwctl 0 2 = 1 ∧ (power { base.pw with waking := true, started := 1 } {}).forcedLevel 0 = some 8 ∧ (power { base.pw with save := 3 } {}).forcedLevel 0 = some 0)
    ∧ (((power (island0 fun x => { x with level := 0, next := 8 }) {}).island (islandOf 0)).level = 0 ∧ ((power (island0 fun x => { x with level := 0, next := 8 }) {}).island (islandOf 0)).next ≠ 0)
    ∧ ((power { base.pw with reason := 7, saving := [9] } {}).pw.reason ≠ 0 ∧ (power { base.pw with reason := 7, saving := [9] } {}).pw.save ≠ 3) := by
  decide +kernel
/-- Saves, trips and power: what is early, late and off; a snapshot command that has built nothing; a boot area of which neither copy verifies. -/
theorem witness_PowerEvents_states : ((power { island0 id with save := 1 } {}).pw.save = 1 ∧ (power { base.pw with pstate := 3, waking := false } {}).diePower = false
      ∧ (power (island0 id) {}).pw.save = 0 ∧ (power (island0 id) {}).diePower = true)
    ∧ (((placed { preempt := some 1 }).task 9).map fun t => (t.preempt.isSome, t.place.isSome, t.restoring)) = some (true, true, false)
    ∧ (placed { preempt := some 1 }).haltIssued { place := some (0, 0) } = false
    ∧ ((snapping {}).tree.cmds.all (·.built.isNone)) = true ∧ (snapping {}).tree.cmds ≠ []
    ∧ ({ root := 9 } : Firmware).verifies = false
    ∧ ((power { base.pw with pstate := 3 } {}).psreqRefused 0 = false ∨ (power { base.pw with pstate := 3, waking := false } {}).psreqRefused 0 = false)
    ∧ ((power { island0 id with save := 3 } {}).psreqRefused 0 = false ∧ (power { island0 id with save := 3 } {}).cooled = true)
    ∧ (power (island0 id) {}).here.ewold.1 ≤ (power (island0 id) {}).cyc 0
    ∧ ((power { island0 id with waking := true, started := 128 } {}).forcedLevel 0 = none ∧ (power { island0 id with waking := true, started := 128, save := 1 } {}).forcedLevel 0 = some 8)
    ∧ ((power { island0 id with pwctl := 1 } {}).pw.pstate = 0 ∧ (power { island0 id with pwctl := 1 } {}).anyResident = false) := by
  and_intros <;> decide +kernel

/-- R449, R458-R462: a trip counts and forces level 0; a reset keeps the trip count; one island more starts, and its level comes at the boundary; the last step makes the package ready. -/
theorem test_power : (let t := outOf (exec .hardTrip (power (island0 id) { isl := 3 })); (t.pw.save, t.pw.trips, t.pw.tripisl, (t.island 0).level)) = (3, 1, 3, 0)
    ∧ (outOf (exec .moduleReset (power { base.pw with trips := 5 } {}))).pw.trips = 5
    ∧ (outOf (exec .powerUp (power (island0 fun x => { x with level := 0 }) { u := 8 }))).pw.started = 1
    ∧ ((outOf (exec .boostBoundary (power (island0 fun x => { x with level := 0, next := 8 }) { u := 1 }))).island 0).level = 8
    ∧ (outOf (exec .powerUp (power base.pw { u := 151 }))).pw.ready = true ∧ (outOf (exec .psreqWrite (power (island0 id) { w0 := 3 }))).pw.pstate = 3
    ∧ (outOf (exec .clrhold (power (island0 fun x => { x with hold := true }) {}))).pw.islands[0].hold = false := by decide +kernel

/-! ## Security and ports -/

/-- The host's mailbox with a claim of 1000 ms without a key; and with an attestation request; DOOR is 1 in both. -/
def claimMail : List Host.Cell := Memory.write (Memory.write [] 0 12 (0x444C4D42 + (1 <<< 32) + (0xFFFF <<< 48) + (1000 <<< 64))) 0x1F08 8 1
def attestMail : List Host.Cell := Memory.write (Memory.write [] 0 12 (0x444C4D42 + (2 <<< 32) + (0xFFFF <<< 48))) 0x1F08 8 1
/-- A package whose firmware has been verified and whose CLNONCE is 0, with an argument. -/
def secured (f : Security → Security) (a : Arg) : State := { base with sec := f { base.sec with clnonce := 0, fw := some 0 }, pw := { base.pw with pstate := 0 }, arg := a }
/-- SECARG points at a request in HBM: a number of 64 bytes. -/
def askSec (v : Nat) (f : Security → Security) : State := { secured (fun x => f { x with secarg := 0x100040 }) {} with mem := Memory.write base.mem 0x100040 64 v }
/-- An attestation request of 128 bytes with no signer. -/
def askAttest : State := askSec (1 + (0xFFFF <<< 16) + (0x80 <<< 32)) id
theorem witness_SecurityAndPorts_commands : (askAttest.headerGood (askAttest.secRequest 0x80) 1 0x80 0 = true ∧ signerOf (askAttest.secRequest 0x80) = 0xFFFF
      ∧ reqField (askAttest.secRequest 0x80) 0x10 0x30 = 0 ∧ inHbm (0x100040 + 0x80) reportBytes = true)
    ∧ base.headerGood (base.secRequest 0x80) 1 0x80 0 = false
    ∧ (let s := askSec (2 + (0xFFFF <<< 16) + (0xA60 <<< 32) + (4 <<< 128) + (1 <<< 136)) id
       let r := s.secRequest (0xA60 + signatureBytes)
       s.headerGood r 2 0xA60 s.sec.clnonce = true ∧ reqField r 0x10 1 = 4 ∧ reqField r 0x11 1 = 1 ∧ reqField r 0x12 0x2E = 0 ∧ s.ownerKeys = [] ∧ s.ownerKey 4 = false)
    ∧ (let s := askSec (3 + (4 <<< 16) + (0x1253 <<< 32) + (5 <<< 128)) fun x => { x with keys := (x.keys.set 4 { used := true, usage := 1 }).set 5 { used := true, usage := 1 } }
       let r := s.secRequest (0x40 + signatureBytes)
       s.headerGood r 3 (0x40 + signatureBytes) 0 = true ∧ reqField r 0x10 1 = 5 ∧ s.ownerKey (signerOf r) = true ∧ s.ownerKeys ≠ [5] ∧ (s.sec.keys.toList.getD 5 {}).used = true)
    ∧ ((secured id {}).sec.life = 0 ∧ (secured id {}).pw.pstate < 2)
    ∧ askAttest.yieldsAt (askAttest.stamp securityWriter) (0x100040 + 0x80) reportBytes = 0 := by
  decide +kernel

theorem witness_SecurityAndPorts_mailboxes : ((secured (fun x => { x with mboxes := #v[claimMail, [], []] }) {}).judgeClaim .host 0 = none)
    ∧ ((secured id {}).judgeClaim .host 0 = some 1) ∧ ((secured id {}).sec.life ≠ 3 ∧ (secured id {}).sec.fw ≠ none) ∧ (secured (fun x => { x with fw := none }) {}).sec.fw = none
    ∧ (let s := secured (fun x => { x with bootFail := true, mboxes := #v[[], [], claimMail] }) { m := .mgmt }
       s.arg.m.number = some 2 ∧ s.sec.bootFail = true ∧ s.mboxRead 2 4 1 ≠ 2)
    ∧ (let s := secured (fun x => { x with mboxes := #v[attestMail, [], []] }) {}
       s.requestGood 0 2 = true ∧ s.mboxRead 0 6 2 = 0xFFFF ∧ s.mboxRead 0 8 4 = 0 ∧ s.mboxRead 0 0x10 8 = 0 ∧ s.mboxRead 0 0x100 signatureBytes = 0)
    ∧ (let s := secured (fun x => { x with owner := some .host, leaseTo := 7, hand := some (.mgmt, 7) }) { m := .host, w0 := 1000, n := 7 }
       s.sec.owner = some s.arg.m ∧ 100 ≤ bits s.arg.w0 0 32 ∧ bits s.arg.w0 32 32 = 0 ∧ s.sec.leaseTo = s.arg.n)
    ∧ (masterOf (bits 0x102#64 0 2) = some .mgmt ∧ bit 0x102#64 8 = true ∧ masterOf (bits 3#64 0 2) = none) := by
  decide +kernel

/-- Unit 0 of the window maps 0x10_0000; the host owns the package; peer 0 (address 5, 6) reaches unit 0 and queue 0. -/
def ported (a : Arg) (np : Word) : State := { secured (fun x => { x with owner := some .host }) a with
  bel := { base.bel with bfctl := base.bel.bfctl, hwmap := [(0, 0x100001#64)] }
  net := { base.net with netctl := 1, peers := base.net.peers.set 0 { addrh := 5, addrl := 6, npq := 1, npctl := np } } }
/-- Queue 0 enabled, with its ring where the Belfry may write. -/
def sendable : State := (belfry 0 0 0 0 id).updQueue 0 fun q => { q with qring := 0x104000#64, qctl := 0x480#64, qtail := 0, qhead := 0, stale := false }
theorem witness_SecurityAndPorts_ports : (physClass 0x100040 ≠ .control ∧ physClass (ctlStart + 0x80008) = .control ∧ readForm (ctlStart + 0x80008) 8 = true ∧ readForm (ctlStart + 4) 8 = false)
    ∧ ((ported {} 0).ownMailbox .host (ctlStart + 0x80008) = false ∧ (ported {} 0).booted = true ∧ (ported {} 0).restricted = false)
    ∧ (within 0x100000 0x01FFFFFFFFFFFFC0 = true ∧ within 1 0x01FFFFFFFFFFFFC0 = false) ∧ secRow (bits 1#64 0 8) = some .attest
    ∧ (bit ((ported {} 0).bel.unit 0) 0 = true ∧ bit (({ (ported {} 0) with bel := { base.bel with hwmap := [(0, 0)] } } : State).bel.unit 0) 0 = false ∧ (ported {} 0).poisoned 0x100000 8 = false)
    ∧ ((ported {} 0).hbmServes = true ∧ (secured (fun x => { x with life := 3 }) {}).hbmServes = false)
    ∧ (bit (ported {} 0x100000005#64).net.netctl 0 = true ∧ bit ((ported {} 0x100000005#64).net.peers.get 0).npctl 0 = true ∧ bit ((ported {} 0x100000005#64).net.peers.get 0).npctl 2 = true)
    ∧ ((ported {} 0).debugReads 0x100000 8 = true ∧ (ported {} 0).debugReads (ctlStart + 8) 8 = false)
    ∧ ((ported {} 0).debugReads (winBase 0) 8 = true ∧ ((ported {} 0).core (winCore (winBase 0))).lentTo = none)
    ∧ (((ported {} 0).unitsRead ((ported {} 0).bel.unitSegs 0x40 8)).2 = false ∧ ((ported {} 0).bel.unitSegs 0xFFFFFFC 8).length = 2)
    ∧ ((ported {} 0).yieldsAt ((ported {} 0).stamp hostWriter) 0x100040 8 = 0 ∧ (ported {} 0).yieldsAt ((ported {} 0).stamp netWriter) 0x100040 8 = 0)
    ∧ (firmwareOnly .host false (ctlStart + 0x80008) = false ∧ (blockAt (ctlDie (ctlStart + 0x80008)) (ctlOff (ctlStart + 0x80008))).1 ≠ .tree)
    ∧ (bits 0x100#64 2 6 = 0 ∧ bits 0x100#64 9 55 = 0 ∧ bits 0x104#64 2 6 ≠ 0)
    ∧ ((ported { w0 := 5, w1 := 6 } 0x100000001#64).netPeer = some 0 ∧ (ported {} 0x100000001#64).netPeer = none)
    ∧ (bit 0x100000005#64 2 = true ∧ bit 0x100000001#64 1 = false ∧ ((ported {} 0x100000001#64).net.peers.get 0).reaches 0x40 8 = true
      ∧ ((ported {} 0x100000001#64).net.peers.get 0).reaches (2 ^ 28) 8 = false ∧ ((ported {} 0x100000001#64).net.peers.get 0).reaches 0 0 = false)
    ∧ (sendable.appendEntries 0 0 1 1).isSome = true ∧ (((sendable.updQueue 0 fun q => { q with qring := 0x300000#64 }).appendEntries 0 0 1 1).isNone = true) := by
  and_intros <;> decide +kernel

/-- R465, R469, R471, R475: a claim is granted; a lease lapses; who is not the owner is counted; a peer's write lands, and a stranger's is rejected. -/
theorem test_security : (outOf (exec .ownershipClaim (secured (fun x => { x with mboxes := #v[claimMail, [], []] }) {}))).sec.owner = some .host
    ∧ (outOf (exec .leaseExpiry (secured (fun x => { x with owner := some .host, leaseTo := 7 }) { n := 7 }))).sec.owner = none
    ∧ (outOf (exec .hwmapWrite (secured id { u := 3, w0 := 1 }))).sec.ownref = 1 ∧ (outOf (exec .hwmapWrite (ported { u := 3, w0 := 1 } 0))).bel.unit 3 = 1
    ∧ Memory.read (outOf (exec .netWrite (ported { w0 := 5, w1 := 6, u := 0x40, bytes := [7] } 0x100000001#64))).mem 0x100040 1 = 7
    ∧ (outOf (exec .netWrite (ported { u := 0x40, bytes := [7] } 0x100000001#64))).net.reject = 1 := by decide +kernel

/-! ## A gang's partial sums -/

/-- R99, R309: 17 values travel as two groups, of 50 and 52 bytes (deltas 0 and 0, then a delta of 1 beside the padding), and come back whole; the
sums 1 and 3 of die 0 and 2 of die 1 add up to 6. -/
theorem test_partial_sums : (psPack 2 (List.replicate 16 0x3F800000 ++ [0x40000000])).2 = 102
    ∧ (psUnpack 2 17 (psPack 2 (List.replicate 16 0x3F800000 ++ [0x40000000])).1) = some (List.replicate 16 0x3F800000 ++ [0x40000000])
    ∧ gangSum [(0, 0x3F800000), (1, 0x40000000), (0, 0x40400000)] = 0x40C00000 := by decide +kernel

/-! ## Words, the step's invariant, reset -/

/-- The premises of the round trip and of the step's invariant. -/
theorem witness_EncodeDecodeRoundTrip : (Instr.add 0 0 5 3 4).wf = true ∧ encode (.add 0 0 5 3 4) = some 0x000050C4#32
    ∧ (match decodeSlot 0xE0000000#32 with | .ok .nop => true | _ => false) = true ∧ (Instr.bundleIssue.wf = true ∧ encode .bundleIssue = none) := by
  decide +kernel
theorem witness_StepKeepsMemory : State.reset.MemOk ∧ base.MemOk ∧ mapped.MemOk := by unfold State.MemOk; decide +kernel

end Sys2Proof.Tests
namespace Sys2Proof.Tests

open Sys2Proof Sys2Proof.Machine

/-! ## Witnesses of further clauses -/

/-- Whether an answer raises a trap. -/
def traps {α : Type} (x : Except Stop α) : Bool :=
  match x with
  | .error (.trap _) => true
  | _ => false

/-- A target entry still being fetched; two levels of which the outer alone holds the target of a RET, both of the returning frame. -/
def unfilled : State := base.updCtl fun c => { c with tg := c.tg.set 1 { valid := true, addr := 0x100200#64 } }
def twoLevels : State := base.updCtl fun c => { c with depth := 2, floor := 2, lv := (c.lv.set 0 { isOpen := true, lstart := 0, lstop := 0x100100#64 }).set 1 { isOpen := true, lcnt := 3, lstart := 0x100200#64, lstop := 0x100300#64 } }
theorem witness_CallsAndReturns_levels : ((unfilled.fr.ctl.tg.get 1).valid = true ∧ (unfilled.fr.ctl.tg.get 1).outRange = false ∧ (unfilled.fr.ctl.tg.get 1).filled = false)
    ∧ Issues (.call 0 1 40) unfilled ∧ Readable twoLevels 7 ∧ (canonical (twoLevels.rdS 7) = true ∧ (twoLevels.rdS 7).getLsbD 3 = false)
    ∧ twoLevels.fr.ctl.depth ≤ twoLevels.fr.ctl.floor ∧ (twoLevels.rdS 7).toNat % 8 ≤ twoLevels.fr.ctl.depth ∧ Issues (.ret 0 7) twoLevels := by
  and_intros <;> first | decide +kernel | exact readable_of (by decide +kernel) | exact issues_of (by decide +kernel)

/-- The place of a nest's next operation, held and free again. -/
def nestPlace : State := { issuing with arg := (issuing.placeHeld 0 .nestBundleIssue).2.arg }
theorem witness_NestsStartAndIssue_places : nestPlace.arg.u = 1 ∧ nestPlace.resumes .nestBundleIssue = true
    ∧ ({ nestPlace with arg := { u := 1, tid := 77 } } : State).resumes .nestBundleIssue = false ∧ nestPlace.placed nestPlace.cur .nestBundleIssue = false
    ∧ ({ nestPlace with barred := [issuing.placeHeld 0 .nestBundleIssue] } : State).placed 0 .nestBundleIssue = true
    ∧ (nestPlace.fr.mat.nest.running = true ∧ nestPlace.fr.mat.nest.ended = false) ∧ issuing.fr.ctl.orderFrom = none := by
  and_intros <;> decide +kernel

/-- A page that maps the core's own register space; its address in S11, with an unaligned end of the address space in S12. -/
def ownSpace : State := (copying.updCore 0 fun x => { x with l1tlb := x.l1tlb ++ [{ va := 0x500000, log := 16, pa := winBase 0, flags := 0x3F#8 }] }).updRegs
  fun r => { r with s := r.s.set 11 0x500000#64 }
theorem witness_CopyCommands_addresses : (canonical (ownSpace.rdS 6) = false ∧ traps (copySide ownSpace (ownSpace.rdS 6) 0 1 64) = true)
    ∧ traps (copySide ownSpace (ownSpace.rdS 11) 0 1 64) = true ∧ isOk (copySide ownSpace (ownSpace.rdS 1) 0 1 64) = true
    ∧ (∀ i ∈ ([.cpy 0 4 6 2, .cpyw 0 4 6 2, .cpym 0 7 6 2, .cpy 0 11 1 2, .cpyw 0 11 1 2, .cpy 0 4 11 2] : List Instr), Issues i ownSpace)
    ∧ (∀ i ∈ ([.cpyw 0 4 1 2, .cpym 0 7 1 2] : List Instr), Issues i fullUnit) := by
  and_intros <;> first | decide +kernel | exact issues_all (by decide +kernel)

/-- A gang of task 9 whose window is closed; a copy to another die; a multicast whose source does not translate, one that has failed; a poisoned source. -/
def farQ : CopyCmd := { plainQ with dst := 0x500000#64 }
def closedWindow : State := { (pieces farQ).updCore 0 (fun x => { x with utlb := Vector.replicate 3 (x.l1tlb ++ [{ va := 0x500000, log := 16, pa := 2 ^ 36, flags := 0x3F#8 }]), l1tlb := x.l1tlb ++ [{ va := 0x500000, log := 16, pa := 2 ^ 36, flags := 0x3F#8 }] }) with
  gangs := [{ gid := 3, members := [9], windows := [(0, 1)] }] }
def lostQ : CopyCmd := { multiQ with src := 0x300000#64 }
def failedMulti : CopyCmd := { multiQ with failed := some { cause := Cause.address }, targets := [(1, 0, true)] }
def badTarget : CopyCmd := { plainQ with dst := 0x300000#64 }
def poisonedSource : State := { pieces plainQ with poison := [(0x100000, 1)] }
theorem witness_CopyUnitAtWork_failures : closedWindow.windowHolds 0 9 (closedWindow.reach 0 ((closedWindow.taskFrame 0 0 9).under 0 0) farQ) = true
    ∧ (farQ.started = false ∧ closedWindow.unitTurn 0 0 0 = none ∧ closedWindow.cmdOf 0 0 5 = some farQ)
    ∧ faults (engineSegs (pieces lostQ) 0 (((pieces lostQ).taskFrame 0 0 9).under 0 0) 0 .read 0x300000 64) = true ∧ (pieces lostQ).cmdOf 0 0 5 = some lostQ
    ∧ ((pieces lostQ).windowHolds 0 9 ((pieces lostQ).reach 0 (((pieces lostQ).taskFrame 0 0 9).under 0 0) lostQ) = false ∧ (pieces lostQ).unitTurn 0 0 0 = none)
    ∧ (faults (engineSegs (pieces badTarget) 0 (((pieces badTarget).taskFrame 0 0 9).under 0 0) 0 .write 0x300000 64) = true ∧ (pieces badTarget).cmdOf 0 0 5 = some badTarget)
    ∧ (match engineSegs poisonedSource 0 ((poisonedSource.taskFrame 0 0 9).under 0 0) 0 .read 0x100000 64 with
        | .ok l => !(poisonedSource.segsBad 0 l).isEmpty
        | .error _ => false) = true
    ∧ (multiQ.targets.any fun t => !t.2.2 && t.2.1 != ({ multiQ with done := 64 } : CopyCmd).done) = true
    ∧ ((pieces failedMulti).cmdOf 0 0 5 = some failedMulti ∧ (failedMulti.targets.any fun t => !t.2.2 && t.2.1 != failedMulti.done) = false
      ∧ (pieces failedMulti).holds 0 0 9 = true ∧ ((pieces failedMulti).frameAt 0 0).ctl.halted = false) := by
  and_intros <;> decide +kernel

/-- A read stream with a result on its way to its queue; an unbound write stream that drains on; an element whose bytes are poisoned. -/
def onItsWay : State := streams.updFr fun f => { f with r := { f.r with streams := f.r.streams.set 0 { (f.r.streams.get 0) with queue := [{ data := 7, tag := 3 }] } } }
def flowing : Outflow := { tid := 9, n := 2, q := { (streams.fr.stream 2) with queue := [{ data := 0x77 }] } }
def outflow : State := { ((filling 2 0 true).updFr fun f => { f with r := { f.r with streams := f.r.streams.set 2 {} } }).updCore 0 (fun x => { x with outq := [flowing] }) with arg := { (filling 2 0 true).arg with tid := 9, u := 2, id := 3 } }
theorem witness_StreamsBindAndUnbind_unbound : ((onItsWay.fr.stream 0).mode = 1 ∧ ((onItsWay.fr.stream 0).queue.any fun y => y.tag != 0) = true ∧ Issues (.sunb 0 0x20) onItsWay)
    ∧ (((filling 2 0 true).fr.stream 2).mode = 2 ∧ ((filling 2 0 true).fr.stream 2).queue ≠ [] ∧ Issues (.sunb 0 0x22) (filling 2 0 true) ∧ Issues (.sunb 0 0x22) streams)
    ∧ ((filling 0 0 true).task 9 = none ∧ (match engineSegs { filling 0 0 true with poison := [(0x100000, 1)] } 0 (filling 0 0 true).fr 0 .read 0x100000 512 with
        | .ok l => (({ filling 0 0 true with poison := [(0x100000, 1)] } : State).segsPoison 0 l).isSome
        | .error _ => false) = true)
    ∧ (flowing.n = Fin.ofNat 16 outflow.arg.u ∧ flowing.tid = outflow.arg.tid ∧ flowing.q.gen = outflow.arg.id ∧ (outflow.core 0).outq = [flowing]
      ∧ outflow.holds 0 0 9 = true ∧ (outflow.fr.stream 2).mode = 0 ∧ flowing.q.stopped = false ∧ flowing.q.queue = [{ data := 0x77 }]
      ∧ outflow.unitTurn 0 0 3 = none ∧ oneSeg (engineSegs outflow 0 (outflow.fr.under 0 0) 0 .write 0x108000 512) 512 = true
      ∧ canonical (elemAddr flowing.q.base flowing.q.counts flowing.q.strides flowing.q.next) = true ∧ outflow.yieldsAt (outflow.stamp (unitWriter 0 0)) 0x108000 512 = 0) := by
  and_intros <;> first | decide +kernel | exact issues_of (by decide +kernel)

/-- R247: what an unbound write stream holds drains on. -/
theorem test_outflow : (let t := outOf (exec .streamDrainWrite outflow)
    (Memory.read t.mem 0x108000 2, (t.core 0).outq)) = (0x77, []) := by decide +kernel

/-- A load of four bytes of core 2's window, and an AADD of 5 in it, whose answers core 0 waits for. -/
def windowLoad (lit : Bool) : State := { (windowStore lit).updFr (fun f => { f with loads := [{ id := 8, dest := .s 8, form := 0, n := 4, ben := firstBytes 8, parts := 1 }] }) with
  wins := [{ id := 5, c := 0, k := 0, pa := winBase 2, n := 4, load := 8 }], mem := Memory.write base.mem (winBase 2) 4 0x11223344 }
def windowAdd (lit : Bool) : State := { (windowStore lit).updFr (fun f => { f with atoms := [{ id := 5, pa := winBase 2, x := 5, dest := 8 }] }) with
  wins := [], mem := Memory.write base.mem (winBase 2) 4 7 }
theorem witness_OwnerBitsAndWindowAccesses_answers : (∀ lit ∈ [true, false], (windowLoad lit).wins.length = 1 ∧ (windowLoad lit).invals = [] ∧ ((windowLoad lit).core 0).atomics = []
      ∧ ((windowLoad lit).frameAt 0 0).loads.map (fun l => (l.id, l.parts)) = [(8, 1)] ∧ ((windowLoad lit).windowRefuses 2 0 4 false (some 0)).isSome = !lit)
    ∧ (((windowLoad true).wins.map fun w => ((windowLoad true).accessBank w 0).isSome) = [true])
    ∧ (∀ lit ∈ [true, false], ((windowAdd lit).frameAt 0 0).atoms.map (fun x => (x.id, x.dead, decide (0 < x.dest ∧ x.dest < 48), (windowAdd lit).mustWait 0 x.id x.oc x.pa 8))
        = [(5, false, true, false)] ∧ ((windowAdd lit).windowRefuses 2 0 8 true (some 0)).isSome = !lit)
    ∧ (windowAdd true).poisonOf (winBase 2) 8 = none := by
  and_intros <;> decide +kernel

/-- R319, R232: the load's bytes come, and the atomic's word is 12 while its destination has the 7. -/
theorem test_window_answers : (outOf (exec .windowAccessArrive (windowLoad true))).fr.loads.map (fun l => (l.parts, l.data.toNat % 2 ^ 32)) = [(0, 0x11223344)]
    ∧ (let t := outOf (exec .atomicComplete (windowAdd true)); (Memory.read t.mem (winBase 2) 8, (t.fr.r.s.get 8).toNat)) = (12, 7) := by decide +kernel

/-- A record spilled to slot 2 of a ring at 0x10_4000, which the base die reaches or not. -/
def spilled (reach : Bool) : State := { (messages true).updFr (fun f => { f with msg := { f.msg with evq := [], spill := [{ slot := 2, ring := 0x104000#64 }] } }) with
  mem := Memory.write base.mem 0x104020 16 0x33, bases := base.bases.set 0 { (base.base 0) with tlb := if reach then base.here.l1tlb else [] } }
def spillBack (s : State) : Except Trap (List (Seg × Walked)) := baseSegs s 0 { s.fr.space with asid := 0, root := 0 } false .read (va57 0x104000#64 + 16 * 2) 16
/-- The gang's barrier of task 9, whose gang has completed its phase or not; a gang that the task is away from. -/
def gangBarrier (phases : Nat) (p : Option (CoreId × Fin 4)) : State := { base.updFr (fun f => { f with msg := { f.msg with
    bars := f.msg.bars.set 15 { armed := true, group := 0x8001, target := 1, arrived := 1 } } }) with
  groups := [{ gid := 0x8001, members := [(9, 0)] }], gangs := [{ gid := 0x8001, members := [9], started := true, phases := phases }]
  tasks := [{ tid := 9, place := p, st := .resident }] }
theorem witness_EventsAndBarriers_gangs : oneSeg (spillBack (spilled true)) 16 = true ∧ faults (spillBack (spilled false)) = true ∧ (spilled true).fr.msg.spill.length = 1
    ∧ (∀ s ∈ [spilled true, spilled false], ∀ i ∈ ([.evpop 0 10] : List Instr), Issues i s)
    ∧ ((gangBarrier 1 (some (0, 0))).whereIs 9 = some (0, 0) ∧ (gangBarrier 1 none).whereIs 9 = none)
    ∧ ((gangBarrier 0 (some (0, 0))).gangs.any fun g => g.gid == 0x8001 && decide (g.phases ≤ 0)) = true
    ∧ ((gangBarrier 1 (some (0, 0))).gangs.any fun g => g.gid == 0x8001 && decide (g.phases ≤ 0)) = false
    ∧ (gangBarrier 1 (some (0, 0))).acquireWaits = false
    ∧ (∀ s ∈ [gangBarrier 1 (some (0, 0)), gangBarrier 0 (some (0, 0)), gangBarrier 1 none], ∀ i ∈ ([.barw 0 15] : List Instr), Issues i s) := by
  and_intros <;> first | decide +kernel | exact issues_each (by decide +kernel)

/-- R326, R306: the record comes back from the ring; the gang's barrier is armed again. -/
theorem test_gang_barrier : ((outOf (exec (.evpop 0 10) (spilled true))).fr.loads.map fun q => q.data.toNat % 2 ^ 64) = [0x33, 0]
    ∧ (let t := outOf (exec (.barw 0 15) (gangBarrier 1 (some (0, 0)))); ((t.fr.msg.bars.get 15).armed, (t.fr.msg.bars.get 15).phase)) = (true, 1) := by decide +kernel

/-- Tasks 9 and 7 in group 10, on cores 0 and 1; task 7 waits at barrier 2 for the group, without the arrival of 9. -/
def parting : State := { leaving.updFrameAt 1 0 (fun f => { f with id := { f.id with valid := true, task := 7 }, msg := { f.msg with
    bars := f.msg.bars.set 2 { armed := true, group := 10, target := 2, arrived := 1 } } }) with
  groups := [{ gid := 10, members := [(9, 0), (7, 1)] }]
  tasks := [{ tid := 9, place := some (0, 0), st := .resident }, { tid := 7, place := some (1, 0), st := .resident }] }
theorem witness_GroupsYieldsAndChecks_leave : parting.extra ≤ parting.fr.ctl.swHeld ∧ ((parting.group 10).map fun g => (g.members.map (·.1), g.has 9)) = some ([9, 7], true)
    ∧ (parting.whereIs 9 = some (0, 0) ∧ parting.whereIs 7 = some (1, 0)) ∧ parting.task 7 ≠ none
    ∧ (∀ i : Fin 16, ¬ ((parting.fr.msg.bars.get i).armed = true ∧ (parting.fr.msg.bars.get i).group = 10)) ∧ Issues (.leave 0 10) parting := by
  and_intros <;> first | decide +kernel | exact issues_of (by decide +kernel) | exact Nat.le_refl _

end Sys2Proof.Tests
end

section
/-! Frame rules: the operations that leave home memory as it is, in the order of their definitions. Each is tagged for `simp`, so that
the memory of a state reads through whatever does not touch it. -/

namespace Sys2Proof.Machine
open Sys2Proof

@[simp] theorem ite_mem (c : Prop) [Decidable c] (s t : State) : (if c then s else t).mem = if c then s.mem else t.mem := apply_ite ..

@[simp] theorem dite_mem (c : Prop) [Decidable c] (s : c → State) (t : ¬ c → State) :
    (if h : c then s h else t h).mem = if h : c then (s h).mem else (t h).mem := apply_dite ..

/-- Whatever it is given, an operation leaves home memory as it is. -/
def LeavesMem {α : Type} (f : State → α → State) : Prop := ∀ s a, (f s a).mem = s.mem

@[simp] theorem leavesMem_iff {α : Type} (f : State → α → State) : LeavesMem f ↔ ∀ s a, (f s a).mem = s.mem := Iff.rfl

/-- A fold of operations that leave home memory as it is leaves it. -/
@[simp] theorem foldl_mem {α : Type} {f : State → α → State} (hf : LeavesMem f) (l : List α) (s : State) :
    (l.foldl f s).mem = s.mem := by
  induction l generalizing s with
  | nil => rfl
  | cons a l ih => rw [List.foldl_cons, ih, hf]

@[simp] theorem accept_mem (ok : Bool) (s t : State) : (accept ok s t).mem = if ok then s.mem else t.mem := ite_mem ..

/-! ### Machine/Memory -/

@[simp] theorem wrote_mem (s : State) (w : Nat) : (s.wrote w).mem = s.mem := rfl

@[simp] theorem observe_mem (s : State) (w : Nat) (l : List Marks) : (s.observe w l).mem = s.mem := by simp [State.observe]

@[simp] theorem hear_mem (s : State) (w : Nat) (l : List Write) : (s.hear w l).mem = s.mem := by simp [State.hear]

@[simp] theorem publish_mem (s : State) (w scope : Nat) : (s.publish w scope).mem = s.mem := rfl

@[simp] theorem learnSeen_mem (s : State) (w scope : Nat) : (s.learnSeen w scope).mem = s.mem := by simp [State.learnSeen]

@[simp] theorem l1Fill_mem (s : State) (c : CoreId) (pa n v : Nat) : (s.l1Fill c pa n v).mem = s.mem := rfl

@[simp] theorem coreWrite_mem (s : State) (c : CoreId) (oc pa n v ben : Nat) : (s.coreWrite c oc pa n v ben).mem = s.mem := rfl

@[simp] theorem released_mem (s : State) (c : CoreId) (scope : Nat) : (s.released c scope).mem = s.mem := by simp [State.released]

@[simp] theorem acquire_mem (s : State) (c : CoreId) (scope : Nat) : (s.acquire c scope).mem = s.mem := by simp [State.acquire]

/-! ### Machine/Ops -/

@[simp] theorem usePorts_mem (s : State) (c : CoreId) (l : List (Nat × Nat × Port)) :
    (s.usePorts c l).mem = s.mem := by simp [State.usePorts]

@[simp] theorem portWrite_mem (s : State) (c : CoreId) (k : Fin 4) (r : Result) : (s.portWrite c k r).mem = s.mem := by
  unfold State.portWrite; split <;> simp

@[simp] theorem result_mem (w : State) (slot : Fin 4) (lat : Nat) (dest : Dest) (ben : Mask) (data : Vec) (unit : Option (Fin 3))
    (by_ : Nat) :
    (w.result slot lat dest ben data unit by_).mem = w.mem :=
  rfl

@[simp] theorem faultTaskAt_mem (s : State) (c : CoreId) (k : Fin 4) (t : Trap) (epc : Word) : (s.faultTaskAt c k t epc).mem = s.mem := by
  simp [State.faultTaskAt]

@[simp] theorem raiseAsync_mem (s : State) (c : CoreId) (k : Fin 4) (t : Trap) :
    (s.raiseAsync c k t).mem = s.mem := by simp [State.raiseAsync]

/-! ### Machine/Translate -/

@[simp] theorem arriveWalk_mem (s : State) (w : Walked) : (s.arriveWalk w).mem = s.mem := by simp [State.arriveWalk]

@[simp] theorem learn_mem (w : State) (l : List (Seg × Walked)) : (w.learn l).mem = w.mem := by simp [State.learn]

/-! ### Machine/Operands -/

@[simp] theorem refill_mem (w : State) (n : Fin 16) (xs : Nat) : (w.refill n xs).mem = w.mem := by
  induction xs generalizing w with
  | zero => rfl
  | succ m ih => unfold State.refill; dsimp only; split <;> simp [ih]

@[simp] theorem refillStreams_mem (w : State) : w.refillStreams.mem = w.mem := by
  simp [State.refillStreams]

@[simp] theorem rebindOne_mem (w : State) (n : Fin 16) (q : Stream) : (w.rebindOne n q).mem = w.mem := by
  unfold State.rebindOne; dsimp only; split <;> simp

@[simp] theorem rebound_mem (w : State) : w.rebound.mem = w.mem := by simp [State.rebound]

/-! ### Machine/Flags -/

@[simp] theorem predResult_mem (c : SlotCtx) (d : BitVec 3) (v : Bool) (w : State) : (predResult c d v w).mem = w.mem := rfl

@[simp] theorem maskResult_mem (c : SlotCtx) (lat : Nat) (d : BitVec 3) (en v : Mask) (w : State) (unit : Nat) :
    (maskResult c lat d en v w unit).mem = w.mem :=
  rfl

/-! ### Machine/Issue -/

@[simp] theorem takePorts_mem (w : State) (l : List Nat) : (w.takePorts l).mem = w.mem := by simp [State.takePorts]

@[simp] theorem runUnit_mem (s : State) (c : CoreId) : (s.runUnit c).mem = s.mem := by unfold State.runUnit; split <;> simp

@[simp] theorem movePrio_mem (s : State) (c : CoreId) : (s.movePrio c).mem = s.mem := rfl

@[simp] theorem countStall_mem (s : State) : s.countStall.mem = s.mem := by simp [State.countStall]

@[simp] theorem stalled_mem (s : State) : s.stalled.mem = s.mem := by unfold State.stalled; dsimp only; split <;> simp

@[simp] theorem noteFirst_mem (s : State) : s.noteFirst.mem = s.mem := by unfold State.noteFirst; dsimp only; (repeat' split) <;> simp

@[simp] theorem issuedNow_mem (s : State) : s.issuedNow.mem = s.mem := by unfold State.issuedNow; dsimp only; split <;> simp

@[simp] theorem switchTo_mem (s : State) (c : CoreId) (j : Fin 4) : (s.switchTo c j).mem = s.mem := rfl

@[simp] theorem yielded_mem (w : State) : w.yielded.mem = w.mem := by unfold State.yielded; dsimp only; split <;> simp

@[simp] theorem csrWrite_mem (w : State) (n : Nat) (x : Word) : (w.csrWrite n x).mem = w.mem := rfl

@[simp] theorem csrWritten_mem (w : State) : w.csrWritten.mem = w.mem := by unfold State.csrWritten; split <;> simp

@[simp] theorem observeUses_mem (w : State) (s : State) (live : List SlotOp) :
    (w.observeUses s live).mem = w.mem := by simp [State.observeUses]

/-! ### Machine/Fetch -/

@[simp] theorem learnFetch_mem (w : State) (c : CoreId) (x : Walked) : (w.learnFetch c x).mem = w.mem := by simp [State.learnFetch]

/-! ### Machine/Access -/

@[simp] theorem engineLearn_mem (w : State) (c : CoreId) (e : Fin 3) (l : List (Seg × Walked)) : (w.engineLearn c e l).mem = w.mem := by
  simp [State.engineLearn]

@[simp] theorem spreadPoison_mem (s : State) (g : Seg) (bad : List (Nat × Nat × Nat)) : (s.spreadPoison g bad).mem = s.mem := by
  simp [State.spreadPoison]

@[simp] theorem touchTiles_mem (w : State) (c : CoreId) (k : Fin 4) (l : List Nat) : (w.touchTiles c k l).mem = w.mem := rfl

@[simp] theorem askWriteBack_mem (s : State) (c : CoreId) (a : Nat) : (s.askWriteBack c a).mem = s.mem := rfl

/-! ### Machine/MemOps -/

@[simp] theorem carry_mem (w : State) (a : WinAcc) : (w.carry a).mem = w.mem := by unfold State.carry; split <;> simp

@[simp] theorem sendAccess_mem (w : State) (a : WinAcc) : (w.sendAccess a).mem = w.mem := by simp [State.sendAccess]

@[simp] theorem pendData_mem (w : State) (c : SlotCtx) (p : Pending) (hit : Bool) (least : Nat) (row : Instr) :
    (w.pendData c p hit least row).mem = w.mem := by
  simp [State.pendData]

@[simp] theorem dropEntries_mem (s : State) (v : Inval) : (s.dropEntries v).mem = s.mem := by simp [State.dropEntries]

@[simp] theorem requestInval_mem (s : State) (v : Inval) : (s.requestInval v).mem = s.mem := by simp [State.requestInval]

@[simp] theorem sendOrder_mem (w : State) (c : SlotCtx) (o : Order) (then_ : List Event) : (w.sendOrder c o then_).mem = w.mem := rfl

@[simp] theorem postAll_mem (s : State) (l : List Event) : (s.postAll l).mem = s.mem := rfl

@[simp] theorem acquireNow_mem (w : State) (c : SlotCtx) (scope : Nat) : (w.acquireNow c scope).mem = w.mem := by simp [State.acquireNow]

/-! ### Machine/Messages -/

@[simp] theorem updMsgOf_mem (s : State) (tid : BitVec 32) (g : Msgs → Msgs) : (s.updMsgOf tid g).mem = s.mem := by
  unfold State.updMsgOf; dsimp only; (repeat' split) <;> simp

@[simp] theorem updMsgAt_mem (s : State) (c : CoreId) (k : Fin 4) (tid : BitVec 32) (g : Msgs → Msgs) :
    (s.updMsgAt c k tid g).mem = s.mem := by
  simp [State.updMsgAt]

@[simp] theorem baseLearn_mem (s : State) (d : DieId) (l : List (Seg × Walked)) : (s.baseLearn d l).mem = s.mem := by simp [State.baseLearn]

@[simp] theorem partyReads_mem (s : State) (w : Nat) (l : List (Nat × Nat)) : (s.partyReads w l).mem = s.mem := by simp [State.partyReads]

@[simp] theorem discardRecord_mem (s : State) : s.discardRecord.mem = s.mem := rfl

@[simp] theorem refillQueue_mem (s : State) (c : CoreId) (k : Fin 4) (xs : Nat) : (s.refillQueue c k xs).mem = s.mem := by
  induction xs generalizing s with
  | zero => rfl
  | succ n ih => unfold State.refillQueue; dsimp only; (repeat' split) <;> simp [ih]

@[simp] theorem pendWords_mem (w : State) (c : SlotCtx) (lat : Nat) (l : List (Nat × Word)) (poison : Option Nat) :
    (w.pendWords c lat l poison).mem = w.mem := by
  simp [State.pendWords]

@[simp] theorem gangCompletes_mem (s : State) (g : Gang) : (s.gangCompletes g).mem = s.mem := by
  unfold State.gangCompletes
  dsimp only
  split <;> split <;> simp <;> exact foldl_mem (fun s i => by split <;> simp) ..

@[simp] theorem gangSettle_mem (s : State) : s.gangSettle.mem = s.mem := by
  simp [State.gangSettle]

@[simp] theorem gangArrives_mem (s : State) (gid : BitVec 16) (tid : BitVec 32) : (s.gangArrives gid tid).mem = s.mem := by
  unfold State.gangArrives; split <;> simp

@[simp] theorem leaveGroup_mem (s : State) (gid : BitVec 16) (tid : BitVec 32) (own : Msgs) : (s.leaveGroup gid tid own).mem = s.mem := by
  unfold State.leaveGroup; split <;> simp

/-! ### Machine/Engines -/

@[simp] theorem updTaskFrame_mem (s : State) (c : CoreId) (k : Fin 4) (tid : BitVec 32) (g : Frame → Frame) :
    (s.updTaskFrame c k tid g).mem = s.mem := by
  unfold State.updTaskFrame; (repeat' split) <;> simp

@[simp] theorem raiseTask_mem (s : State) (c : CoreId) (k : Fin 4) (tid : BitVec 32) (t : Trap) : (s.raiseTask c k tid t).mem = s.mem := by
  unfold State.raiseTask; (repeat' split) <;> simp

@[simp] theorem areaTaken_mem (s : State) (t : Task) (ctxsave : Word) (n : Nat) : (s.areaTaken t ctxsave n).mem = s.mem := by
  unfold State.areaTaken; split <;> simp

@[simp] theorem signalBytes_mem (s : State) (c : CoreId) (k : Fin 4) (tid : BitVec 32) (sig : BitVec 24) (n : Int) (by_ : Write) :
    (s.signalBytes c k tid sig n by_).mem = s.mem := by
  simp [State.signalBytes]

@[simp] theorem nextCmd_mem (s : State) (c : CoreId) (u : Fin 2) : (s.nextCmd c u).mem = s.mem := by unfold State.nextCmd; split <;> simp

@[simp] theorem unitServed_mem (s : State) (c : CoreId) (u : Fin 2) (me : Nat) : (s.unitServed c u me).mem = s.mem := rfl

@[simp] theorem failCmd_mem (s : State) (c : CoreId) (u : Fin 2) (q : CopyCmd) (t : Trap) (va : Word) :
    (s.failCmd c u q t va).mem = s.mem := by
  simp [State.failCmd]

@[simp] theorem movedPiece_mem (s : State) (c : CoreId) (u : Fin 2) (q : CopyCmd) (n : Nat) : (s.movedPiece c u q n).mem = s.mem := rfl

@[simp] theorem governSubtract_mem (s : State) (t : CoreId) (tile : Nat) (sig : BitVec 24) (n : Nat) (by_ : Write) :
    (s.governSubtract t tile sig n by_).mem = s.mem := by
  unfold State.governSubtract; split <;> simp

@[simp] theorem abandonNest_mem (s : State) (c : CoreId) (k : Fin 4) (tid : BitVec 32) (gen : Nat) :
    (s.abandonNest c k tid gen).mem = s.mem := by
  unfold State.abandonNest; dsimp only; (repeat' split) <;> simp

@[simp] theorem failNest_mem (s : State) (c : CoreId) (q : CopyCmd) : (s.failNest c q).mem = s.mem := by
  simp [State.failNest]

@[simp] theorem dropBytes_mem (s : State) (c : CoreId) (q : CopyCmd) : (s.dropBytes c q).mem = s.mem := by
  simp [State.dropBytes]

@[simp] theorem endFailed_mem (s : State) (c : CoreId) (u : Fin 2) (q : CopyCmd) (t : Trap) : (s.endFailed c u q t).mem = s.mem := by
  simp [State.endFailed]

@[simp] theorem cancelCopies_mem (s : State) (c : CoreId) (tid : BitVec 32) : (s.cancelCopies c tid).mem = s.mem := by
  simp [State.cancelCopies]

@[simp] theorem startFills_mem (w : State) (n : Fin 16) (gen : Nat) (xs : Nat) : (w.startFills n gen xs).mem = w.mem := by
  induction xs with
  | zero => rfl
  | succ m ih => simpa [State.startFills] using ih

@[simp] theorem putDrained_mem (s : State) (c : CoreId) (k : Fin 4) (tid : BitVec 32) (n : Fin 16) (y : Stream) :
    (s.putDrained c k tid n y).mem = s.mem := by
  simp [State.putDrained]

@[simp] theorem giveTiles_mem (w : State) (c : SlotCtx) (tiles : List Nat) : (w.giveTiles c tiles).mem = w.mem := by simp [State.giveTiles]

/-! ### Machine/Llc -/

@[simp] theorem hbmCount_mem (s : State) (d : DieId) (a gran : Nat) : (s.hbmCount d a gran).mem = s.mem := rfl

@[simp] theorem sendRuns_mem (s : State) (d : DieId) (a mask : Nat) : (s.sendRuns d a mask).mem = s.mem := by simp [State.sendRuns]

@[simp] theorem attachSidecar_mem (s : State) (d : DieId) (a : Nat) : (s.attachSidecar d a).mem = s.mem := by
  unfold State.attachSidecar; split <;> simp

@[simp] theorem copyRow_mem (s : State) (d : DieId) (bank row : Nat) : (s.copyRow d bank row).mem = s.mem := by simp [State.copyRow]

@[simp] theorem releaseRow_mem (s : State) (d : DieId) (bank row : Nat) :
    (s.releaseRow d bank row).mem = s.mem := by simp [State.releaseRow]

@[simp] theorem rowsMoved_mem (s : State) (d : DieId) (old : List (Nat × Nat × Nat)) :
    (s.rowsMoved d old).mem = s.mem := by simp [State.rowsMoved]

@[simp] theorem hbmRequest_mem (s : State) (d : DieId) (a gran : Nat) : (s.hbmRequest d a gran).mem = s.mem := by simp [State.hbmRequest]

@[simp] theorem llcDrop_mem (s : State) (d : DieId) (l : LlcLine) : (s.llcDrop d l).mem = s.mem := by simp [State.llcDrop]

@[simp] theorem llcShrink_mem (s : State) (d : DieId) (more : Nat) : (s.llcShrink d more).mem = s.mem := by simp [State.llcShrink]

@[simp] theorem llcRoom_mem (s : State) (d : DieId) (a : Nat) : (s.llcRoom d a).mem = s.mem := by simp [State.llcRoom]

@[simp] theorem llcAsk_mem (s : State) (d : DieId) (a touched : Nat) (write : Bool) : (s.llcAsk d a touched write).mem = s.mem := by
  simp [State.llcAsk]

@[simp] theorem dropSidecars_mem (s : State) (d : DieId) (pa n : Nat) : (s.dropSidecars d pa n).mem = s.mem := rfl

/-! ### Machine/Handles -/

@[simp] theorem countPage_mem (s : State) (lfa : Nat) : (s.countPage lfa).mem = s.mem := by
  unfold State.countPage; dsimp only; (repeat' split) <;> simp

@[simp] theorem countPages_mem (s : State) (lfa n : Nat) : (s.countPages lfa n).mem = s.mem := by simp [State.countPages]

@[simp] theorem postOnce_mem (s : State) (row : Instr) (d : DieId) : (s.postOnce row d).mem = s.mem := by simp [State.postOnce]

@[simp] theorem pokeDie_mem (s : State) (d : DieId) : (s.pokeDie d).mem = s.mem := by simp [State.pokeDie]

@[simp] theorem evict_mem (s : State) (d : DieId) (i : Nat) (reserved : Option (BitVec 16)) : (s.evict d i reserved).mem = s.mem := by
  simp [State.evict]

@[simp] theorem notOutstanding_mem (s : State) (h : BitVec 16) : (s.notOutstanding h).mem = s.mem := by simp [State.notOutstanding]

@[simp] theorem startFill_mem (s : State) (d : DieId) (i : Nat) (h : BitVec 16) (demand : Bool) :
    (s.startFill d i h demand).mem = s.mem := by
  simp [State.startFill]

@[simp] theorem demand_mem (s : State) (h : BitVec 16) (d : DieId) : (s.demand h d).mem = s.mem := by simp [State.demand]

@[simp] theorem prefetch_mem (s : State) (h : BitVec 16) : (s.prefetch h).1.mem = s.mem := by
  unfold State.prefetch
  dsimp only
  (repeat' split) <;> simp

@[simp] theorem markReady_mem (s : State) (tid : BitVec 32) : (s.markReady tid).mem = s.mem := by
  unfold State.markReady; split <;> simp

@[simp] theorem wakeWaiters_mem (s : State) : s.wakeWaiters.mem = s.mem := by
  exact foldl_mem (fun s t => by split <;> simp) _ s

@[simp] theorem startPinTimer_mem (s : State) (h : BitVec 16) (d : DieId) (grp : BitVec 32) : (s.startPinTimer h d grp).mem = s.mem := by
  simp [State.startPinTimer]

@[simp] theorem joinPinq_mem (s : State) (h : BitVec 16) (d : DieId) : (s.joinPinq h d).mem = s.mem := by simp [State.joinPinq]

@[simp] theorem startHwait_mem (s : State) (d : DieId) : (s.startHwait d).mem = s.mem := by simp [State.startHwait]

@[simp] theorem noteWait_mem (s : State) (h : BitVec 16) (pin : Bool) (d : DieId) :
    (s.noteWait h pin d).mem = s.mem := by simp [State.noteWait]

@[simp] theorem endWait_mem (s : State) (h : BitVec 16) : (s.endWait h).mem = s.mem := by simp [State.endWait]

@[simp] theorem flipResident_mem (s : State) (h : BitVec 16) : (s.flipResident h).mem = s.mem := by simp [State.flipResident]

@[simp] theorem dropPin_mem (s : State) (h : BitVec 16) : (s.dropPin h).mem = s.mem := by
  simp [State.dropPin]

@[simp] theorem dropPins_mem (s : State) (c : CoreId) (k : Fin 4) : (s.dropPins c k).mem = s.mem := by
  simp [State.dropPins]

@[simp] theorem demoteTo_mem (s : State) (d : DieId) (room : Nat) (xs : List (Nat × HandleEnt)) : (demoteTo s d room xs).mem = s.mem := by
  induction xs generalizing s with
  | nil => rfl
  | cons x l ih => simp [demoteTo, ih]

@[simp] theorem promote_mem (s : State) (h : BitVec 16) : (s.promote h).mem = s.mem := by
  simp [State.promote]

@[simp] theorem allowIn_mem (s : State) : s.allowIn.mem = s.mem := by simp [State.allowIn]

@[simp] theorem sawVersion_mem (s : State) (v : BitVec 32) :
    (s.sawVersion v).mem = s.mem := by unfold State.sawVersion; dsimp only; split <;> simp

@[simp] theorem useHandle_mem (s : State) (h : BitVec 16) : (s.useHandle h).mem = s.mem := by simp [State.useHandle]

@[simp] theorem evictMore_mem (d : DieId) (s : State) (xs : Nat) : (evictMore d s xs).mem = s.mem := by
  induction xs generalizing s with
  | zero => rfl
  | succ n ih => unfold evictMore; split <;> [rfl; (split <;> simp [ih])]

@[simp] theorem grantPins_mem (s : State) (h : BitVec 16) : (s.grantPins h).mem = s.mem := by
  exact foldl_mem (fun s t => by (repeat' split) <;> simp) _ s

@[simp] theorem finishFill_mem (s : State) (d : DieId) (i : Nat) (h : BitVec 16) : (s.finishFill d i h).mem = s.mem := by
  simp [State.finishFill]

@[simp] theorem checkWear_mem (s : State) (d : DieId) : (s.checkWear d).mem = s.mem := by simp [State.checkWear]

@[simp] theorem closeRead_mem (s : State) (d : DieId) (r : PageRead) : (s.closeRead d r).mem = s.mem := by simp [State.closeRead]

@[simp] theorem partyLearns_mem (s : State) (w : Nat) (by_ : Write) : (s.partyLearns w by_).mem = s.mem := by simp [State.partyLearns]

/-! ### Machine/Routing -/

@[simp] theorem ageLater_mem (s : State) (d : DieId) (h : BitVec 16) : (s.ageLater d h).mem = s.mem := by simp [State.ageLater]

@[simp] theorem lanternPut_mem (s : State) (d : DieId) (e : LnEntry) : (s.lanternPut d e).mem = s.mem := by
  unfold State.lanternPut; dsimp only; (repeat' split) <;> simp

@[simp] theorem dropDisp_mem (s : State) (id : Nat) : (s.dropDisp id).mem = s.mem := rfl

@[simp] theorem countAppend_mem (s : State) (id kind : Nat) : (s.countAppend id kind).mem = s.mem := rfl

theorem ingressRead_mem {s t : State} {d : DieId} {sp : Space} {va : Word} {n v : Nat} (h : ingressRead s d sp va n = .ok (v, t)) :
    t.mem = s.mem := by
  unfold ingressRead at h
  (repeat' split at h) <;> simp at h
  simp [← h.2]

/-- A chain of ingress reads leaves home memory as it is. -/
theorem ingressReads_mem {α : Type} {d : DieId} {sp : State → Space} {va : α → Word} {n : Nat} {l : List α} {s t : State}
    (h : l.foldlM (fun s g => (ingressRead s d (sp s) (va g) n).map (·.2)) s = .ok t) : t.mem = s.mem := by
  induction l generalizing s with
  | nil => cases h; rfl
  | cons g l ih =>
    rw [List.foldlM_cons] at h
    cases r : ingressRead s d (sp s) (va g) n with
    | error e => simp [r, Except.map, bind, Except.bind] at h
    | ok x => rw [r] at h; exact (ih h).trans (ingressRead_mem r)

theorem prepareDispatch_mem {s t : State} {q x : Disp} (h : prepareDispatch s q = .ok (x, t)) : t.mem = s.mem := by
  unfold prepareDispatch at h
  cases r : ingressRead s (dieOf q.c) (s.dispSpace q) q.record 64 with
  | error e => simp [r, bind, Except.bind] at h
  | ok y =>
    simp only [r, bind, Except.bind] at h
    (repeat' split at h) <;> simp at h
    rename_i more
    rw [← h.2, ingressReads_mem more, ingressRead_mem r]

@[simp] theorem startDispatch_mem (s : State) (q : Disp) : (s.startDispatch q).mem = s.mem := by
  unfold State.startDispatch
  split
  · simp
  · next x t prepared => split <;> simp [prepareDispatch_mem prepared]

/-! ### Machine/Snapshots -/

@[simp] theorem lowPool_mem (s : State) : s.lowPool.mem = s.mem := by simp [State.lowPool]

@[simp] theorem endBytes_mem (s : State) (q : SnCmd) : (s.endBytes q).mem = s.mem := by
  simp [State.endBytes]

@[simp] theorem removeSnap_mem (s : State) (q : SnCmd) : (s.removeSnap q).mem = s.mem := rfl

@[simp] theorem snapFails_mem (s : State) (q : SnCmd) (t : Trap) : (s.snapFails q t).mem = s.mem := rfl

@[simp] theorem snapNext_mem (s : State) (q : SnCmd) : (s.snapNext q).mem = s.mem := rfl

/-! ### Machine/Tasks -/

@[simp] theorem freeze_mem (s : State) (q : Fin 64) (cause : BitVec 8) (origin : BitVec 32) : (s.freeze q cause origin).mem = s.mem := by
  simp [State.freeze]

@[simp] theorem fillPermits_mem (s : State) (c : CoreId) : (s.fillPermits c).mem = s.mem := rfl

@[simp] theorem grantTo_mem (s : State) (c : CoreId) : (s.grantTo c).mem = s.mem := rfl

@[simp] theorem grantLimit_mem (s : State) (c : CoreId) : (s.grantLimit c).mem = s.mem := rfl

@[simp] theorem regrant_mem (s : State) (c : CoreId) (old : Nat) : (s.regrant c old).mem = s.mem := by simp [State.regrant]

@[simp] theorem beginLend_mem (s : State) (c : CoreId) (tid : BitVec 32) (lent : List (Nat × CoreId)) :
    (s.beginLend c tid lent).mem = s.mem := by
  simp [State.beginLend]

@[simp] theorem pokePlace_mem (s : State) : s.pokePlace.mem = s.mem := by simp [State.pokePlace]

@[simp] theorem startSteal_mem (s : State) (c : CoreId) : (s.startSteal c).mem = s.mem := by simp [State.startSteal]

@[simp] theorem tryGang_mem (s : State) (gid : BitVec 16) : (s.tryGang gid).mem = s.mem := by unfold State.tryGang; split <;> simp

@[simp] theorem without_mem (s : State) (c : CoreId) (l : List (BitVec 32)) : (s.without c l).mem = s.mem := rfl

@[simp] theorem cleared_mem (s : State) (c : CoreId) (l : List (BitVec 32)) : (s.cleared c l).mem = s.mem := by simp [State.cleared]

@[simp] theorem makeRoom_mem (s : State) (t : Task) : (s.makeRoom t).mem = s.mem := by
  unfold State.makeRoom
  split
  · rfl
  · dsimp only
    split
    · rfl
    · exact (foldl_mem (fun s v => by (repeat' split) <;> simp) ..).trans rfl

@[simp] theorem swapIn_mem (s : State) (t : Task) : (s.swapIn t).mem = s.mem := by unfold State.swapIn; dsimp only; (repeat' split) <;> simp

@[simp] theorem watchGangs_mem (s : State) (t : Task) : (s.watchGangs t).mem = s.mem := by simp [State.watchGangs]

@[simp] theorem satisfy_mem (s : State) (tid : BitVec 32) : (s.satisfy tid).mem = s.mem := by
  unfold State.satisfy; split <;> simp

@[simp] theorem forget_mem (s : State) (t : Task) : (s.forget t).mem = s.mem := by simp [State.forget]

/-! ### Machine/Gangs -/

@[simp] theorem unpark_mem (s : State) (t : Task) (c : CoreId) (k : Fin 4) :
    (s.unpark t c k).mem = s.mem := by unfold State.unpark; split <;> simp

@[simp] theorem releaseGang_mem (s : State) (g : Gang) : (s.releaseGang g).mem = s.mem := by
  unfold State.releaseGang
  rw [gangSettle_mem, updGang_mem]
  exact foldl_mem (fun s t => by split <;> simp) _ s

/-! ### Machine/Matrix -/

@[simp] theorem sendMatrix_mem (w : State) (c : SlotCtx) (o : MOp) : (w.sendMatrix c o).mem = w.mem := by simp [State.sendMatrix]

@[simp] theorem nestDone_mem (s : State) : s.nestDone.mem = s.mem := rfl

@[simp] theorem closeNest_mem (s : State) : s.closeNest.mem = s.mem := by simp [State.closeNest]

@[simp] theorem dropNest_mem (s : State) (c : CoreId) (k : Fin 4) : (s.dropNest c k).mem = s.mem := by
  simp [State.dropNest]

@[simp] theorem nestFault_mem (s : State) (t : Trap) (ix : Nat) (slot : Fin 4) : (s.nestFault t ix slot).mem = s.mem := by
  simp [State.nestFault]

@[simp] theorem cancelWaiting_mem (s : State) (c : CoreId) (d : Span) : (s.cancelWaiting c d).mem = s.mem := rfl

@[simp] theorem nextMatrix_mem (s : State) (c : CoreId) (ends : Nat) : (s.nextMatrix c ends).mem = s.mem := by simp [State.nextMatrix]

@[simp] theorem pinLine_mem (s : State) (c : CoreId) (k : Fin 4) (tag a : Nat) :
    (s.pinLine c k tag a).mem = s.mem := by simp [State.pinLine]

@[simp] theorem tileFault_mem (s : State) (c : CoreId) (t : TileCmd) (e : Trap) (row : Nat) : (s.tileFault c t e row).mem = s.mem := rfl

@[simp] theorem endTile_mem (s : State) (c : CoreId) (id : Nat) : (s.endTile c id).mem = s.mem := rfl

/-! ### Machine/Belfry -/

@[simp] theorem freezeFor_mem (s : State) (q : Fin 64) (cause : BitVec 8) : (s.freezeFor q cause).mem = s.mem := by simp [State.freezeFor]

@[simp] theorem begin_mem (s : State) (q : Fin 64) (row : Instr) (a : Arg) : (s.begin q row a).mem = s.mem := rfl

theorem belfryRead_mem {s t : State} {q : Fin 64} {va : Word} {n v : Nat} (h : s.belfryRead q va n = .ok (v, t)) : t.mem = s.mem := by
  unfold State.belfryRead at h
  (repeat' split at h) <;> simp at h
  simp [← h.2]

@[simp] theorem dispatch_mem (s : State) (q : Fin 64) : (s.dispatch q).mem = s.mem := by
  unfold State.dispatch
  (repeat' split) <;> grind [belfryRead_mem, updRun_mem, post_mem, bump_mem, freezeFor_mem, begin_mem]

@[simp] theorem startEntry_mem (s : State) (q : Fin 64) : (s.startEntry q).mem = s.mem := by
  unfold State.startEntry
  dsimp only
  split
  · simp
  split
  · simp
  next read =>
  have entry := belfryRead_mem read
  split <;> simp [entry]

@[simp] theorem finish_mem (s : State) (q : Fin 64) : (s.finish q).mem = s.mem := by
  unfold State.finish; dsimp only; (repeat' split) <;> simp

@[simp] theorem finishAt_mem (s : State) (q : Fin 64) (j : Nat) : (s.finishAt q j).mem = s.mem := by
  simp [State.finishAt]

@[simp] theorem block_mem (s : State) (row : Instr) (a : Arg) : (s.block row a).mem = s.mem := rfl

@[simp] theorem addTask_mem (s : State) (t : Task) : (s.addTask t).mem = s.mem := by simp [State.addTask]

@[simp] theorem refuseLaunch_mem (s : State) (q : Fin 64) (x : Exec) (a : Arg) (l : List LaunchRec) (status : Nat) :
    (s.refuseLaunch q x a l status).mem = s.mem := by
  simp [State.refuseLaunch]

@[simp] theorem makeTasks_mem (s : State) (q : Fin 64) (x : Exec) (a : Arg) (l : List LaunchRec) (deadline : Option Nat)
    (change : Nat → Task → Task) :
    (s.makeTasks q x a l deadline change).mem = s.mem := by
  simp [State.makeTasks]

@[simp] theorem readImage_mem (s : State) (q : Fin 64) (code : Word) (sys : Bool) : (s.readImage q code sys).2.mem = s.mem := by
  unfold State.readImage
  split
  · rfl
  next hd s₁ read =>
  have head := belfryRead_mem read
  dsimp only
  split
  · exact head
  split
  · exact head
  next img s₂ read =>
  have image := (belfryRead_mem read).trans head
  split
  · exact image
  split
  · exact image
  split
  · exact image
  next blk s₃ read => exact (belfryRead_mem read).trans image

@[simp] theorem readRecord_mem (s : State) (q : Fin 64) (base : Word) (i : Nat) : (s.readRecord q base i).2.mem = s.mem := by
  unfold State.readRecord
  split
  · rfl
  next raw s₁ read =>
  have record := belfryRead_mem read
  dsimp only
  rw [readImage_mem]
  generalize successors : (if LaunchRec.at_ _ 0x78 2 ≤ 16 then _ else _ : Option (List Nat) × State) = p
  have succs : p.2.mem = s.mem := by
    rw [← successors]
    split
    · exact record
    split
    · exact record
    split
    · exact record
    next read => exact (belfryRead_mem read).trans record
  split
  · exact succs
  split
  · exact succs
  next read => exact (belfryRead_mem read).trans succs

@[simp] theorem readRecords_mem (s : State) (q : Fin 64) (base : Word) (l : List Nat) : (s.readRecords q base l).2.mem = s.mem := by
  have each (acc : List LaunchRec × State) : (l.foldl (fun (acc : List LaunchRec × State) i =>
      (acc.1 ++ [(acc.2.readRecord q base i).1], (acc.2.readRecord q base i).2)) acc).2.mem = acc.2.mem := by
    induction l generalizing acc with
    | nil => rfl
    | cons i l ih => rw [List.foldl_cons, ih, readRecord_mem]
  exact each ([], s)

@[simp] theorem launchRecords_mem (s : State) (q : Fin 64) (x : Exec) (a : Arg) (total : Nat) (l : List Nat) :
    (s.launchRecords q x a total l).mem = s.mem := by
  unfold State.launchRecords
  dsimp only
  split <;> simp

@[simp] theorem refuseBelfry_mem (s : State) : s.refuseBelfry.mem = s.mem := rfl

/-! ### Machine/Control -/

@[simp] theorem transfer_mem (w : State) (t : Word) (code : List (Nat × Bundle)) : (w.transfer t code).mem = w.mem := rfl

@[simp] theorem refetchAt_mem (w : State) (n : Nat) : (w.refetchAt n).mem = w.mem := rfl

/-! ### Machine/Scalar -/

@[simp] theorem sResult_mem (c : SlotCtx) (n : BitVec 1) (d : BitVec 6) (lat : Nat) (v : Word) (w : State) :
    (sResult c n d lat v w).mem = w.mem :=
  rfl

/-! ### Machine/Bundle -/

@[simp] theorem takeLoopBuffer_mem (s : State) : s.takeLoopBuffer.mem = s.mem := rfl

/-! ### Machine/Hbm -/

@[simp] theorem poisonAt_mem (s : State) (level : Nat) (c : CoreId) (d : DieId) (pa n src : Nat) :
    (s.poisonAt level c d pa n src).mem = s.mem := by
  unfold State.poisonAt; split <;> simp

@[simp] theorem refuseLoad_mem (s : State) : s.refuseLoad.mem = s.mem := rfl

/-! ### Machine/Flash -/

@[simp] theorem moveBlock_mem (s : State) (d : DieId) (b : LogBlock) (p : Nat) (counts : Bool) :
    (s.moveBlock d b p counts).mem = s.mem := by
  simp [State.moveBlock]

@[simp] theorem programPage_mem (s : State) (lfa v : Nat) (bad : Bool) : (s.programPage lfa v bad).mem = s.mem := by
  unfold State.programPage; split <;> simp

@[simp] theorem flashFree_mem (s : State) (lb n : Nat) : (s.flashFree lb n).mem = s.mem := by
  exact foldl_mem (fun s j => by split <;> simp) _ s

@[simp] theorem nlStart_mem (s : State) (d : DieId) :
    (s.nlStart d).mem = s.mem := by unfold State.nlStart; dsimp only; (repeat' split) <;> simp

/-! ### Machine/Loading -/

@[simp] theorem loaderDone_mem (s : State) (phase : Nat) : (s.loaderDone phase).mem = s.mem := rfl

theorem flashAlloc_mem {s t : State} {d : DieId} {n lb : Nat} (h : s.flashAlloc d n = some (lb, t)) : t.mem = s.mem := by
  unfold State.flashAlloc at h
  dsimp only at h
  split at h
  · cases h
  · simp at h; simp [← h.2]

@[simp] theorem abortLoad_mem (s : State) (reason : Nat) (shard : Nat) : (s.abortLoad reason shard).mem = s.mem := by
  unfold State.abortLoad
  simp
  exact foldl_mem (fun s x => by split <;> simp) _ s

@[simp] theorem beginFlip_mem (s : State) : s.beginFlip.mem = s.mem := by unfold State.beginFlip; dsimp only; split <;> simp

@[simp] theorem stageShard_mem (s : State) (i : Nat) (x : Shard) : (s.stageShard i x).mem = s.mem := by
  unfold State.stageShard
  dsimp only
  split
  · simp
  split
  · simp
  next lb t alloc =>
  have t_mem : t.mem = s.mem := by
    split at alloc
    · cases alloc
    · exact flashAlloc_mem alloc
  split
  · split <;> simp [t_mem]
  · split <;> simp [t_mem]

@[simp] theorem flipAll_mem (s : State) : s.flipAll.mem = s.mem := by simp [State.flipAll]

@[simp] theorem endLoad_mem (s : State) : s.endLoad.mem = s.mem := by
  simp [State.endLoad]

/-! ### Machine/Power -/

@[simp] theorem refusePower_mem (s : State) : s.refusePower.mem = s.mem := rfl

@[simp] theorem setLevel_mem (s : State) (i : Fin 128) (l : Nat) : (s.setLevel i l).mem = s.mem := rfl

@[simp] theorem setLimit_mem (s : State) (i : Fin 128) (f : Core → Nat) : (s.setLimit i f).mem = s.mem := by simp [State.setLimit]

@[simp] theorem tellFirmware_mem (s : State) (code : Nat) : (s.tellFirmware code).mem = s.mem := rfl

@[simp] theorem saveOn_mem (s : State) : s.saveOn.mem = s.mem := by simp [State.saveOn]

@[simp] theorem beginSaving_mem (s : State) (reason : Nat) : (s.beginSaving reason).mem = s.mem := by simp [State.beginSaving]

@[simp] theorem beginEmergency_mem (s : State) : s.beginEmergency.mem = s.mem := by simp [State.beginEmergency]

@[simp] theorem throttle_mem (s : State) (i : Fin 128) (temp cur : Nat) : (s.throttle i temp cur).mem = s.mem := by simp [State.throttle]

@[simp] theorem nextSample_mem (s : State) (i : Fin 128) : (s.nextSample i).mem = s.mem := rfl

@[simp] theorem endWake_mem (s : State) : s.endWake.mem = s.mem := rfl

@[simp] theorem deadCores_mem (s : State) : s.deadCores.mem = s.mem := by simp [State.deadCores]

@[simp] theorem runFirmware_mem (s : State) (f : Firmware) (b : Bool) : (s.runFirmware f b).mem = s.mem := rfl

@[simp] theorem flashStarts_mem (s : State) : s.flashStarts.mem = s.mem := by simp [State.flashStarts]

@[simp] theorem beginWake_mem (s : State) : s.beginWake.mem = s.mem := rfl

@[simp] theorem goActive_mem (s : State) : s.goActive.mem = s.mem := by simp [State.goActive]

/-! ### Machine/Security -/

@[simp] theorem updKey_mem (s : State) (i : Nat) (f : Key → Key) : (s.updKey i f).mem = s.mem := by simp [State.updKey]

@[simp] theorem finishSec_mem (s : State) (st : SecStatus) (signed : Bool) :
    (s.finishSec st signed).mem = s.mem := by simp [State.finishSec]

@[simp] theorem badSecurity_mem (s : State) : s.badSecurity.mem = s.mem := rfl

@[simp] theorem mboxWrite_mem (s : State) (m : Fin 3) (off n v : Nat) : (s.mboxWrite m off n v).mem = s.mem := rfl

@[simp] theorem mboxAnswer_mem (s : State) (m : Fin 3) (code : Nat) : (s.mboxAnswer m code).mem = s.mem := rfl

@[simp] theorem lease_mem (s : State) (ms : Nat) : (s.lease ms).mem = s.mem :=
  (post_mem ..).trans (updSec_mem ..)

/-! ### Machine/RegWrites -/

@[simp] theorem writeQueue_mem (s : State) (q : Fin 64) (o : Nat) (v : Word) : (s.writeQueue q o v).mem = s.mem := by
  unfold State.writeQueue; split <;> simp

@[simp] theorem writeBelfry_mem (s : State) (m : Master) (o : Nat) (v : Word) : (s.writeBelfry m o v).mem = s.mem := by
  unfold State.writeBelfry; split <;> simp

@[simp] theorem writeLantern_mem (s : State) (d : DieId) (o : Nat) (v : Word) : (s.writeLantern d o v).mem = s.mem := by
  unfold State.writeLantern; split <;> simp

@[simp] theorem writeTree_mem (s : State) (o : Nat) (v : Word) : (s.writeTree o v).mem = s.mem := by unfold State.writeTree; split <;> simp

@[simp] theorem refuseHbm_mem (s : State) (d : DieId) : (s.refuseHbm d).mem = s.mem := rfl

@[simp] theorem writeHctl_mem (s : State) (d : DieId) (v : Word) : (s.writeHctl d v).mem = s.mem := by simp [State.writeHctl]

@[simp] theorem writeHbm_mem (s : State) (d : DieId) (o : Nat) (v : Word) :
    (s.writeHbm d o v).mem = s.mem := by unfold State.writeHbm; split <;> simp

@[simp] theorem writeHandles_mem (s : State) (d : DieId) (o : Nat) (v : Word) : (s.writeHandles d o v).mem = s.mem := by
  unfold State.writeHandles; split <;> simp

@[simp] theorem writeNolnus_mem (s : State) (d : DieId) (o : Nat) (v : Word) : (s.writeNolnus d o v).mem = s.mem := by
  unfold State.writeNolnus; split <;> simp

@[simp] theorem writeWindow_mem (s : State) (w : Fin 64) (o : Nat) (v : Word) : (s.writeWindow w o v).mem = s.mem := by
  unfold State.writeWindow; split <;> simp

@[simp] theorem writeLoader_mem (s : State) (o : Nat) (v : Word) :
    (s.writeLoader o v).mem = s.mem := by unfold State.writeLoader; split <;> simp

@[simp] theorem writePwctl_mem (s : State) (v : Word) : (s.writePwctl v).mem = s.mem := by simp [State.writePwctl]

@[simp] theorem writePwthr_mem (s : State) (v : Word) : (s.writePwthr v).mem = s.mem := by simp [State.writePwthr]

@[simp] theorem grantClass_mem (s : State) (h : Fin 4) : (s.grantClass h).mem = s.mem := by simp [State.grantClass]

@[simp] theorem writeProfile_mem (s : State) (h : Fin 4) (o : Nat) (v : Word) : (s.writeProfile h o v).mem = s.mem := by
  unfold State.writeProfile; split <;> simp

@[simp] theorem writeIslcmd_mem (s : State) (i : Fin 128) (v : Word) : (s.writeIslcmd i v).mem = s.mem := by simp [State.writeIslcmd]

@[simp] theorem writePower_mem (s : State) (d : DieId) (o : Nat) (v : Word) : (s.writePower d o v).mem = s.mem := by
  unfold State.writePower; dsimp only; (repeat' split) <;> simp

@[simp] theorem reject_mem (s : State) : s.reject.mem = s.mem := rfl

@[simp] theorem notOwner_mem (s : State) (who : Master) : (s.notOwner who).mem = s.mem := by unfold State.notOwner; split <;> simp

@[simp] theorem writeMbox_mem (s : State) (who : Master) (m : Fin 3) (o : Nat) (v : Word) : (s.writeMbox who m o v).mem = s.mem := by
  simp [State.writeMbox]

@[simp] theorem writeSecurity_mem (s : State) (who : Master) (o : Nat) (v : Word) : (s.writeSecurity who o v).mem = s.mem := by
  unfold State.writeSecurity; dsimp only; (repeat' split) <;> simp

@[simp] theorem writeNet_mem (s : State) (o : Nat) (v : Word) : (s.writeNet o v).mem = s.mem := by
  unfold State.writeNet; dsimp only; (repeat' split) <;> simp

@[simp] theorem refuseBlock_mem (s : State) (d : DieId) (b : Block) :
    (s.refuseBlock d b).mem = s.mem := by unfold State.refuseBlock; split <;> simp

@[simp] theorem ctlWrite_mem (s : State) (who : Master) (pa : Nat) (v : Word) : (s.ctlWrite who pa v).mem = s.mem := by
  -- unfolded as a function: the kernel would otherwise compute with the control space's base address
  generalize unfolded : @State.ctlWrite = f
  delta State.ctlWrite at unfolded
  have written := congrFun (congrFun (congrFun (congrFun unfolded s) who) pa) v
  dsimp only at written
  rw [← written]
  split <;> simp

@[simp] theorem regWrite_mem (s : State) (who : Master) (pa n : Nat) (v : Word) (user : Bool) :
    (s.regWrite who pa n v user).mem = s.mem := by
  simp [State.regWrite]

@[simp] theorem noData_mem (s : State) (who : Master) : (s.noData who).mem = s.mem := by unfold State.noData; split <;> simp

@[simp] theorem regRead_mem (s : State) (who : Master) (pa n : Nat) : (s.regRead who pa n).mem = s.mem := by simp [State.regRead]

/-! ### Machine/Ports -/

@[simp] theorem unitsArrive_mem (s : State) (w : Nat) (l : List UnitSeg) : (s.unitsArrive w l).mem = s.mem := by simp [State.unitsArrive]

@[simp] theorem answer_mem (s : State) (o : Output) : (s.answer o).mem = s.mem := rfl

@[simp] theorem dropAccess_mem (s : State) (id : Nat) : (s.dropAccess id).mem = s.mem := rfl

@[simp] theorem accessData_mem (s : State) (a : WinAcc) (v : Nat) (poison : Option Nat) : (s.accessData a v poison).mem = s.mem := by
  unfold State.accessData; split <;> simp

/-! ### Machine/Sequencer -/

@[simp] theorem poisonDest_mem (s : State) (c : CoreId) (k : Fin 4) (dest : Dest) (src : Nat) :
    (s.poisonDest c k dest src).mem = s.mem := by
  unfold State.poisonDest; split <;> simp

/-! ### Machine/Schedule -/

@[simp] theorem take_mem (s : State) (c : Option CoreId) (e : Event) : (s.take c e).mem = s.mem := by
  unfold State.take; split <;> [rfl; (split <;> rfl)]

@[simp] theorem prepare_mem (s : State) (i : Nat) (m : Move) : (s.prepare i m).mem = s.mem := by
  unfold State.prepare; split <;> simp

@[simp] theorem passTick_mem (s : State) : s.passTick.mem = s.mem := by simp [State.passTick]

end Sys2Proof.Machine
end

section
/-! The canonical form of home memory through choices and folds. `State.MemOk` is written out as `Memory.wf s.mem = true` in the rules of
this and the following sections: there `simp` reads the memory through the frame rules. -/

namespace Sys2Proof.Machine
open Sys2Proof

/-- A choice between two canonical memories is canonical. -/
@[simp] theorem wf_ite {c : Prop} [Decidable c] {l m : List Host.Cell} (hl : Memory.wf l = true) (hm : Memory.wf m = true) :
    Memory.wf (if c then l else m) = true := by split <;> assumption

@[simp] theorem wf_dite {c : Prop} [Decidable c] {l : c → List Host.Cell} {m : ¬ c → List Host.Cell} (hl : ∀ h, Memory.wf (l h) = true)
    (hm : ∀ h, Memory.wf (m h) = true) : Memory.wf (if h : c then l h else m h) = true := by split <;> simp [*]

/-- Whatever it is given, an operation keeps home memory in its canonical form. -/
def KeepsWf {α : Type} (f : State → α → State) : Prop := ∀ s a, Memory.wf s.mem = true → Memory.wf (f s a).mem = true

@[simp] theorem keepsWf_iff {α : Type} (f : State → α → State) :
    KeepsWf f ↔ ∀ s a, Memory.wf s.mem = true → Memory.wf (f s a).mem = true := Iff.rfl

/-- A fold of operations that keep the canonical form keeps it. -/
@[simp] theorem wf_foldl {α : Type} {f : State → α → State} (hf : KeepsWf f) (l : List α) {s : State} (h : Memory.wf s.mem = true) :
    Memory.wf (l.foldl f s).mem = true := memOk_foldl hf l h

end Sys2Proof.Machine
end

section
/-! Preservation rules: the operations that write home memory keep it in its canonical form, in the order of their definitions. Those
that may fail say so with `Ends`, or for the answer they give. -/

namespace Sys2Proof.Machine
open Sys2Proof

/-- How a computation ends: with an answer that satisfies `P`, or with a stop that satisfies `Q`. -/
inductive Ends {ε α : Type} (Q : ε → Prop) (P : α → Prop) : Except ε α → Prop
  | ok {a : α} (h : P a) : Ends Q P (.ok a)
  | error {e : ε} (h : Q e) : Ends Q P (.error e)

@[simp] theorem ends_ok {ε α : Type} {Q : ε → Prop} {P : α → Prop} (a : α) : Ends Q P (.ok a) ↔ P a :=
  ⟨fun h => by cases h; assumption, .ok⟩

@[simp] theorem ends_pure {ε α : Type} {Q : ε → Prop} {P : α → Prop} (a : α) : Ends Q P (pure a) ↔ P a := ends_ok a

@[simp] theorem ends_error {ε α : Type} {Q : ε → Prop} {P : α → Prop} (e : ε) : Ends Q P (.error e) ↔ Q e :=
  ⟨fun h => by cases h; assumption, .error⟩

theorem Ends.bind {ε α β : Type} {Q : ε → Prop} {P : α → Prop} {R : β → Prop} {x : Except ε α} {f : α → Except ε β} (hx : Ends Q P x)
    (hf : ∀ a, P a → Ends Q R (f a)) : Ends Q R (x >>= f) := by
  cases hx with
  | ok h => exact hf _ h
  | error h => exact .error h

/-! ### Machine/Memory -/

@[simp] theorem wf_homeWriteEn {s : State} (h : Memory.wf s.mem = true) (x : Stamp) (pa n v ben : Nat) (need : Need) (own : Option DieId) :
    Memory.wf (s.homeWriteEn x pa n v ben need own).mem = true := memOk_homeWriteEn h ..

@[simp] theorem wf_homeWrite {s : State} (h : Memory.wf s.mem = true) (x : Stamp) (pa n v : Nat) (need : Need) :
    Memory.wf (s.homeWrite x pa n v need).mem = true := memOk_homeWrite h ..

@[simp] theorem wf_homeByte {s : State} (h : Memory.wf s.mem = true) (d : DieId) (b : Host.Cell) :
    Memory.wf (s.homeByte d b).mem = true := by
  simp [State.homeByte, h]

@[simp] theorem wf_flushDie {s : State} (h : Memory.wf s.mem = true) (d : DieId) (p : Nat → Bool) :
    Memory.wf (s.flushDie d p).mem = true := memOk_flushDie h ..

@[simp] theorem wf_l2Fill {s : State} (h : Memory.wf s.mem = true) (d : DieId) (a : Nat) :
    Memory.wf (s.l2Fill d a).mem = true := memOk_l2Fill h ..

@[simp] theorem wf_dieFlush {s : State} (h : Memory.wf s.mem = true) (d : DieId) :
    Memory.wf (s.dieFlush d).mem = true := memOk_dieFlush h ..

@[simp] theorem wf_writeBack {s : State} (h : Memory.wf s.mem = true) (c : CoreId) (scope : Nat) (p : Nat → Bool) :
    Memory.wf (s.writeBack c scope p).mem = true := memOk_writeBack h ..

@[simp] theorem wf_release {s : State} (h : Memory.wf s.mem = true) (c : CoreId) (scope : Nat) :
    Memory.wf (s.release c scope).mem = true := memOk_release h ..

/-! ### Machine/Ops -/

@[simp] theorem wf_chipWrite {s : State} (h : Memory.wf s.mem = true) (x : Stamp) (pa n v ben : Nat) :
    Memory.wf (s.chipWrite x pa n v ben).mem = true := memOk_chipWrite h ..

@[simp] theorem wf_deliver {s : State} (h : Memory.wf s.mem = true) (c : CoreId) (k : Fin 4) (dest : Dest) (ben : Mask) (data : Vec) :
    Memory.wf (s.deliver c k dest ben data).mem = true := by
  unfold State.deliver; split <;> simp [h]

@[simp] theorem wf_complete {s : State} (h : Memory.wf s.mem = true) (c : CoreId) (k : Fin 4) (r : Result) :
    Memory.wf (s.complete c k r).mem = true := by
  unfold State.complete; split <;> simp [h]

@[simp] theorem wf_drain {s : State} (h : Memory.wf s.mem = true) (c : CoreId) (k : Fin 4) (ago : Nat) :
    Memory.wf (s.drain c k ago).mem = true := by
  unfold State.drain; dsimp only; simp_all

@[simp] theorem wf_takeTrapAt {s : State} (h : Memory.wf s.mem = true) (c : CoreId) (k : Fin 4) (t : Trap) (epc : Word) (ago : Nat) :
    Memory.wf (s.takeTrapAt c k t epc ago).mem = true := by
  unfold State.takeTrapAt; dsimp only; (repeat' split) <;> simp [h]

@[simp] theorem wf_takeTrap {s : State} (h : Memory.wf s.mem = true) (t : Trap) (epc : Word) : Memory.wf (s.takeTrap t epc).mem = true := by
  simp [State.takeTrap, h]

/-! ### Machine/Issue -/

@[simp] theorem wf_commit {w : State} (h : Memory.wf w.mem = true) : Memory.wf w.commit.mem = true := by
  unfold State.commit
  extract_lets w₁ b w₂ w₃ w₄ w₅ c k at_ w₆ w₇ w₈ w₉
  have issued : Memory.wf w₁.mem = true := by simp [w₁, h]
  have moved : Memory.wf w₂.mem = true := by simp only [w₂]; split <;> simp [issued]
  have written : Memory.wf w₃.mem = true := by simp [w₃, moved]
  have cleared : Memory.wf w₄.mem = true := by simp only [w₄]; split <;> simp [written]
  have asked : Memory.wf w₅.mem = true := by simp only [w₅]; split <;> simp [cleared]
  have drained : Memory.wf w₆.mem = true := by simp [w₆, asked]
  have returned : Memory.wf w₈.mem = true := by simp [w₈, w₇, drained]
  have fetched : Memory.wf w₉.mem = true := by
    refine wf_foldl (fun s i h => ?_) _ returned
    dsimp only
    split <;> simp [h]
  clear_value w₅ w₉
  split
  · simp [asked]
  split
  · split <;> simp [fetched]
  · exact asked

/-! ### Machine/Access -/

@[simp] theorem wf_engineTake {s : State} (h : Memory.wf s.mem = true) (c : CoreId) (l : List (Seg × Walked)) :
    Memory.wf (s.engineTake c l).mem = true := by
  refine wf_foldl (fun s x h => ?_) l h
  split
  · exact wf_foldl (fun s a h => by simp [h]) _ h
  · exact h

@[simp] theorem wf_placeWrite {s : State} (h : Memory.wf s.mem = true) (x : Stamp) (pa n v ben : Nat) (need : Need) :
    Memory.wf (s.placeWrite x pa n v ben need).mem = true := by
  simp [State.placeWrite, h]

@[simp] theorem wf_engineWrite {s : State} (h : Memory.wf s.mem = true) (y : Stamp) (l : List (Seg × Walked)) (v : Nat) (bad : List
    (Nat × Nat × Nat)) (need : Need) :
    Memory.wf (s.engineWrite y l v bad need).mem = true := by
  simp +contextual [State.engineWrite, h]

@[simp] theorem wf_fillLines {s : State} (h : Memory.wf s.mem = true) (c : CoreId) (pa n : Nat) :
    Memory.wf (s.fillLines c pa n).mem = true := by
  refine wf_foldl (fun s a h => ?_) _ h
  split <;> simp [h]

/-! ### Machine/MemOps -/

@[simp] theorem wf_nearRead {s : State} (h : Memory.wf s.mem = true) (c : CoreId) (pa n : Nat) :
    Memory.wf (s.nearRead c pa n).1.mem = true := by
  unfold State.nearRead; split <;> simp [h]

@[simp] theorem wf_nearWrite {s : State} (h : Memory.wf s.mem = true) (c : CoreId) (oc pa n v ben : Nat) :
    Memory.wf (s.nearWrite c oc pa n v ben).mem = true := by
  unfold State.nearWrite; split <;> simp [h]

@[simp] theorem wf_drainLines {s : State} (h : Memory.wf s.mem = true) (l : List (Nat × Nat)) : Memory.wf (s.drainLines l).mem = true := by
  unfold State.drainLines
  dsimp only
  split
  · exact h
  refine wf_foldl (fun s d h => by simp [h]) _ (wf_foldl (fun s c h => ?_) _ h)
  split <;> simp [h]

@[simp] theorem wf_invalidate {s : State} (h : Memory.wf s.mem = true) (v : Inval) : Memory.wf (s.invalidate v).mem = true := by
  simp [State.invalidate, h]

@[simp] theorem wf_settleDrains {s : State} (h : Memory.wf s.mem = true) : Memory.wf s.settleDrains.mem = true := by
  unfold State.settleDrains; dsimp only; (repeat' split) <;> simp_all

@[simp] theorem wf_flushBytes {s : State} (h : Memory.wf s.mem = true) (pa n : Nat) :
    Memory.wf (s.flushBytes pa n).mem = true := wf_foldl (fun s d h => by simp [h]) _ h

@[simp] theorem wf_evictWord {s : State} (h : Memory.wf s.mem = true) (c : CoreId) (pa n : Nat) :
    Memory.wf (s.evictWord c pa n).mem = true := by
  unfold State.evictWord; split <;> simp [h]

@[simp] theorem wf_performAtomic {s : State} (h : Memory.wf s.mem = true) (c : CoreId) (k : Fin 4) (at_ : Atomic) :
    Memory.wf (s.performAtomic c k at_).mem = true := by
  unfold State.performAtomic
  extract_lets n t put dest go
  have evicted : Memory.wf t.mem = true := by simp [t, h]
  have hput (s : State) (old : Nat) (h : Memory.wf s.mem = true) : Memory.wf (put s old).mem = true := by
    simp only [put]
    split <;> simp [h]
  have hdest (s : State) (old : Nat) (q : Option (Nat × Nat)) (h : Memory.wf s.mem = true) : Memory.wf (dest s old q).mem = true := by
    simp only [dest]
    (repeat' split) <;> simp [h]
  have hgo (s : State) (h : Memory.wf s.mem = true) : Memory.wf (go s).mem = true := hdest _ _ _ (hput _ _ (by simpa using h))
  clear_value dest go t
  split
  · split
    · exact hdest _ _ _ (by simpa using evicted)
    · exact hgo _ evicted
  · exact hgo _ (by simp [evicted])

theorem wf_seg {b : Bound} (h : Memory.wf b.w.mem = true) (oc id : Nat) (g : Seg) : Memory.wf (b.seg oc id g).w.mem = true := by
  unfold Bound.seg
  dsimp only
  split <;> simp [h]

@[simp] theorem wf_bindLoad {w : State} (h : Memory.wf w.mem = true) (c : SlotCtx) (l : List (Seg × Walked)) (oc : Nat) (p : Pending)
    (least : Nat) (row : Instr) :
    Memory.wf (bindLoad c w l oc p least row).mem = true := by
  have pieces : Memory.wf (l.foldl (fun (b : Bound) x => b.seg oc (seqOf (w.cyc w.cur) c.slot) x.1) { w := w.learn l }).w.mem = true := by
    refine List.foldlRecOn l _ (motive := fun b : Bound => Memory.wf b.w.mem = true) (by simp [h]) fun b hb x _ => wf_seg hb ..
  simpa [bindLoad] using pieces

@[simp] theorem wf_storeSeg {w : State} (h : Memory.wf w.mem = true) (g : Seg) (oc v ben : Nat) :
    Memory.wf (w.storeSeg g oc v ben).mem = true := by
  unfold State.storeSeg; split <;> simp [h]

@[simp] theorem wf_storeAt {w : State} (h : Memory.wf w.mem = true) (l : List (Seg × Walked)) (oc v ben : Nat) :
    Memory.wf (storeAt w l oc v ben).mem = true := wf_foldl (fun s x h => by simp [h]) _ (by simp [h])

@[simp] theorem wf_startAtomic {w : State} (h : Memory.wf w.mem = true) (c : SlotCtx) (at_ : Atomic) :
    Memory.wf (w.startAtomic c at_).mem = true := by
  simp [State.startAtomic, h]

@[simp] theorem wf_releaseThen {w : State} (h : Memory.wf w.mem = true) (c : SlotCtx) (scope : Nat) (then_ : List Event) :
    Memory.wf (w.releaseThen c scope then_).mem = true := by
  simp [State.releaseThen, h]

/-! ### Machine/Messages -/

@[simp] theorem wf_partyWrites {s : State} (h : Memory.wf s.mem = true) (w : Nat) (l : List (Seg × Walked)) (v : Nat) :
    Memory.wf (s.partyWrites w l v).mem = true := by
  simp [State.partyWrites, h]

@[simp] theorem wf_spillRecord {s : State} (h : Memory.wf s.mem = true) (tid : BitVec 32) (r : BitVec 128) (by_ : Write) :
    Memory.wf (s.spillRecord tid r by_).mem = true := by
  unfold State.spillRecord; dsimp only; (repeat' split) <;> simp [h]

@[simp] theorem wf_putRecord {s : State} (h : Memory.wf s.mem = true) (tid : BitVec 32) (r : BitVec 128) (by_ : Write) :
    Memory.wf (s.putRecord tid r by_).mem = true := by
  unfold State.putRecord; dsimp only; (repeat' split) <;> simp [h]

@[simp] theorem wf_placeRecord {s : State} (h : Memory.wf s.mem = true) (tid : BitVec 32) (asid : BitVec 16) (r : BitVec 128)
    (by_ : Write) :
    Memory.wf (s.placeRecord tid asid r by_).mem = true := by
  simp [State.placeRecord, h]

/-! ### Machine/Engines -/

theorem wf_areaWrite {s u : State} (h : Memory.wf s.mem = true) {t : Task} {ctxsave : Word} {off n v : Nat}
    (e : s.areaWrite t ctxsave off n v = some u) : Memory.wf u.mem = true := by
  unfold State.areaWrite at e
  split at e <;> simp at e
  simp [← e, h]

/-- A write to a save area that is refused leaves the state. -/
@[simp] theorem wf_areaWrite_getD {s : State} (h : Memory.wf s.mem = true) (t : Task) (ctxsave : Word) (off n v : Nat) :
    Memory.wf ((s.areaWrite t ctxsave off n v).getD s).mem = true := by
  cases e : s.areaWrite t ctxsave off n v with
  | none => exact h
  | some u => exact wf_areaWrite h e

@[simp] theorem wf_saveElement {s : State} (h : Memory.wf s.mem = true) (c : CoreId) (k : Fin 4) (tid : BitVec 32) (n i : Nat) (v : Vec) :
    Memory.wf (s.saveElement c k tid n i v).mem = true := by
  unfold State.saveElement
  split
  · exact h
  · split <;> simp [h]

@[simp] theorem wf_signalRecord {s : State} (h : Memory.wf s.mem = true) (c : CoreId) (k : Fin 4) (tid : BitVec 32) (sig : BitVec 24)
    (payload : Word) (detail : Nat) (srcc kind : Nat) (by_ : Write) :
    Memory.wf (s.signalRecord c k tid sig payload detail srcc kind by_).mem = true := by
  simp [State.signalRecord, h]

@[simp] theorem engineIssue_mem (s : State) (c : CoreId) (e : Fin 3) : (s.engineIssue c e).2.mem = s.mem := by simp [State.engineIssue]

@[simp] theorem wf_enqueue {w : State} (h : Memory.wf w.mem = true) (s0 : State) (u : Fin 2) (q : CopyCmd) :
    Memory.wf (w.enqueue s0 u q).mem = true := by
  unfold State.enqueue
  dsimp only
  (repeat' split) <;> simp [h]

@[simp] theorem wf_drainOne {s : State} (h : Memory.wf s.mem = true) (c : CoreId) (k : Fin 4) (tid : BitVec 32) (n : Fin 16) (q : Stream) :
    Memory.wf (s.drainOne c k tid n q).mem = true := by
  unfold State.drainOne; dsimp only; (repeat' split) <;> simp [h]

/-! ### Machine/Handles -/

@[simp] theorem wf_placePage {s : State} (h : Memory.wf s.mem = true) (d : DieId) (i : Nat) (e : HandleEnt) (j : Nat) :
    Memory.wf (s.placePage d i e j).mem = true := by
  unfold State.placePage; dsimp only; (repeat' split) <;> simp [h]

/-- An operation that faults leaves the state as it was. -/
theorem ends_failedAt {α : Type} {s : State} (h : Memory.wf s.mem = true) {x : Except Trap α} {P : α → Prop} (hx : ∀ a, x = .ok a → P a) :
    Ends (fun r : State × Trap => Memory.wf r.1.mem = true) P (failedAt s x) := by
  unfold failedAt
  split
  · exact .error h
  · exact .ok (hx _ rfl)

theorem wf_engineStore {s t : State} (h : Memory.wf s.mem = true) {d : DieId} {w : Nat} {sp : Space} {va : Word} {n v : Nat}
    (e : engineStore s d w sp va n v = .ok t) : Memory.wf t.mem = true := by
  unfold engineStore at e
  (repeat' split at e) <;> simp at e
  simp [← e, h]

theorem wf_ingressWrite {s t : State} (h : Memory.wf s.mem = true) {d : DieId} {sp : Space} {va : Word} {n v : Nat}
    (e : ingressWrite s d sp va n v = .ok t) : Memory.wf t.mem = true := wf_engineStore h e

theorem wf_ringWrite {s t : State} (h : Memory.wf s.mem = true) {d : DieId} {sp : Space} {va : Word} {n v : Nat}
    (e : ringWrite s d sp va n v = .ok t) : Memory.wf t.mem = true := by
  unfold ringWrite at e
  dsimp only at e
  cases stored : engineStore (s.partyLearns (baseWriter d 8) (s.releasesOf (ingressWriter d))) d (baseWriter d 8) sp va n v with
  | error t => simp [stored, Except.map] at e
  | ok u =>
    have wf := wf_engineStore (by simpa using h) stored
    rw [stored] at e
    simp only [Except.map, Except.ok.injEq] at e
    simpa [← e] using wf

theorem wf_ingressRead {s t : State} (h : Memory.wf s.mem = true) {d : DieId} {sp : Space} {va : Word} {n v : Nat}
    (e : ingressRead s d sp va n = .ok (v, t)) : Memory.wf t.mem = true := by rw [ingressRead_mem e, h]

theorem ends_ringAppend {s : State} (h : Memory.wf s.mem = true) (d : DieId) (sp : Space) (ent : Word) (x status : Nat) :
    Ends (fun r : State × Trap => Memory.wf r.1.mem = true) (fun r : State × Bool => Memory.wf r.1.mem = true) (ringAppend s d sp ent x status) := by
  unfold ringAppend
  refine (ends_failedAt h (P := fun r : Nat × State => Memory.wf r.2.mem = true) fun r e => wf_ingressRead h e).bind fun r hr => ?_
  dsimp only
  have counted {s : State} (h : Memory.wf s.mem = true) : Ends (fun r : State × Trap => Memory.wf r.1.mem = true)
      (fun r : State × Bool => Memory.wf r.1.mem = true)
      (failedAt s (ingressWrite s d sp (ent + 28) 4 (field r.1 96 32 + 1)) >>= fun t => .ok (t, decide (field r.1 96 32 < field r.1 64 32))) :=
    (ends_failedAt h fun t e => wf_ingressWrite h e).bind fun t ht => .ok ht
  split
  · exact (ends_failedAt hr fun t e => wf_ringWrite hr e).bind fun s hs => counted hs
  · exact counted hr

@[simp] theorem wf_deferQueue {s : State} (h : Memory.wf s.mem = true) (d : DieId) (sp : Space) (ent : Word) (qbase : Nat) (i : Nat)
    (xs : Nat) :
    Memory.wf (deferQueue d sp ent qbase s i xs).1.mem = true := by
  induction xs generalizing s i with
  | zero => exact h
  | succ n ih =>
    unfold deferQueue
    split
    · exact h
    next x t read =>
    have appended := ends_ringAppend (wf_ingressRead h read) d sp ent x 2
    split
    next e => simpa [e] using appended
    next e => exact ih (by simpa [e] using appended) _

@[simp] theorem wf_deferTask {s : State} (h : Memory.wf s.mem = true) (d : DieId) (t : Task) :
    Memory.wf (deferTask s d t).1.mem = true := by
  unfold deferTask
  dsimp only
  split
  · exact h
  split
  · exact h
  next read =>
  have hr := wf_ingressRead h read
  split
  · exact hr
  next written => exact wf_deferQueue (wf_ingressWrite hr written) ..

/-! ### Machine/Routing -/

@[simp] theorem wf_countLoad {s : State} (h : Memory.wf s.mem = true) (d : DieId) (layer e : Nat) :
    Memory.wf (s.countLoad d layer e).mem = true := by
  unfold State.countLoad; dsimp only; (repeat' split) <;> simp [h]

theorem ends_appendExpert {s : State} (h : Memory.wf s.mem = true) (d : DieId) (sp : Space) (q : Disp) (g j r i logit : Nat) :
    Ends (fun r : State × Trap => Memory.wf r.1.mem = true) (fun t : State => Memory.wf t.mem = true) (appendExpert s d sp q g j r i logit) := by
  unfold appendExpert
  extract_lets e ent x
  refine (ends_failedAt h (P := fun r : Nat × State => Memory.wf r.2.mem = true) fun r e => wf_ingressRead h e).bind fun r hr => ?_
  dsimp only
  split
  · refine (ends_failedAt hr fun t e => wf_ingressWrite hr e).bind fun t ht => ?_
    refine (ends_failedAt ht fun t e => wf_ingressWrite ht e).bind fun t ht => ?_
    simp [ht]
  · refine (ends_ringAppend hr ..).bind fun t ht => ?_
    simp [ht]

@[simp] theorem wf_appendExperts {xs : State} (h : Memory.wf xs.mem = true) (d : DieId) (sp : Space) (q : Disp) (g j v : Nat) (ys : Nat)
    (zs : List (Nat × FVal)) :
    Memory.wf (appendExperts d sp q g j v xs ys zs).1.mem = true := by
  induction zs generalizing xs ys with
  | nil => exact h
  | cons x l ih =>
    unfold appendExperts
    have appended := ends_appendExpert h d sp q g j ys x.1 (field v (32 * x.1) 32)
    split
    next e => simpa [e] using appended
    next e => exact ih (by simpa [e] using appended) _

/-! ### Machine/Snapshots -/

@[simp] theorem wf_prefixWrite {s : State} (h : Memory.wf s.mem = true) (pa n v : Nat) : Memory.wf (s.prefixWrite pa n v).mem = true := by
  simp [State.prefixWrite, h]

@[simp] theorem wf_putHeader {s : State} (h : Memory.wf s.mem = true) (i v : Nat) : Memory.wf (s.putHeader i v).mem = true := by
  simp [State.putHeader, h]

@[simp] theorem wf_syncNode {s : State} (h : Memory.wf s.mem = true) (n : Node) :
    Memory.wf (s.syncNode n).mem = true := wf_foldl (fun s m h => by simp [h]) _ h

@[simp] theorem wf_updNode {s : State} (h : Memory.wf s.mem = true) (i : Nat) (f : Node → Node) : Memory.wf (s.updNode i f).mem = true := by
  unfold State.updNode; dsimp only; (repeat' split) <;> simp [h]

@[simp] theorem wf_takeHold {s : State} (h : Memory.wf s.mem = true) (c : CoreId) (k : Fin 4) (tid : BitVec 32) (n : Node) :
    Memory.wf (s.takeHold c k tid n).mem = true := by
  simp [State.takeHold, h]

@[simp] theorem wf_freeNode {s : State} (h : Memory.wf s.mem = true) (n : Node) : Memory.wf (s.freeNode n).mem = true := by
  have synced {t : State} (ht : Memory.wf t.mem = true) (m : Node) (f : Node → Node) : Memory.wf ((t.updNode n.parent f).syncNode m).mem = true :=
    wf_syncNode (wf_updNode ht ..) _
  unfold State.freeNode
  dsimp only
  exact synced (wf_putHeader (by exact h) ..) ..

theorem wf_evictNode {s t : State} (h : Memory.wf s.mem = true) (e : s.evictNode = some t) : Memory.wf t.mem = true := by
  unfold State.evictNode at e
  dsimp only at e
  (repeat' split at e) <;> simp at e
  simp [← e, h]

@[simp] theorem wf_dropHold {s : State} (h : Memory.wf s.mem = true) (c : CoreId) (k : Fin 4) (tid : BitVec 32) (r : BitVec 32) :
    Memory.wf (s.dropHold c k tid r).mem = true := by
  unfold State.dropHold; dsimp only; (repeat' split) <;> simp [h]

theorem wf_snapRead {s t : State} (h : Memory.wf s.mem = true) {d : DieId} {sp : Space} {va : Word} {n v : Nat}
    (e : snapRead s d sp va n = .ok (v, t)) : Memory.wf t.mem = true := by
  unfold snapRead at e
  (repeat' split at e) <;> simp at e
  rw [← e.2]
  exact wf_foldl (fun s x h => wf_foldl (fun s a h => by simp [h]) _ h) _ (by simp [h])

/-- What reads the words of a snapshot command keeps the canonical form. -/
theorem ends_snapRead {s : State} (h : Memory.wf s.mem = true) (d : DieId) (sp : Space) (va : Word) (n : Nat) :
    Ends (fun _ => True) (fun r : Nat × State => Memory.wf r.2.mem = true) (snapRead s d sp va n) := by
  cases e : snapRead s d sp va n with
  | error t => exact .error trivial
  | ok r => exact .ok (wf_snapRead h e)

@[simp] theorem wf_lookupTree {w : State} (h : Memory.wf w.mem = true) (asid : BitVec 16) (c hashes toks : Nat) :
    Memory.wf (w.lookupTree asid c hashes toks).1.mem = true := by
  unfold State.lookupTree; dsimp only; (repeat' split) <;> simp_all

theorem ends_lookRecord {s : State} (h : Memory.wf s.mem = true) (d : DieId) (sp : Space) (va : Word) :
    Ends (fun _ => True) (fun r : Option (Nat × Nat × Nat) × State => Memory.wf r.2.mem = true) (lookRecord s d sp va) := by
  unfold lookRecord
  refine (ends_snapRead h ..).bind fun r hr => ?_
  dsimp only
  split
  · exact .ok hr
  refine (ends_snapRead hr ..).bind fun r hr => ?_
  exact (ends_snapRead hr ..).bind fun r hr => .ok hr

@[simp] theorem wf_snapRecord {s : State} (h : Memory.wf s.mem = true) (q : SnCmd) (r : BitVec 128) :
    Memory.wf (s.snapRecord q r).mem = true := by
  unfold State.snapRecord; split <;> simp [h]

@[simp] theorem wf_snapDone {s : State} (h : Memory.wf s.mem = true) (q : SnCmd) (kind : Nat) (ref : BitVec 32) (payload : Word) :
    Memory.wf (s.snapDone q kind ref payload).mem = true := by
  simp [State.snapDone, h]

@[simp] theorem wf_readDesc {s : State} (h : Memory.wf s.mem = true) (q : SnCmd) : Memory.wf (s.readDesc q).mem = true := by
  unfold State.readDesc
  split
  · simp [h]
  split
  · simp [h]
  next read => simp [wf_snapRead h read]

theorem engineBank_mem {s t : State} {c : CoreId} {pa n : Nat} {write : Bool} {waited : Nat}
    (h : s.engineBank c pa n write waited = some t) : t.mem = s.mem := by
  unfold State.engineBank at h
  dsimp only at h
  (repeat' split at h) <;> simp at h <;> simp [← h]

@[simp] theorem wf_moveGranule {s : State} (h : Memory.wf s.mem = true) (q : SnCmd) : Memory.wf (s.moveGranule q).mem = true := by
  unfold State.moveGranule
  dsimp only
  split
  · simp [h]
  next bank =>
  have hb := engineBank_mem bank
  (repeat' split) <;> simp [hb, h]

@[simp] theorem wf_saveFull {s : State} (h : Memory.wf s.mem = true) (q : SnCmd) : Memory.wf (s.saveFull q).mem = true := by
  simp [State.saveFull, h]

@[simp] theorem wf_putGranules {s : State} (h : Memory.wf s.mem = true) (g : Nat) (l : List (Vec × Option Nat)) :
    Memory.wf (s.putGranules g l).mem = true := by
  unfold State.putGranules
  refine List.foldlRecOn l _ (motive := fun a : State × Nat => Memory.wf a.1.mem = true) h fun a ha x _ => ?_
  dsimp only
  split <;> simp [ha]

@[simp] theorem wf_createNode {s : State} (h : Memory.wf s.mem = true) (q : SnCmd) (toks : Nat) (parent : Nat) (place : Nat × Nat × Nat) :
    Memory.wf (s.createNode q toks parent place).mem = true := by
  have written {t : State} (ht : Memory.wf t.mem = true) (i n k : Nat) : Memory.wf ((t.prefixWrite i n k).putGranules place.2.2 q.data).mem = true :=
    wf_putGranules (wf_prefixWrite ht ..) ..
  unfold State.createNode
  simp only [postLater_mem, lowPool_mem, updSnap_mem]
  refine written ?_ ..
  rw [updMsgAt_mem]
  exact wf_syncNode (wf_updNode (by exact h) ..) _

@[simp] theorem wf_buildNode {s : State} (h : Memory.wf s.mem = true) (q : SnCmd) (toks : Nat) (parent : Nat) :
    Memory.wf (s.buildNode q toks parent).mem = true := by
  unfold State.buildNode; dsimp only; (repeat' split) <;> simp [h]

@[simp] theorem wf_freeTree {s : State} (h : Memory.wf s.mem = true) (i : Nat) : Memory.wf (s.freeTree i).mem = true := by
  unfold State.freeTree; dsimp only; simp_all

@[simp] theorem wf_cancelSnaps {s : State} (h : Memory.wf s.mem = true) (tid : BitVec 32) : Memory.wf (s.cancelSnaps tid).mem = true := by
  refine wf_foldl (fun s q h => ?_) _ h
  split <;> simp [h]

/-! ### Machine/Tasks -/

@[simp] theorem wf_zeroRange {s : State} (h : Memory.wf s.mem = true) (pa n : Nat) :
    Memory.wf (s.zeroRange pa n).mem = true := memOk_zeroRange h ..

@[simp] theorem wf_zeroCore {s : State} (h : Memory.wf s.mem = true) (c : CoreId) : Memory.wf (s.zeroCore c).mem = true := by
  simp [State.zeroCore, h]

@[simp] theorem wf_settleDark {s : State} (h : Memory.wf s.mem = true) (c : CoreId) : Memory.wf (s.settleDark c).mem = true := by
  simp [State.settleDark, h]

@[simp] theorem wf_endLend {s : State} (h : Memory.wf s.mem = true) (c : CoreId) (lent : List CoreId) :
    Memory.wf (s.endLend c lent).mem = true := by
  simp +contextual [State.endLend, h, -List.foldl_append]

theorem wf_belfryWrite {s t : State} (h : Memory.wf s.mem = true) {q : Fin 64} {va : Word} {n v : Nat}
    (e : s.belfryWrite q va n v = some t) : Memory.wf t.mem = true := by
  unfold State.belfryWrite at e
  (repeat' split at e) <;> simp at e
  simp [← e, h]

@[simp] theorem wf_releaseFor {s : State} (h : Memory.wf s.mem = true) (c : CoreId) (k : Fin 4) (scope : Nat) :
    Memory.wf (s.releaseFor c k scope).mem = true := by
  simp [State.releaseFor, h]

@[simp] theorem wf_bindHeader {s : State} (h : Memory.wf s.mem = true) (c : CoreId) (k : Fin 4) (t : Task) :
    Memory.wf (s.bindHeader c k t).mem = true := by
  -- whatever a descriptor says: the kernel would otherwise compute with its bits
  obtain ⟨pattern, any⟩ : ∃ f, f = patternOfDesc := ⟨_, rfl⟩
  unfold State.bindHeader
  rw [← any]
  refine wf_foldl (fun s x h => ?_) _ h
  dsimp only
  split <;> simp [h]

@[simp] theorem wf_placeAt {s : State} (h : Memory.wf s.mem = true) (t : Task) (c : CoreId) (k : Fin 4) (base : Nat) :
    Memory.wf (s.placeAt t c k base).mem = true := by
  unfold State.placeAt; dsimp only; (repeat' split) <;> simp [h]

@[simp] theorem wf_vacate {s : State} (h : Memory.wf s.mem = true) (c : CoreId) (k : Fin 4) : Memory.wf (s.vacate c k).mem = true := by
  have cleared (l : List Nat) {t : State} (ht : Memory.wf t.mem = true) :
      Memory.wf (l.foldl (fun (s : State) t => s.zeroRange (lsBase c + 4096 * t) 4096) t).mem = true :=
    wf_foldl (fun s a h => by simp [h]) l ht
  unfold State.vacate
  dsimp only
  split <;> simp [cleared, h]

@[simp] theorem wf_belfryStore {s : State} (h : Memory.wf s.mem = true) (q : Fin 64) (pa n v : Nat) :
    Memory.wf (s.belfryStore q pa n v).mem = true := by
  simp [State.belfryStore, h]

@[simp] theorem wf_writeFault {s : State} (h : Memory.wf s.mem = true) (t : Task) (c : CoreId) (k : Fin 4) :
    Memory.wf (s.writeFault t c k).mem = true := by
  unfold State.writeFault; split <;> simp [h]

@[simp] theorem wf_writeMix {s : State} (h : Memory.wf s.mem = true) (t : Task) : Memory.wf (s.writeMix t).mem = true := by
  unfold State.writeMix; split <;> simp [h]

@[simp] theorem wf_releaseTask {s : State} (h : Memory.wf s.mem = true) (t : Task) : Memory.wf (s.releaseTask t).mem = true := by
  unfold State.releaseTask; dsimp only; (repeat' split) <;> simp_all

@[simp] theorem wf_endTask {s : State} (h : Memory.wf s.mem = true) (t : Task) (status cause : Nat) (origin ostatus : BitVec 32) :
    Memory.wf (s.endTask t status cause origin ostatus).mem = true := by
  unfold State.endTask
  extract_lets t s₁ s₂ bytes s₃ s₄ s₅ s₆ s₇ s₈ s₉
  have recorded : Memory.wf s₁.mem = true := by
    simp only [s₁]
    (repeat' split) <;> simp [h]
  have released : Memory.wf s₄.mem = true := by
    have mixed : Memory.wf s₂.mem = true := by simp [s₂, recorded]
    simp [s₄, s₃, mixed]
  have vacated : Memory.wf s₅.mem = true := by
    simp only [s₅]
    split <;> simp [released]
  have told : Memory.wf s₈.mem = true := by
    refine wf_foldl (fun s n h => ?_) _ (by simpa [s₇, s₆] using vacated)
    split <;> simp [h]
  clear_value s₈
  (repeat' split) <;> simp [s₉, told]

@[simp] theorem wf_cancelWork {s : State} (h : Memory.wf s.mem = true) (tid : BitVec 32) : Memory.wf (s.cancelWork tid).mem = true := by
  simp [State.cancelWork, h]

@[simp] theorem wf_stopTask {s : State} (h : Memory.wf s.mem = true) (c : CoreId) (k : Fin 4) (tid : BitVec 32) :
    Memory.wf (s.stopTask c k tid).mem = true := by
  simp [State.stopTask, h]

/-! ### Machine/Gangs -/

@[simp] theorem wf_park {s : State} (h : Memory.wf s.mem = true) (t : Task) (c : CoreId) (k : Fin 4) :
    Memory.wf (s.park t c k).mem = true := by
  unfold State.park; dsimp only; (repeat' split) <;> simp_all

@[simp] theorem wf_beginSave {s : State} (h : Memory.wf s.mem = true) (t : Task) (c : CoreId) (k : Fin 4) (reason : Nat) :
    Memory.wf (s.beginSave t c k reason).mem = true := by
  simp [State.beginSave, h]

@[simp] theorem wf_unplace {s : State} (h : Memory.wf s.mem = true) (t : Task) (c : CoreId) (k : Fin 4) :
    Memory.wf (s.unplace t c k).mem = true := by
  simp [State.unplace, h]

@[simp] theorem wf_saveGang {s : State} (h : Memory.wf s.mem = true) (g : Gang) (aligned : Bool) (reason : Nat) :
    Memory.wf (s.saveGang g aligned reason).mem = true := by
  unfold State.saveGang
  rw [pokePlace_mem]
  refine wf_foldl (fun s t h => ?_) _ (by simp [h])
  (repeat' split) <;> simp [h]

@[simp] theorem wf_settleCut {s : State} (h : Memory.wf s.mem = true) (gid : BitVec 16) : Memory.wf (s.settleCut gid).mem = true := by
  unfold State.settleCut
  dsimp only
  split
  · exact h
  split
  · exact h
  split
  · simp [h]
  split
  · exact h
  refine wf_foldl (fun s t h => ?_) _ (by simp [h])
  (repeat' split) <;> simp [h]

@[simp] theorem wf_holdAtCut {s : State} (h : Memory.wf s.mem = true) (t : Task) (c : CoreId) (k : Fin 4) :
    Memory.wf (s.holdAtCut t c k).mem = true := by
  unfold State.holdAtCut; split <;> simp [h]

theorem wf_foldl_write {m : List Host.Cell} (h : Memory.wf m = true) (pa n : Nat) (l : List Host.Cell) :
    Memory.wf (l.foldl (fun (m : List Host.Cell) (x : Host.Cell) => if x.1 < n then Memory.write m (pa + x.1) 1 x.2.toNat else m) m) = true := by
  induction l generalizing m with
  | nil => exact h
  | cons x l ih =>
    rw [List.foldl_cons]
    refine ih ?_
    split
    · exact wf_write h ..
    · exact h

@[simp] theorem wf_putCells {s : State} (h : Memory.wf s.mem = true) (pa n : Nat) (l : List Host.Cell) :
    Memory.wf (s.putCells pa n l).mem = true := wf_foldl_write (wf_dropRange h ..) ..

@[simp] theorem wf_putRange {s : State} (h : Memory.wf s.mem = true) (t : Task) (ctxsave : Word) (off pa n : Nat) (kept : List Host.Cell) :
    Memory.wf (s.putRange t ctxsave off pa n kept).mem = true := by
  unfold State.putRange
  split
  · simp [h]
  · simp [wf_write (wf_dropRange h pa n)]

@[simp] theorem wf_writeArea {s : State} (h : Memory.wf s.mem = true) (t : Task) (c : CoreId) (f : Frame) (reason : Nat) :
    Memory.wf (s.writeArea t c f reason).mem = true := by
  have images (l : List (Nat × Nat × Nat)) {s : State} (h : Memory.wf s.mem = true) :
      Memory.wf (l.foldl (fun s p => (s.areaWrite t f.sys.ctxsave p.1 p.2.1 p.2.2).getD s) s).mem = true :=
    wf_foldl (fun s p h => by simp [h]) l h
  unfold State.writeArea
  dsimp only
  refine wf_areaWrite_getD (List.foldlRecOn _ _ (motive := fun a : State × Nat => Memory.wf a.1.mem = true) (images _ h) fun a ha x _ => ?_) ..
  exact wf_areaWrite_getD ha ..

@[simp] theorem wf_takeArea {s : State} (h : Memory.wf s.mem = true) (t : Task) (c : CoreId) (k : Fin 4) (v : Saved) (f : Frame) :
    Memory.wf (s.takeArea t c k v f).mem = true := wf_areaWrite_getD (memOk_acquire (by simpa [State.MemOk] using h) ..) ..

/-! ### Machine/Matrix -/

@[simp] theorem wf_putRow {s : State} (h : Memory.wf s.mem = true) (x : Stamp) (pa n v : Nat) :
    Memory.wf (s.putRow x pa n v).mem = true := by
  simp [State.putRow, h]

@[simp] theorem wf_runMma {s : State} (h : Memory.wf s.mem = true) (x : Stamp) (o : MOp) (mode f : Nat) :
    Memory.wf (s.runMma x o mode f).mem = true := by
  unfold State.runMma; dsimp only; (repeat' split) <;> simp_all

@[simp] theorem wf_runScale {s : State} (h : Memory.wf s.mem = true) (x : Stamp) (o : MOp) : Memory.wf (s.runScale x o).mem = true := by
  unfold State.runScale; dsimp only; (repeat' split) <;> simp_all

@[simp] theorem wf_runCvt {s : State} (h : Memory.wf s.mem = true) (x : Stamp) (o : MOp) (dst : Nat) (rtz : Bool) :
    Memory.wf (s.runCvt x o dst rtz).mem = true := by
  unfold State.runCvt; dsimp only; simp_all

@[simp] theorem wf_runTrn {s : State} (h : Memory.wf s.mem = true) (x : Stamp) (o : MOp) (shape : Nat) :
    Memory.wf (s.runTrn x o shape).mem = true := by
  unfold State.runTrn; dsimp only; simp_all

@[simp] theorem wf_runMatrix {s : State} (h : Memory.wf s.mem = true) (x : Stamp) (o : MOp) : Memory.wf (s.runMatrix x o).mem = true := by
  unfold State.runMatrix
  split
  case h_2 => exact wf_foldl (fun s m h => by simp [h]) _ h
  all_goals simp [h]

theorem wf_fetchTile {s u : State} (h : Memory.wf s.mem = true) {c : CoreId} {t : TileCmd} (e : s.fetchTile c t = some u) :
    Memory.wf u.mem = true := by
  unfold State.fetchTile at e
  dsimp only at e
  split at e <;> simp at e
  rw [← e, List.foldr_eq_foldl_reverse]
  exact wf_foldl (fun s x h => by simp [h]) _ (by simp [h])

@[simp] theorem wf_landTile {s : State} (h : Memory.wf s.mem = true) (c : CoreId) (t : TileCmd) (n data side : Nat) :
    Memory.wf (s.landTile c t n data side).mem = true := by
  unfold State.landTile; dsimp only; (repeat' split) <;> simp [h]

@[simp] theorem wf_storeRows {s : State} (h : Memory.wf s.mem = true) (c : CoreId) (f : Frame) (t : TileCmd) (r n : Nat) :
    Memory.wf (storeRows c f t s r n).1.mem = true := by
  induction n generalizing s r with
  | zero => exact h
  | succ n ih =>
    unfold storeRows
    dsimp only
    split
    · exact h
    split
    · exact h
    split
    · exact h
    refine ih ?_ _
    (repeat' split) <;> simp [h]

/-! ### Machine/Bundle -/

@[simp] theorem wf_under {s : State} (h : Memory.wf s.mem = true) (b : Bundle) : Memory.wf (s.under b).mem = true := by
  simp [State.under, h]

/-! ### Machine/Hbm -/

@[simp] theorem wf_flushStack {s : State} (h : Memory.wf s.mem = true) (d : DieId) : Memory.wf (s.flushStack d).mem = true := by
  unfold State.flushStack; dsimp only; simp_all

/-! ### Machine/Power -/

@[simp] theorem wf_saveNext {s : State} (h : Memory.wf s.mem = true) (t : Task) : Memory.wf (s.saveNext t).mem = true := by
  unfold State.saveNext; dsimp only; (repeat' split) <;> simp [h]

@[simp] theorem wf_tripSnaps {s : State} (h : Memory.wf s.mem = true) : Memory.wf s.tripSnaps.mem = true := by
  refine wf_foldl (fun s q h => ?_) _ h
  split <;> simp [h]

@[simp] theorem wf_examineTasks {s : State} (h : Memory.wf s.mem = true) : Memory.wf s.examineTasks.mem = true := by
  refine wf_foldl (fun s t h => ?_) _ h
  (repeat' split) <;> simp [h]

@[simp] theorem wf_afterReset {s : State} (h : Memory.wf s.mem = true) : Memory.wf s.afterReset.mem = true := wf_filter h _

@[simp] theorem wf_started {s : State} (h : Memory.wf s.mem = true) : Memory.wf s.started.mem = true := by
  unfold State.started; dsimp only; (repeat' split) <;> simp [h]

@[simp] theorem wf_powerOff {s : State} (h : Memory.wf s.mem = true) : Memory.wf s.powerOff.mem = true := wf_filter h _

/-! ### Machine/Security -/

@[simp] theorem wf_zeroHbm {s : State} (h : Memory.wf s.mem = true) : Memory.wf s.zeroHbm.mem = true := memOk_zeroHbm h ..

/-! ### Machine/Ports -/

@[simp] theorem wf_unitsWrite {s : State} (h : Memory.wf s.mem = true) (w : Nat) (l : List UnitSeg) (v : Nat) :
    Memory.wf (s.unitsWrite w l v).mem = true := by
  unfold State.unitsWrite
  rw [publish_mem]
  refine wf_foldl (fun s x h => ?_) _ h
  split <;> simp [h]

theorem wf_appendEntries {s t : State} (h : Memory.wf s.mem = true) {q : Fin 64} {i v n : Nat}
    (e : s.appendEntries q i v n = some t) : Memory.wf t.mem = true := by
  induction n generalizing s i v with
  | zero => simpa [← Option.some.inj e] using h
  | succ n ih =>
    unfold State.appendEntries at e
    dsimp only at e
    split at e
    next written => exact ih (wf_belfryWrite h written) e
    next => simp at e

@[simp] theorem wf_performOrder {s : State} (h : Memory.wf s.mem = true) (a : WinAcc) (o : Order) :
    Memory.wf (s.performOrder a o).mem = true := by
  unfold State.performOrder; split <;> simp [h]

@[simp] theorem wf_performAccess {s : State} (h : Memory.wf s.mem = true) (a : WinAcc) : Memory.wf (s.performAccess a).mem = true := by
  unfold State.performAccess; dsimp only; (repeat' split) <;> simp [h]

/-! ### Machine/Sequencer -/

@[simp] theorem wf_landLoad {s : State} (h : Memory.wf s.mem = true) (c : CoreId) (k : Fin 4) (id : Nat) :
    Memory.wf (s.landLoad c k id).mem = true := by
  unfold State.landLoad; dsimp only; (repeat' split) <;> simp [h]

end Sys2Proof.Machine
end

section
/-! What an operation of a slot keeps: its meaning ends with a state whose memory is canonical, or stops without harm. The checks, the
reads of operands and the writes of results that the meanings are built of. -/

namespace Sys2Proof.Machine
open Sys2Proof

/-- What an operation stops with does no harm: a hold moves only states whose memory stays canonical. -/
def Stop.Keeps : Stop → Prop
  | .hold f => ∀ s : State, Memory.wf s.mem = true → Memory.wf (f s).mem = true
  | .trap _ | .fault _ => True

@[simp] theorem keeps_hold (f : State → State) :
    (Stop.hold f).Keeps ↔ ∀ s : State, Memory.wf s.mem = true → Memory.wf (f s).mem = true := Iff.rfl

@[simp] theorem keeps_trap (t : Trap) : (Stop.trap t).Keeps := trivial

@[simp] theorem keeps_fault (c : Cause) : (Stop.fault c).Keeps := trivial

/-- A check or a read of an operation: whatever it answers, what it stops with does no harm. -/
abbrev Quiet {α : Type} (x : Except Stop α) : Prop := Ends Stop.Keeps (fun _ => True) x

/-- A part of an operation that answers a state: its memory is canonical. -/
abbrev Lands (x : Except Stop State) : Prop := Ends Stop.Keeps (fun w => Memory.wf w.mem = true) x

/-- An operation keeps the canonical form of the state it is given. -/
def Op.Keeps (op : Op) : Prop := ∀ c s w, Memory.wf w.mem = true → Lands (op.sem c s w)

theorem Quiet.bind {α β : Type} {R : β → Prop} {x : Except Stop α} {f : α → Except Stop β} (hx : Quiet x)
    (hf : ∀ a, Ends Stop.Keeps R (f a)) : Ends Stop.Keeps R (x >>= f) := Ends.bind hx fun a _ => hf a

/-! ### The checks and reads of the operations -/

@[simp] theorem ends_trapOf {α : Type} (P : α → Prop) (c : Cause) : Ends Stop.Keeps P (trapOf c) := .error trivial

@[simp] theorem ends_trapAt {α : Type} (P : α → Prop) (c : Cause) (va : Nat) : Ends Stop.Keeps P (trapAt c va) := .error trivial

@[simp] theorem ends_poisonedBy {α : Type} (P : α → Prop) (src : Nat) : Ends Stop.Keeps P (poisonedBy src) := .error trivial

@[simp] theorem ends_streamTrap {α : Type} (P : α → Prop) (n : Fin 16) (t : Trap) : Ends Stop.Keeps P (streamTrap n t) := .error trivial

@[simp] theorem ends_holdNow {α : Type} (P : α → Prop) : Ends Stop.Keeps P (holdNow : Except Stop α) := .error fun _ h => h

@[simp] theorem ends_holdSw {α : Type} (P : α → Prop) : Ends Stop.Keeps P (holdSw : Except Stop α) := .error fun _ h => h

theorem quiet_require (b : Bool) (c : Cause) : Quiet (require b c) := by unfold require; split <;> simp

theorem quiet_holdWhile (b : Bool) : Quiet (holdWhile b) := by unfold holdWhile; split <;> simp

theorem quiet_holdOrder (b : Bool) : Quiet (holdOrder b) := by unfold holdOrder; split <;> simp

theorem quiet_getS (s : State) (f : BitVec 6) : Quiet (getS s f) := by unfold getS; split <;> simp

theorem quiet_getElem (s : State) (v : Fin 8) (i : Nat) : Quiet (getElem s v i) := by unfold getElem; (repeat' split) <;> simp

theorem quiet_checkAccess (s : State) (va n : Nat) (k : Access) (ctl : Bool) : Quiet (checkAccess s va n k ctl) := by
  unfold checkAccess
  split
  · simp
  split
  · simp
  dsimp only
  (repeat' split) <;> simp

theorem quiet_effAddr (c : SlotCtx) (s : State) (a : BitVec 6) (m : BitVec 2) : Quiet (effAddr c s a m) := by
  have checked (ea : Word) : Quiet (if canonical ea then .ok ea else trapAt Cause.address ea.toNat) := by split <;> simp
  refine (quiet_getS ..).bind fun base => ?_
  dsimp only
  split
  · exact checked _
  · exact checked _
  · exact (quiet_getS ..).bind fun x => checked _

theorem quiet_classed (s : State) (va n : Nat) (k : Access) (ctl : Bool) (oc : Nat) : Quiet (classed s va n k ctl oc) :=
  (quiet_checkAccess ..).bind fun _ => (quiet_holdWhile _).bind fun _ => .ok trivial

theorem quiet_laneSegs (s : State) (k : Access) (aligned : Bool) (base : Word) (idx : Vec) (n : Nat) :
    Quiet (laneSegs s k aligned base idx n) := by
  induction n with
  | zero => exact .ok trivial
  | succ n ih =>
    unfold laneSegs
    refine ih.bind fun l => ?_
    dsimp only
    split
    · split
      · simp
      · have checked := quiet_checkAccess s (va57 (laneAddr base idx n)) 4 k false
        split
        · simp
        next e => simpa [e] using checked
        · simp
    · simp

theorem quiet_lanes (s : State) (k : Access) (aligned : Bool) (a : BitVec 6) (idx : Vec) : Quiet (lanes s k aligned a idx) :=
  (quiet_getS ..).bind fun _ => (quiet_laneSegs ..).bind fun _ => (quiet_holdWhile _).bind fun _ => .ok trivial

theorem quiet_rangeOf (s : State) (a b : BitVec 6) : Quiet (rangeOf s a b) := by
  refine (quiet_getS ..).bind fun x => (quiet_getS ..).bind fun n => ?_
  (repeat' split) <;> simp

theorem quiet_invalWord (x : Word) : Quiet (invalWord x) := by unfold invalWord; split <;> simp

theorem quiet_copySide (s : State) (a : Word) (stride : Int) (rows len : Nat) : Quiet (copySide s a stride rows len) := by
  unfold copySide
  dsimp only
  (repeat' split) <;> simp

theorem quiet_descSig (x : Word) : Quiet (descSig x) := by unfold descSig; split <;> simp

theorem quiet_unitRoom (c : SlotCtx) (w : State) : Quiet (unitRoom c w) := quiet_holdWhile _

theorem quiet_tileRange (s : State) (a b : BitVec 6) : Quiet (tileRange s a b) := by
  refine (quiet_getS ..).bind fun t => (quiet_getS ..).bind fun n => ?_
  split
  · simp
  · exact (quiet_require ..).bind fun _ => .ok trivial

theorem quiet_gateCheck (s : State) (sw : Bool) : Quiet (gateCheck s sw) := by
  unfold gateCheck
  dsimp only
  split <;> simp +contextual

theorem quiet_handleOf (s : State) (a : BitVec 6) : Quiet (handleOf s a) :=
  (quiet_getS ..).bind fun _ => (quiet_require ..).bind fun _ => .ok trivial

theorem quiet_mElem (s : State) (o : Opd) (ok : Nat → Nat → Bool) : Quiet (mElem s o ok) := by
  unfold mElem
  split
  · exact (quiet_getElem ..).bind fun _ => (quiet_require ..).bind fun _ => .ok trivial
  · simp

theorem quiet_tileCmd (c : SlotCtx) (s : State) (store : Bool) (o : Opd) (base desc : Word) : Quiet (tileCmd c s store o base desc) := by
  refine (quiet_mElem ..).bind fun e => (quiet_require ..).bind fun _ => (quiet_require ..).bind fun _ => ?_
  dsimp only
  split
  · refine (show Quiet (.ok ()) from .ok trivial).bind fun _ => ?_
    split <;> simp
  · exact (show Quiet (trapAt Cause.address _) from ends_trapAt ..).bind fun _ => by split <;> simp

theorem quiet_useTarget (s : State) (t : BitVec 3) : Quiet (useTarget s t) :=
  (quiet_require ..).bind fun _ => (quiet_holdWhile _).bind fun _ => .ok trivial

theorem quiet_dchkRange (s : State) (x : Word) (n : Nat) : Quiet (dchkRange s x n) := by
  refine (quiet_require ..).bind fun _ => (quiet_require ..).bind fun _ => ?_
  dsimp only
  split <;> simp

/-! ### What takes an operand or a destination and answers a state -/

theorem ends_popStream {w : State} (h : Memory.wf w.mem = true) (n : Fin 16) :
    Ends Stop.Keeps (fun r : Vec × State => Memory.wf r.2.mem = true) (popStream w n) := by
  unfold popStream
  dsimp only
  (repeat' split) <;> simp [h]

theorem ends_readV (c : SlotCtx) (s : State) (o : Opd) (b : Nat) (isF32 : Bool) {x : Seen × State} (h : Memory.wf x.2.mem = true) :
    Ends Stop.Keeps (fun r : Vec × Seen × State => Memory.wf r.2.2.mem = true) (readV c s o b isF32 x) := by
  unfold readV
  split
  · refine (quiet_getElem ..).bind fun e => (quiet_require ..).bind fun _ => ?_
    dsimp only
    split <;> simp [h]
  next n =>
    dsimp only
    split
    · split <;> simp [h]
    · split
      · simp [h]
      · have popped := ends_popStream h n
        split <;> simp_all
    · simp
  · (repeat' split) <;> simp [h]

theorem ends_newHead {w : State} (h : Memory.wf w.mem = true) (seen : Seen) (n : Fin 16) (tag : Nat) : Lands (newHead seen n tag w) := by
  unfold newHead
  split <;> simp [h]

theorem ends_writeV (c : SlotCtx) (s : State) (o : Option Opd) (seen : Seen) (lat : Nat) (ben : Mask) (data : Vec) (unit : Option (Fin 3))
    {w : State} (h : Memory.wf w.mem = true) : Lands (writeV c s o seen lat ben data unit w) := by
  unfold writeV
  dsimp only
  split
  · simp [h]
  · exact (quiet_getElem ..).bind fun e => (quiet_require ..).bind fun _ => by simp [h]
  · split
    · simp [h]
    · exact (ends_newHead h ..).bind fun w hw => by simp [hw]
    · (repeat' split) <;> simp [h]
  · split <;> simp [h]

theorem ends_loadDest (c : SlotCtx) (s : State) (o : Opd) (seen : Seen) {w : State} (h : Memory.wf w.mem = true) :
    Ends Stop.Keeps (fun r : Dest × State => Memory.wf r.2.mem = true) (loadDest c s o seen w) := by
  unfold loadDest
  split
  · exact (quiet_getElem ..).bind fun e => (quiet_require ..).bind fun _ => .ok h
  · dsimp only
    split
    · exact .ok h
    · exact (ends_newHead h ..).bind fun w hw => .ok hw
    · (repeat' split) <;> simp [h]
  · simp

theorem ends_scatterSrcs (c : SlotCtx) (s : State) {w : State} (h : Memory.wf w.mem = true) (d b : BitVec 6) :
    Ends Stop.Keeps (fun r : Vec × Vec × State => Memory.wf r.2.2.mem = true) (scatterSrcs c s w d b) :=
  (ends_readV (x := ([], w)) _ _ _ _ _ h).bind fun r hr => (ends_readV (x := (r.2.1, r.2.2)) _ _ _ _ _ hr).bind fun _ hq => .ok hq

theorem ends_inval (s : State) (v : Inval) {w : State} (h : Memory.wf w.mem = true) : Lands (inval s v w) := by
  unfold inval
  (repeat' split) <;> simp +contextual [h]

theorem ends_readAt (s : State) {w : State} (h : Memory.wf w.mem = true) (va n : Nat) :
    Ends Stop.Keeps (fun r : Nat × State => Memory.wf r.2.mem = true) (readAt s w va n) := by
  refine (quiet_classed ..).bind fun l => ?_
  dsimp only
  split
  · simp
  · refine .ok (List.foldlRecOn l _ (motive := fun a : Nat × State => Memory.wf a.2.mem = true) (by simp [h]) fun a ha x _ => ?_)
    (repeat' split) <;> simp [ha]

theorem ends_tokensAt (s : State) {w : State} (h : Memory.wf w.mem = true) (l : List (Seg × Walked)) :
    Ends Stop.Keeps (fun r : Nat × Option Nat × State => Memory.wf r.2.2.mem = true) (tokensAt s w l) := by
  refine .ok (List.foldlRecOn l _ (motive := fun a : Nat × Option Nat × State => Memory.wf a.2.2.mem = true) (by simp [h]) fun a ha x _ => ?_)
  dsimp only
  (repeat' split) <;> simp [ha]

theorem ends_factorOf (c : SlotCtx) (s : State) (o : Opd) {x : Seen × State} (h : Memory.wf x.2.mem = true) :
    Ends Stop.Keeps (fun r : Span × Vec × Seen × State => Memory.wf r.2.2.2.mem = true) (factorOf c s o x) := by
  unfold factorOf
  split
  · exact (quiet_mElem ..).bind fun e => .ok h
  · exact (ends_readV _ _ _ _ _ h).bind fun r hr => .ok hr

theorem ends_sendTile {w : State} (h : Memory.wf w.mem = true) (c : SlotCtx) (s : State) (t : TileCmd) : Lands (w.sendTile c s t) := by
  refine (quiet_holdWhile _).bind fun _ => ?_
  dsimp only
  (repeat' split) <;> simp [h]

theorem ends_nestFetch (s : State) {w : State} (h : Memory.wf w.mem = true) (l : List Word) :
    Ends Stop.Keeps (fun r : List (Nat × Bundle) × State => Memory.wf r.2.mem = true) (nestFetch s w l) := by
  induction l generalizing w with
  | nil => exact .ok h
  | cons a l ih =>
    unfold nestFetch
    split
    · simp
    · exact (ih (by simpa using h)).bind fun r hr => .ok hr

theorem ends_writeBankrole (c : SlotCtx) (s : State) {w : State} (h : Memory.wf w.mem = true) (x : Word) :
    Lands (writeBankrole c s w x) := by
  refine (quiet_require ..).bind fun _ => (quiet_require ..).bind fun _ => (quiet_holdWhile _).bind fun _ => .ok ?_
  split <;> simp [h]

theorem ends_readSrcs (c : SlotCtx) (s : State) (l : List VSrc) {x : Seen × State} (h : Memory.wf x.2.mem = true) :
    Ends Stop.Keeps (fun r : List Vec × Seen × State => Memory.wf r.2.2.mem = true) (readSrcs c s l x) := by
  induction l generalizing x with
  | nil => exact .ok h
  | cons v l ih =>
    unfold readSrcs
    exact (ends_readV _ _ _ _ _ h).bind fun r hr => (ih (x := r.2) hr).bind fun q hq => .ok hq

end Sys2Proof.Machine
end

section
/-! The operations of the slots, by family, keep the canonical form. -/

namespace Sys2Proof.Machine
open Sys2Proof

/-! ### The operations -/

/-- A check that is one of two, whichever a condition chooses, and what follows it. -/
theorem Quiet.bind_ite {α β : Type} {c : Prop} [Decidable c] {R : β → Prop} {x y : Except Stop α} {f : α → Except Stop β} (hx : Quiet x)
    (hy : Quiet y) (hf : ∀ a, Ends Stop.Keeps R (f a)) : Ends Stop.Keeps R (if c then x >>= f else y >>= f) := by
  split
  · exact hx.bind hf
  · exact hy.bind hf

theorem quiet_mapM {α β : Type} {f : α → Except Stop β} (hf : ∀ a, Quiet (f a)) (l : List α) : Quiet (l.mapM f) := by
  induction l with
  | nil => exact .ok trivial
  | cons a l ih =>
    rw [List.mapM_cons]
    exact (hf a).bind fun _ => ih.bind fun _ => .ok trivial

theorem quiet_ok {α : Type} (a : α) : Quiet (.ok a : Except Stop α) := .ok trivial

@[simp] theorem wf_startAtomics {w : State} (h : Memory.wf w.mem = true) {α : Type} (c : SlotCtx) (at_ : α → Atomic) (l : List α) :
    Memory.wf (l.foldl (fun w x => w.startAtomic c (at_ x)) w).mem = true :=
  wf_foldl (fun s x h => by simp [h]) l h

@[simp] theorem keeps_scalar3 (lat : Nat) (n : BitVec 1) (d a b : BitVec 6) (f : Word → Word → Word) : (scalar3 lat n d a b f).Keeps :=
  fun _ _ _ h => (quiet_getS ..).bind fun _ => (quiet_getS ..).bind fun _ => .ok (by simp [h])

@[simp] theorem keeps_scalar2 (n : BitVec 1) (d a : BitVec 6) (f : Word → Word) : (scalar2 n d a f).Keeps :=
  fun _ _ _ h => (quiet_getS ..).bind fun _ => .ok (by simp [h])

@[simp] theorem keeps_scalarI (lat : Nat) (n : BitVec 1) (d a i : BitVec 6) (f : Word → Word → Word) : (scalarI lat n d a i f).Keeps :=
  fun _ _ _ h => (quiet_getS ..).bind fun _ => .ok (by simp [h])

@[simp] theorem keeps_scalarShI (n : BitVec 1) (d a i : BitVec 6) (f : Word → Nat → Word) : (scalarShI n d a i f).Keeps :=
  fun _ _ _ h => (quiet_getS ..).bind fun _ => .ok (by simp [h])

@[simp] theorem keeps_scalarDiv (n : BitVec 1) (d a b : BitVec 6) (f : Word → Word → Word) : (scalarDiv n d a b f).Keeps :=
  fun _ _ _ h => (quiet_getS ..).bind fun _ => (quiet_getS ..).bind fun _ => (quiet_holdWhile _).bind fun _ => .ok (by simp [h])

@[simp] theorem keeps_opIns (n : BitVec 1) (d a b : BitVec 6) : (opIns n d a b).Keeps :=
  fun _ _ _ h => (quiet_getS ..).bind fun _ => (quiet_getS ..).bind fun _ => (quiet_getS ..).bind fun _ => .ok (by simp [h])

@[simp] theorem keeps_opMovi (n : BitVec 1) (d i : BitVec 6) : (opMovi n d i).Keeps := fun _ _ _ h => .ok (by simp [h])

@[simp] theorem keeps_compareOp (legal : Bool) (regs : List (BitVec 6)) (d : BitVec 3) (v : SlotCtx → State → Except Stop Bool)
    (hv : ∀ c s, Quiet (v c s)) : (compareOp legal regs d v).Keeps :=
  fun c s _ h => (hv c s).bind fun _ => (quiet_require ..).bind fun _ => .ok (by simp [h])

@[simp] theorem keeps_opCmp (k : BitVec 4) (d : BitVec 3) (a b : BitVec 6) : (opCmp k d a b).Keeps :=
  keeps_compareOp _ _ _ _ fun _ _ => (quiet_getS ..).bind fun _ => (quiet_getS ..).bind fun _ => .ok trivial

@[simp] theorem keeps_opCmpi (k : BitVec 4) (d : BitVec 3) (a i : BitVec 6) : (opCmpi k d a i).Keeps :=
  keeps_compareOp _ _ _ _ fun _ _ => (quiet_getS ..).bind fun _ => .ok trivial

@[simp] theorem keeps_opVset (v : BitVec 3) (a : BitVec 6) : (opVset v a).Keeps :=
  fun _ _ _ h => (quiet_getS ..).bind fun _ => (quiet_require ..).bind fun _ => .ok (by simp [h])

@[simp] theorem keeps_opVget (n : BitVec 1) (d : BitVec 6) (v : BitVec 3) : (opVget n d v).Keeps := fun _ _ _ h => .ok (by simp [h])

@[simp] theorem keeps_predOp (legal : Bool) (d : BitVec 3) (v : Frame → Bool) : (predOp legal d v).Keeps :=
  fun _ _ _ h => (quiet_require ..).bind fun _ => .ok (by simp [h])

@[simp] theorem keeps_opMpush (a : BitVec 3) : (opMpush a).Keeps := fun _ _ _ h => (quiet_require ..).bind fun _ => .ok (by simp [h])

@[simp] theorem keeps_opMpushIn (a : BitVec 3) : (opMpushIn a).Keeps := fun _ _ _ h => (quiet_require ..).bind fun _ => .ok (by simp [h])

@[simp] theorem keeps_opMinv : opMinv.Keeps := fun _ _ _ h => (quiet_require ..).bind fun _ => .ok (by simp [h])

@[simp] theorem keeps_opMpop : opMpop.Keeps := fun _ _ _ h => (quiet_require ..).bind fun _ => .ok (by simp [h])

@[simp] theorem keeps_opMget (d : BitVec 3) : (opMget d).Keeps := fun _ _ _ h => .ok (by simp [h])

/-! #### Transfers and loops -/

@[simp] theorem keeps_opPrep (t : BitVec 3) (i : BitVec 12) : (opPrep t i).Keeps := fun _ _ _ h => .ok (by split <;> simp [h])

@[simp] theorem keeps_xferOp (legal : Bool) (t : BitVec 3) (cond : Frame → Bool) : (xferOp legal t cond).Keeps := by
  intro c s w h
  unfold xferOp
  dsimp only
  split
  · exact (quiet_useTarget ..).bind fun _ => .ok (by simp [h])
  · exact .ok h

@[simp] theorem keeps_opCall (t : BitVec 3) (l : BitVec 6) : (opCall t l).Keeps :=
  fun _ _ _ h => (quiet_useTarget ..).bind fun _ => .ok (by simp [h])

@[simp] theorem keeps_opRet (a : BitVec 6) : (opRet a).Keeps := by
  intro c s w h
  exact (quiet_getS ..).bind fun _ => (quiet_require ..).bind fun _ => Quiet.bind_ite (quiet_ok _) (ends_trapAt ..) fun _ =>
    (quiet_require ..).bind fun _ => .ok (by simp [h])

@[simp] theorem keeps_opHalt : opHalt.Keeps := fun _ _ _ h => .ok (by simp [h])

@[simp] theorem keeps_loopOp (legal : SlotCtx → Bool) (count : BitVec 6) (off : SlotCtx → Int) (stages : Nat) (pipe : Bool) :
    (loopOp legal count off stages pipe).Keeps := by
  intro c s w h
  refine (quiet_require ..).bind fun _ => ?_
  dsimp only
  split
  · refine (quiet_require ..).bind fun _ => (quiet_getS ..).bind fun _ => (quiet_require ..).bind fun _ => ?_
    split <;> simp [h]
  · simp

@[simp] theorem keeps_opLbrk : opLbrk.Keeps := by
  intro c s w h
  unfold opLbrk
  dsimp only
  split <;> simp [h]

@[simp] theorem keeps_opLbrkD : opLbrkD.Keeps := by
  intro c s w h
  unfold opLbrkD
  dsimp only
  split <;> simp [h]

/-! #### Registers of control and the checks of a task -/

@[simp] theorem keeps_opCsrr (n : BitVec 1) (d : BitVec 6) (c : BitVec 12) : (opCsrr n d c).Keeps := fun _ _ _ h => .ok (by simp [h])

@[simp] theorem keeps_opCsrw (k a l : BitVec 6) : (opCsrw k a l).Keeps := by
  intro c s w h
  refine (quiet_getS ..).bind fun _ => ?_
  split
  · exact .ok h
  · refine (quiet_require ..).bind fun _ => ?_
    split
    · exact ends_writeBankrole _ _ h _
    · exact .ok (by simp [h])

@[simp] theorem keeps_opTrap (t : BitVec 6) : (opTrap t).Keeps := fun _ _ _ h => .ok (by simp [h])

@[simp] theorem keeps_opTret : opTret.Keeps :=
  fun _ _ _ h => (quiet_require ..).bind fun _ => by split <;> simp [h]

@[simp] theorem keeps_opDchk (a b : BitVec 6) : (opDchk a b).Keeps :=
  fun _ _ _ h => (quiet_getS ..).bind fun _ => (quiet_getS ..).bind fun _ => (quiet_require ..).bind fun _ => .ok h

@[simp] theorem keeps_dchkOp (n slow : Nat) (bank : Bool) (a b : BitVec 6) : (dchkOp n slow bank a b).Keeps :=
  fun _ _ _ h => (quiet_getS ..).bind fun _ => (quiet_getS ..).bind fun _ => (quiet_dchkRange ..).bind fun _ =>
    (quiet_dchkRange ..).bind fun _ => (quiet_require ..).bind fun _ => .ok h

@[simp] theorem keeps_opYield : opYield.Keeps := fun _ _ _ h => .ok (by simp [h])

@[simp] theorem keeps_opYieldEv : opYieldEv.Keeps := fun _ _ _ h => .ok (by simp [h])

@[simp] theorem keeps_opStep (a : BitVec 6) : (opStep a).Keeps :=
  fun _ _ _ h => (quiet_getS ..).bind fun _ => (quiet_require ..).bind fun _ => .ok (by (repeat' split) <;> simp [h])

@[simp] theorem keeps_opMirror (e : BitVec 3) (a : BitVec 6) : (opMirror e a).Keeps := by
  intro c s w h
  refine (quiet_getS ..).bind fun _ => (quiet_require ..).bind fun _ => ?_
  dsimp only
  split
  · exact (quiet_require ..).bind fun _ => (quiet_require ..).bind fun _ => (quiet_require ..).bind fun _ =>
      (quiet_holdWhile _).bind fun _ => .ok (by simp [h])
  · exact (quiet_require ..).bind fun _ => .ok (by simp [h])

/-! #### Vector operations -/

@[simp] theorem keeps_vectorOp (legal : Bool) (lat : Nat) (sfu : Bool) (n : BitVec 1) (d : BitVec 6) (srcs : List VSrc) (f : VFun) :
    (vectorOp legal lat sfu n d srcs f).Keeps :=
  fun _ _ _ h => (ends_readSrcs (x := ([], _)) _ _ _ h).bind fun _ hr => ends_writeV _ _ _ _ _ _ _ _ hr

@[simp] theorem keeps_typed3 (op : Nat) (t : BitVec 3) (n : BitVec 1) (d a b : BitVec 6) : (typed3 op t n d a b).Keeps := by simp [typed3]

@[simp] theorem keeps_typed2 (op : Nat) (t : BitVec 3) (n : BitVec 1) (d a : BitVec 6) : (typed2 op t n d a).Keeps := by simp [typed2]

@[simp] theorem keeps_lanes3 (n : BitVec 1) (d a b : BitVec 6) (f : Nat → Nat → Nat) : (lanes3 n d a b f).Keeps := by simp [lanes3]

@[simp] theorem keeps_cvtOp (rz : Bool) (n : BitVec 1) (d a : BitVec 6) (k : BitVec 4) (e : BitVec 1) :
    (cvtOp rz n d a k e).Keeps := by simp [cvtOp]

@[simp] theorem keeps_specialOp (n : BitVec 1) (d a : BitVec 6) (f : FVal → Nat) : (specialOp n d a f).Keeps := by simp [specialOp]

@[simp] theorem keeps_redOp (k : Nat) (n : BitVec 1) (d a : BitVec 6) (t : BitVec 3) (f : State → Vec → Nat) :
    (redOp k n d a t f).Keeps := by simp [redOp]

@[simp] theorem keeps_opVcmp (k : BitVec 3) (t : BitVec 2) (d : BitVec 3) (a b : BitVec 6) : (opVcmp k t d a b).Keeps :=
  fun _ _ _ h => (ends_readSrcs (x := ([], _)) _ _ _ h).bind fun _ hr => .ok (by simp [hr])

@[simp] theorem keeps_opVextr (n : BitVec 1) (d a b : BitVec 6) : (opVextr n d a b).Keeps :=
  fun _ _ _ h => (ends_readSrcs (x := ([], _)) _ _ _ h).bind fun _ hr => .ok (by simp [hr])

@[simp] theorem keeps_opVmkc (d : BitVec 3) (a : BitVec 6) (w : BitVec 2) : (opVmkc d a w).Keeps :=
  fun _ _ _ h => (ends_readSrcs (x := ([], _)) _ _ _ h).bind fun _ hr => .ok (by simp [hr])

/-! #### Memory -/

@[simp] theorem keeps_opLds (k : BitVec 3) (n : BitVec 1) (d a : BitVec 6) (o : BitVec 4) (m : BitVec 2) : (opLds k n d a o m).Keeps :=
  fun _ _ _ h => (quiet_effAddr ..).bind fun _ => (quiet_classed ..).bind fun _ => .ok (by simp [h])

@[simp] theorem keeps_opSts (k : BitVec 2) (d a : BitVec 6) (o : BitVec 4) (m : BitVec 2) : (opSts k d a o m).Keeps :=
  fun _ _ _ h => (quiet_getS ..).bind fun _ => (quiet_effAddr ..).bind fun _ => (quiet_classed ..).bind fun _ => .ok (by simp [h])

@[simp] theorem keeps_vloadOp (n form : Nat) (d a : BitVec 6) (o : BitVec 4) (m : BitVec 2) : (vloadOp n form d a o m).Keeps :=
  fun _ _ _ h => (ends_loadDest _ _ _ _ h).bind fun _ hr => (quiet_effAddr ..).bind fun _ => (quiet_classed ..).bind fun _ =>
    .ok (by simp [hr])

@[simp] theorem keeps_opStv (d a : BitVec 6) (o : BitVec 4) (m : BitVec 2) : (opStv d a o m).Keeps :=
  fun _ _ _ h => (ends_readV (x := ([], _)) _ _ _ _ _ h).bind fun _ hr => (quiet_effAddr ..).bind fun _ => (quiet_classed ..).bind fun _ =>
    .ok (by simp [hr])

@[simp] theorem keeps_opLdvg (d a b : BitVec 6) : (opLdvg d a b).Keeps :=
  fun _ _ _ h => (ends_readV (x := ([], _)) _ _ _ _ _ h).bind fun _ hr => (ends_loadDest _ _ _ _ hr).bind fun _ hq =>
    (quiet_lanes ..).bind fun _ => .ok (by simp [hq])

@[simp] theorem keeps_opStvs (d a b : BitVec 6) : (opStvs d a b).Keeps :=
  fun _ _ _ h => (ends_scatterSrcs _ _ h _ _).bind fun _ hr => (quiet_lanes ..).bind fun _ => .ok (by simp [hr])

@[simp] theorem keeps_atomOp (op : Nat) (legal : Bool) (d a : BitVec 6) (o : BitVec 4) (m : BitVec 2) : (atomOp op legal d a o m).Keeps :=
  fun _ _ _ h => (quiet_getS ..).bind fun _ => Quiet.bind_ite (quiet_getS ..) (quiet_ok _) fun _ => (quiet_effAddr ..).bind fun _ =>
    Quiet.bind_ite (quiet_ok _) (ends_trapAt ..) fun _ => (quiet_classed ..).bind fun _ => .ok (by simp [h])

@[simp] theorem keeps_opVaadd (d a b : BitVec 6) : (opVaadd d a b).Keeps :=
  fun _ _ _ h => (ends_scatterSrcs _ _ h _ _).bind fun _ hr => (quiet_lanes ..).bind fun _ => .ok (by simp [hr])

@[simp] theorem keeps_opFence (k : BitVec 16) : (opFence k).Keeps := by
  intro c s w h
  unfold opFence
  dsimp only
  split <;> simp [h]

@[simp] theorem keeps_opAcq (s : BitVec 3) : (opAcq s).Keeps := fun _ _ _ h => (quiet_holdOrder _).bind fun _ => .ok (by simp [h])

@[simp] theorem keeps_opRel (s : BitVec 3) : (opRel s).Keeps := fun _ _ _ h => (quiet_holdOrder _).bind fun _ => .ok (by simp [h])

@[simp] theorem keeps_opFlush (s : BitVec 3) (a b : BitVec 6) : (opFlush s a b).Keeps :=
  fun _ _ _ h => (quiet_rangeOf ..).bind fun _ => .ok (by split <;> simp [h])

@[simp] theorem keeps_opInvl (a b : BitVec 6) : (opInvl a b).Keeps :=
  fun _ _ _ h => (quiet_rangeOf ..).bind fun _ => by dsimp only; split <;> simp [h]

@[simp] theorem keeps_opPrfl (l : BitVec 1) (a : BitVec 6) (o : BitVec 4) (m : BitVec 2) : (opPrfl l a o m).Keeps := by
  intro c s w h
  have checked := quiet_effAddr c s a m
  unfold opPrfl
  dsimp only
  split
  · split <;> simp [h]
  next e => simpa [e] using checked
  · split
    · exact .ok h
    · split
      · simp [h]
      · refine .ok (wf_foldl (fun s x h => ?_) _ (by simp [h]))
        (repeat' split) <;> simp [h]

@[simp] theorem keeps_opTinvr (d a b : BitVec 6) : (opTinvr d a b).Keeps := by
  intro c s w h
  refine (quiet_getS ..).bind fun _ => (quiet_invalWord _).bind fun _ => (quiet_getS ..).bind fun _ => (quiet_getS ..).bind fun _ => ?_
  split
  · exact .ok h
  split
  · simp
  · exact ends_inval _ _ h

@[simp] theorem keeps_opTinva (a : BitVec 6) : (opTinva a).Keeps :=
  fun _ _ _ h => (quiet_getS ..).bind fun _ => (quiet_invalWord _).bind fun _ => ends_inval _ _ h

/-! #### Events, groups and barriers -/

@[simp] theorem keeps_opEvpop (d : BitVec 6) : (opEvpop d).Keeps := by
  intro c s w h
  unfold opEvpop
  dsimp only
  (repeat' split) <;> simp [h]

@[simp] theorem keeps_opEvpost (a b : BitVec 6) : (opEvpost a b).Keeps :=
  fun _ _ _ h => (quiet_getS ..).bind fun _ => (quiet_getS ..).bind fun _ => (quiet_require ..).bind fun _ => (quiet_holdOrder _).bind fun _ =>
    (quiet_holdWhile _).bind fun _ => .ok (by simp [h])

@[simp] theorem keeps_opJoin (n : BitVec 1) (d a : BitVec 6) : (opJoin n d a).Keeps := by
  intro c s w h
  refine (quiet_getS ..).bind fun _ => (quiet_require ..).bind fun _ => ?_
  dsimp only
  split <;> exact (quiet_require ..).bind fun _ => Quiet.bind_ite (ends_holdSw _) (quiet_ok _) fun _ => .ok (by simp [h])

@[simp] theorem keeps_opLeave (a : BitVec 6) : (opLeave a).Keeps := by
  intro c s w h
  exact (quiet_getS ..).bind fun _ => (quiet_require ..).bind fun _ => (quiet_require ..).bind fun _ => (quiet_require ..).bind fun _ =>
    Quiet.bind_ite (ends_holdSw _) (quiet_ok _) fun _ => .ok (by simp [h])

@[simp] theorem keeps_opBarx (d a : BitVec 6) (b : BitVec 4) : (opBarx d a b).Keeps :=
  fun _ _ _ h => (quiet_getS ..).bind fun _ => (quiet_getS ..).bind fun _ => (quiet_require ..).bind fun _ => (quiet_require ..).bind fun _ =>
    (quiet_require ..).bind fun _ => .ok (by simp [h])

@[simp] theorem keeps_opBara (b : BitVec 4) : (opBara b).Keeps := by
  intro c s w h
  refine (quiet_require ..).bind fun _ => (quiet_holdOrder _).bind fun _ => .ok ?_
  split <;> simp [h]

@[simp] theorem keeps_opBarw (b : BitVec 4) : (opBarw b).Keeps := by
  intro c s w h
  exact (quiet_require ..).bind fun _ => Quiet.bind_ite (quiet_ok _) (ends_holdSw _) fun _ =>
    Quiet.bind_ite (.error fun _ h => h) (quiet_ok _) fun _ => .ok (by simp [h])

/-! #### Copies, streams and tiles -/

@[simp] theorem keeps_opCpy (d a b : BitVec 6) : (opCpy d a b).Keeps :=
  fun _ _ _ h => (quiet_getS ..).bind fun _ => (quiet_getS ..).bind fun _ => (quiet_getS ..).bind fun _ => (quiet_descSig _).bind fun _ =>
    (quiet_copySide ..).bind fun _ => (quiet_copySide ..).bind fun _ => (quiet_unitRoom ..).bind fun _ => .ok (by simp [h])

@[simp] theorem keeps_opCpyw (d a b : BitVec 6) : (opCpyw d a b).Keeps :=
  fun _ _ _ h => (quiet_getS ..).bind fun _ => (quiet_getS ..).bind fun _ => (quiet_getS ..).bind fun _ => (quiet_getS ..).bind fun _ =>
    (quiet_descSig _).bind fun _ => (quiet_copySide ..).bind fun _ => (quiet_copySide ..).bind fun _ => (quiet_unitRoom ..).bind fun _ =>
    .ok (by simp [h])

@[simp] theorem keeps_opCpym (d a b : BitVec 6) : (opCpym d a b).Keeps :=
  fun _ _ _ h => (quiet_getS ..).bind fun _ => (quiet_getS ..).bind fun _ => (quiet_getS ..).bind fun _ => (quiet_descSig _).bind fun _ =>
    (quiet_require ..).bind fun _ => (quiet_copySide ..).bind fun _ => (quiet_unitRoom ..).bind fun _ => .ok (by simp [h])

@[simp] theorem keeps_opSbind (d a : BitVec 6) (m : BitVec 2) (q : BitVec 4) : (opSbind d a m q).Keeps := by
  intro c s w h
  refine (quiet_getS ..).bind fun x => (quiet_require ..).bind fun _ => (quiet_require ..).bind fun _ =>
    Quiet.bind_ite (quiet_ok _) (ends_trapAt ..) fun _ => (quiet_holdWhile _).bind fun _ => (quiet_holdOrder _).bind fun _ =>
    (ends_readAt _ h _ _).bind fun r hr => ?_
  dsimp only
  split
  · simp
  · simp [hr]

@[simp] theorem keeps_opSunb (d : BitVec 6) : (opSunb d).Keeps := by
  intro c s w h
  refine (quiet_require ..).bind fun _ => (quiet_holdWhile _).bind fun _ => ?_
  dsimp only
  split
  · split <;> simp [h]
  · simp [h]

@[simp] theorem keeps_opSdrn (d : BitVec 6) : (opSdrn d).Keeps :=
  fun _ _ _ h => (quiet_require ..).bind fun _ => (quiet_holdWhile _).bind fun _ => .ok (by simp [h])

@[simp] theorem keeps_ownOp (priv waits : Bool) (set : Option Bool) (a b : BitVec 6) : (ownOp priv waits set a b).Keeps :=
  fun _ _ _ h => (quiet_tileRange ..).bind fun _ => (quiet_holdWhile _).bind fun _ => .ok (by split <;> simp [h])

/-! #### Handles, routing and snapshots -/

@[simp] theorem keeps_whOp (pin : Bool) (d a : BitVec 6) : (whOp pin d a).Keeps := by
  intro c s w h
  refine (quiet_handleOf ..).bind fun _ => (quiet_gateCheck ..).bind fun _ => ?_
  dsimp only
  split
  · exact .error trivial
  refine (quiet_ok _).bind fun _ => ?_
  split
  · simp [h]
  split
  · simp [h]
  refine (quiet_require ..).bind fun _ => ?_
  (repeat' split) <;> simp +contextual [h]

@[simp] theorem keeps_opWhpre (a : BitVec 6) : (opWhpre a).Keeps := fun _ _ _ h => (quiet_handleOf ..).bind fun _ => .ok (by simp [h])

@[simp] theorem keeps_opWhunp (a : BitVec 6) : (opWhunp a).Keeps :=
  fun _ _ _ h => (quiet_handleOf ..).bind fun _ => (quiet_require ..).bind fun _ => .ok (by simp [h])

@[simp] theorem keeps_opWhqry (d a : BitVec 6) : (opWhqry d a).Keeps := fun _ _ _ h => (quiet_handleOf ..).bind fun _ => .ok (by simp [h])

@[simp] theorem keeps_opWhmap (d a : BitVec 6) : (opWhmap d a).Keeps :=
  fun _ _ _ h => (quiet_getS ..).bind fun _ => (quiet_require ..).bind fun _ => (quiet_gateCheck ..).bind fun _ => .ok (by simp [h])

@[simp] theorem keeps_opRtpred (a b : BitVec 6) : (opRtpred a b).Keeps :=
  fun _ _ _ h => (ends_readV (x := ([], _)) _ _ _ _ _ h).bind fun _ hr => (quiet_getS ..).bind fun _ => by
    dsimp only
    split <;> simp [hr]

@[simp] theorem keeps_opRtdisp (a b : BitVec 6) : (opRtdisp a b).Keeps :=
  fun _ _ _ h => (ends_readV (x := ([], _)) _ _ _ _ _ h).bind fun _ hr => (quiet_getS ..).bind fun _ => (quiet_gateCheck ..).bind fun _ =>
    (quiet_holdOrder _).bind fun _ => .ok (by simp [hr])

@[simp] theorem keeps_opSnlook (d a : BitVec 6) : (opSnlook d a).Keeps := by
  intro c s w h
  refine (quiet_getS ..).bind fun va => Quiet.bind_ite (ends_holdSw _) (quiet_ok _) fun _ => ?_
  have looked := ends_lookRecord (s := w.tick) (by simpa using h) (dieOf w.tick.cur) s.fr.space va
  dsimp only
  split
  · simp [h]
  split
  · simp
  next e =>
    rw [e, ends_ok] at looked
    simpa using looked
  next e =>
    rw [e, ends_ok] at looked
    simp [wf_lookupTree looked]

@[simp] theorem keeps_opSnrel (a : BitVec 6) : (opSnrel a).Keeps := fun _ _ _ h => (quiet_getS ..).bind fun _ => .ok (by simp [h])

@[simp] theorem keeps_opSnhash (d a b : BitVec 6) : (opSnhash d a b).Keeps := by
  intro c s w h
  exact (quiet_getS ..).bind fun _ => (quiet_getS ..).bind fun _ => Quiet.bind_ite (quiet_ok _) (ends_trapAt ..) fun _ =>
    (quiet_classed ..).bind fun _ => (ends_tokensAt _ h _).bind fun _ hr => .ok (by simp [hr])

@[simp] theorem keeps_snapOp (save : Bool) (a b : BitVec 6) : (snapOp save a b).Keeps :=
  fun _ _ _ h => (quiet_getS ..).bind fun _ => (quiet_getS ..).bind fun _ => .ok (by simp [h])

/-! #### Matrix operations -/

@[simp] theorem keeps_mmaOp (mode : Nat) (f : BitVec 3) (d a b : BitVec 6) : (mmaOp mode f d a b).Keeps :=
  fun _ _ _ h => (quiet_mElem ..).bind fun _ => (quiet_mElem ..).bind fun _ => (quiet_mElem ..).bind fun _ => (quiet_require ..).bind fun _ =>
    (quiet_holdWhile _).bind fun _ => .ok (by simp [h])

@[simp] theorem keeps_opMdecay (a : BitVec 6) : (opMdecay a).Keeps :=
  fun _ _ _ h => (ends_readV (x := ([], _)) _ _ _ _ _ h).bind fun _ hr => (quiet_holdWhile _).bind fun _ => .ok (by simp [hr])

@[simp] theorem keeps_opMzero (d : BitVec 6) : (opMzero d).Keeps :=
  fun _ _ _ h => (quiet_mElem ..).bind fun _ => (quiet_holdWhile _).bind fun _ => .ok (by simp [h])

@[simp] theorem keeps_opMcvt (d a : BitVec 6) (z : BitVec 1) (t : BitVec 2) : (opMcvt d a z t).Keeps :=
  fun _ _ _ h => (quiet_mElem ..).bind fun _ => (quiet_mElem ..).bind fun _ => (quiet_require ..).bind fun _ =>
    (quiet_holdWhile _).bind fun _ => .ok (by simp [h])

@[simp] theorem keeps_opMtrn (d a : BitVec 6) : (opMtrn d a).Keeps :=
  fun _ _ _ h => (quiet_mElem ..).bind fun _ => (quiet_mElem ..).bind fun _ => (quiet_require ..).bind fun _ =>
    (quiet_holdWhile _).bind fun _ => .ok (by simp [h])

@[simp] theorem keeps_opMscale (d a b : BitVec 6) : (opMscale d a b).Keeps :=
  fun _ _ _ h => (quiet_mElem ..).bind fun _ => (ends_factorOf (x := ([], _)) _ _ _ h).bind fun _ hr => (ends_factorOf _ _ _ hr).bind fun _ hq =>
    (quiet_require ..).bind fun _ => (quiet_holdWhile _).bind fun _ => .ok (by simp [hq])

@[simp] theorem keeps_opMrag (a : BitVec 6) : (opMrag a).Keeps := by
  intro c s w h
  unfold opMrag
  dsimp only
  split
  · exact (quiet_holdWhile _).bind fun _ => .ok (by simp [h])
  · refine (ends_readV (x := ([], _)) _ _ _ _ _ h).bind fun _ hr => ?_
    split
    · exact (quiet_holdWhile _).bind fun _ => .ok (by simp [hr])
    · simp

@[simp] theorem keeps_opMldt (d a b : BitVec 6) : (opMldt d a b).Keeps :=
  fun _ _ _ h => (quiet_getS ..).bind fun _ => (quiet_getS ..).bind fun _ => (quiet_tileCmd ..).bind fun _ => ends_sendTile h _ _ _

@[simp] theorem keeps_opMrel (t : BitVec 4) : (opMrel t).Keeps := fun _ _ _ h => (quiet_holdWhile _).bind fun _ => .ok (by simp [h])

@[simp] theorem keeps_opMstt (d a b : BitVec 6) : (opMstt d a b).Keeps :=
  fun _ _ _ h => (quiet_getS ..).bind fun _ => (quiet_getS ..).bind fun _ => (quiet_tileCmd ..).bind fun _ => ends_sendTile h _ _ _

@[simp] theorem keeps_mnwaitOp (n t : Bool) : (mnwaitOp n t).Keeps := fun _ _ _ h => (quiet_holdWhile _).bind fun _ => .ok h

@[simp] theorem keeps_opMnest (l : BitVec 3) : (opMnest l).Keeps := by
  intro c s w h
  refine (quiet_require ..).bind fun _ => (quiet_holdWhile _).bind fun _ => (quiet_require ..).bind fun _ =>
    (ends_nestFetch _ h _).bind fun _ hr => ?_
  dsimp only
  split
  · simp
  · refine (quiet_require ..).bind fun _ => (quiet_holdWhile _).bind fun _ => ?_
    exact (quiet_mapM (fun _ => (quiet_getS ..).bind fun _ => quiet_ok _) _).bind fun _ => .ok (by simp [hr])

end Sys2Proof.Machine
end

section
/-! The issue of a bundle, of a single instruction and of a nest's bundle keeps the canonical form. -/

namespace Sys2Proof.Machine
open Sys2Proof

/-! ### The slot instructions -/

/-- Every slot instruction names an operation that keeps the canonical form: unfolded to their families, the operations are those above. -/
theorem keeps_of_opOf {i : Instr} {p : BitVec 3} {cls : Nat} {op : Op} (h : opOf i = some (p, cls, op)) : op.Keeps := by
  suffices named : ∀ x ∈ opOf i, x.2.2.Keeps from named _ h
  delta opOf opLdv opLdvb opAadd opAmin opAmax opAand opAor opAxch opAcas opAaddf opOwntCore opOwntEng opOwntF opOwnw opWhwait opWhpin
    opSnsave opSnload opMmaAcc opMmaOvw opMmaDec opMnwaitN opMnwaitT opMnwaitNt opXfer opXfere opXfera opLoop opLoops opPand opPor
    opPxor opPnot opPmov opPall opPany opAdd opSub opMul opMulh opMulhn opDiv opDivn opRem opRemn opAndR opOrR opXor opAndn opShl opShr
    opSar opRotr opMin opMax opMinn opMaxn opClz opPopc opAbs opExt opLea1 opLea2 opLea4 opLea8 opMov opAddi opMuli opAndi opOri opXori
    opShli opShri opSari opMovhi opDchkV opDchkA opVadd opVsub opVmul opVmin opVmax opVneg opVabs opVfma opVand opVor opVxor opVshl
    opVshr opVsar opVmov opVsel opVcvt opVcvtz opVpack8 opVunpk8 opVqnt4 opVdq4 opVrcp opVrsq opVexp2 opVlog2 opVtanh opVsigm opVsin
    opVcos opVredAdd opVredMax opVredMin opVscanAdd opVgmax opVtopk opVperm opViota opVbcast
  cases i <;> rintro _ ⟨⟩ <;> simp

/-- A slot instruction executes as the issue of its operation. -/
theorem exec_eq_issueOne {i : Instr} {p : BitVec 3} {cls : Nat} {op : Op} (h : opOf i = some (p, cls, op)) (s : State) :
    exec i s = issueOne s p cls op := by
  suffices named : ∀ x ∈ opOf i, exec i s = issueOne s x.1 x.2.1 x.2.2 from named _ h
  cases i <;> rintro _ ⟨⟩ <;> rfl

theorem keeps_of_nestOp {i : Instr} {p : BitVec 3} {cls : Nat} {op : Op} (h : nestOp i = some (p, cls, op)) : op.Keeps := by
  suffices named : ∀ x ∈ nestOp i, x.2.2.Keeps from named _ h
  delta nestOp opMmaAcc opMmaOvw opMmaDec
  split <;> rintro _ ⟨⟩ <;> simp

/-- The operations of a fetched bundle. -/
theorem keeps_of_mem_bundleOps {b : Bundle} {o : SlotOp} (h : o ∈ bundleOps b) : o.op.Keeps := by
  obtain ⟨k, -, ho⟩ := List.mem_flatMap.mp h
  unfold slotOp at ho
  dsimp only at ho
  split at ho
  · split at ho
    · split at ho
      next named =>
        obtain rfl := List.mem_singleton.mp ho
        exact keeps_of_opOf named
      · simp at ho
    · obtain rfl := List.mem_singleton.mp ho
      exact fun _ _ _ h => .ok h
  · simp at ho

/-- What each answer of a list's elements satisfies, the list of the answers satisfies. -/
theorem forall_of_mapM_eq_some {α β : Type} {f : α → Option β} {P : β → Prop} (hf : ∀ a b, f a = some b → P b) {l : List α} {m : List β}
    (h : l.mapM f = some m) : ∀ b ∈ m, P b := by
  induction l generalizing m with
  | nil => simp_all
  | cons a l ih =>
    simp only [List.mapM_cons, Option.bind_eq_bind, Option.bind_eq_some_iff] at h
    obtain ⟨b, hb, bs, hbs, e⟩ := h
    obtain rfl := Option.some.inj e
    simpa using ⟨hf a b hb, ih hbs⟩

/-- The operations of a nest's bundle. -/
theorem keeps_of_mem_nestBundle {b : Bundle} {ix : Nat} {l : List SlotOp} (h : nestBundle b ix = some (.ops l)) {o : SlotOp} (ho : o ∈ l) :
    o.op.Keeps := by
  have shaped : nestOps b ix = some l := by
    unfold nestBundle at h
    split at h <;> simp_all
  unfold nestOps at shaped
  split at shaped
  · simp at shaped
  · refine forall_of_mapM_eq_some (P := fun o : SlotOp => o.op.Keeps) (fun k q hq => ?_) shaped o ho
    simp only [Option.bind_eq_bind, Option.bind_eq_some_iff] at hq
    obtain ⟨i, -, ⟨p, cls, op⟩, named, legal⟩ := hq
    dsimp only at legal
    split at legal
    · obtain rfl := Option.some.inj legal
      exact keeps_of_nestOp named
    · simp at legal

/-! ### Issue -/

/-- What the slots of a bundle have done so far: the working state is canonical, and no hold or trap of theirs does harm. -/
structure Ran.Keeps (r : Ran) : Prop where
  w : Memory.wf r.w.mem = true
  trap : ∀ x ∈ r.trap, x.1.Keeps
  holds : ∀ f ∈ r.holds, ∀ s : State, Memory.wf s.mem = true → Memory.wf (f s).mem = true

theorem keeps_runSlots (s : State) {l : List SlotOp} (hl : ∀ o ∈ l, o.op.Keeps) {r : Ran} (hr : r.Keeps) : (runSlots s l r).Keeps := by
  induction l generalizing r with
  | nil => exact hr
  | cons o l ih =>
    have ho : Lands (o.op.sem o.ctx s r.w) := hl o (by simp) _ _ _ hr.w
    have rest {q : Ran} (hq : q.Keeps) : (runSlots s l q).Keeps := ih (fun o h => hl o (by simp [h])) hq
    unfold runSlots
    split
    next e => exact rest { hr with w := by simpa [e] using ho }
    next e =>
      refine rest { hr with holds := fun f hf => ?_ }
      obtain hf | hf := List.mem_append.mp hf
      · exact hr.holds f hf
      · obtain rfl := List.mem_singleton.mp hf
        simpa [e] using ho
    next e =>
      refine rest { hr with trap := fun x hx => ?_ }
      dsimp only at hx
      split at hx
      next t => exact hr.trap x (by simpa [t] using hx)
      · obtain rfl := Option.some.inj hx
        simpa [e] using ho

theorem keeps_of_mem_judged {s : State} {l : List SlotOp} (hl : ∀ o ∈ l, o.op.Keeps) : ∀ o ∈ judged s l, o.op.Keeps := by
  unfold judged
  split
  · exact hl
  · intro o ho
    obtain ⟨q, hq, rfl⟩ := List.mem_map.mp ho
    split
    · exact fun _ _ _ h => (hl q hq _ _ _ h).bind fun _ _ => ends_trapOf ..
    · exact hl q hq

@[simp] theorem wf_stop {s : State} (h : Memory.wf s.mem = true) {e : Stop} (he : e.Keeps) (slot : Fin 4) :
    Memory.wf (s.stop e slot).mem = true := by
  unfold State.stop
  split
  · simp [h]
  · simp [h]
  · simpa using he s h

theorem wf_issue {s : State} (h : Memory.wf s.mem = true) {ops : List SlotOp} (ho : ∀ o ∈ ops, o.op.Keeps) (ew : BitVec 5) (hasHdr : Bool) :
    Memory.wf (issue s ops ew hasHdr).mem = true := by
  unfold issue
  dsimp only
  generalize hr : runSlots s (judged s (ops.filter fun o => o.live s.fr)) { w := s.settled } = r
  have ran : r.Keeps := hr ▸ keeps_runSlots s
    (keeps_of_mem_judged fun o h => ho o (List.mem_filter.mp h).1) { w := by simpa using h, trap := by simp, holds := by simp }
  split
  · simp [h]
  split
  · simp [h]
  split
  · simp [h]
  split
  · simp [h]
  split
  next f fs held =>
    have kept := ran.holds
    rw [held] at kept
    have all : Memory.wf (fs.foldl (fun s g => g s) (f s)).mem = true :=
      List.foldlRecOn fs _ (motive := fun t : State => Memory.wf t.mem = true) (kept f (by simp) s h) fun t ht g hg => kept g (by simp [hg]) t ht
    simpa using all
  split
  · simp [h]
  split
  next e slot trap => exact wf_stop h (ran.trap _ trap) slot
  split
  · simp [h]
  split
  · simp [h]
  split
  · simp [h]
  · exact wf_commit (by simp [ran.w])

@[simp] theorem wf_issueBundle {s : State} (h : Memory.wf s.mem = true) (b : Bundle) : Memory.wf (s.issueBundle b).mem = true := by
  unfold State.issueBundle
  split
  · simp [h]
  · exact wf_issue (s := s.under b) h (fun _ => keeps_of_mem_bundleOps) ..

theorem wf_nestIssue {s : State} (h : Memory.wf s.mem = true) {l : List SlotOp} (hl : ∀ o ∈ l, o.op.Keeps) (b : Bundle) :
    Memory.wf (s.nestIssue b l).mem = true := by
  unfold State.nestIssue
  dsimp only
  generalize hv : (s.updFr fun f => f.nestView) = v
  have view : Memory.wf v.mem = true := by simp [← hv, h]
  generalize hr : runSlots v (judged v (l.filter fun o => o.live v.fr)) { w := v } = r
  have ran : r.Keeps := hr ▸ keeps_runSlots v (keeps_of_mem_judged fun o h => hl o (List.mem_filter.mp h).1)
    { w := view, trap := by simp, holds := by simp }
  (repeat' split) <;> simp [h, ran.w]

end Sys2Proof.Machine
end

section
/-! The outcomes of a row: they go on to a next state, with the canonical form kept. -/

namespace Sys2Proof.Machine
open Sys2Proof

/-- From `s` an outcome goes on: it is a next state, with memory canonical where that of `s` is. -/
def Goes (s : State) (o : Out) : Prop := ∃ t, o = .next t ∧ (Memory.wf s.mem = true → Memory.wf t.mem = true)

@[simp] theorem goes_next (s t : State) : Goes s (.next t) ↔ (Memory.wf s.mem = true → Memory.wf t.mem = true) :=
  ⟨fun ⟨_, e, h⟩ => by cases e; exact h, fun h => ⟨t, rfl, h⟩⟩

theorem goes_issueOne (s : State) {op : Op} (ho : op.Keeps) (p : BitVec 3) (cls : Nat) : Goes s (issueOne s p cls op) :=
  (goes_next ..).mpr fun h => wf_issue h (by simpa using ho) ..

theorem goes_commandOf (s : State) (legal : Arg → Bool) {f : State → Fin 64 → Exec → Arg → State}
    (hf : ∀ q r a, Memory.wf s.mem = true → Memory.wf (f s q r a).mem = true) : Goes s (commandOf s legal f) := by
  unfold commandOf
  dsimp only
  (repeat' split) <;> simp +contextual [hf]

theorem goes_nolnusCommand (s : State) (legal : Arg → Bool) {f : State → Arg → NlDone}
    (hf : ∀ a, Memory.wf s.mem = true → Memory.wf (f s a).s.mem = true) : Goes s (nolnusCommand s legal f) := by
  unfold nolnusCommand
  dsimp only
  (repeat' split) <;> simp +contextual [hf]

theorem goes_unsupported (s : State) {f : State → Out} (hf : Goes s (f s)) : Goes s (unsupported s f) := by
  unfold unsupported
  split
  · exact hf
  · simp

end Sys2Proof.Machine
end

section
/-! The states beside the answers of what the events look up, and of their folds over pairs. -/

namespace Sys2Proof.Machine
open Sys2Proof

/-! ### The state beside an answer -/

@[simp] theorem allocateFill_mem (d : DieId) (a : State × List Nat) (f : BitVec 16 × Bool × Nat) :
    (allocateFill d a f).1.mem = a.1.mem := by
  unfold allocateFill
  dsimp only
  (repeat' split) <;> simp

@[simp] theorem foldl_allocateFill_mem (d : DieId) (l : List (BitVec 16 × Bool × Nat)) (a : State × List Nat) :
    (l.foldl (allocateFill d) a).1.mem = a.1.mem := by
  induction l generalizing a with
  | nil => rfl
  | cons f l ih => rw [List.foldl_cons, ih, allocateFill_mem]

@[simp] theorem fetchAll_mem (s : State) (x : Arg) (l : List Word) : (fetchAll s x l).2.mem = s.mem := by
  induction l generalizing s with
  | nil => rfl
  | cons a l ih =>
    unfold fetchAll
    split
    · exact ih s
    · simp [ih]

theorem headBundle_mem {s t : State} {b : Bundle} (h : headBundle s = .ok (b, t)) : t.mem = s.mem := by
  unfold headBundle at h
  dsimp only at h
  (repeat' split at h) <;> simp at h <;> simp [← h.2]

@[simp] theorem tileBanks_mem (write : Bool) (waited : Nat) (gs : List Nat) (s : State) (n : Nat) :
    (tileBanks write waited gs s n).1.mem = s.mem := by
  induction gs generalizing s n with
  | nil => rfl
  | cons g gs ih =>
    unfold tileBanks
    split
    next bank => rw [ih, engineBank_mem bank]
    · rfl

@[simp] theorem tileTurn_mem (s : State) (c : CoreId) (t : TileCmd) (gs : List Nat) (row : Instr) :
    (s.tileTurn c t gs row).1.mem = s.mem := by
  unfold State.tileTurn
  dsimp only
  split <;> simp

theorem cutArea_mem {s t : State} {x : Task} (h : s.cutArea x = some t) : t.mem = s.mem := by
  unfold State.cutArea at h
  dsimp only at h
  (repeat' split at h) <;> simp at h <;> simp [← h]

theorem relocate_mem {s t : State} {d : DieId} {b : LogBlock} (h : s.relocate d b = some t) : t.mem = s.mem := by
  obtain ⟨p, -, rfl⟩ := Option.map_eq_some_iff.mp h
  exact moveBlock_mem ..

theorem accessBank_mem {s t : State} {a : WinAcc} {waited : Nat} (h : s.accessBank a waited = some t) : t.mem = s.mem := by
  unfold State.accessBank at h
  (repeat' split at h)
  · exact engineBank_mem h
  · rw [← Option.some.inj h]
  · rw [← Option.some.inj h]

theorem routed_mem {s t : State} {q : Fin 64} {table : Word} {l m : List Nat} (h : s.routed q table l = some (m, t)) : t.mem = s.mem := by
  suffices read : ∀ r ∈ s.routed q table l, r.2.mem = s.mem from read _ h
  refine List.foldlRecOn l _ (motive := fun a : Option (List Nat × State) => ∀ r ∈ a, r.2.mem = s.mem) (by simp) fun a ha e _ r hr => ?_
  split at hr
  · simp at hr
  next m u =>
    have hu : u.mem = s.mem := ha (m, u) rfl
    split at hr
    · simp at hr
    next read =>
      obtain rfl := Option.some.inj hr
      exact (belfryRead_mem read).trans hu

theorem readTable_mem {s t : State} {q : Fin 64} {va : Word} {n b : Nat} {l : List Nat} (h : s.readTable q va n b = some (l, t)) :
    t.mem = s.mem := by
  unfold State.readTable at h
  split at h
  · simp at h
  next read =>
    obtain ⟨-, rfl⟩ := Prod.mk.inj (Option.some.inj h)
    exact belfryRead_mem read

/-- Where a computation answers, its answer satisfies `P`. -/
def Gives {α : Type} (P : α → Prop) (x : Option α) : Prop := ∀ a ∈ x, P a

theorem Gives.bind {α β : Type} {P : α → Prop} {R : β → Prop} {x : Option α} {f : α → Option β} (hx : Gives P x)
    (hf : ∀ a, P a → Gives R (f a)) : Gives R (x >>= f) := fun b hb => by
  obtain ⟨a, ha, hb⟩ := Option.bind_eq_some_iff.mp hb
  exact hf a (hx a ha) b hb

theorem gives_pure {α : Type} {P : α → Prop} {a : α} (h : P a) : Gives P (pure a : Option α) := fun _ e => Option.some.inj e ▸ h

theorem Gives.bind_ite {α β : Type} {P : α → Prop} {R : β → Prop} {c : Prop} [Decidable c] {x y : Option α} {f : α → Option β}
    (hx : Gives P x) (hy : Gives P y) (hf : ∀ a, P a → Gives R (f a)) : Gives R (if c then x >>= f else y >>= f) := by
  split
  · exact hx.bind hf
  · exact hy.bind hf

theorem gives_readTable {s u : State} (h : u.mem = s.mem) (q : Fin 64) (va : Word) (n b : Nat) :
    Gives (fun r : List Nat × State => r.2.mem = s.mem) (u.readTable q va n b) := fun _ e => (readTable_mem e).trans h

theorem gives_readGang (s : State) (q : Fin 64) (va : Word) (m : Nat) (sched : Bool) :
    Gives (fun r : Nat × List (Nat × Nat) × List (List Nat) × State => r.2.2.2.mem = s.mem) (s.readGang q va m sched) := by
  unfold State.readGang
  refine Gives.bind (gives_readTable rfl q va 1 64) fun head atHead => ?_
  refine Gives.bind_ite (gives_pure atHead) (gives_readTable atHead _ _ _ _) fun wins atWins => ?_
  exact Gives.bind_ite (gives_readTable atWins _ _ _ _) (gives_pure atWins) fun shares atShares => gives_pure atShares

theorem readGang_mem {s t : State} {q : Fin 64} {va : Word} {m : Nat} {sched : Bool} {x : Nat} {w : List (Nat × Nat)} {rows : List (List Nat)}
    (h : s.readGang q va m sched = some (x, w, rows, t)) : t.mem = s.mem := gives_readGang s q va m sched _ h

end Sys2Proof.Machine
end

section
/-! Every event goes on: it answers a next state on each of its branches, and the rules above read that state's memory. -/

namespace Sys2Proof.Machine
open Sys2Proof

/-! ### What events share -/

theorem wf_judge {s : State} (h : Memory.wf s.mem = true) (form sig state room : Bool) {act : State → State}
    (ha : ∀ t, Memory.wf t.mem = true → Memory.wf (act t).mem = true) : Memory.wf (s.judge form sig state room act).mem = true := by
  unfold State.judge
  (repeat' split) <;> simp [h, ha]

theorem wf_of_appendExperts {s t : State} (h : Memory.wf s.mem = true) {d : DieId} {sp : Space} {q : Disp} {g j v n : Nat}
    {l : List (Nat × FVal)} {o : Option Trap} (e : appendExperts d sp q g j v s n l = (t, o)) : Memory.wf t.mem = true := by
  have kept := wf_appendExperts h d sp q g j v n l
  rwa [e] at kept

/-! ### Machine/MemOps -/

theorem goes_execAtomicComplete (s : State) : Goes s (execAtomicComplete s) := by
  unfold execAtomicComplete
  dsimp only
  (repeat' split) <;> simp +contextual

theorem goes_execL1WriteBack (s : State) : Goes s (execL1WriteBack s) := by
  unfold execL1WriteBack
  split <;> simp +contextual

theorem goes_execTableWalk (s : State) : Goes s (execTableWalk s) := by
  unfold execTableWalk
  dsimp only
  (repeat' split) <;> simp +contextual

/-! ### Machine/Messages -/

theorem goes_execEventRecordPost (s : State) : Goes s (execEventRecordPost s) := by
  unfold execEventRecordPost
  dsimp only
  (repeat' split) <;> simp +contextual

theorem goes_execBarrierArrival (s : State) : Goes s (execBarrierArrival s) := by simp +contextual [execBarrierArrival]

/-! ### Machine/Engines -/

theorem goes_execCopyPiecePerformed (s : State) : Goes s (execCopyPiecePerformed s) := by
  unfold execCopyPiecePerformed
  dsimp only
  (repeat' split) <;> simp +contextual

theorem goes_execMulticastPieceLand (s : State) : Goes s (execMulticastPieceLand s) := by
  unfold execMulticastPieceLand
  dsimp only
  (repeat' split) <;> simp +contextual

theorem goes_execCopyComplete (s : State) : Goes s (execCopyComplete s) := by
  unfold execCopyComplete
  dsimp only
  (repeat' split) <;> simp +contextual

theorem goes_execEngineFault (s : State) : Goes s (execEngineFault s) := by
  unfold execEngineFault
  dsimp only
  (repeat' split) <;> simp +contextual

theorem goes_execStreamFillArrive (s : State) : Goes s (execStreamFillArrive s) := by
  unfold execStreamFillArrive
  dsimp only
  (repeat' split) <;> simp +contextual

theorem goes_execStreamDrainWrite (s : State) : Goes s (execStreamDrainWrite s) := by
  unfold execStreamDrainWrite
  dsimp only
  (repeat' split) <;> simp +contextual

/-! ### Machine/Llc -/

theorem goes_execHbmActivation (s : State) : Goes s (execHbmActivation s) := by
  unfold execHbmActivation
  split <;> simp +contextual

/-! ### Machine/Handles -/

theorem goes_execHandleFlip (s : State) : Goes s (execHandleFlip s) := by
  unfold execHandleFlip
  dsimp only
  (repeat' split) <;> simp +contextual

theorem goes_execHandleFillAllocation (s : State) : Goes s (execHandleFillAllocation s) := by
  simp [execHandleFillAllocation]

theorem goes_execEvictorVictim (s : State) : Goes s (execEvictorVictim s) := by simp +contextual [execEvictorVictim]

theorem goes_execPinWaitRetry (s : State) : Goes s (execPinWaitRetry s) := by
  unfold execPinWaitRetry
  dsimp only
  split
  · simp
  refine (goes_next ..).mpr fun h => wf_foldl (fun s x hs => ?_) _ h
  (repeat' split) <;> simp [hs]

theorem goes_execEvictionDrainComplete (s : State) : Goes s (execEvictionDrainComplete s) := by
  unfold execEvictionDrainComplete
  extract_lets d i g x v arg u e u₁ u₂ u₃ u₄ u₅ u₆
  split
  · simp
  split
  · simp
  split
  · simp
  refine (goes_next ..).mpr fun h => ?_
  have gone : Memory.wf u.mem = true := by simp only [u]; split <;> simp [h]
  have wasted : Memory.wf u₁.mem = true := by simp only [u₁]; split <;> simp [gone]
  have shrunk : Memory.wf u₄.mem = true := by simp [u₄, u₃, u₂, wasted]
  have taken : Memory.wf u₅.mem = true := by
    simp only [u₅]
    (repeat' split) <;> simp [shrunk]
  have asked : Memory.wf u₆.mem = true := by
    simp only [u₆]
    (repeat' split) <;> simp [taken]
  simp [asked]

theorem goes_execHandleFillComplete (s : State) : Goes s (execHandleFillComplete s) := by
  unfold execHandleFillComplete
  dsimp only
  (repeat' split) <;> simp +contextual

theorem goes_execHandleFillFault (s : State) : Goes s (execHandleFillFault s) := by
  unfold execHandleFillFault
  dsimp only
  (repeat' split) <;> simp +contextual

theorem goes_execHwaitExpiry (s : State) : Goes s (execHwaitExpiry s) := by
  unfold execHwaitExpiry
  dsimp only
  (repeat' split) <;> simp +contextual

theorem goes_execRgraceExpiry (s : State) : Goes s (execRgraceExpiry s) := by simp +contextual [execRgraceExpiry]

theorem goes_execPinwaitExpiry (s : State) : Goes s (execPinwaitExpiry s) := by
  unfold execPinwaitExpiry
  dsimp only
  (repeat' split) <;> simp +contextual

/-! ### Machine/Routing -/

theorem goes_execLanternSubmission (s : State) : Goes s (execLanternSubmission s) := by
  unfold execLanternSubmission
  dsimp only
  split
  · simp
  split
  · simp
  split
  · simp
  refine (goes_next ..).mpr fun h => (postOnce_mem ..).symm ▸ wf_foldl (fun t r ht => ?_) _ (by simpa using h)
  split <;> simp [ht]

theorem goes_execLanternPrefetchSend (s : State) : Goes s (execLanternPrefetchSend s) := by
  unfold execLanternPrefetchSend
  dsimp only
  (repeat' split) <;> simp +contextual

theorem goes_execLanternAgeExpiry (s : State) : Goes s (execLanternAgeExpiry s) := by
  unfold execLanternAgeExpiry
  dsimp only
  (repeat' split) <;> simp +contextual

theorem goes_execIngressAppend (s : State) : Goes s (execIngressAppend s) := by
  unfold execIngressAppend
  split
  · simp
  split
  · simp
  split
  · simp
  dsimp only
  split
  · simp
  split
  · simp
  next read =>
  split
  next e =>
    refine (goes_next ..).mpr fun h => ?_
    have appended := wf_of_appendExperts (wf_ingressRead (by simpa using h) read) e
    simp [appended]
  next e =>
    refine (goes_next ..).mpr fun h => ?_
    have appended := wf_of_appendExperts (wf_ingressRead (by simpa using h) read) e
    split <;> simp [appended]

theorem goes_execDispatchComplete (s : State) : Goes s (execDispatchComplete s) := by
  unfold execDispatchComplete
  dsimp only
  (repeat' split) <;> simp +contextual

/-! ### Machine/Snapshots -/

theorem goes_execSnapshotEvict (s : State) : Goes s (execSnapshotEvict s) := by
  unfold execSnapshotEvict
  split
  · simp
  refine (goes_next ..).mpr fun h => ?_
  have evicted : Memory.wf (s.evictNode.getD s).mem = true := by
    cases e : s.evictNode with
    | none => exact h
    | some t => exact wf_evictNode h e
  split <;> simp [evicted]

theorem goes_execPxctlClr (s : State) : Goes s (execPxctlClr s) := by
  unfold execPxctlClr
  split
  next e => exact (goes_next ..).mpr fun h => by simp [wf_evictNode h e]
  · split <;> simp

theorem goes_execSnapshotEngineFault (s : State) : Goes s (execSnapshotEngineFault s) := by
  unfold execSnapshotEngineFault
  split <;> simp +contextual

theorem goes_execSnsaveComplete (s : State) : Goes s (execSnsaveComplete s) := by
  unfold execSnsaveComplete
  split
  · simp
  split
  · simp +contextual
  split
  · simp +contextual
  · (repeat' split)
    all_goals try simp +contextual
    · intro h
      next e => simp [wf_snapRead h e]

theorem goes_execSnloadComplete (s : State) : Goes s (execSnloadComplete s) := by
  unfold execSnloadComplete
  dsimp only
  (repeat' split) <;> simp +contextual

/-! ### Machine/Tasks -/

theorem goes_execLentWindowZeroed (s : State) : Goes s (execLentWindowZeroed s) := by
  unfold execLentWindowZeroed
  dsimp only
  (repeat' split) <;> simp +contextual

theorem goes_execStealRequest (s : State) : Goes s (execStealRequest s) := by
  unfold execStealRequest
  dsimp only
  (repeat' split) <;> simp +contextual

theorem goes_execStealBackoffExpiry (s : State) : Goes s (execStealBackoffExpiry s) := by
  unfold execStealBackoffExpiry
  dsimp only
  (repeat' split) <;> simp +contextual

theorem goes_execTaskPlace (s : State) : Goes s (execTaskPlace s) := by
  unfold execTaskPlace
  split
  · simp
  split
  · simp
  split
  · simp
  next w cut =>
  dsimp only
  split
  · simp +contextual [cutArea_mem cut]
  split
  · refine (goes_next ..).mpr fun h => ?_
    rw [← cutArea_mem cut] at h
    simp [h]
  · simp +contextual [cutArea_mem cut]

theorem goes_execPriorityAging (s : State) : Goes s (execPriorityAging s) := by
  unfold execPriorityAging
  split
  · simp
  split
  · simp
  · exact (goes_next ..).mpr fun h => by rw [post_mem, post_mem]; exact h

theorem goes_execH3waitExpiry (s : State) : Goes s (execH3waitExpiry s) := by
  unfold execH3waitExpiry
  dsimp only
  (repeat' split) <;> simp +contextual

theorem goes_execSwthrExpiry (s : State) : Goes s (execSwthrExpiry s) := by
  unfold execSwthrExpiry
  split <;> simp +contextual

theorem goes_execSliceExpiry (s : State) : Goes s (execSliceExpiry s) := by
  unfold execSliceExpiry
  (repeat' split) <;> simp

theorem goes_execErrorToken (s : State) : Goes s (execErrorToken s) := by
  unfold execErrorToken
  split <;> simp +contextual

theorem goes_execTaskComplete (s : State) : Goes s (execTaskComplete s) := by
  unfold execTaskComplete
  dsimp only
  (repeat' split) <;> simp +contextual

theorem goes_execDeadlineExpiry (s : State) : Goes s (execDeadlineExpiry s) := by
  unfold execDeadlineExpiry
  dsimp only
  (repeat' split) <;> simp +contextual

theorem goes_execHungExpiry (s : State) : Goes s (execHungExpiry s) := by
  unfold execHungExpiry
  (repeat' split) <;> simp

theorem goes_execCompletionRecordWrite (s : State) : Goes s (execCompletionRecordWrite s) := by
  unfold execCompletionRecordWrite
  extract_lets i q
  split
  next r rest ctx _ _ =>
    extract_lets n at_ phase v stored u u₁ u₂ u₃
    split
    · simp
    refine (goes_next ..).mpr fun h => ?_
    have written : Memory.wf u.mem = true := by
      simp only [u]
      cases e : stored with
      | none => exact h
      | some t =>
        obtain ⟨w, first, second⟩ := Option.bind_eq_some_iff.mp e
        exact wf_belfryWrite (wf_belfryWrite h first) second
    have counted : Memory.wf u₁.mem = true := by simp [u₁, written]
    have sent : Memory.wf u₂.mem = true := by
      simp only [u₂]
      (repeat' split) <;> simp [counted]
    have started : Memory.wf u₃.mem = true := by simp [u₃, sent]
    clear_value u₃
    split <;> simp [started]
  · simp

/-! ### Machine/Gangs -/

theorem goes_execPreemptTask (s : State) : Goes s (execPreemptTask s) := by
  unfold execPreemptTask
  (repeat' split) <;> simp +contextual

theorem goes_execContextSave (s : State) : Goes s (execContextSave s) := by
  unfold execContextSave
  dsimp only
  (repeat' split) <;> simp +contextual

theorem goes_execContextRestore (s : State) : Goes s (execContextRestore s) := by
  unfold execContextRestore
  extract_lets c k f ctx
  split
  · simp
  split
  · simp
  next v _ =>
  extract_lets rd f' buffer tileOff lentOff u ranges pa u₁ u₂ u₃ u₄ r held reached waits u₅ u₆ f'' u₇ u₈ u₉ u₁₀
  split
  · simp
  split
  · simp
  refine (goes_next ..).mpr fun h => ?_
  have taken : Memory.wf u.mem = true := by simp [u, h]
  have foot : Memory.wf u₁.mem = true := by simp [u₁, taken]
  have tiles : Memory.wf u₂.mem = true := wf_foldl (fun _ _ h => by simp [h]) _ foot
  have lent : Memory.wf u₃.mem = true := wf_foldl (fun _ _ h => by simp [h]) _ tiles
  have marked : Memory.wf u₄.mem = true := lent
  have framed : Memory.wf u₆.mem = true := by simp [u₆, u₅, marked]
  have targets : Memory.wf u₇.mem = true := wf_foldl (fun _ _ h => by dsimp only; split <;> simp [h]) _ framed
  have levels : Memory.wf u₈.mem = true := wf_foldl (fun _ _ h => by dsimp only; split <;> simp [h]) _ targets
  have nested : Memory.wf u₉.mem = true := by simp only [u₉]; split <;> simp [levels]
  have cut : Memory.wf u₁₀.mem = true := by simp only [u₁₀]; split <;> simp [nested]
  clear_value u₁₀
  split <;> simp [cut]

theorem goes_execGangStart (s : State) : Goes s (execGangStart s) := by
  unfold execGangStart
  (repeat' split) <;> simp

theorem goes_execGangResume (s : State) : Goes s (execGangResume s) := by
  unfold execGangResume
  (repeat' split) <;> simp

theorem goes_execScheduleSelect (s : State) : Goes s (execScheduleSelect s) := by
  unfold execScheduleSelect
  split
  · simp
  next g _ =>
  refine (goes_next ..).mpr fun h => ?_
  cases e : s.belfryWrite g.q g.schword 8 (selectSchedule g.sched g.cur g.arrivals) with
  | none => simp [h]
  | some t => simp [wf_belfryWrite h e]

theorem goes_execTransferWindowOpen (s : State) : Goes s (execTransferWindowOpen s) := by simp +contextual [execTransferWindowOpen]

theorem goes_execTransferWindowClose (s : State) : Goes s (execTransferWindowClose s) := by
  unfold execTransferWindowClose
  split <;> simp +contextual

theorem goes_execGangCut (s : State) : Goes s (execGangCut s) := by
  unfold execGangCut
  split
  · simp
  next g _ =>
  split
  · split <;> simp +contextual
  extract_lets ms top lim target now u u₁ u₂
  split
  · simp
  refine (goes_next ..).mpr fun h => ?_
  have told : Memory.wf u₁.mem = true := wf_foldl (fun _ _ h => by simp [h]) _ (by simp [u, h])
  have held : Memory.wf u₂.mem = true := wf_foldl (fun _ _ h => by (repeat' split) <;> simp [h]) _ told
  rw [post_mem, post_mem]
  exact held

theorem goes_execGangGraceExpiry (s : State) : Goes s (execGangGraceExpiry s) := by
  unfold execGangGraceExpiry
  split
  · simp
  split
  · simp
  extract_lets ms u
  have parked (h : Memory.wf s.mem = true) : Memory.wf u.mem = true :=
    wf_foldl (fun _ _ h => by (repeat' split) <;> simp [h]) _ h
  split <;> simp +contextual [parked]

theorem goes_execGsliceExpiry (s : State) : Goes s (execGsliceExpiry s) := by
  unfold execGsliceExpiry
  dsimp only
  (repeat' split) <;> simp +contextual

/-! ### Machine/Matrix -/

theorem goes_execNestBundleIssue (s : State) : Goes s (execNestBundleIssue s) := by
  unfold execNestBundleIssue
  dsimp only
  split
  · simp
  split
  · simp
  split
  · simp
  split
  · simp
  split
  · simp
  · simp
  next ops => exact (goes_next ..).mpr fun h => wf_nestIssue h (fun o => keeps_of_mem_nestBundle ops) _
  · simp

theorem goes_execNestEnd (s : State) : Goes s (execNestEnd s) := by
  unfold execNestEnd
  dsimp only
  (repeat' split) <;> simp +contextual

theorem goes_execMatrixOpStart (s : State) : Goes s (execMatrixOpStart s) := by
  unfold execMatrixOpStart
  dsimp only
  (repeat' split) <;> simp +contextual

theorem goes_execMatrixOpComplete (s : State) : Goes s (execMatrixOpComplete s) := by
  unfold execMatrixOpComplete
  dsimp only
  (repeat' split) <;> simp +contextual

theorem goes_execTileFetchLand (s : State) : Goes s (execTileFetchLand s) := by
  unfold execTileFetchLand
  dsimp only
  split
  · simp
  split
  · split
    · simp
    next e => exact (goes_next ..).mpr fun h => by simp [wf_fetchTile h e]
  · exact (goes_next ..).mpr fun h => by split <;> simp [h]

theorem goes_execTileStorePerformed (s : State) : Goes s (execTileStorePerformed s) := by
  unfold execTileStorePerformed
  dsimp only
  split
  · simp
  split
  · simp
  split <;> simp +contextual

theorem goes_execTileFetchFault (s : State) : Goes s (execTileFetchFault s) := by
  unfold execTileFetchFault
  dsimp only
  (repeat' split) <;> simp +contextual

/-! ### Machine/Belfry -/

theorem goes_execSubmissionEntryStart (s : State) : Goes s (execSubmissionEntryStart s) := by
  unfold execSubmissionEntryStart
  dsimp only
  (repeat' split) <;> simp +contextual

theorem goes_execNopc (s : State) : Goes s (execNopc s) := goes_commandOf s _ fun _ _ _ h => by simp [h]

theorem goes_execLaunch (s : State) : Goes s (execLaunch s) := goes_commandOf s _ fun _ _ _ h => by simp [h]

theorem goes_execLaunchi (s : State) : Goes s (execLaunchi s) := goes_commandOf s _ fun s q a h => by
  dsimp only
  split
  · split
    · simp [h]
    next e => simp [routed_mem e, h]
  · split
    · simp [h]
    next e => simp [belfryRead_mem e, h]

theorem goes_execGang (s : State) : Goes s (execGang s) := goes_commandOf s _ fun s q a h => by
  dsimp only
  split
  · simp [h]
  next e =>
  have read := (congrArg Memory.wf (readGang_mem e)).trans h
  split
  · simp [read]
  split
  · simp [read]
  · simp [read]
  split
  · simp [read]
  next w e =>
  have written : Memory.wf w.mem = true := by
    split at e
    · exact wf_belfryWrite (by simp [read]) e
    · rw [← Option.some.inj e]; simpa using read
  rw [finishAt_mem]
  exact wf_foldl (f := State.markReady) (fun t i h => by simp [h]) _ (by simp [written])

theorem goes_execWait (s : State) : Goes s (execWait s) := goes_commandOf s _ fun s q a h => by
  split
  · simp [h]
  dsimp only
  split
  · simp [h]
  next e =>
  split at e
  · simp [← Option.some.inj e, h]
  · simp [wf_belfryWrite (by simpa using h) e]

theorem goes_execLoopc (s : State) : Goes s (execLoopc s) := goes_commandOf s _ fun s q a h => by
  dsimp only
  split
  · simp [h]
  split
  · simp [h]
  split
  · simp [h]
  next c w e =>
  have read : Memory.wf w.mem = true := by
    split at e
    · rw [belfryRead_mem e]; exact h
    · obtain ⟨-, rfl⟩ := Prod.mk.inj (Except.ok.inj e); exact h
  split <;> simp [read]

theorem goes_execIfc (s : State) : Goes s (execIfc s) := goes_commandOf s _ fun s q a h => by
  split
  · simp [h]
  next e => (repeat' split) <;> simp [belfryRead_mem e, h]

theorem goes_execWrite (s : State) : Goes s (execWrite s) := goes_commandOf s _ fun s q a h => by
  split
  · simp [h]
  split
  · simp [h]
  next e => simp [wf_belfryWrite h e]

theorem goes_execSignal (s : State) : Goes s (execSignal s) := goes_commandOf s _ fun _ _ _ h => by split <;> simp [h]

theorem goes_execChain (s : State) : Goes s (execChain s) := goes_commandOf s _ fun _ _ _ h => by split <;> simp [h]

theorem goes_execEndC (s : State) : Goes s (execEndC s) := goes_commandOf s _ fun _ _ _ h => by split <;> simp [h]

theorem goes_execQueueDoorbell (s : State) : Goes s (execQueueDoorbell s) := by
  unfold execQueueDoorbell
  dsimp only
  (repeat' split) <;> simp +contextual

theorem goes_execQackResume (s : State) : Goes s (execQackResume s) := by
  unfold execQackResume
  dsimp only
  (repeat' split) <;> simp +contextual

theorem goes_execQackDiscard (s : State) : Goes s (execQackDiscard s) := by
  unfold execQackDiscard
  dsimp only
  (repeat' split) <;> simp +contextual

theorem goes_execPreemptGo (s : State) : Goes s (execPreemptGo s) := by
  unfold execPreemptGo
  dsimp only
  (repeat' split) <;> simp +contextual

/-! ### Machine/Bundle -/

theorem goes_execBundleIssue (s : State) : Goes s (execBundleIssue s) := by
  unfold execBundleIssue
  split
  · simp
  split
  · simp [State.held]
  dsimp only
  split
  · simp +contextual
  next e =>
  refine (goes_next ..).mpr fun h => ?_
  split
  · simp [h]
  · exact wf_issueBundle (by simp [headBundle_mem e, h]) _

theorem goes_execNop (s : State) : Goes s (execNop s) := (goes_next ..).mpr fun h => wf_issue h (by simp) ..

/-! ### Machine/Hbm -/

theorem goes_execHctlQuiesce (s : State) : Goes s (execHctlQuiesce s) := by simp +contextual [execHctlQuiesce]

theorem goes_execHctlQuiesceComplete (s : State) : Goes s (execHctlQuiesceComplete s) := by
  unfold execHctlQuiesceComplete
  dsimp only
  (repeat' split) <;> simp +contextual

theorem goes_execHctlUnquiesce (s : State) : Goes s (execHctlUnquiesce s) := by
  unfold execHctlUnquiesce
  dsimp only
  (repeat' split) <;> simp +contextual

theorem goes_execHctlRemap (s : State) : Goes s (execHctlRemap s) := by
  unfold execHctlRemap
  dsimp only
  (repeat' split) <;> simp +contextual

theorem goes_execHctlRemapComplete (s : State) : Goes s (execHctlRemapComplete s) := by
  unfold execHctlRemapComplete
  dsimp only
  split
  · simp
  · exact (goes_next ..).mpr fun h => (updHbm_mem ..).symm ▸ wf_filter h _

theorem goes_execHctlClrstat (s : State) : Goes s (execHctlClrstat s) := by simp +contextual [execHctlClrstat]

theorem goes_execTrackerReset (s : State) : Goes s (execTrackerReset s) := by simp +contextual [execTrackerReset]

theorem goes_execHbmUncorrectable (s : State) : Goes s (execHbmUncorrectable s) := by
  unfold execHbmUncorrectable
  dsimp only
  (repeat' split) <;> simp +contextual

theorem goes_execSramUncorrectable (s : State) : Goes s (execSramUncorrectable s) := by simp +contextual [execSramUncorrectable]

theorem goes_execFlitCrcFail (s : State) : Goes s (execFlitCrcFail s) := by
  unfold execFlitCrcFail
  split <;> simp +contextual

theorem goes_execLlcpartWrite (s : State) : Goes s (execLlcpartWrite s) := by
  unfold execLlcpartWrite
  dsimp only
  (repeat' split) <;> simp +contextual

theorem goes_execFormatWindowWrite (s : State) : Goes s (execFormatWindowWrite s) := by
  unfold execFormatWindowWrite
  dsimp only
  (repeat' split) <;> simp +contextual

theorem goes_execHsetGo (s : State) : Goes s (execHsetGo s) := by
  unfold execHsetGo
  dsimp only
  (repeat' split) <;> simp +contextual

/-! ### Machine/Flash -/

theorem goes_execNolnusCommandDone (s : State) : Goes s (execNolnusCommandDone s) := by simp +contextual [execNolnusCommandDone]

theorem goes_execNolnusRead (s : State) : Goes s (execNolnusRead s) := goes_nolnusCommand s _ fun a h => by
  dsimp only
  split
  · exact h
  refine wf_foldl (fun t j ht => ?_) _ (by simpa using h)
  (repeat' split) <;> simp [ht]

theorem goes_execNolnusWrite (s : State) : Goes s (execNolnusWrite s) := goes_nolnusCommand s _ fun a h => by
  dsimp only
  (repeat' split)
  · exact h
  · exact h
  · exact h
  · exact wf_foldl (fun t j ht => by simp [ht]) _ h

theorem goes_execNolnusAlloc (s : State) : Goes s (execNolnusAlloc s) := goes_nolnusCommand s _ fun a h => by
  dsimp only
  split
  · exact h
  split
  · exact h
  next e => simp [flashAlloc_mem e, h]

theorem goes_execNolnusFree (s : State) : Goes s (execNolnusFree s) := goes_nolnusCommand s _ fun a h => by
  dsimp only
  (repeat' split) <;> simp [h]

theorem goes_execNolnusDigest (s : State) : Goes s (execNolnusDigest s) := goes_nolnusCommand s _ fun a h => by
  dsimp only
  (repeat' split) <;> simp [h]

theorem goes_execNolnusReloc (s : State) : Goes s (execNolnusReloc s) := goes_nolnusCommand s _ fun a h => by
  split
  · exact h
  split
  · exact h
  split
  · exact h
  next e => simp [relocate_mem e, h]

theorem goes_execReadDisturbRelocation (s : State) : Goes s (execReadDisturbRelocation s) := by
  unfold execReadDisturbRelocation
  dsimp only
  (repeat' split) <;> simp +contextual

theorem goes_execWearLevelMove (s : State) : Goes s (execWearLevelMove s) := by
  unfold execWearLevelMove
  dsimp only
  (repeat' split) <;> simp +contextual

theorem goes_execFlashProgramFailure (s : State) : Goes s (execFlashProgramFailure s) := by
  unfold execFlashProgramFailure
  dsimp only
  (repeat' split) <;> simp +contextual

theorem goes_execFlashUncorrectable (s : State) : Goes s (execFlashUncorrectable s) := by
  unfold execFlashUncorrectable
  dsimp only
  (repeat' split) <;> simp +contextual

/-! ### Machine/Loading -/

theorem goes_execLoaderGo (s : State) : Goes s (execLoaderGo s) := by
  unfold execLoaderGo
  dsimp only
  (repeat' split) <;> simp +contextual

theorem goes_execLoaderAbort (s : State) : Goes s (execLoaderAbort s) := by
  unfold execLoaderAbort
  split <;> simp +contextual

theorem goes_execStagetExpiry (s : State) : Goes s (execStagetExpiry s) := by
  unfold execStagetExpiry
  (repeat' split) <;> simp

theorem goes_execLoaderFlip (s : State) : Goes s (execLoaderFlip s) := by
  unfold execLoaderFlip
  dsimp only
  (repeat' split) <;> simp +contextual

theorem goes_execDraintExpiry (s : State) : Goes s (execDraintExpiry s) := by
  unfold execDraintExpiry
  split <;> simp +contextual

theorem goes_execMapnextInstall (s : State) : Goes s (execMapnextInstall s) := by
  unfold execMapnextInstall
  dsimp only
  (repeat' split) <;> simp +contextual

theorem goes_execMigrationFill (s : State) : Goes s (execMigrationFill s) := by
  unfold execMigrationFill
  dsimp only
  (repeat' split) <;> simp +contextual

theorem goes_execMapRetire (s : State) : Goes s (execMapRetire s) := by simp +contextual [execMapRetire]

/-! ### Machine/Power -/

theorem goes_execBoostBoundary (s : State) : Goes s (execBoostBoundary s) := by
  unfold execBoostBoundary
  split
  · refine (goes_next ..).mpr fun h => ?_
    rw [post_mem]
    exact wf_foldl (fun _ _ h => by simp [h]) _ h
  · refine (goes_next ..).mpr fun h => ?_
    rw [post_mem]
    refine wf_foldl (fun _ _ h => ?_) _ (wf_foldl (fun _ _ h => by simp [h]) _ h)
    simp [h]

theorem goes_execSensorSample (s : State) : Goes s (execSensorSample s) := by
  unfold execSensorSample
  dsimp only
  (repeat' split) <;> simp +contextual

theorem goes_execThrottleRecover (s : State) : Goes s (execThrottleRecover s) := by simp +contextual [execThrottleRecover]

theorem goes_execCurrentLimitRecover (s : State) : Goes s (execCurrentLimitRecover s) := by simp +contextual [execCurrentLimitRecover]

theorem goes_execClrhold (s : State) : Goes s (execClrhold s) := by
  unfold execClrhold
  dsimp only
  (repeat' split) <;> simp +contextual

theorem goes_execClrsusp (s : State) : Goes s (execClrsusp s) := by simp +contextual [execClrsusp]

theorem goes_execPwcmdSave (s : State) : Goes s (execPwcmdSave s) := by simp +contextual [execPwcmdSave]

theorem goes_execEmergencySaveComplete (s : State) : Goes s (execEmergencySaveComplete s) := by
  unfold execEmergencySaveComplete
  (repeat' split) <;> simp +contextual

theorem goes_execHardTrip (s : State) : Goes s (execHardTrip s) := by
  unfold execHardTrip
  extract_lets u keep holds v
  split
  · simp
  refine (goes_next ..).mpr fun h => ?_
  have tripped : Memory.wf u.mem = true := by simp [u, h]
  refine wf_foldl (fun _ _ h => by simp [h]) _ ?_
  rw [deadCores_mem]
  exact wf_filter tripped _

theorem goes_execModuleReset (s : State) : Goes s (execModuleReset s) := by simp +contextual [execModuleReset]

theorem goes_execPowerUp (s : State) : Goes s (execPowerUp s) := by
  unfold execPowerUp
  dsimp only
  (repeat' split) <;> simp +contextual

theorem goes_execPsreqWrite (s : State) : Goes s (execPsreqWrite s) := by
  unfold execPsreqWrite
  dsimp only
  (repeat' split) <;> simp +contextual

/-! ### Machine/Security -/

theorem goes_execAttest (s : State) : Goes s (execAttest s) := by
  unfold execAttest
  dsimp only
  (repeat' split) <;> simp +contextual

theorem goes_execKeyadd (s : State) : Goes s (execKeyadd s) :=
  (goes_next ..).mpr fun h => wf_judge h _ _ _ _ fun _ h => by simp [h]

theorem goes_execKeyrevoke (s : State) : Goes s (execKeyrevoke s) :=
  (goes_next ..).mpr fun h => wf_judge h _ _ _ _ fun _ h => by simp [h]

theorem goes_execDebugAuth (s : State) : Goes s (execDebugAuth s) :=
  (goes_next ..).mpr fun h => wf_judge h _ _ _ _ fun _ h => by split <;> simp [h]

theorem goes_execSecure (s : State) : Goes s (execSecure s) :=
  (goes_next ..).mpr fun h => wf_judge h _ _ _ _ fun _ h => by simp [h]

theorem goes_execDecommission (s : State) : Goes s (execDecommission s) :=
  (goes_next ..).mpr fun h => wf_judge h _ _ _ _ fun t h => by
    have erased : Memory.wf (allDies.foldl (fun (s : State) d => s.updNl d Nolnus.eraseAll) t.zeroHbm).mem = true :=
      wf_foldl (fun _ _ h => by simp [h]) _ (wf_zeroHbm h)
    dsimp only
    split
    · exact (post_mem ..).symm ▸ erased
    · exact erased

theorem goes_execOwnershipClaim (s : State) : Goes s (execOwnershipClaim s) := by
  unfold execOwnershipClaim
  dsimp only
  (repeat' split) <;> simp +contextual

theorem goes_execAttestationRequest (s : State) : Goes s (execAttestationRequest s) := by
  unfold execAttestationRequest
  dsimp only
  (repeat' split) <;> simp +contextual

theorem goes_execOwnleaseRenew (s : State) : Goes s (execOwnleaseRenew s) := by
  unfold execOwnleaseRenew
  dsimp only
  (repeat' split) <;> simp +contextual

theorem goes_execOwnhand (s : State) : Goes s (execOwnhand s) := by
  unfold execOwnhand
  dsimp only
  (repeat' split) <;> simp +contextual

theorem goes_execLeaseExpiry (s : State) : Goes s (execLeaseExpiry s) := by
  unfold execLeaseExpiry
  split <;> simp +contextual

theorem goes_execHandoverLapse (s : State) : Goes s (execHandoverLapse s) := by
  unfold execHandoverLapse
  split <;> simp +contextual

/-! ### Machine/RegWrites -/

theorem goes_execRegisterWrite (s : State) : Goes s (execRegisterWrite s) := by
  unfold execRegisterWrite
  dsimp only
  (repeat' split) <;> simp +contextual

theorem goes_execHwmapWrite (s : State) : Goes s (execHwmapWrite s) := by
  unfold execHwmapWrite
  dsimp only
  (repeat' split) <;> simp +contextual

/-! ### Machine/Ports -/

theorem goes_execHostWindowAccess (s : State) : Goes s (execHostWindowAccess s) := by
  unfold execHostWindowAccess
  dsimp only
  (repeat' split) <;> simp +contextual

theorem goes_execNetWrite (s : State) : Goes s (execNetWrite s) := goes_unsupported s <| by
  dsimp only
  (repeat' split) <;> simp +contextual

theorem goes_execNetRead (s : State) : Goes s (execNetRead s) := goes_unsupported s <| by
  dsimp only
  (repeat' split) <;> simp +contextual

theorem goes_execNetSend (s : State) : Goes s (execNetSend s) := goes_unsupported s <| by
  dsimp only
  split
  · simp
  split
  · split
    · split
      · simp
      next e =>
      refine (goes_next ..).mpr fun h => ?_
      have appended := wf_appendEntries (by simpa using h) e
      simp [appended]
    · simp
  · simp

theorem goes_execWindowAccessArrive (s : State) : Goes s (execWindowAccessArrive s) := by
  unfold execWindowAccessArrive
  split
  · simp
  split
  · simp
  split
  · simp +contextual
  split
  · split <;> simp
  next e => exact (goes_next ..).mpr fun h => by simp [accessBank_mem e, h]

/-! ### Machine/Sequencer -/

theorem goes_execResultComplete (s : State) : Goes s (execResultComplete s) := by
  unfold execResultComplete
  dsimp only
  (repeat' split) <;> simp +contextual

theorem goes_execLoadComplete (s : State) : Goes s (execLoadComplete s) := by simp +contextual [execLoadComplete]

theorem goes_execVectorLoadLand (s : State) : Goes s (execVectorLoadLand s) := by simp +contextual [execVectorLoadLand]

theorem goes_execPrepFetchComplete (s : State) : Goes s (execPrepFetchComplete s) := by
  unfold execPrepFetchComplete
  dsimp only
  (repeat' split) <;> simp

theorem goes_execLoopBufferFill (s : State) : Goes s (execLoopBufferFill s) := by
  unfold execLoopBufferFill
  dsimp only
  (repeat' split) <;> simp

theorem goes_execBundleFetch (s : State) : Goes s (execBundleFetch s) := by simp +contextual [execBundleFetch]

theorem goes_execTrapEntry (s : State) : Goes s (execTrapEntry s) := by
  unfold execTrapEntry
  split <;> simp +contextual

end Sys2Proof.Machine
end

section
/-! The step of the package goes on, and with it the obligation. -/

namespace Sys2Proof.Machine
open Sys2Proof

/-- What is not a slot instruction is an event: each by its own theorem. -/
theorem goes_exec_of_opOf_eq_none {i : Instr} (h : opOf i = none) (s : State) : Goes s (exec i s) := by
  cases i with
  | atomicComplete => exact goes_execAtomicComplete s
  | l1WriteBack => exact goes_execL1WriteBack s
  | tableWalk => exact goes_execTableWalk s
  | eventRecordPost => exact goes_execEventRecordPost s
  | barrierArrival => exact goes_execBarrierArrival s
  | copyPiecePerformed => exact goes_execCopyPiecePerformed s
  | multicastPieceLand => exact goes_execMulticastPieceLand s
  | copyComplete => exact goes_execCopyComplete s
  | engineFault => exact goes_execEngineFault s
  | streamFillArrive => exact goes_execStreamFillArrive s
  | streamDrainWrite => exact goes_execStreamDrainWrite s
  | hbmActivation => exact goes_execHbmActivation s
  | handleFlip => exact goes_execHandleFlip s
  | handleFillAllocation => exact goes_execHandleFillAllocation s
  | evictorVictim => exact goes_execEvictorVictim s
  | pinWaitRetry => exact goes_execPinWaitRetry s
  | evictionDrainComplete => exact goes_execEvictionDrainComplete s
  | handleFillComplete => exact goes_execHandleFillComplete s
  | handleFillFault => exact goes_execHandleFillFault s
  | hwaitExpiry => exact goes_execHwaitExpiry s
  | rgraceExpiry => exact goes_execRgraceExpiry s
  | pinwaitExpiry => exact goes_execPinwaitExpiry s
  | lanternSubmission => exact goes_execLanternSubmission s
  | lanternPrefetchSend => exact goes_execLanternPrefetchSend s
  | lanternAgeExpiry => exact goes_execLanternAgeExpiry s
  | ingressAppend => exact goes_execIngressAppend s
  | dispatchComplete => exact goes_execDispatchComplete s
  | snapshotEvict => exact goes_execSnapshotEvict s
  | pxctlClr => exact goes_execPxctlClr s
  | snapshotEngineFault => exact goes_execSnapshotEngineFault s
  | snsaveComplete => exact goes_execSnsaveComplete s
  | snloadComplete => exact goes_execSnloadComplete s
  | lentWindowZeroed => exact goes_execLentWindowZeroed s
  | stealRequest => exact goes_execStealRequest s
  | stealBackoffExpiry => exact goes_execStealBackoffExpiry s
  | taskPlace => exact goes_execTaskPlace s
  | priorityAging => exact goes_execPriorityAging s
  | h3waitExpiry => exact goes_execH3waitExpiry s
  | swthrExpiry => exact goes_execSwthrExpiry s
  | sliceExpiry => exact goes_execSliceExpiry s
  | errorToken => exact goes_execErrorToken s
  | taskComplete => exact goes_execTaskComplete s
  | deadlineExpiry => exact goes_execDeadlineExpiry s
  | hungExpiry => exact goes_execHungExpiry s
  | completionRecordWrite => exact goes_execCompletionRecordWrite s
  | preemptTask => exact goes_execPreemptTask s
  | contextSave => exact goes_execContextSave s
  | contextRestore => exact goes_execContextRestore s
  | gangStart => exact goes_execGangStart s
  | gangResume => exact goes_execGangResume s
  | scheduleSelect => exact goes_execScheduleSelect s
  | transferWindowOpen => exact goes_execTransferWindowOpen s
  | transferWindowClose => exact goes_execTransferWindowClose s
  | gangCut => exact goes_execGangCut s
  | gangGraceExpiry => exact goes_execGangGraceExpiry s
  | gsliceExpiry => exact goes_execGsliceExpiry s
  | nestBundleIssue => exact goes_execNestBundleIssue s
  | nestEnd => exact goes_execNestEnd s
  | matrixOpStart => exact goes_execMatrixOpStart s
  | matrixOpComplete => exact goes_execMatrixOpComplete s
  | tileFetchLand => exact goes_execTileFetchLand s
  | tileStorePerformed => exact goes_execTileStorePerformed s
  | tileFetchFault => exact goes_execTileFetchFault s
  | submissionEntryStart => exact goes_execSubmissionEntryStart s
  | nopc => exact goes_execNopc s
  | launch => exact goes_execLaunch s
  | launchi => exact goes_execLaunchi s
  | gang => exact goes_execGang s
  | wait => exact goes_execWait s
  | loopc => exact goes_execLoopc s
  | ifc => exact goes_execIfc s
  | write => exact goes_execWrite s
  | signal => exact goes_execSignal s
  | chain => exact goes_execChain s
  | endC => exact goes_execEndC s
  | queueDoorbell => exact goes_execQueueDoorbell s
  | qackResume => exact goes_execQackResume s
  | qackDiscard => exact goes_execQackDiscard s
  | preemptGo => exact goes_execPreemptGo s
  | bundleIssue => exact goes_execBundleIssue s
  | nop => exact goes_execNop s
  | hctlQuiesce => exact goes_execHctlQuiesce s
  | hctlQuiesceComplete => exact goes_execHctlQuiesceComplete s
  | hctlUnquiesce => exact goes_execHctlUnquiesce s
  | hctlRemap => exact goes_execHctlRemap s
  | hctlRemapComplete => exact goes_execHctlRemapComplete s
  | hctlClrstat => exact goes_execHctlClrstat s
  | trackerReset => exact goes_execTrackerReset s
  | hbmUncorrectable => exact goes_execHbmUncorrectable s
  | sramUncorrectable => exact goes_execSramUncorrectable s
  | flitCrcFail => exact goes_execFlitCrcFail s
  | llcpartWrite => exact goes_execLlcpartWrite s
  | formatWindowWrite => exact goes_execFormatWindowWrite s
  | hsetGo => exact goes_execHsetGo s
  | nolnusCommandDone => exact goes_execNolnusCommandDone s
  | nolnusRead => exact goes_execNolnusRead s
  | nolnusWrite => exact goes_execNolnusWrite s
  | nolnusAlloc => exact goes_execNolnusAlloc s
  | nolnusFree => exact goes_execNolnusFree s
  | nolnusDigest => exact goes_execNolnusDigest s
  | nolnusReloc => exact goes_execNolnusReloc s
  | readDisturbRelocation => exact goes_execReadDisturbRelocation s
  | wearLevelMove => exact goes_execWearLevelMove s
  | flashProgramFailure => exact goes_execFlashProgramFailure s
  | flashUncorrectable => exact goes_execFlashUncorrectable s
  | loaderGo => exact goes_execLoaderGo s
  | loaderAbort => exact goes_execLoaderAbort s
  | stagetExpiry => exact goes_execStagetExpiry s
  | loaderFlip => exact goes_execLoaderFlip s
  | draintExpiry => exact goes_execDraintExpiry s
  | mapnextInstall => exact goes_execMapnextInstall s
  | migrationFill => exact goes_execMigrationFill s
  | mapRetire => exact goes_execMapRetire s
  | boostBoundary => exact goes_execBoostBoundary s
  | sensorSample => exact goes_execSensorSample s
  | throttleRecover => exact goes_execThrottleRecover s
  | currentLimitRecover => exact goes_execCurrentLimitRecover s
  | clrhold => exact goes_execClrhold s
  | clrsusp => exact goes_execClrsusp s
  | pwcmdSave => exact goes_execPwcmdSave s
  | emergencySaveComplete => exact goes_execEmergencySaveComplete s
  | hardTrip => exact goes_execHardTrip s
  | moduleReset => exact goes_execModuleReset s
  | powerUp => exact goes_execPowerUp s
  | psreqWrite => exact goes_execPsreqWrite s
  | attest => exact goes_execAttest s
  | keyadd => exact goes_execKeyadd s
  | keyrevoke => exact goes_execKeyrevoke s
  | debugAuth => exact goes_execDebugAuth s
  | secure => exact goes_execSecure s
  | decommission => exact goes_execDecommission s
  | ownershipClaim => exact goes_execOwnershipClaim s
  | attestationRequest => exact goes_execAttestationRequest s
  | ownleaseRenew => exact goes_execOwnleaseRenew s
  | ownhand => exact goes_execOwnhand s
  | leaseExpiry => exact goes_execLeaseExpiry s
  | handoverLapse => exact goes_execHandoverLapse s
  | registerWrite => exact goes_execRegisterWrite s
  | hwmapWrite => exact goes_execHwmapWrite s
  | hostWindowAccess => exact goes_execHostWindowAccess s
  | netWrite => exact goes_execNetWrite s
  | netRead => exact goes_execNetRead s
  | netSend => exact goes_execNetSend s
  | windowAccessArrive => exact goes_execWindowAccessArrive s
  | resultComplete => exact goes_execResultComplete s
  | loadComplete => exact goes_execLoadComplete s
  | vectorLoadLand => exact goes_execVectorLoadLand s
  | prepFetchComplete => exact goes_execPrepFetchComplete s
  | loopBufferFill => exact goes_execLoopBufferFill s
  | bundleFetch => exact goes_execBundleFetch s
  | trapEntry => exact goes_execTrapEntry s
  | _ => cases h

/-- Every row of every table goes on: a slot instruction through its issue, an event by itself. -/
theorem goes_exec (i : Instr) (s : State) : Goes s (exec i s) := by
  match named : opOf i with
  | some (p, cls, op) => exact exec_eq_issueOne named s ▸ goes_issueOne s (keeps_of_opOf named) p cls
  | none => exact goes_exec_of_opOf_eq_none named s

/-- What waits at a quiesced stack leaves home memory as it is (R378). -/
theorem bar_mem {s t : State} {i : Nat} {m : Move} (h : s.bar i m = some t) : t.mem = s.mem := by
  unfold State.bar at h
  split at h <;> simp at h <;> simp [← h, State.held]

/-- A row's conclusion: its next state, or the state of before with what met a quiesced stack held there. -/
theorem goes_conclude {s w : State} {o : Out} (e : w.mem = s.mem) (h : Goes w o) (i : Nat) (m : Move) : Goes s (s.conclude i m o) := by
  obtain ⟨t, rfl, kept⟩ := h
  unfold State.conclude
  dsimp only
  split
  next barred =>
    split at barred
    · simp [bar_mem barred]
    · cases barred
  · simpa [← e] using kept

theorem goes_step (s : State) : Goes s (step s) := by
  unfold step
  split
  · simp
  · simp
  · exact goes_conclude (prepare_mem ..) (goes_exec ..) _ _

/-- Settles O59: whatever moves next, tick, switch or row, goes on and keeps the canonical form. -/
theorem stepKeepsMemory : Obligations.StepKeepsMemory := fun s => by
  obtain ⟨t, next, kept⟩ := goes_step s
  refine ⟨⟨t, next⟩, fun u e => ?_⟩
  obtain rfl := Host.Outcome.next.inj (next.symm.trans e)
  exact kept

end Sys2Proof.Machine
end

section
/-! What the issue of one operation leaves: it completes, takes its trap, or holds its bundle, by the answer of its meaning. The answers of the
checks that meanings share are simp rules. -/

namespace Sys2Proof.Machine
open Sys2Proof

@[simp] theorem ok_bind {ε α β : Type} (a : α) (f : α → Except ε β) : (Except.ok a >>= f) = f a := rfl
@[simp] theorem error_bind {ε α β : Type} (e : ε) (f : α → Except ε β) : (Except.error e >>= f) = .error e := rfl
@[simp] theorem trapOf_bind {α β : Type} (c : Cause) (f : α → Except Stop β) : (trapOf c >>= f) = trapOf c := rfl

@[simp] theorem require_true (c : Cause) : require true c = .ok () := rfl
@[simp] theorem require_false (c : Cause) : require false c = trapOf c := rfl
@[simp] theorem holdWhile_true : holdWhile true = .error (.hold id) := rfl
@[simp] theorem holdWhile_false : holdWhile false = .ok () := rfl

/-- An instruction whose operation answers a working state wherever it is ready completes as that state. -/
theorem completesAs_of_ok {s w : State} {i : Instr} {p : BitVec 3} {cls : Nat} {op : Op} (named : opOf i = some (p, cls, op))
    (ok : Ready s p cls op → op.sem s.ctx s s.settled = .ok w) (sameClosed : w.closed = s.closed) : CompletesAs s i w :=
  completesAs_of_sem named (exec_eq_issueOne named s) ok sameClosed

/-- An instruction whose operation answers a trap wherever it is ready takes it. -/
theorem trapsWith_of_error {s : State} {i : Instr} {p : BitVec 3} {cls : Nat} {op : Op} {t : Trap} (named : opOf i = some (p, cls, op))
    (stops : Ready s p cls op → op.sem s.ctx s s.settled = .error (.trap t)) : TrapsWith s i t :=
  trapsWith_of_sem named (exec_eq_issueOne named s) stops

/-- The cause of a failed check, as a trap. -/
theorem trapsWith_of_trapOf {s : State} {i : Instr} {p : BitVec 3} {cls : Nat} {op : Op} {c : Cause} (named : opOf i = some (p, cls, op))
    (stops : op.sem s.ctx s s.settled = trapOf c) : TrapsWith s i { cause := c } :=
  trapsWith_of_error named fun _ => stops

/-- A ready operation that holds its bundle leaves it held, with what holding sets going and one more cycle toward a switch at most (R276,
R290). -/
theorem issueOne_hold {s : State} {p : BitVec 3} {cls : Nat} {op : Op} {f : State → State} (h : Ready s p cls op)
    (e : op.sem s.ctx s s.settled = .error (.hold f)) :
    issueOne s p cls op = .next ((f s).updCtl fun c => { c with
      swHeld := min c.swHeld (s.fr.ctl.swHeld + 1),
      swLim := if s.fr.ctl.swHeld = 0 ∧ c.swHeld ≠ 0 then bits s.bel.dpar0 0 32 else c.swLim }).held := by
  have live : [s.alone p cls op].filter (fun o => o.live s.fr) = [s.alone p cls op] := by
    have : (s.alone p cls op).live s.fr = true := by simpa [State.alone, SlotOp.live] using h.pred
    simp [this]
  have ran : runSlots s [s.alone p cls op] { w := s.settled } = { w := s.settled, holds := [f] } := by
    simp only [runSlots, State.alone]; rw [e]; rfl
  have served : ¬ s.fr.ctl.bankHold < slowHold s [s.alone p cls op] := Nat.not_lt.mpr h.slow
  rw [issueOne_alone]
  unfold issue
  simp only [bitTrap_alone h.legal h.mode, live, h.free, h.banks, judged_alone, served, ran]
  simp

theorem updFr_congr {s : State} {f g : Frame → Frame} (h : f s.fr = g s.fr) : s.updFr f = s.updFr g := by
  change s.setCore s.cur { s.here with frames := s.here.frames.set s.here.run.val (f s.fr) s.here.run.isLt } =
    s.setCore s.cur { s.here with frames := s.here.frames.set s.here.run.val (g s.fr) s.here.run.isLt }
  rw [h]

/-- A change of the running frame that changes nothing. -/
theorem updFr_same {s : State} {f : Frame → Frame} (h : f s.fr = s.fr) : s.updFr f = s := by
  have frames : s.here.frames.set s.here.run.val s.fr s.here.run.isLt = s.here.frames := Vector.set_getElem_self ..
  have cores : s.cores.set s.cur.val s.here s.cur.isLt = s.cores := Vector.set_getElem_self ..
  change s.setCore s.cur { s.here with frames := s.here.frames.set s.here.run.val (f s.fr) s.here.run.isLt } = s
  rw [h, frames]
  exact congrArg (fun cores => { s with cores := cores }) cores

/-- A change of the control state that changes nothing. -/
theorem updCtl_same {s : State} {f : Ctl → Ctl} (h : f s.fr.ctl = s.fr.ctl) : s.updCtl f = s := updFr_same (by rw [h])

/-- An instruction whose operation only holds leaves its bundle held. -/
theorem exec_of_hold {s : State} {i : Instr} {p : BitVec 3} {cls : Nat} {op : Op} (named : opOf i = some (p, cls, op))
    (e : op.sem s.ctx s s.settled = .error (.hold id)) (ready : SlotReady i s) : exec i s = .next s.held := by
  rw [exec_eq_issueOne named, issueOne_hold (ready.ready named) e, id, updCtl_same]
  cases s.fr.ctl; simp

end Sys2Proof.Machine
end

section
/-! Compares, view registers and predicates (O5, O6). -/

namespace Sys2Proof.Machine
open Sys2Proof

section
variable {s : State} {p : BitVec 3} {cc : BitVec 4} {d v : BitVec 3} {a b i : BitVec 6}

theorem opCmp_sem (ha : Readable s a) (hb : Readable s b) (c : SlotCtx) (w : State) :
    (opCmp cc d a b).sem c s w = (do
      let _ ← require (s.fr.predWritable d.toNat) Cause.illegalInstruction
      .ok (predResult c d (condS cc.toNat (s.rdS a) (s.rdS b)) w)) := by
  simp [opCmp, compareOp, getS_ok ha, getS_ok hb]

theorem opCmpi_sem (ha : Readable s a) (c : SlotCtx) (w : State) :
    (opCmpi cc d a i).sem c s w = (do
      let _ ← require (s.fr.predWritable d.toNat) Cause.illegalInstruction
      .ok (predResult c d (condS cc.toNat (s.rdS a) (immS c i)) w)) := by
  simp [opCmpi, compareOp, getS_ok ha]

theorem opVset_sem (ha : Readable s a) (c : SlotCtx) (w : State) :
    (opVset v a).sem c s w = (do
      let _ ← require (viewOk (s.rdS a)) Cause.illegalInstruction
      .ok (w.updRegs fun r => { r with vw := r.vw.set v.toNat (s.rdS a) v.isLt })) := by
  simp [opVset, getS_ok ha]

end

/-- Settles O5: each operation's meaning is its check, then its result. -/
theorem scalarComparesAndViews : Obligations.ScalarComparesAndViews := by
  intro s p n cc pd v d a b i ha hb x imm holds
  have table : holds = condS cc.toNat := rfl
  rw [table]
  dsimp only [x, imm]
  refine ⟨fun free => ⟨?_, ?_⟩, fun driven => ⟨?_, ?_⟩, fun ok => ?_, fun bad => ?_, ?_⟩
  · exact completesAs_of_ok rfl (fun _ => by simp [opCmp_sem ha hb, free]) rfl
  · exact completesAs_of_ok rfl (fun _ => by simp [opCmpi_sem ha, free]) rfl
  · exact trapsWith_of_trapOf rfl (by simp [opCmp_sem ha hb, driven])
  · exact trapsWith_of_trapOf rfl (by simp [opCmpi_sem ha, driven])
  · exact completesAs_of_ok rfl (fun _ => by simp [opVset_sem ha, ok]) rfl
  · exact trapsWith_of_trapOf rfl (by simp [opVset_sem ha, bad])
  · exact completesAs_of_ok rfl (fun _ => rfl) rfl

/-- A predicate operation that may write its predicate puts its value there. -/
theorem completesAs_predOp {s : State} {i : Instr} {p d : BitVec 3} {legal : Bool} {v : Frame → Bool}
    (named : opOf i = some (p, 5, predOp legal d v)) (free : s.fr.predWritable d.toNat = true) :
    CompletesAs s i (predResult s.ctx d (v s.fr) s.settled) :=
  completesAs_of_ok named (fun _ => by simp [predOp, free]) rfl

theorem trapsWith_predOp {s : State} {i : Instr} {p d : BitVec 3} {legal : Bool} {v : Frame → Bool}
    (named : opOf i = some (p, 5, predOp legal d v)) (driven : s.fr.predWritable d.toNat = false) :
    TrapsWith s i { cause := Cause.illegalInstruction } :=
  trapsWith_of_trapOf named (by simp [predOp, driven])

/-- The low bits of a mask are all one when each of them is. -/
theorem lowMask_eq_ones (m : Mask) (n : Nat) : (lowMask m n == ones n) = (List.range n).all fun i => m.getLsbD i := by
  rw [Bool.eq_iff_iff, beq_iff_eq, List.all_eq_true]
  simp only [List.mem_range]
  constructor
  · intro e i hi
    have := congrArg (Nat.testBit · i) e
    simpa [lowMask, ones, hi, Nat.testBit_two_pow_sub_one, BitVec.testBit_toNat] using this
  · intro e
    refine Nat.eq_of_testBit_eq fun i => ?_
    by_cases hi : i < n
    · simpa [lowMask, ones, hi, Nat.testBit_two_pow_sub_one, BitVec.testBit_toNat] using e i hi
    · simp [lowMask, ones, hi, Nat.testBit_two_pow_sub_one]

/-- The low bits of a mask are not all zero when one of them is one. -/
theorem lowMask_ne_zero (m : Mask) (n : Nat) : (lowMask m n != 0) = (List.range n).any fun i => m.getLsbD i := by
  rw [Bool.eq_iff_iff, bne_iff_ne, List.any_eq_true]
  simp only [List.mem_range]
  constructor
  · intro e
    obtain ⟨i, hi⟩ := Nat.exists_testBit_of_ne_zero e
    simp only [lowMask, Nat.testBit_mod_two_pow, Bool.and_eq_true, decide_eq_true_eq] at hi
    exact ⟨i, hi⟩
  · rintro ⟨i, hi, one⟩ e
    have := congrArg (Nat.testBit · i) e
    simp [lowMask, hi, one, BitVec.testBit_toNat] at this

/-- Settles O6: each operation is `predOp` of its value; the tested bits of a mask are judged together or one by one alike. -/
theorem predicateLogic : Obligations.PredicateLogic := by
  intro s p d a b w
  dsimp only
  simp only [← lowMask_eq_ones, ← lowMask_ne_zero]
  refine ⟨fun free => ⟨?_, ?_, ?_, ?_, ?_, ?_, ?_⟩, fun driven i hi => ?_⟩
  · exact completesAs_predOp (v := fun f => f.pval a.toNat && f.pval b.toNat) rfl free
  · exact completesAs_predOp (v := fun f => f.pval a.toNat || f.pval b.toNat) rfl free
  · exact completesAs_predOp (v := fun f => f.pval a.toNat != f.pval b.toNat) rfl free
  · exact completesAs_predOp (v := fun f => !f.pval a.toNat) rfl free
  · exact completesAs_predOp (v := fun f => f.pval a.toNat) rfl free
  · exact completesAs_predOp (v := fun f => lowMask (f.r.mks.get ⟨a.toNat, a.isLt⟩) (widthElems w.toNat) == ones (widthElems w.toNat)) rfl free
  · exact completesAs_predOp (v := fun f => lowMask (f.r.mks.get ⟨a.toNat, a.isLt⟩) (widthElems w.toNat) != 0) rfl free
  · simp only [List.mem_cons, List.not_mem_nil, or_false] at hi
    rcases hi with rfl | rfl | rfl | rfl | rfl | rfl | rfl <;> exact trapsWith_predOp rfl driven

end Sys2Proof.Machine
end

section
/-! What the commit of an issued bundle makes of the machine (R160, R285, R293): the running frame moves on to its next bundle, and beside it
only what counts issues, schedules events or refills streams changes. -/

namespace Sys2Proof.Machine
open Sys2Proof

/-- What a case distinction makes in each of its cases it makes. -/
theorem dite_ind {α : Type} (P : α → Prop) {c : Prop} [Decidable c] {x : c → α} {y : ¬ c → α} (pos : ∀ h, P (x h)) (neg : ∀ h, P (y h)) :
    P (dite c x y) := by
  split
  · exact pos _
  · exact neg _

theorem ite_ind {α : Type} (P : α → Prop) {c : Prop} [Decidable c] {x y : α} (pos : P x) (neg : P y) : P (ite c x y) :=
  dite_ind P (fun _ => pos) fun _ => neg

/-- `u` is `w` but for the running frame, the units' counters and caches, and further events; `g` is the running frame in `u`. -/
structure Leads (w u : State) (g : Frame) : Prop where
  fr : u.fr = g
  cur : u.cur = w.cur
  run : ∀ c, (u.core c).run = (w.core c).run
  frames : ∀ c k, ¬ (c = w.cur ∧ k = w.here.run) → u.frameAt c k = w.frameAt c k
  cyc : ∀ c, u.cyc c = w.cyc c
  mem : u.mem = w.mem
  agenda : ∀ e ∈ w.agenda, e ∈ u.agenda
  events : ∀ c, ∀ e ∈ (w.core c).events, e ∈ (u.core c).events

namespace Leads

theorem here_run {w u : State} {g : Frame} (h : Leads w u g) : u.here.run = w.here.run := by
  unfold State.here; rw [h.cur, h.run]

theorem rfl {w : State} : Leads w w w.fr where
  fr := Eq.refl _
  cur := Eq.refl _
  run _ := Eq.refl _
  frames _ _ _ := Eq.refl _
  cyc _ := Eq.refl _
  mem := Eq.refl _
  agenda _ h := h
  events _ _ h := h

theorem trans {w u v : State} {g g' : Frame} (h : Leads w u g) (i : Leads u v g') : Leads w v g' where
  fr := i.fr
  cur := i.cur.trans h.cur
  run c := (i.run c).trans (h.run c)
  frames c k o := (i.frames c k (by rwa [h.cur, h.here_run])).trans (h.frames c k o)
  cyc c := (i.cyc c).trans (h.cyc c)
  mem := i.mem.trans h.mem
  agenda e m := i.agenda e (h.agenda e m)
  events c e m := i.events c e (h.events c e m)

theorem cast {w u : State} {g g' : Frame} (h : Leads w u g) (e : g = g') : Leads w u g' := e ▸ h

/-- A part of the running frame in `u`, read off the frame that leads there. -/
theorem part {w u : State} {g : Frame} {α : Type} (h : Leads w u g) (f : Frame → α) : f u.fr = f g := congrArg f h.fr

/-- What leaves the running frame as it is leaves what it has become before. -/
theorem quiet {w u v : State} {g : Frame} (h : Leads w u g) (i : Leads u v u.fr) : Leads w v g := h.trans (i.cast h.fr)

end Leads

theorem frameAt_updFr_other (s : State) (f : Frame → Frame) {c : CoreId} {k : Fin 4} (h : ¬ (c = s.cur ∧ k = s.here.run)) :
    (s.updFr f).frameAt c k = s.frameAt c k := by
  rw [State.updFr, frameAt_updFrameAt, if_neg (by rintro ⟨rfl, rfl⟩; exact h ⟨rfl, rfl⟩)]

/-- What a change of a core keeps it keeps in every core. -/
theorem core_updCore_keeps {P : Core → Core → Prop} {f : Core → Core} (keeps : ∀ x, P x (f x)) (same : ∀ x, P x x) (w : State) (c d : CoreId) :
    P (w.core d) ((w.updCore c f).core d) := by
  rw [core_updCore]
  split
  next e => exact e ▸ keeps _
  next => exact same _

theorem core_updCore_part {α : Type} (part : Core → α) {f : Core → Core} (same : ∀ x, part (f x) = part x) (w : State) (c d : CoreId) :
    part ((w.updCore c f).core d) = part (w.core d) := core_updCore_keeps (P := fun x y => part y = part x) same (fun _ => rfl) w c d

/-- What a change of a frame keeps of that frame it keeps of every frame. -/
theorem frameAt_updFrameAt_part {α : Type} (part : Frame → α) {s : State} {c : CoreId} {k : Fin 4} {f : Frame → Frame}
    (same : part (f (s.frameAt c k)) = part (s.frameAt c k)) (d : CoreId) (j : Fin 4) :
    part ((s.updFrameAt c k f).frameAt d j) = part (s.frameAt d j) := by
  rw [frameAt_updFrameAt]
  split
  next e => obtain ⟨rfl, rfl⟩ := e; exact same
  next => rfl

theorem leads_updFr (w : State) (f : Frame → Frame) : Leads w (w.updFr f) (f w.fr) where
  fr := fr_updFr ..
  cur := rfl
  run := core_updCore_part (·.run) (f := (·.updFrame w.here.run f)) (fun _ => rfl) w w.cur
  frames _ _ h := frameAt_updFr_other w f h
  cyc _ := rfl
  mem := rfl
  agenda _ h := h
  events := core_updCore_keeps (P := fun x y => ∀ e ∈ x.events, e ∈ y.events) (f := (·.updFrame w.here.run f)) (fun _ _ h => h) (fun _ _ h => h) w w.cur

theorem leads_updCtl (w : State) (f : Ctl → Ctl) : Leads w (w.updCtl f) { w.fr with ctl := f w.fr.ctl } := leads_updFr ..

theorem leads_updRegs (w : State) (f : Regs → Regs) : Leads w (w.updRegs f) { w.fr with r := f w.fr.r } := leads_updFr ..

/-- A change of a core that leaves its frames and keeps its events. -/
theorem leads_updCore (w : State) (c : CoreId) {f : Core → Core} (frames : ∀ x, (f x).frames = x.frames) (run : ∀ x, (f x).run = x.run)
    (events : ∀ x, ∀ e ∈ x.events, e ∈ (f x).events) : Leads w (w.updCore c f) w.fr where
  fr := congrArg₂ Vector.get (core_updCore_part (·.frames) frames ..) (core_updCore_part (·.run) run ..)
  cur := rfl
  run := core_updCore_part (·.run) run w c
  frames d k _ := congrArg (·.get k) (core_updCore_part (·.frames) frames w c d)
  cyc _ := rfl
  mem := rfl
  agenda _ h := h
  events d := core_updCore_keeps (P := fun x y => ∀ e ∈ x.events, e ∈ y.events) events (fun _ _ h => h) w c d

theorem leads_post (w : State) (dt : Nat) (row : Instr) (a : Arg) : Leads w (w.post dt row a) w.fr :=
  { Leads.rfl (w := w) with agenda := fun e h => by simp [h] }

theorem leads_tick (w : State) : Leads w w.tick w.fr := { Leads.rfl (w := w) with fr := rfl }

theorem leads_postCore (w : State) (c : CoreId) (n : Nat) (row : Instr) (a : Arg) : Leads w (w.postCore c n row a) w.fr :=
  leads_updCore w c (fun _ => rfl) (fun _ => rfl) fun _ _ h => List.mem_append_left _ h

theorem leads_postFree (w : State) (c : CoreId) (least : Nat) (row : Instr) (a : Arg) : Leads w (w.postFree c least row a) w.fr :=
  (leads_postCore ..).quiet (leads_tick _)

theorem leads_updTask (w : State) (tid : BitVec 32) (f : Task → Task) : Leads w (w.updTask tid f) w.fr := { Leads.rfl (w := w) with fr := rfl }

theorem leads_updIsland (w : State) (i : Fin 128) {f : Island → Island} (same : ∀ x t, (f x).cycles t = x.cycles t) :
    Leads w (w.updIsland i f) w.fr :=
  { Leads.rfl (w := w) with
    cyc := fun c => by
      unfold State.cyc
      rw [island_updIsland]
      split
      next e => rw [e, same]; rfl
      next => rfl }

/-! ### The parts of the commit -/

theorem leads_movePrio (w : State) (c : CoreId) : Leads w (w.movePrio c) w.fr := by
  have moved (w : State) (c : CoreId) (n : Nat) := leads_updCore w c (f := fun x => { x with prioBit := x.first n, prioMove := some n })
    (fun _ => rfl) (fun _ => rfl) fun _ _ h => h
  exact (moved w c _).quiet (moved _ (partnerOf c) _)

theorem leads_noteFirst (w : State) : Leads w w.noteFirst w.fr := by
  unfold State.noteFirst
  have noted (n : Nat) := leads_updTask w w.fr.id.task fun x => { x with firstIssue := some n }
  dsimp only
  split
  · exact .rfl
  split
  · exact .rfl
  split
  · exact noted _
  · exact (noted _).quiet (leads_post ..)

theorem leads_issuedNow (w : State) : Leads w w.issuedNow w.fr := by
  unfold State.issuedNow
  have counted := ((leads_noteFirst w).quiet (leads_updCore _ w.noteFirst.cur (f := fun x => { x with issuedAt := some (w.cyc w.cur) })
    (fun _ => rfl) (fun _ => rfl) fun _ _ h => h)).quiet
    (leads_updIsland _ (islandOf w.noteFirst.cur) (f := fun i => { i with issued := true }) fun _ _ => rfl)
  dsimp only
  split
  · exact counted.quiet (leads_movePrio ..)
  · exact counted

/-- The frame with its streams as they are refilled. -/
noncomputable def Frame.streamed (f : Frame) (q : Vector Stream 16) : Frame := { f with r := { f.r with streams := q } }

/-- `u` is `w` with its running frame's streams as they are refilled. -/
noncomputable def State.Refills (w u : State) : Prop := Leads w u (w.fr.streamed u.fr.r.streams)

theorem Leads.refills {w u : State} {q : Vector Stream 16} (h : Leads w u (w.fr.streamed q)) : w.Refills u :=
  h.cast (congrArg w.fr.streamed (h.part (·.r.streams)).symm)

theorem refills_rfl {w : State} : w.Refills w := Leads.rfl

theorem State.Refills.trans {w u v : State} (h : w.Refills u) (i : u.Refills v) : w.Refills v :=
  have streamed : Leads w v ((w.fr.streamed u.fr.r.streams).streamed v.fr.r.streams) :=
    Leads.trans h (i.cast (congrArg (Frame.streamed · v.fr.r.streams) h.fr))
  streamed

theorem refills_refill (w : State) (n : Fin 16) (m : Nat) : w.Refills (w.refill n m) := by
  induction m generalizing w with
  | zero => exact refills_rfl
  | succ m ih => exact ite_ind w.Refills (((leads_updRegs w _).quiet (leads_postFree ..)).refills.trans (ih _)) refills_rfl

theorem refills_foldl (w : State) (l : List Nat) : w.Refills (l.foldl (fun w n => w.refill (Fin.ofNat 16 n) 16) w) := by
  induction l generalizing w with
  | nil => exact refills_rfl
  | cons n l ih => exact (refills_refill w _ 16).trans (ih _)

theorem refills_refillStreams (w : State) : w.Refills w.refillStreams := ite_ind w.Refills refills_rfl (refills_foldl ..)

/-! ### What loop levels leave alone -/

/-- `f` with the levels of `g`, their depth, and the predicates that they drive. -/
noncomputable def Frame.withLevels (f g : Frame) : Frame := { f with r := { f.r with p := g.r.p }, ctl := { f.ctl with lv := g.ctl.lv, depth := g.ctl.depth } }

/-- `g` is `f` but for its levels, their depth, and the predicates that they drive. -/
noncomputable def Frame.Leveled (f g : Frame) : Prop := g = f.withLevels g

theorem Frame.Leveled.rfl {f : Frame} : f.Leveled f := Eq.refl f

theorem Frame.Leveled.trans {f g h : Frame} (a : f.Leveled g) (b : g.Leveled h) : f.Leveled h := by
  have old : g.withLevels h = (f.withLevels g).withLevels h := congrArg (Frame.withLevels · h) a
  exact Eq.trans b old

theorem leveled_lv (f : Frame) (lv : Vector Level 6) : f.Leveled { f with ctl := { f.ctl with lv := lv } } := Eq.refl _

theorem leveled_closeLevel (f : Frame) (v : Fin 6) : f.Leveled (f.closeLevel v) := by
  unfold Frame.closeLevel; dsimp only; split <;> exact Eq.refl _

/-! Closing down: a level from the bound on closes, and the levels below it next. -/

section
variable {f : Frame} {lo n : Nat}

theorem closeDown_inner (above : lo ≤ n) (inner : n < 6) : f.closeDown lo (n + 1) = (f.closeLevel ⟨n, inner⟩).closeDown lo n :=
  (if_pos above).trans (dif_pos inner)

theorem closeDown_outer (above : lo ≤ n) (outer : ¬ n < 6) : f.closeDown lo (n + 1) = f.closeDown lo n := (if_pos above).trans (dif_neg outer)

theorem closeDown_below (below : ¬ lo ≤ n) : f.closeDown lo (n + 1) = f := if_neg below

end

theorem leveled_closeDown (f : Frame) (lo n : Nat) : f.Leveled (f.closeDown lo n) := by
  induction n generalizing f with
  | zero => exact .rfl
  | succ n ih => exact ite_ind f.Leveled (dite_ind f.Leveled (fun _ => (leveled_closeLevel ..).trans (ih _)) fun _ => ih f) .rfl

theorem leveled_leaveLevels (f : Frame) (t : Word) : f.Leveled (f.leaveLevels t) := by
  unfold Frame.leaveLevels
  split
  · exact leveled_closeDown ..
  · exact .rfl

theorem leveled_backEdge (f : Frame) (b : Word) (n : Nat) : f.Leveled (f.backEdge b n).1 := by
  induction n generalizing f with
  | zero => exact .rfl
  | succ n ih =>
    let leveled (r : Frame × Word × Option (Fin 6)) : Prop := f.Leveled r.1
    refine dite_ind leveled (fun _ => ite_ind leveled (ite_ind leveled (leveled_lv f _) ?_) .rfl) fun _ => .rfl
    exact (leveled_lv f _).trans ((leveled_closeLevel ..).trans (ih _))

/-! ### The frame that a commit leaves -/

/-- The frame whose next bundle is the taken transfer's. -/
noncomputable def Frame.turnedTo (f : Frame) (t : Word) : Frame := { f with ctl := { f.ctl with pc := t, taken := none } }

/-- The frame at `pc`, waiting for the level `w`. -/
noncomputable def Frame.waitingAt (f : Frame) (pc : Word) (w : Option (Fin 6)) : Frame := { f with ctl := { f.ctl with pc := pc, loopWait := w } }

/-- The frame whose next bundle is the one of R160 after `b`. -/
noncomputable def Frame.steppedFrom (f : Frame) (b : Word) : Frame :=
  let r := f.backEdge b 6
  r.1.waitingAt r.2.1 (if r.2.2.isSome then r.2.2 else r.1.ctl.loopWait)

/-- The next bundle, by the taken transfer or by R160. -/
noncomputable def Frame.turned (f : Frame) : Frame :=
  match f.ctl.taken with
  | some t => f.turnedTo t
  | none => f.steppedFrom f.ctl.pc

/-- A control register written (R260). -/
noncomputable def Frame.csrPut (f : Frame) (n : Nat) (x : Word) : Frame :=
  match n with
  | 0x400 => { f with tr := { f.tr with estatus := x } }
  | 0x402 => { f with tr := { f.tr with epc := x } }
  | 0x406 => { f with tr := { f.tr with handler := x } }
  | _ => { f with sys := f.sys.put n x }

/-- No control register to be written. -/
noncomputable def Frame.csrDone (f : Frame) : Frame := { f with ctl := { f.ctl with csrw := none } }

/-- The control register that the bundle writes. -/
noncomputable def Frame.csrTaken (f : Frame) : Frame :=
  match f.ctl.csrw with
  | some (n, x) => (f.csrPut n x).csrDone
  | none => f

/-- The counts of a held bundle gone. -/
noncomputable def Frame.uncounted (f : Frame) : Frame :=
  { f with ctl := { f.ctl with heldFor := 0, swHeld := 0, bankHold := 0, orderFrom := none, replay := false } }

/-- The latches cleared where the bundle asks it (R23). -/
noncomputable def Frame.relatchedNow (f : Frame) : Frame := { f.clearLatches with ctl := { f.clearLatches.ctl with clearLat := false } }

noncomputable def Frame.relatched (f : Frame) : Frame := if f.ctl.clearLat then f.relatchedNow else f

/-- A TRAP's trap due (R271). -/
noncomputable def Frame.trappedBy (f : Frame) (t : Trap) : Frame :=
  { f with tr := { f.tr with due := f.tr.due ++ [t] }, ctl := { f.ctl with trapReq := none } }

noncomputable def Frame.trapped (f : Frame) : Frame :=
  match f.ctl.trapReq with
  | some t => f.trappedBy t
  | none => f

/-- A frame that has turned to its next bundle once that is committed, `q` being its streams as they are refilled. -/
noncomputable def Frame.committed (f : Frame) (q : Vector Stream 16) : Frame := (f.csrTaken.streamed q).uncounted.relatched.trapped

/-! The steps of the commit (R160, R23, R271). -/

section
variable (w : State)

/-- The state whose frame has turned to its next bundle. -/
noncomputable def State.turnedOn : State :=
  match w.fr.ctl.taken with
  | some t => w.updFr (·.turnedTo t)
  | none => w.updFr (·.steppedFrom w.fr.ctl.pc)

/-- The state whose frame's latches are cleared where the bundle asks it. -/
noncomputable def State.relatched : State := if w.fr.ctl.clearLat then w.updFr Frame.relatchedNow else w

/-- The state whose frame has a TRAP's trap due. -/
noncomputable def State.trapped : State :=
  match w.fr.ctl.trapReq with
  | some t => w.updFr (·.trappedBy t)
  | none => w

/-- What the commit makes of a state before the turn that a YIELD or a TRET asks for. -/
noncomputable def State.advance : State := (w.issuedNow.turnedOn.csrWritten.rebound.refillStreams.updFr Frame.uncounted).relatched.trapped

theorem leads_turnedOn : Leads w w.turnedOn w.fr.turned := by
  rcases e : w.fr.ctl.taken with _ | t <;> simp only [State.turnedOn, Frame.turned, e] <;> exact leads_updFr ..

theorem leads_csrWritten : Leads w w.csrWritten w.fr.csrTaken := by
  rcases e : w.fr.ctl.csrw with _ | ⟨n, x⟩ <;> simp only [State.csrWritten, Frame.csrTaken, e]
  · exact .rfl
  · exact (leads_updFr w (·.csrPut n x)).trans ((leads_updCtl ..).cast (congrArg Frame.csrDone (fr_updFr w (·.csrPut n x))))

theorem leads_relatched : Leads w w.relatched w.fr.relatched := by
  unfold State.relatched Frame.relatched
  split
  · exact leads_updFr ..
  · exact .rfl

theorem leads_trapped : Leads w w.trapped w.fr.trapped := by
  rcases e : w.fr.ctl.trapReq with _ | t <;> simp only [State.trapped, Frame.trapped, e]
  · exact .rfl
  · exact leads_updFr ..

/-- A commit of which neither YIELD nor TRET asks a turn. -/
theorem commit_eq_advance (noYield : w.advance.fr.ctl.yieldReq = false) (noReturn : w.advance.fr.ctl.retReq = false) : w.commit = w.advance := by
  unfold State.commit
  extract_lets w₁ b w₂ w₃ w₄ w₅ c k at_ w₆ w₇ w₈ w₉
  have turned : w₂ = w₁.turnedOn := rfl
  have uncounted : w₃ = w₂.csrWritten.rebound.refillStreams.updFr Frame.uncounted := rfl
  have relatched : w₄ = w₃.relatched := rfl
  have trapped : w₅ = w₄.trapped := by clear_value w₄; rfl
  have all : w₅ = w.advance := by rw [trapped, relatched, uncounted, turned]; rfl
  exact (if_neg (all ▸ Bool.eq_false_iff.mp noYield)).trans ((if_neg (all ▸ Bool.eq_false_iff.mp noReturn)).trans all)

end

theorem rebound_of_isEmpty {w : State} (h : w.fr.ctl.rebind = []) : w.rebound = w := by simp [State.rebound, h]

/-- The streams as the commit of a state refills them. -/
noncomputable def State.restreamed (w : State) : Vector Stream 16 := w.issuedNow.turnedOn.csrWritten.refillStreams.fr.r.streams

/-- A commit moves the running frame on; beside it only counters and events change. -/
theorem leads_advance {w : State} {g : Frame} (turns : w.fr.turned = g) (noRebind : g.csrTaken.ctl.rebind = []) :
    Leads w w.advance (g.committed w.restreamed) := by
  have turned : Leads w w.issuedNow.turnedOn g :=
    (leads_issuedNow w).trans ((leads_turnedOn _).cast (((leads_issuedNow w).part Frame.turned).trans turns))
  have written := turned.trans ((leads_csrWritten _).cast (congrArg Frame.csrTaken turned.fr))
  have same := rebound_of_isEmpty ((congrArg (·.ctl.rebind) written.fr).trans noRebind)
  have streamed := written.trans ((refills_refillStreams _).cast (congrArg (Frame.streamed · w.restreamed) written.fr))
  have uncounted := streamed.trans ((leads_updFr _ Frame.uncounted).cast (congrArg Frame.uncounted streamed.fr))
  have relatched := uncounted.trans ((leads_relatched _).cast (congrArg Frame.relatched uncounted.fr))
  have trapped := relatched.trans ((leads_trapped _).cast (congrArg Frame.trapped relatched.fr))
  unfold State.advance
  rw [same]
  exact trapped

/-! ### From an operation's meaning to the state that its instruction leaves -/

theorem leads_takePorts (w : State) (l : List Nat) : Leads w (w.takePorts l) w.fr := by
  unfold State.takePorts State.usePorts
  split
  · exact .rfl
  · exact leads_updCore w _ (fun _ => rfl) (fun _ => rfl) fun _ _ h => h

theorem leads_updClock (w : State) (n : Nat) (f : Clock → Clock) : Leads w (w.updClock n f) w.fr :=
  { Leads.rfl (w := w) with fr := rfl }

theorem leads_observe (w : State) (n : Nat) (l : List Marks) : Leads w (w.observe n l) w.fr := by
  unfold State.observe
  dsimp only
  split
  · exact .rfl
  · exact leads_updClock ..

theorem leads_observeUses (w s : State) (l : List SlotOp) : Leads w (w.observeUses s l) w.fr := by
  unfold State.observeUses
  split
  · exact .rfl
  · exact leads_observe ..

/-- What of a core the refill of its counters leaves. -/
noncomputable def Core.lasting (x : Core) : Vector Frame 4 × Fin 4 × List Event := (x.frames, x.run, x.events)

theorem lasting_take (x : Core) (g : Grant) : (x.take g).lasting = x.lasting := ite_ind (fun y : Core => y.lasting = x.lasting) rfl rfl

theorem lasting_refillTo (x : Core) (n : Nat) : (x.refillTo n).lasting = x.lasting := by
  unfold Core.refillTo
  split
  · rfl
  · exact ite_ind (fun y : Core => y.lasting = x.lasting) (lasting_take (x.refillBy _) _) rfl

/-- The working state of a bundle that issues, once it has drawn its ports, permits and energy (R277, R285). -/
noncomputable def State.drawn (s : State) (cls mx vec sfu memp : Nat) (reads : List Nat) (w : State) : State :=
  (w.takePorts reads).updCore s.cur fun y => ((y.refillTo (s.cyc s.cur)).draw mx vec sfu memp).logWeight (s.cyc s.cur) (s.weightOf cls)

theorem issued_eq_commit (s w : State) (cls mx vec sfu memp : Nat) (reads : List Nat) :
    s.issued cls mx vec sfu memp reads w = (s.drawn cls mx vec sfu memp reads w).commit := rfl

theorem leads_drawn (s w : State) (cls mx vec sfu memp : Nat) (reads : List Nat) : Leads w (s.drawn cls mx vec sfu memp reads w) w.fr :=
  (leads_takePorts w reads).quiet (leads_updCore _ s.cur (fun x => congrArg (·.1) (lasting_refillTo x _))
    (fun x => congrArg (·.2.1) (lasting_refillTo x _)) fun x e h =>
      show e ∈ (x.refillTo _).events from (congrArg (·.2.2) (lasting_refillTo x _) : (x.refillTo _).events = x.events).symm ▸ h)

/-- The state that an instruction leaves to the commit. -/
noncomputable def State.issuing (s : State) (p : BitVec 3) (cls : Nat) (op : Op) (w : State) : State :=
  s.drawn cls op.mx op.vec op.sfu op.memp (bankNow s [s.alone p cls op]) (w.observeUses s [s.alone p cls op])

theorem leads_issuing (s w : State) (p : BitVec 3) (cls : Nat) (op : Op) : Leads w (s.issuing p cls op w) w.fr :=
  (leads_observeUses w s [s.alone p cls op]).quiet (leads_drawn ..)

section
variable {s w : State} {i : Instr} {p : BitVec 3} {cls : Nat} {op : Op} (named : opOf i = some (p, cls, op))
  (ready : SlotReady i s) (ok : op.sem s.ctx s s.settled = .ok w) (sameClosed : w.closed = s.closed) (free : mirrorHold s w = false)
include named ready ok sameClosed free

theorem exec_of_ok : exec i s = .next (s.issuing p cls op w).commit := by
  have r := ready.ready named
  rw [exec_eq_issueOne named, issueOne_ready r ok (by rw [sameClosed]; exact r.isOpen) free]
  rfl

/-- What holds of every state to which `w` leads, its frame moved on to the next bundle, holds of the one that a ready instruction leaves whose
meaning gives `w`. -/
theorem exec_leads {g : Frame} {P : State → Prop} (turns : w.fr.turned = g) (noRebind : g.csrTaken.ctl.rebind = [])
    (noYield : ∀ q, (g.committed q).ctl.yieldReq = false) (noReturn : ∀ q, (g.committed q).ctl.retReq = false)
    (holds : ∀ {u q}, Leads w u (g.committed q) → P u) : ∃ u, exec i s = .next u ∧ P u := by
  have drawn := leads_issuing s w p cls op
  have advanced := leads_advance ((drawn.part Frame.turned).trans turns) noRebind
  have same := commit_eq_advance _ ((advanced.part (·.ctl.yieldReq)).trans (noYield _)) ((advanced.part (·.ctl.retReq)).trans (noReturn _))
  exact ⟨_, (exec_of_ok named ready ok sameClosed free).trans (congrArg _ same), holds (drawn.trans advanced)⟩

end

end Sys2Proof.Machine
end

section
/-! Transfers, calls, returns and loops (O8, O9, O10). -/

namespace Sys2Proof.Machine
open Sys2Proof

/-! ### The frames that transfers leave -/

/-- The frame as its bundle's slots begin (R63). -/
noncomputable def Frame.settled (f : Frame) : Frame := { f with ctl := { f.ctl with
  taken := none, rebind := [], csrw := none, clearLat := false, trapReq := none, retReq := false, yieldReq := false } }

/-- The frame with its next bundle at `t`, through a target's copies, and its latches to be cleared (R149). -/
noncomputable def Frame.sent (f : Frame) (t : Word) (code : List (Nat × Bundle)) : Frame :=
  { f with ctl := { f.ctl with taken := some t, clearLat := true, fetched := code, loopWait := none } }

/-- The frame that goes to `t` and leaves the levels that do not hold it (R149, R151). -/
noncomputable def Frame.jumped (f : Frame) (t : Word) (code : List (Nat × Bundle)) : Frame := (f.withLevels (f.leaveLevels t)).sent t code

/-- The frame with another floor. -/
noncomputable def Frame.floored (f : Frame) (n : Nat) : Frame := { f with ctl := { f.ctl with floor := n } }

/-- The frame that fetches its next bundle anew and issues nothing before cycle `n`. -/
noncomputable def Frame.refetching (f : Frame) (n : Nat) : Frame := { f with ctl := { f.ctl with notBefore := n, refetch := true } }

@[simp] theorem here_run_updCtl (s : State) (f : Ctl → Ctl) : (s.updCtl f).here.run = s.here.run := here_run_updFr ..
@[simp] theorem here_run_settled (s : State) : s.settled.here.run = s.here.run := here_run_updCtl ..

theorem fr_settled (s : State) : s.settled.fr = s.fr.settled := fr_updCtl ..

theorem fr_transfer (w : State) (t : Word) (code : List (Nat × Bundle)) : (w.transfer t code).fr = w.fr.jumped t code :=
  (fr_updFr ..).trans (congrArg (Frame.sent · t code) (leveled_leaveLevels w.fr t))

theorem leads_refetchAt (w : State) (n : Nat) : Leads w (w.refetchAt n) (w.fr.refetching n) :=
  (leads_updCtl ..).trans ((leads_postFree ..).cast (leads_updCtl ..).fr)

@[simp] theorem transfer_closed (w : State) (t : Word) (code : List (Nat × Bundle)) : (w.transfer t code).closed = w.closed := rfl

/-! ### Levels that close -/

/-- Whether a level above the floor does not hold the target. -/
noncomputable def Frame.leaves (f : Frame) (t : Word) (v : Nat) : Bool :=
  decide (f.ctl.floor ≤ v) && decide (v < f.ctl.depth) && !(f.ctl.lv.toList.getD v {}).holds t

section
variable {f : Frame} {t : Word}

theorem leaveLevels_some {v : Nat} (found : (List.range 6).find? (f.leaves t) = some v) : f.leaveLevels t = f.closeDown v f.ctl.depth :=
  congrArg (fun o : Option Nat => match o with
    | some v => f.closeDown v f.ctl.depth
    | none => f) found

theorem leaveLevels_none (found : (List.range 6).find? (f.leaves t) = none) : f.leaveLevels t = f :=
  congrArg (fun o : Option Nat => match o with
    | some v => f.closeDown v f.ctl.depth
    | none => f) found

end

theorem closeLevel_settled (f : Frame) (v : Fin 6) : f.settled.closeLevel v = (f.closeLevel v).settled := by
  exact Eq.symm (Eq.trans (by unfold Frame.closeLevel; exact apply_ite Frame.settled _ _ _) rfl)

theorem closeDown_settled (f : Frame) (lo n : Nat) : f.settled.closeDown lo n = (f.closeDown lo n).settled := by
  induction n generalizing f with
  | zero => rfl
  | succ n ih =>
    by_cases above : lo ≤ n
    · by_cases inner : n < 6
      · rw [closeDown_inner above inner, closeDown_inner above inner, closeLevel_settled, ih]
      · rw [closeDown_outer above inner, closeDown_outer above inner, ih]
    · rw [closeDown_below above, closeDown_below above]

/-- The levels that a transfer leaves are the same before a bundle's slots and as they begin. -/
theorem leaveLevels_settled (f : Frame) (t : Word) : f.settled.leaveLevels t = (f.leaveLevels t).settled := by
  rcases found : (List.range 6).find? (f.leaves t) with _ | v
  · exact (leaveLevels_none (f := f.settled) found).trans (congrArg Frame.settled (leaveLevels_none found).symm)
  · exact (leaveLevels_some (f := f.settled) found).trans ((closeDown_settled ..).trans (congrArg Frame.settled (leaveLevels_some found).symm))

/-! ### Transfers -/

section
variable {s : State} {t : BitVec 3} {e : Target} (he : s.fr.ctl.tg.get ⟨t.toNat, t.isLt⟩ = e)
include he

theorem useTarget_invalid (h : e.valid = false) : useTarget s t = trapOf Cause.targetBuffer := by
  unfold useTarget; rw [he]; simp [h]

theorem useTarget_unfilled (h : e.valid = true) (inRange : e.outRange = false) (unfilled : e.filled = false) :
    useTarget s t = .error (.hold id) := by
  unfold useTarget; rw [he]; simp [h, inRange, unfilled]

theorem useTarget_ok (h : e.valid = true) (there : e.outRange = true ∨ e.filled = true) : useTarget s t = .ok e := by
  unfold useTarget; rw [he]; rcases there with r | r <;> simp [h, r]

/-! A transfer whose condition holds goes through its entry. -/

variable {i : Instr} {p : BitVec 3} {legal : Bool} {cond : Frame → Bool} (named : opOf i = some (p, 5, xferOp legal t cond))
  (taken : cond s.fr = true)
include named taken

theorem trapsWith_transfer (h : e.valid = false) : TrapsWith s i { cause := Cause.targetBuffer } :=
  trapsWith_of_trapOf named (by simp [xferOp, taken, useTarget_invalid he h])

theorem transfer_holds (h : e.valid = true) (inRange : e.outRange = false) (unfilled : e.filled = false) (ready : SlotReady i s) :
    exec i s = .next s.held :=
  exec_of_hold named (by simp [xferOp, taken, useTarget_unfilled he h inRange unfilled]) ready

theorem transfer_goes (h : e.valid = true) (there : e.outRange = true ∨ e.filled = true) (ready : SlotReady i s) : ∃ u, exec i s = .next u
    ∧ u.cur = s.cur ∧ u.fr.ctl.pc = e.addr ∧ u.fr.ctl.fetched = e.code ∧ u.fr.r.lat = {}
    ∧ u.fr.infl = s.fr.infl.map (fun r => { r with lat := none })
    ∧ u.fr.ctl.lv = (s.fr.leaveLevels e.addr).ctl.lv ∧ u.fr.ctl.depth = (s.fr.leaveLevels e.addr).ctl.depth
    ∧ u.fr.r.s = s.fr.r.s ∧ u.fr.r.mstack = s.fr.r.mstack ∧ u.mem = s.mem := by
  have fr : (s.settled.transfer e.addr e.code).fr = s.fr.settled.jumped e.addr e.code :=
    (fr_transfer ..).trans (congrArg (Frame.jumped · e.addr e.code) (fr_settled s))
  have left := leaveLevels_settled s.fr e.addr
  refine exec_leads (w := s.settled.transfer e.addr e.code) named ready (by simp [xferOp, taken, useTarget_ok he h there]) rfl
    (mirrorHold_same (congrArg (·.infl) fr)) (congrArg Frame.turned fr) rfl (fun _ => rfl) (fun _ => rfl) fun leads => ?_
  exact ⟨leads.cur, leads.part (·.ctl.pc), leads.part (·.ctl.fetched), leads.part (·.r.lat), leads.part (·.infl),
    (leads.part (·.ctl.lv)).trans (congrArg (·.ctl.lv) left), (leads.part (·.ctl.depth)).trans (congrArg (·.ctl.depth) left), leads.part (·.r.s),
    leads.part (·.r.mstack), leads.mem⟩

end

/-- A transfer whose condition fails leaves the working state as it was. -/
theorem completesAs_untaken {s : State} {i : Instr} {p t : BitVec 3} {legal : Bool} {cond : Frame → Bool}
    (named : opOf i = some (p, 5, xferOp legal t cond)) (untaken : cond s.fr = false) : CompletesAs s i s.settled :=
  completesAs_of_ok named (fun _ => by simp [xferOp, untaken]) rfl

/-- What XFERE tests (R149). -/
noncomputable def Frame.noneActive (f : Frame) (w : BitVec 6) : Bool := !f.visible.isEmpty && lowMask f.active (widthElems w.toNat) == 0

/-- What XFERA tests (R149). -/
noncomputable def Frame.allActive (f : Frame) (w : BitVec 6) : Bool :=
  f.visible.isEmpty || lowMask f.active (widthElems w.toNat) == ones (widthElems w.toNat)

theorem noneActive_iff (f : Frame) (w : BitVec 6) : f.noneActive w = true ↔ f.visible ≠ [] ∧ f.active.toNat % 2 ^ (512 >>> w.toNat) = 0 := by
  rw [Frame.noneActive, Bool.and_eq_true, Bool.not_eq_true', ← Bool.not_eq_true, List.isEmpty_iff, beq_iff_eq]
  rfl

theorem allActive_iff (f : Frame) (w : BitVec 6) :
    f.allActive w = true ↔ f.visible = [] ∨ f.active.toNat % 2 ^ (512 >>> w.toNat) = 2 ^ (512 >>> w.toNat) - 1 := by
  rw [Frame.allActive, Bool.or_eq_true, List.isEmpty_iff, beq_iff_eq]
  rfl

/-- What a fetch is asked with stands outside the control state. -/
theorem fetchArg_settled (s : State) (f : Ctl → Ctl) (v : Nat) (a : Word) :
    (s.settled.updCtl f).fr.fetchArg (s.settled.updCtl f).here.run v a = s.fr.fetchArg s.here.run v a := by
  rw [here_run_updCtl, here_run_settled, fr_updCtl, fr_settled]
  rfl

section
variable {s : State} {p t : BitVec 3} {imm : BitVec 12} {a : Word} (ha : s.fr.ctl.pc + BitVec.ofInt 64 (immL s.ctx imm * 16) = a)
include ha

/-- The entry that PREP leaves, with its fetch under way when the address is code (R147, R148). -/
theorem opPrep_sem (w : State) : (opPrep t imm).sem s.ctx s w = .ok (
    let v := w.updCtl fun x =>
      { x with tg := x.tg.set t.toNat { valid := true, addr := a, outRange := !s.fr.id.codeOk a, filled := !s.fr.id.codeOk a } t.isLt }
    if !s.fr.id.codeOk a then v else v.postFree v.cur 3 .prepFetchComplete (v.fr.fetchArg v.here.run t.toNat a)) := by
  subst ha; rfl

theorem prep_fetches (inside : s.fr.id.codeOk a = true) : CompletesAs s (.prep p t imm)
    ((s.settled.updCtl fun x => { x with tg := x.tg.set t.toNat { valid := true, addr := a } t.isLt }).postFree s.cur 3
      .prepFetchComplete (s.fr.fetchArg s.here.run t.toNat a)) := by
  refine completesAs_of_ok rfl (fun _ => ?_) rfl
  rw [opPrep_sem ha, inside, ← fetchArg_settled s fun x => { x with tg := x.tg.set t.toNat { valid := true, addr := a } t.isLt }]
  rfl

theorem prep_outside (outside : s.fr.id.codeOk a = false) : CompletesAs s (.prep p t imm)
    (s.settled.updCtl fun x => { x with tg := x.tg.set t.toNat { valid := true, addr := a, outRange := true, filled := true } t.isLt }) := by
  refine completesAs_of_ok rfl (fun _ => ?_) rfl
  rw [opPrep_sem ha, outside]
  rfl

end

/-- Settles O8: the transfers are `xferOp` under their conditions. -/
theorem transfersTaken : Obligations.TransfersTaken := by
  intro s p t w imm e low a goes
  have through {i : Instr} {legal : Bool} {cond : Frame → Bool} (named : opOf i = some (p, 5, xferOp legal t cond)) (taken : cond s.fr = true) :
      goes i := ⟨trapsWith_transfer rfl named taken, transfer_holds rfl named taken, transfer_goes rfl named taken⟩
  have off {b : Bool} {P : Prop} (test : b = true ↔ P) (out : ¬ P) : b = false := Bool.eq_false_iff.mpr (mt test.mp out)
  exact ⟨prep_fetches rfl, prep_outside rfl, through rfl rfl,
    fun on => through (cond := (·.noneActive w)) rfl ((noneActive_iff ..).mpr on),
    fun out => completesAs_untaken (cond := (·.noneActive w)) rfl (off (noneActive_iff ..) out),
    fun on => through (cond := (·.allActive w)) rfl ((allActive_iff ..).mpr on),
    fun out => completesAs_untaken (cond := (·.allActive w)) rfl (off (allActive_iff ..) out)⟩

/-! ### Results in flight -/

/-- The frame once a result has entered flight. -/
noncomputable def Frame.launched (f : Frame) (r : Result) : Frame := { cancelSame r.seq r.dest r.ben f with infl := (cancelSame r.seq r.dest r.ben f).infl ++ [r] }

theorem fr_result (w : State) (slot : Fin 4) (lat : Nat) (dest : Dest) (ben : Mask) (data : Vec) (u : Option (Fin 3)) (by_ : Nat) :
    (w.result slot lat dest ben data u by_).fr = w.fr.launched
      { seq := seqOf (w.cyc w.cur) slot, due := w.cyc w.cur + lat - 1, dest := dest, ben := ben, data := data, lat := u, unit := by_ } :=
  fr_updFr ..

theorem mem_launched (f : Frame) (r : Result) : r ∈ (f.launched r).infl := List.mem_append_right _ (List.mem_singleton.mpr rfl)

theorem leads_result (w : State) (slot : Fin 4) (lat : Nat) (dest : Dest) (ben : Mask) (data : Vec) (u : Option (Fin 3)) (by_ : Nat) :
    Leads w (w.result slot lat dest ben data u by_) (w.result slot lat dest ben data u by_).fr := by
  rw [fr_result]; exact leads_updFr ..

/-- A result in flight when one of a higher slot enters (R65). -/
noncomputable def Result.beside (r x : Result) : Result := if r.seq / 4 = x.seq / 4 ∧ r.dest = x.dest then { r with ben := r.ben &&& ~~~x.ben } else r

theorem infl_launched (f : Frame) (x : Result) : (f.launched x).infl = f.infl.map (·.beside x) ++ [x] := rfl

theorem seq_beside (r x : Result) : (r.beside x).seq = r.seq := ite_ind (fun q : Result => q.seq = r.seq) rfl rfl

/-- A result that goes elsewhere than to register space holds for no mirror (R29). -/
theorem mirrorHold_result {s w : State} {f : Frame} {x : Result} (old : f.infl = s.fr.infl) (elsewhere : x.granule = none)
    (new : w.fr.infl = (f.launched x).infl) : mirrorHold s w = false := by
  refine mirrorHold_new fun r hr => ?_
  rw [new, infl_launched, old, List.mem_append, List.mem_map, List.mem_singleton] at hr
  exact hr.imp (fun ⟨q, hq, (e : q.beside x = r)⟩ => ⟨q, hq, e ▸ (seq_beside q x).symm⟩) fun (e : r = x) => e ▸ elsewhere

/-! ### Calls, returns and the end of a task -/

/-- With the floor at the depth a transfer closes no level. -/
theorem leaveLevels_of_floor {f : Frame} (h : f.ctl.depth ≤ f.ctl.floor) (t : Word) : f.leaveLevels t = f := by
  refine leaveLevels_none (List.find?_eq_none.mpr fun v _ on => ?_)
  obtain ⟨above, below⟩ := Bool.and_eq_true_iff.mp (Bool.and_eq_true_iff.mp on).1
  exact Nat.not_lt.mpr (h.trans (of_decide_eq_true above)) (of_decide_eq_true below)

theorem setWidth_word (x : Word) : (x.setWidth 4096).setWidth 64 = x := by simp

theorem jumped_of_floor {f : Frame} (h : f.ctl.depth ≤ f.ctl.floor) (t : Word) (code : List (Nat × Bundle)) : f.jumped t code = f.sent t code :=
  congrArg (fun g => (f.withLevels g).sent t code) (leaveLevels_of_floor h t)

/-- The link of a call: the next bundle's address with the floor (R152). -/
noncomputable def Frame.link (f : Frame) : Word := (f.ctl.pc + 16) ||| BitVec.ofNat 64 f.ctl.floor

/-- The state of a call before its transfer (R152). -/
noncomputable def State.called (s w : State) (slot : Fin 4) (l : BitVec 6) : State :=
  (w.result slot 1 (.s l.toNat) (firstBytes 8) (s.fr.link.setWidth 4096) none).updCtl fun x => { x with floor := x.depth }

theorem opCall_sem (s w : State) (c : SlotCtx) (t : BitVec 3) (l : BitVec 6) :
    (opCall t l).sem c s w = (useTarget s t >>= fun e => .ok ((s.called w c.slot l).transfer e.addr e.code)) := rfl

section
variable {s : State} {p t : BitVec 3} {l : BitVec 6} {e : Target} (he : s.fr.ctl.tg.get ⟨t.toNat, t.isLt⟩ = e)
include he

theorem call_goes (h : e.valid = true) (there : e.outRange = true ∨ e.filled = true) (ready : SlotReady (.call p t l) s) :
    ∃ u, exec (.call p t l) s = .next u ∧ u.fr.ctl.pc = e.addr ∧ u.fr.ctl.floor = s.fr.ctl.depth ∧ u.fr.ctl.depth = s.fr.ctl.depth
      ∧ u.fr.ctl.lv = s.fr.ctl.lv ∧ u.fr.r.lat = {} ∧ u.mem = s.mem
      ∧ ∃ r ∈ u.fr.infl, r.dest = .s l.toNat ∧ r.due = s.cyc s.cur ∧ r.data.setWidth 64 = s.fr.link := by
  let r : Result := { seq := seqOf (s.cyc s.cur) s.ctx.slot, due := s.cyc s.cur, dest := .s l.toNat, ben := firstBytes 8,
                      data := s.fr.link.setWidth 4096 }
  have called : (s.called s.settled s.ctx.slot l).fr = (s.fr.settled.launched r).floored s.fr.ctl.depth := by
    refine (fr_updCtl ..).trans (congrArg (fun f : Frame => f.floored f.ctl.depth) ?_)
    exact (fr_result ..).trans (congrArg (Frame.launched · r) (fr_settled s))
  have fr : ((s.called s.settled s.ctx.slot l).transfer e.addr e.code).fr =
      ((s.fr.settled.launched r).floored s.fr.ctl.depth).sent e.addr e.code :=
    (fr_transfer ..).trans ((congrArg (Frame.jumped · e.addr e.code) called).trans (jumped_of_floor (Nat.le_refl _) ..))
  refine exec_leads (w := (s.called s.settled s.ctx.slot l).transfer e.addr e.code) rfl ready
    (by rw [opCall_sem, useTarget_ok he h there, ok_bind]) rfl (mirrorHold_result (x := r) (f := s.fr.settled) rfl rfl (congrArg (·.infl) fr))
    (congrArg Frame.turned fr) rfl (fun _ => rfl) (fun _ => rfl) fun {u _} leads => ?_
  have flies : { r with lat := none } ∈ u.fr.infl := (leads.part (·.infl)).symm ▸ List.mem_map_of_mem (f := fun r => { r with lat := none }) (mem_launched s.fr.settled r)
  exact ⟨leads.part (·.ctl.pc), leads.part (·.ctl.floor), leads.part (·.ctl.depth), leads.part (·.ctl.lv), leads.part (·.r.lat), leads.mem,
    _, flies, rfl, rfl, setWidth_word _⟩

end

/-- The level once closed (R161). -/
noncomputable def Level.closed (x : Level) : Level := { x with lcnt := 0, isOpen := false }

theorem closeLevel_lv (f : Frame) (v : Fin 6) :
    (f.closeLevel v).ctl.lv = f.ctl.lv.set v.val (f.ctl.lv.get v).closed v.isLt ∧ (f.closeLevel v).ctl.depth = v.val := by
  unfold Frame.closeLevel; dsimp only; split <;> exact ⟨rfl, rfl⟩

theorem closeLevel_get (f : Frame) (v i : Fin 6) :
    (f.closeLevel v).ctl.lv.get i = if v = i then (f.ctl.lv.get v).closed else f.ctl.lv.get i :=
  (congrArg (Vector.get · i) (closeLevel_lv f v).1).trans (vector_get_set ..)

/-! Closing from a level up closes those below the first depth, and no other. -/

theorem closeDown_kept (f : Frame) {lo n : Nat} {i : Fin 6} (out : i.val < lo ∨ n ≤ i.val) : (f.closeDown lo n).ctl.lv.get i = f.ctl.lv.get i := by
  induction n generalizing f with
  | zero => rfl
  | succ n ih =>
    have lower : i.val < lo ∨ n ≤ i.val := out.imp_right Nat.le_of_succ_le
    by_cases above : lo ≤ n
    · by_cases inner : n < 6
      · have other (e : (⟨n, inner⟩ : Fin 6) = i) : False :=
          out.elim (Nat.not_lt.mpr (Nat.le_trans above (Fin.val_eq_of_eq e).le)) fun h => Nat.lt_irrefl n (Nat.lt_of_lt_of_le h (Fin.val_eq_of_eq e).ge)
        exact closeDown_inner above inner ▸ (ih _ lower).trans ((closeLevel_get ..).trans (if_neg other))
      · exact closeDown_outer above inner ▸ ih f lower
    · exact closeDown_below above ▸ rfl

theorem closeDown_closes (f : Frame) {lo n : Nat} {i : Fin 6} (from_ : lo ≤ i.val) (below : i.val < n) :
    (f.closeDown lo n).ctl.lv.get i = (f.ctl.lv.get i).closed := by
  induction n generalizing f with
  | zero => exact absurd below (Nat.not_lt_zero _)
  | succ n ih =>
    have above := Nat.le_trans from_ (Nat.le_of_lt_succ below)
    by_cases inner : n < 6
    · rw [closeDown_inner above inner]
      by_cases top : ⟨n, inner⟩ = i
      · exact (closeDown_kept _ (.inr (Fin.val_eq_of_eq top).le)).trans ((closeLevel_get ..).trans ((if_pos top).trans (top ▸ rfl)))
      · have lower := (Nat.lt_succ_iff_lt_or_eq.mp below).resolve_right fun e => top (Fin.ext e.symm)
        exact (ih _ lower).trans (congrArg Level.closed ((closeLevel_get ..).trans (if_neg top)))
    · exact closeDown_outer above inner ▸ ih f (Nat.lt_of_lt_of_le i.isLt (Nat.le_of_not_lt inner))

theorem closeDown_self (f : Frame) (n : Nat) : f.closeDown n n = f := by
  cases n with
  | zero => rfl
  | succ n => exact closeDown_below (Nat.not_succ_le_self n)

theorem closeDown_depth (f : Frame) {lo n : Nat} (less : lo < n) (inner : lo < 6) : (f.closeDown lo n).ctl.depth = lo := by
  induction n generalizing f with
  | zero => exact absurd less (Nat.not_lt_zero _)
  | succ n ih =>
    have above := Nat.le_of_lt_succ less
    by_cases inner' : n < 6
    · rw [closeDown_inner above inner']
      refine (Nat.lt_succ_iff_lt_or_eq.mp less).elim (ih _) fun e => ?_
      subst e
      exact (congrArg (·.ctl.depth) (closeDown_self ..)).trans (closeLevel_lv ..).2
    · exact closeDown_outer above inner' ▸ ih f (Nat.lt_of_lt_of_le inner (Nat.le_of_not_lt inner'))

theorem vector_getD_toList {α : Type} {n : Nat} (v : Vector α n) (i : Fin n) (d : α) : v.toList.getD i.val d = v.get i := by
  rw [List.getD_eq_getElem _ _ (by simp)]
  rfl

theorem holds_iff (x : Level) (t : Word) : x.holds t = true ↔ x.lstart.toNat ≤ t.toNat ∧ t.toNat ≤ x.lstop.toNat := by
  rw [Level.holds, Bool.and_eq_true, decide_eq_true_eq, decide_eq_true_eq]

/-- The levels `lv'`, `depth'` of them open, are `lv` with those closed that stand from `m` up to `depth`, of those above `floor` the first
that does not hold `t` (R151, R170). -/
noncomputable def Closes (t : Word) (floor depth : Nat) (lv : Vector Level 6) (depth' : Nat) (lv' : Vector Level 6) : Prop :=
  ∃ m, floor ≤ m ∧ m ≤ depth ∧ depth' = m
    ∧ (∀ i : Fin 6, floor ≤ i.val → i.val < m → (lv.get i).lstart.toNat ≤ t.toNat ∧ t.toNat ≤ (lv.get i).lstop.toNat)
    ∧ (∀ i : Fin 6, i.val = m → m < depth → ¬ ((lv.get i).lstart.toNat ≤ t.toNat ∧ t.toNat ≤ (lv.get i).lstop.toNat))
    ∧ (∀ i : Fin 6, i.val < m ∨ depth ≤ i.val → lv'.get i = lv.get i)
    ∧ (∀ i : Fin 6, m ≤ i.val → i.val < depth → (lv'.get i).isOpen = false ∧ (lv'.get i).lcnt = 0)

theorem leaves_iff (f : Frame) (t : Word) (i : Fin 6) : f.leaves t i.val = true ↔ (f.ctl.floor ≤ i.val ∧ i.val < f.ctl.depth)
    ∧ ¬ ((f.ctl.lv.get i).lstart.toNat ≤ t.toNat ∧ t.toNat ≤ (f.ctl.lv.get i).lstop.toNat) := by
  rw [Frame.leaves, vector_getD_toList f.ctl.lv i, Bool.and_eq_true, Bool.and_eq_true, decide_eq_true_eq, decide_eq_true_eq, Bool.not_eq_true',
    ← Bool.not_eq_true, holds_iff]

/-- A number that a search from zero passes over fails its test. -/
theorem find_range_before {P : Nat → Bool} {n v i : Nat} (found : (List.range n).find? P = some v) (h : i < v) : P i = false := by
  exact (Bool.not_eq_true' _).mp ((List.find?_range_eq_some.mp found).2.2 i h)

/-- Leaving closes from the first level above the floor whose body does not hold the target. -/
theorem leaveLevels_closes {f : Frame} (t : Word) (floor : f.ctl.floor ≤ f.ctl.depth) :
    Closes t f.ctl.floor f.ctl.depth f.ctl.lv (f.leaveLevels t).ctl.depth (f.leaveLevels t).ctl.lv := by
  have held {m : Nat} (below : m ≤ f.ctl.depth) (passed : ∀ i : Fin 6, i.val < m → ¬ f.leaves t i.val = true) (i : Fin 6)
      (above : f.ctl.floor ≤ i.val) (less : i.val < m) : (f.ctl.lv.get i).lstart.toNat ≤ t.toNat ∧ t.toNat ≤ (f.ctl.lv.get i).lstop.toNat :=
    not_not.mp fun out => passed i less ((leaves_iff f t i).mpr ⟨⟨above, Nat.lt_of_lt_of_le less below⟩, out⟩)
  rcases found : (List.range 6).find? (f.leaves t) with _ | v
  · rw [leaveLevels_none found]
    exact ⟨f.ctl.depth, floor, Nat.le_refl _, rfl, held (Nat.le_refl _) fun i _ => List.find?_eq_none.mp found i.val (List.mem_range.mpr i.isLt),
      fun _ _ h => absurd h (Nat.lt_irrefl _), fun _ _ => rfl, fun i h h' => absurd h (Nat.not_le.mpr h')⟩
  · rw [leaveLevels_some found]
    have inner : v < 6 := List.mem_range.mp (List.mem_of_find?_eq_some found)
    have first := (leaves_iff f t ⟨v, inner⟩).mp (List.find?_some found)
    have below := first.1.2
    exact ⟨v, first.1.1, below.le, closeDown_depth f below inner,
      held below.le fun i less => Bool.eq_false_iff.mp (find_range_before found less),
      fun i hi _ => (Fin.ext hi : i = ⟨v, inner⟩) ▸ first.2, fun i hi => closeDown_kept f hi,
      fun i hi hd => closeDown_closes f hi hd ▸ ⟨rfl, rfl⟩⟩

theorem require_passes {β : Type} {b : Bool} (h : b = true) (c : Cause) (k : Unit → Except Stop β) : (require b c >>= k) = k () := by
  rw [h]; rfl

theorem require_refuses {β : Type} {b : Bool} (h : b = false) (c : Cause) (k : Unit → Except Stop β) : (require b c >>= k) = trapOf c := by
  rw [h]; rfl

theorem require_pass {β : Type} {p : Prop} [Decidable p] (h : p) (c : Cause) (k : Unit → Except Stop β) : (require (decide p) c >>= k) = k () :=
  require_passes (decide_eq_true h) ..

theorem require_fail {β : Type} {p : Prop} [Decidable p] (h : ¬ p) (c : Cause) (k : Unit → Except Stop β) :
    (require (decide p) c >>= k) = trapOf c := require_refuses (decide_eq_false h) ..

theorem low3_eq (v : Word) : bits v 0 3 = v.toNat % 8 := by simp [bits, field]

theorem clear_low4 (v : Word) : v &&& ~~~(0xF#64) = (v >>> 4) <<< 4 := by
  rw [BitVec.shiftLeft_ushiftRight]
  rfl

/-- The links that RET takes for an address (R153). -/
noncomputable def linkOk (v : Word) : Bool := canonical v && !bit v 3

theorem linkOk_iff (v : Word) : linkOk v = true ↔ canonical v = true ∧ v.getLsbD 3 = false := by
  unfold linkOk bit
  rw [Bool.and_eq_true, Bool.not_eq_true']

theorem getS_bind {β : Type} {s : State} {a : BitVec 6} (ha : Readable s a) (k : Word → Except Stop β) : (getS s a >>= k) = k (s.rdS a) :=
  congrArg (· >>= k) (getS_ok ha)

/-- The control state with another floor. -/
noncomputable def Ctl.floored (x : Ctl) (n : Nat) : Ctl := { x with floor := n }

/-- What RET makes of a state (R153). -/
noncomputable def State.returned (w : State) (v : Word) : State :=
  ((w.updCtl (·.floored (v.toNat % 8))).transfer ((v >>> 4) <<< 4) []).refetchAt (w.cyc w.cur + 7)

/-- RET's last check, of the floor that its link asks for (R153). -/
noncomputable def State.returnTo (s w : State) (v : Word) : Except Stop State := do
  let _ ← require (decide (v.toNat % 8 ≤ s.fr.ctl.depth)) Cause.loopNesting
  .ok (w.returned v)

/-- RET's checks and effect (R153). -/
noncomputable def State.return (s w : State) (v : Word) : Except Stop State := do
  let _ ← require (decide (s.fr.ctl.depth ≤ s.fr.ctl.floor)) Cause.loopNesting
  if linkOk v then s.returnTo w v else trapAt Cause.address v.toNat

theorem opRet_sem {s : State} {a : BitVec 6} (ha : Readable s a) (c : SlotCtx) (w : State) : (opRet a).sem c s w = s.return w (s.rdS a) := by
  refine (getS_bind ha _).trans ?_
  unfold State.return State.returnTo State.returned
  rw [← low3_eq, ← clear_low4]
  rfl

section
variable {s : State} {p : BitVec 3} {a : BitVec 6} (ha : Readable s a) (low : s.fr.ctl.depth ≤ s.fr.ctl.floor)
include ha low

theorem ret_address (bad : ¬ (canonical (s.rdS a) = true ∧ (s.rdS a).getLsbD 3 = false)) :
    TrapsWith s (.ret p a) { cause := Cause.address, evaddr := BitVec.ofNat 64 ((s.rdS a).toNat % 2 ^ 57) } :=
  trapsWith_of_error rfl fun _ => (opRet_sem ha ..).trans ((require_pass low ..).trans
    (if_neg (mt (linkOk_iff _).mp bad)))

variable (good : canonical (s.rdS a) = true ∧ (s.rdS a).getLsbD 3 = false)
include good

theorem opRet_sem_of_good (w : State) : (opRet a).sem s.ctx s w = s.returnTo w (s.rdS a) :=
  (opRet_sem ha ..).trans ((require_pass low ..).trans (if_pos ((linkOk_iff _).mpr good)))

theorem ret_nesting (deep : s.fr.ctl.depth < (s.rdS a).toNat % 8) : TrapsWith s (.ret p a) { cause := Cause.loopNesting } :=
  trapsWith_of_trapOf rfl ((opRet_sem_of_good ha low good _).trans (require_fail (Nat.not_le.mpr deep) ..))

omit ha low good in
theorem ret_goes {v : Word} (sem : (opRet a).sem s.ctx s s.settled = .ok (s.settled.returned v)) (within : v.toNat % 8 ≤ s.fr.ctl.depth)
    (ready : SlotReady (.ret p a) s) : ∃ u, exec (.ret p a) s = .next u ∧ u.fr.ctl.pc = (v >>> 4) <<< 4 ∧ u.fr.ctl.floor = v.toNat % 8
      ∧ u.fr.ctl.notBefore = s.cyc s.cur + 7 ∧ u.fr.ctl.refetch = true ∧ u.fr.r.lat = {} ∧ u.fr.r.s = s.fr.r.s ∧ u.mem = s.mem
      ∧ Closes ((v >>> 4) <<< 4) (v.toNat % 8) s.fr.ctl.depth s.fr.ctl.lv u.fr.ctl.depth u.fr.ctl.lv := by
  have floored : (s.settled.updCtl (·.floored (v.toNat % 8))).fr = s.fr.settled.floored (v.toNat % 8) :=
    (fr_updCtl ..).trans (congrArg (Frame.floored · (v.toNat % 8)) (fr_settled s))
  have returned := leads_refetchAt ((s.settled.updCtl (·.floored (v.toNat % 8))).transfer ((v >>> 4) <<< 4) []) (s.cyc s.cur + 7)
  have fr : (s.settled.returned v).fr = ((s.fr.settled.floored (v.toNat % 8)).jumped ((v >>> 4) <<< 4) []).refetching (s.cyc s.cur + 7) :=
    returned.fr.trans (congrArg (Frame.refetching · (s.cyc s.cur + 7))
      ((fr_transfer ..).trans (congrArg (Frame.jumped · ((v >>> 4) <<< 4) []) floored)))
  refine exec_leads (w := s.settled.returned v) rfl ready sem rfl (mirrorHold_same (congrArg (·.infl) fr))
    (congrArg Frame.turned fr) rfl (fun _ => rfl) (fun _ => rfl) fun leads => ?_
  have left := leaveLevels_closes (f := s.fr.settled.floored (v.toNat % 8)) ((v >>> 4) <<< 4) within
  exact ⟨leads.part (·.ctl.pc), leads.part (·.ctl.floor), leads.part (·.ctl.notBefore), leads.part (·.ctl.refetch), leads.part (·.r.lat),
    leads.part (·.r.s), leads.mem.trans returned.mem,
    (leads.part fun f => Closes ((v >>> 4) <<< 4) (v.toNat % 8) s.fr.ctl.depth s.fr.ctl.lv f.ctl.depth f.ctl.lv).mpr left⟩

end

/-- The frame that issues no more and pins no tile (R154, R218). -/
noncomputable def Frame.stopped (f : Frame) : Frame := { f with ctl := { f.ctl with halted := true }, mat := { f.mat with pins := [] } }

/-- The frame with the levels of `g`, at `pc`, and waiting for the level `w`. -/
noncomputable def Frame.steppedTo (f g : Frame) (pc : Word) (w : Option (Fin 6)) : Frame := (f.withLevels g).waitingAt pc w

/-- The frame with the levels, the next bundle and the level waited for that it has once turned. -/
noncomputable def Frame.stepped (f : Frame) : Frame := f.steppedTo f.turned f.turned.ctl.pc f.turned.ctl.loopWait

/-- Where no transfer is taken, a turn changes the levels, the next bundle and the level waited for. -/
theorem turned_steps {f : Frame} (untaken : f.ctl.taken = none) : f.turned = f.stepped := by
  have stepped : f.turned = f.steppedFrom f.ctl.pc := by unfold Frame.turned; rw [untaken]
  rw [Frame.stepped, stepped]
  exact congrArg (Frame.waitingAt · _ _) (leveled_backEdge f f.ctl.pc 6)

theorem halt_goes {s : State} {p : BitVec 3} (ready : SlotReady (.halt p) s) : ∃ u, exec (.halt p) s = .next u ∧ u.fr.ctl.halted = true
    ∧ u.fr.mat.pins = [] ∧ (∃ ev ∈ u.agenda, ev.row = .taskComplete ∧ ev.arg.tid = s.fr.id.task ∧ ev.arg.u = 0)
    ∧ u.fr.r.s = s.fr.r.s ∧ u.mem = s.mem := by
  let stopped : State := s.settled.updFr Frame.stopped
  have fr : stopped.fr = s.fr.settled.stopped := (fr_updFr ..).trans (congrArg Frame.stopped (fr_settled s))
  refine exec_leads (p := p) (w := stopped.post 0 .taskComplete { tid := stopped.fr.id.task, c := stopped.cur, k := stopped.here.run, u := 0 })
    rfl ready rfl rfl (mirrorHold_same (congrArg (·.infl) fr)) ((congrArg Frame.turned fr).trans (turned_steps rfl)) rfl (fun _ => rfl) (fun _ => rfl)
    fun leads => ?_
  exact ⟨leads.part (·.ctl.halted), leads.part (·.mat.pins),
    ⟨_, leads.agenda _ (List.mem_append_right _ (List.mem_singleton.mpr rfl)), rfl, congrArg (·.id.task) fr, rfl⟩, leads.part (·.r.s), leads.mem⟩

/-- Settles O9: CALL, RET and HALT by their meanings; the levels that RET closes are those that its transfer leaves. -/
theorem callsAndReturns : Obligations.CallsAndReturns := by
  intro s p t l a ha e v wellFormed
  refine ⟨call_goes rfl, fun h => ?_, fun h inRange unfilled => ?_, fun deep => ?_, ret_address ha, ret_nesting ha,
    fun low good within => ret_goes ((opRet_sem_of_good ha low good _).trans (require_pass within ..)) within, halt_goes⟩
  · exact trapsWith_of_trapOf rfl (by rw [opCall_sem, useTarget_invalid rfl h, trapOf_bind])
  · exact exec_of_hold rfl (by rw [opCall_sem, useTarget_unfilled rfl h inRange unfilled, error_bind])
  · exact trapsWith_of_trapOf rfl ((opRet_sem ha ..).trans (require_fail (Nat.not_le.mpr deep) ..))

/-! ### Lanes of a number -/

section
variable (w : Nat) (f : Nat → Nat)

theorem buildNat_succ (n : Nat) : buildNat w f (n + 1) = buildNat w f n + f n % 2 ^ w * 2 ^ (w * n) :=
  congrArg (buildNat w f n + ·) (Nat.shiftLeft_eq ..)

theorem buildNat_lt (n : Nat) : buildNat w f n < 2 ^ (w * n) := by
  induction n with
  | zero => exact Nat.one_pos
  | succ n ih =>
    rw [buildNat_succ, Nat.mul_succ, Nat.pow_add, Nat.mul_comm (f n % 2 ^ w)]
    refine Nat.lt_of_lt_of_le (Nat.add_lt_add_right ih _) ?_
    rw [Nat.add_comm, ← Nat.mul_succ]
    exact Nat.mul_le_mul_left _ (Nat.mod_lt _ (Nat.two_pow_pos w))

variable {n e : Nat}

/-- The low part of a number that is built of lanes is built of the first ones. -/
theorem buildNat_mod (h : e ≤ n) : buildNat w f n % 2 ^ (w * e) = buildNat w f e := by
  induction h with
  | refl => exact Nat.mod_eq_of_lt (buildNat_lt ..)
  | step h ih =>
    obtain ⟨k, hk⟩ := Nat.pow_dvd_pow 2 (Nat.mul_le_mul_left w h)
    rw [buildNat_succ, hk, Nat.mul_left_comm, Nat.add_mul_mod_self_left, ih]

/-- The lane of a number that is built of lanes. -/
theorem buildNat_lane (h : e < n) : buildNat w f n / 2 ^ (w * e) % 2 ^ w = f e % 2 ^ w := by
  have low := (congrArg (buildNat w f n % ·) (Nat.pow_add 2 (w * e) w).symm).trans (buildNat_mod w f h)
  refine (Nat.mod_mul_right_div_self ..).symm.trans ((congrArg (· / 2 ^ (w * e)) low).trans ?_)
  rw [buildNat_succ, Nat.add_mul_div_right _ _ (Nat.two_pow_pos _), Nat.div_eq_of_lt (buildNat_lt ..), Nat.zero_add]

end

/-- A bit of a number that is built of bits. -/
theorem testBit_buildNat (b : Nat → Bool) {n i : Nat} (h : i < n) : (buildNat 1 (fun i => if b i then 1 else 0) n).testBit i = b i := by
  have lane := buildNat_lane 1 (fun i => if b i then 1 else 0) h
  rw [Nat.one_mul] at lane
  refine Nat.testBit_eq_decide_div_mod_eq.trans ((congrArg (fun k => decide (k = 1)) lane).trans ?_)
  cases b i <;> rfl

/-- Whether P4 on are set, as the four bits that a level saves. -/
theorem savedp_bit (f : Frame) {b : Nat} (h : b < 4) : ((f.preds >>> 4).setWidth 4).getLsbD b = f.pval (4 + b) := by
  have inner : 4 + b < 8 := Nat.add_lt_add_left h 4
  rw [BitVec.getLsbD_setWidth, BitVec.getLsbD_ushiftRight, Frame.preds, BitVec.getLsbD_ofNat, testBit_buildNat _ inner, decide_eq_true h,
    decide_eq_true inner]
  rfl

/-- The level that LOOP and LOOPS open (R158). -/
noncomputable def Frame.opened (f : Frame) (h : f.ctl.depth < 6) (stop : Word) (n stages : Nat) (pipe : Bool) : Level :=
  { f.ctl.lv.get ⟨f.ctl.depth, h⟩ with
    lcnt := n + stages - 1, lidx := 0, lrotc := 0, lstart := f.ctl.pc + 16, lstop := stop, stages := stages
    pipe := pipe, nest := false, isOpen := true, filled := false, buf := [], savedp := if pipe then (f.preds >>> 4).setWidth 4 else 0 }

/-- The working state with `x` as its level `v`, which a fetch fills later (R158, R159). -/
noncomputable def State.openedAt (w : State) (v : Nat) (h : v < 6) (x : Level) (a : Word) : State :=
  let u := w.updCtl fun y => { y with lv := y.lv.set v x h, depth := v + 1 }
  u.postFree u.cur 3 .loopBufferFill (u.fr.fetchArg u.here.run v a)

/-- The frame whose next bundle is at `t`, with its latches kept. -/
noncomputable def Frame.skipped (f : Frame) (t : Word) : Frame := { f with ctl := { f.ctl with taken := some t, fetched := [] } }

/-- The working state with its loop skipped (R158). -/
noncomputable def State.skippedTo (w : State) (t : Word) : State :=
  (w.updFr (·.skipped t)).refetchAt (w.cyc w.cur + 7)

/-- The bundle at which a loop of an offset stops. -/
noncomputable def Frame.stopAt (f : Frame) (n : Int) : Word := f.ctl.pc + BitVec.ofInt 64 (16 * n)

/-- Whether a body that stops at `stop` outlasts the enclosing one (R158). -/
noncomputable def Frame.outlasts (f : Frame) (h : f.ctl.depth < 6) (stop : Word) : Bool :=
  decide (f.ctl.floor < f.ctl.depth) && decide ((f.ctl.lv.get ⟨f.ctl.depth - 1, Nat.sub_lt_of_lt h⟩).lstop.toNat < stop.toNat)

section
variable (s w : State) (c : BitVec 6) (stop : Word) (stages : Nat) (pipe : Bool)

/-- LOOP with `n` iterations: its last check and its effect (R158). -/
noncomputable def State.loopCounted (h : s.fr.ctl.depth < 6) (n : Int) : Except Stop State := do
  let _ ← require (decide (n < 2 ^ 47)) Cause.loopCount
  if n ≤ 0 then .ok (w.skippedTo (stop + 16)) else .ok (w.openedAt s.fr.ctl.depth h (s.fr.opened h stop n.toNat stages pipe) s.fr.ctl.pc)

/-- LOOP at a depth that takes a level more. -/
noncomputable def State.loopWithin (h : s.fr.ctl.depth < 6) : Except Stop State := do
  let _ ← require (!s.fr.outlasts h stop) Cause.loopNesting
  let x ← getS s c
  s.loopCounted w stop stages pipe h x.toInt

/-- LOOP's checks and effect (R158). -/
noncomputable def State.looped : Except Stop State := do
  let _ ← require (decide (stop.toNat < s.fr.id.codelim.toNat)) Cause.fetchLimit
  if h : s.fr.ctl.depth < 6 then s.loopWithin w c stop stages pipe h else trapOf Cause.loopNesting

end

section
variable {s : State} {c : BitVec 6} (hc : Readable s c) {i : Instr} {p : BitVec 3} {op : Op} {stop : Word} {stages : Nat} {pipe : Bool}
  (named : opOf i = some (p, 5, op)) (sem : op.sem s.ctx s s.settled = s.looped s.settled c stop stages pipe)
include named sem

theorem loop_fetchLimit (beyond : s.fr.id.codelim.toNat ≤ stop.toNat) : TrapsWith s i { cause := Cause.fetchLimit } :=
  trapsWith_of_trapOf named (sem.trans (require_fail (Nat.not_lt.mpr beyond) ..))

variable (inside : stop.toNat < s.fr.id.codelim.toNat)
include inside

theorem loop_tooDeep (deep : 6 ≤ s.fr.ctl.depth) : TrapsWith s i { cause := Cause.loopNesting } :=
  trapsWith_of_trapOf named (sem.trans ((require_pass inside ..).trans (dif_neg (Nat.not_lt.mpr deep))))

variable (h : s.fr.ctl.depth < 6)

omit named in
theorem loop_within : op.sem s.ctx s s.settled = s.loopWithin s.settled c stop stages pipe h :=
  sem.trans ((require_pass inside ..).trans (dif_pos h))

theorem loop_outlasts (above : s.fr.ctl.floor < s.fr.ctl.depth)
    (ends : (s.fr.ctl.lv.get ⟨s.fr.ctl.depth - 1, Nat.sub_lt_of_lt h⟩).lstop.toNat < stop.toNat) : TrapsWith s i { cause := Cause.loopNesting } := by
  have outlasts : s.fr.outlasts h stop = true := Bool.and_eq_true_iff.mpr ⟨decide_eq_true above, decide_eq_true ends⟩
  exact trapsWith_of_trapOf named ((loop_within sem inside h).trans (by unfold State.loopWithin; rw [outlasts]; rfl))

variable (fits : s.fr.ctl.floor < s.fr.ctl.depth → stop.toNat ≤ (s.fr.ctl.lv.get ⟨s.fr.ctl.depth - 1, Nat.sub_lt_of_lt h⟩).lstop.toNat)
include hc fits

omit named in
/-- What LOOP and LOOPS do once the body fits. -/
theorem loop_counted : op.sem s.ctx s s.settled = s.loopCounted s.settled stop stages pipe h (s.rdS c).toInt := by
  have fitting : s.fr.outlasts h stop = false := Bool.eq_false_iff.mpr fun on => by
    obtain ⟨above, ends⟩ := Bool.and_eq_true_iff.mp on
    exact Nat.not_lt.mpr (fits (of_decide_eq_true above)) (of_decide_eq_true ends)
  refine (loop_within sem inside h).trans ?_
  unfold State.loopWithin
  rw [fitting]
  exact getS_bind hc _

theorem loop_tooMany (many : 2 ^ 47 ≤ (s.rdS c).toInt) : TrapsWith s i { cause := Cause.loopCount } :=
  trapsWith_of_trapOf named ((loop_counted hc sem inside h fits).trans (require_fail (Int.not_lt.mpr many) ..))

theorem loop_skips (none : (s.rdS c).toInt ≤ 0) (ready : SlotReady i s) : ∃ u, exec i s = .next u ∧ u.fr.ctl.pc = stop + 16
    ∧ u.fr.ctl.lv = s.fr.ctl.lv ∧ u.fr.ctl.depth = s.fr.ctl.depth ∧ u.fr.r.lat = s.fr.r.lat ∧ u.mem = s.mem := by
  have skips := (loop_counted hc sem inside h fits).trans ((require_pass (Int.lt_of_le_of_lt none (by decide)) ..).trans (if_pos none))
  have skipped := leads_refetchAt (s.settled.updFr (·.skipped (stop + 16))) (s.cyc s.cur + 7)
  have fr : (s.settled.skippedTo (stop + 16)).fr = (s.fr.settled.skipped (stop + 16)).refetching (s.cyc s.cur + 7) :=
    skipped.fr.trans (congrArg (Frame.refetching · (s.cyc s.cur + 7)) ((fr_updFr ..).trans (congrArg (Frame.skipped · (stop + 16)) (fr_settled s))))
  refine exec_leads named ready skips rfl (mirrorHold_same (congrArg (·.infl) fr)) (congrArg Frame.turned fr) rfl (fun _ => rfl) (fun _ => rfl)
    fun leads => ?_
  exact ⟨leads.part (·.ctl.pc), leads.part (·.ctl.lv), leads.part (·.ctl.depth), leads.part (·.r.lat), leads.mem.trans skipped.mem⟩

theorem loop_opens (some_ : 0 < (s.rdS c).toInt) (few : (s.rdS c).toInt < 2 ^ 47) :
    CompletesAs s i ((s.settled.updCtl fun y => { y with
        lv := y.lv.set s.fr.ctl.depth (s.fr.opened h stop (s.rdS c).toInt.toNat stages pipe) h, depth := s.fr.ctl.depth + 1 }).postFree s.cur 3
      .loopBufferFill (s.fr.fetchArg s.here.run s.fr.ctl.depth s.fr.ctl.pc)) := by
  refine completesAs_of_ok named (fun _ => ?_) rfl
  refine (loop_counted hc sem inside h fits).trans ((require_pass few ..).trans ((if_neg (Int.not_le.mpr some_)).trans ?_))
  rw [← fetchArg_settled s fun y => { y with lv := y.lv.set s.fr.ctl.depth _ h, depth := s.fr.ctl.depth + 1 }]
  rfl

end

/-! ### Breaks -/

/-- The frame whose level has broken off, its next bundle at `t` (R166). -/
noncomputable def Frame.brokenTo (f : Frame) (t : Word) (w : Fin 6) : Frame :=
  { f with ctl := { f.ctl with taken := some t, clearLat := true, loopWait := some w, fetched := [] } }

/-- The level with its trip count cut to the iterations that it has started (R166). -/
noncomputable def Level.cutShort (y : Level) : Level :=
  { y with lcnt := min (y.lidx + 1) (y.lidx + y.lcnt + 1 - y.stages) + y.stages - 1 - y.lidx }

/-- The frame with its level `v` such as `y` is once cut short. -/
noncomputable def Frame.cutShort (f : Frame) (v : Fin 6) (y : Level) : Frame := { f with ctl := { f.ctl with lv := f.ctl.lv.set v.val y.cutShort v.isLt } }

section
variable {s : State} {p : BitVec 3}

theorem lbrk_nesting (low : s.fr.ctl.depth ≤ s.fr.ctl.floor) :
    TrapsWith s (.lbrk p) { cause := Cause.loopNesting } ∧ TrapsWith s (.lbrkD p) { cause := Cause.loopNesting } :=
  ⟨trapsWith_of_trapOf rfl (dif_neg fun h => Nat.not_lt.mpr low h.1), trapsWith_of_trapOf rfl (dif_neg fun h => Nat.not_lt.mpr low h.1)⟩

variable (le : s.fr.ctl.depth ≤ 6) (inner : s.fr.ctl.floor < s.fr.ctl.depth)
include inner

theorem lbrk_goes (ready : SlotReady (.lbrk p) s) :
    let v : Fin 6 := ⟨s.fr.ctl.depth - 1, Nat.sub_one_lt_of_le (Nat.zero_lt_of_lt inner) le⟩
    let r := (s.settled.fr.closeLevel v).backEdge (s.fr.ctl.lv.get v).lstop 6
    ∃ u, exec (.lbrk p) s = .next u ∧ u.fr.ctl.pc = r.2.1 ∧ u.fr.ctl.lv = r.1.ctl.lv ∧ u.fr.ctl.depth = r.1.ctl.depth ∧ u.fr.r.lat = {}
      ∧ u.fr.r.s = s.fr.r.s ∧ u.fr.r.mstack = s.fr.r.mstack ∧ u.mem = s.mem := by
  intro v r
  have leveled : r.1 = s.fr.settled.withLevels r.1 :=
    Eq.trans ((leveled_closeLevel s.settled.fr v).trans (leveled_backEdge ..)) (congrArg (Frame.withLevels · r.1) (fr_settled s))
  let broken (f : Frame) : Frame :=
    let r := (f.closeLevel v).backEdge (s.fr.ctl.lv.get v).lstop 6
    r.1.brokenTo r.2.1 (r.2.2.getD v)
  have fr : (s.settled.updFr broken).fr = (s.fr.settled.withLevels r.1).brokenTo r.2.1 (r.2.2.getD v) :=
    (fr_updFr ..).trans (congrArg (Frame.brokenTo · r.2.1 (r.2.2.getD v)) leveled)
  have sem : opLbrk.sem s.ctx s s.settled = .ok (s.settled.updFr broken) :=
    dif_pos (⟨inner, le⟩ : s.fr.ctl.floor < s.fr.ctl.depth ∧ s.fr.ctl.depth ≤ 6)
  clear_value broken r
  refine exec_leads (p := p) (w := s.settled.updFr broken) rfl ready sem rfl
    (mirrorHold_same (congrArg (·.infl) fr)) (congrArg Frame.turned fr) rfl (fun _ => rfl) (fun _ => rfl) fun leads => ?_
  exact ⟨leads.part (·.ctl.pc), leads.part (·.ctl.lv), leads.part (·.ctl.depth), leads.part (·.r.lat), leads.part (·.r.s),
    leads.part (·.r.mstack), leads.mem⟩

theorem lbrkD_ends : CompletesAs s (.lbrkD p) (s.settled.updFr fun f =>
    f.cutShort ⟨s.fr.ctl.depth - 1, Nat.sub_one_lt_of_le (Nat.zero_lt_of_lt inner) le⟩ (s.fr.ctl.lv.get ⟨s.fr.ctl.depth - 1, Nat.sub_one_lt_of_le (Nat.zero_lt_of_lt inner) le⟩)) := by
  refine completesAs_of_ok rfl (fun _ => ?_) rfl
  refine (dif_pos (⟨inner, le⟩ : s.fr.ctl.floor < s.fr.ctl.depth ∧ s.fr.ctl.depth ≤ 6)).trans (congrArg Except.ok (updFr_congr ?_))
  exact congrArg (s.settled.fr.cutShort ⟨s.fr.ctl.depth - 1, Nat.sub_one_lt_of_le (Nat.zero_lt_of_lt inner) le⟩) (congrArg (·.ctl.lv.get ⟨s.fr.ctl.depth - 1, Nat.sub_one_lt_of_le (Nat.zero_lt_of_lt inner) le⟩) (fr_settled s))

end

/-- Settles O10: LOOP and LOOPS are `loopOp` of their offsets. -/
theorem loopsOpenAndBreak : Obligations.LoopsOpenAndBreak := by
  refine ⟨fun s p c o g o' hc => ?_, fun s p => ⟨lbrk_nesting, fun h h' => ⟨lbrk_goes h h', lbrkD_ends h h'⟩⟩⟩
  intro x count v acts
  have opens {i : Instr} {legal : SlotCtx → Bool} {off : SlotCtx → Int} {stages : Nat} {pipe : Bool}
      (named : opOf i = some (p, 5, loopOp legal c off stages pipe)) : acts i (off s.ctx) stages pipe := by
    have sem : (loopOp legal c off stages pipe).sem s.ctx s s.settled = s.looped s.settled c (s.fr.stopAt (off s.ctx)) stages pipe := rfl
    refine ⟨loop_fetchLimit named sem, loop_tooDeep named sem, fun h inside =>
      ⟨loop_outlasts named sem inside h, fun fits => ⟨loop_tooMany hc named sem inside h fits, loop_skips hc named sem inside h fits,
        fun some_ few => ⟨s.fr.opened h _ count.toNat stages pipe, rfl, rfl, rfl, rfl, rfl, rfl, rfl, rfl, rfl, fun b hb => ?_,
          loop_opens hc named sem inside h fits some_ few⟩⟩⟩⟩
    cases pipe
    · exact BitVec.getLsbD_zero
    · exact savedp_bit s.fr hb
  exact ⟨opens (i := .loop p c o) (off := fun x => immL x o) rfl, opens (i := .loops p c g o') (off := fun x => match x.hx with
    | some h => ((h * 1024 + o'.toNat : Nat) : Int)
    | none => (o'.toNat : Int)) rfl⟩

end Sys2Proof.Machine
end

section
/-! Vector operands: what a source reads and where a result goes (O27). -/

namespace Sys2Proof.Machine
open Sys2Proof

theorem getElem_ok {s : State} {v : Fin 8} {i : Nat} {e : Elem} (h : s.fr.elem v i = .ok e) (zeroed : s.lentZeroing e = false) :
    getElem s v i = .ok e := by simp [getElem, h, zeroed]

theorem getElem_error {s : State} {v : Fin 8} {i : Nat} {q : Cause} (h : s.fr.elem v i = .error q) : getElem s v i = trapOf q := by
  simp [getElem, h]

/-! ### Streams -/

theorem fr_updStream (w : State) (n : Fin 16) (f : Stream → Stream) :
    (w.updStream n f).fr = { w.fr with r := { w.fr.r with streams := w.fr.r.streams.set n.val (f (w.fr.stream n)) n.isLt } } := fr_updRegs ..

@[simp] theorem stream_updStream (w : State) (n : Fin 16) (f : Stream → Stream) : (w.updStream n f).fr.stream n = f (w.fr.stream n) := by
  rw [fr_updStream, Frame.stream, vector_get_set, if_pos rfl]

@[simp] theorem stream_result (w : State) (slot : Fin 4) (lat : Nat) (dest : Dest) (ben : Mask) (data : Vec) (u : Option (Fin 3)) (by_ : Nat)
    (n : Fin 16) : (w.result slot lat dest ben data u by_).fr.stream n = w.fr.stream n := by
  rw [fr_result]; rfl

/-- A result enters flight with its destination. -/
theorem result_infl (w : State) (slot : Fin 4) (lat : Nat) (dest : Dest) (ben : Mask) (data : Vec) (u : Option (Fin 3)) (by_ : Nat) :
    ∃ q ∈ (w.result slot lat dest ben data u by_).fr.infl, q.dest = dest := by
  rw [fr_result]
  exact ⟨_, List.mem_append_right _ (List.mem_singleton.mpr rfl), rfl⟩

theorem popStream_exhausted {w : State} {n : Fin 16} (empty : (w.fr.stream n).queue = []) (out : (w.fr.stream n).left = 0) :
    popStream w n = trapOf Cause.streamUse := by simp [popStream, empty, out]

theorem popStream_head {w : State} {n : Fin 16} {e : StreamElem} {es : List StreamElem} (head : (w.fr.stream n).queue = e :: es)
    (sound : e.fault = none) (whole : e.tag = 0) (there : e.ready ≤ w.cyc w.cur) :
    popStream w n = .ok (e.data, w.updStream n fun q => { q with queue := es }) := by
  simp [popStream, head, sound, whole, Nat.not_lt.mpr there]

theorem find_seen_none {seen : Seen} {n : Fin 16} (h : ∀ x ∈ seen, x.1 ≠ n) : seen.find? (fun x => x.1 == n) = none := by
  rw [List.find?_eq_none]
  intro x hx
  rw [beq_iff_eq]
  exact h x hx

section
variable (c : SlotCtx) (s w : State) (b : Nat) (isF : Bool) (seen : Seen) (lat : Nat) (ben : Mask) (data : Vec) (u : Option (Fin 3))

/-! ### Views -/

theorem readV_view {v : Fin 8} {i : Nat} {e : Elem} (h : getElem s v i = .ok e) (vector : e.shape = 0)
    (sound : s.poisoned (s.elemPa e) 512 = false) :
    readV c s (.view v i) b isF (seen, w) = .ok (BitVec.ofNat 4096 (Memory.read s.mem (s.elemPa e) 512), seen, w) := by
  simp [readV, h, vector, sound, State.homeRead]

theorem readV_tile {v : Fin 8} {i : Nat} {e : Elem} (h : getElem s v i = .ok e) (tile : e.shape ≠ 0) :
    readV c s (.view v i) b isF (seen, w) = trapOf Cause.illegalInstruction := by simp [readV, h, beq_false_of_ne tile]

theorem readV_unresolved {v : Fin 8} {i : Nat} {q : Cause} (h : getElem s v i = trapOf q) :
    readV c s (.view v i) b isF (seen, w) = trapOf q := by simp [readV, h]

theorem writeV_view {v : Fin 8} {i : Nat} {e : Elem} (h : getElem s v i = .ok e) (vector : e.shape = 0) :
    writeV c s (some (.view v i)) seen lat ben data u w = .ok (w.result c.slot lat e.dest ben data u) := by simp [writeV, h, vector]

theorem writeV_tile {v : Fin 8} {i : Nat} {e : Elem} (h : getElem s v i = .ok e) (tile : e.shape ≠ 0) :
    writeV c s (some (.view v i)) seen lat ben data u w = trapOf Cause.illegalInstruction := by simp [writeV, h, beq_false_of_ne tile]

theorem writeV_unresolved {v : Fin 8} {i : Nat} {q : Cause} (h : getElem s v i = trapOf q) :
    writeV c s (some (.view v i)) seen lat ben data u w = trapOf q := by simp [writeV, h]

/-! ### Operand-file entries -/

variable {k : Fin 16}

theorem readV_entry (plain : (s.fr.stream k).mode = 0) (sound : ∀ q ∈ s.fr.r.oPoison, q.1 ≠ k.val) :
    readV c s (.ofe k) b isF (seen, w) = .ok (s.fr.r.ofe.get k, seen, w) := by
  have none : s.fr.r.oPoison.find? (·.1 == k.val) = none := by
    rw [List.find?_eq_none]
    intro q hq
    rw [beq_iff_eq]
    exact sound q hq
  simp [readV, plain, none]

theorem writeV_entry (plain : (s.fr.stream k).mode = 0) :
    writeV c s (some (.ofe k)) seen lat ben data u w = .ok (w.result c.slot lat (.ofe k.val) ben data u) := by simp [writeV, plain]

section
variable (reads : (s.fr.stream k).mode = 1)
include reads

theorem readV_exhausted (fresh : ∀ x ∈ seen, x.1 ≠ k) (empty : (w.fr.stream k).queue = []) (out : (w.fr.stream k).left = 0) :
    readV c s (.ofe k) b isF (seen, w) = trapOf Cause.streamUse := by
  simp only [readV, reads, find_seen_none fresh, popStream_exhausted empty out]
  rfl

theorem readV_head (fresh : ∀ x ∈ seen, x.1 ≠ k) {e : StreamElem} {es : List StreamElem} (head : (w.fr.stream k).queue = e :: es)
    (sound : e.fault = none) (whole : e.tag = 0) (there : e.ready ≤ w.cyc w.cur) :
    readV c s (.ofe k) b isF (seen, w) = .ok (e.data, (k, e.data) :: seen, w.updStream k fun q => { q with queue := es }) := by
  simp only [readV, reads, find_seen_none fresh, popStream_head head sound whole there]

theorem readV_seen {x : Fin 16 × Vec} (taken : seen.find? (fun x => x.1 == k) = some x) :
    readV c s (.ofe k) b isF (seen, w) = .ok (x.2, seen, w) := by simp only [readV, reads, taken]

theorem writeV_unread (fresh : ∀ x ∈ seen, x.1 ≠ k) : writeV c s (some (.ofe k)) seen lat ben data u w = trapOf Cause.streamUse := by
  simp [writeV, reads, newHead, find_seen_none fresh]

/-- The result of an instruction that has consumed the head becomes the new one. -/
theorem writeV_head {x : Fin 16 × Vec} (taken : seen.find? (fun x => x.1 == k) = some x) : ∃ t,
    writeV c s (some (.ofe k)) seen lat ben data u w = .ok t ∧ (t.fr.stream k).left = (w.fr.stream k).left
      ∧ ∃ e, (t.fr.stream k).queue = e :: (w.fr.stream k).queue ∧ e.data = x.2 ∧ ∃ q ∈ t.fr.infl, q.dest = .ofHead k.val e.tag := by
  let tag := seqOf (w.cyc w.cur) c.slot + 1
  let back : State := w.updStream k fun q => { q with queue := { data := x.2, tag := tag } :: q.queue }
  refine ⟨back.result c.slot lat (.ofHead k.val tag) ben data u, ?_, ?_, { data := x.2, tag := tag }, ?_, rfl, result_infl ..⟩
  · simp only [writeV, reads, newHead, taken, ok_bind]
    rfl
  all_goals rw [stream_result, stream_updStream]

end

section
variable (writes : 2 ≤ (s.fr.stream k).mode)
include writes

/-- The mode of a write stream is neither a plain entry's nor a read stream's. -/
theorem writes_succ : ∃ m, (s.fr.stream k).mode = m + 2 := ⟨(s.fr.stream k).mode - 2, by omega⟩

theorem readV_writeStream : readV c s (.ofe k) b isF (seen, w) = trapOf Cause.streamUse := by
  obtain ⟨m, hm⟩ := writes_succ s writes
  simp [readV, hm]

theorem writeV_full (out : (w.fr.stream k).left = 0) : writeV c s (some (.ofe k)) seen lat ben data u w = trapOf Cause.streamUse := by
  obtain ⟨m, hm⟩ := writes_succ s writes
  simp [writeV, hm, out]

theorem writeV_push (more : 0 < (w.fr.stream k).left) (room : (w.fr.stream k).queue.length < (w.fr.stream k).depth)
    (goes : (w.fr.stream k).stopped = false) : ∃ t, writeV c s (some (.ofe k)) seen lat ben data u w = .ok t
      ∧ (t.fr.stream k).left = (w.fr.stream k).left - 1 ∧ (t.fr.stream k).queue.length = (w.fr.stream k).queue.length + 1 := by
  obtain ⟨m, hm⟩ := writes_succ s writes
  let tag := seqOf (w.cyc w.cur) c.slot + 1
  let pushed : State := w.updStream k fun q =>
    { q with queue := q.queue ++ [{ tag := tag, root := s.fr.sys.ptroot, asid := s.fr.sys.asid }], left := q.left - 1 }
  let out : State := pushed.result c.slot lat (.ofHead k.val tag) ben data u
  refine ⟨out.postFree out.cur (lat + 1) .streamDrainWrite { k := out.here.run, u := k.val, id := (w.fr.stream k).gen, tid := out.fr.id.task },
    ?_, ?_, ?_⟩
  · simp only [writeV, hm, Nat.pos_iff_ne_zero.mp more, goes, Nat.not_le.mpr room, if_false, or_self, Bool.false_eq_true]
    rfl
  all_goals rw [(leads_postFree ..).fr, stream_result, stream_updStream]
  rw [List.length_append, List.length_singleton]

end

/-! ### Special sources and destinations -/

theorem readV_bs (i : Fin 4) : readV c s (.special i.val) b isF (seen, w) = .ok (broadcast b (s.fr.r.lat.bs.get i).toNat, seen, w) := by
  simp [readV]

theorem readV_bv (i : Fin 8) : readV c s (.special (4 + i.val)) b isF (seen, w) = .ok (s.fr.r.lat.bv.get i, seen, w) := by
  have inner : 4 + i.val < 12 := by omega
  simp [readV, inner]

end

/-- Settles O27: a lemma of `readV` or `writeV` per form. -/
theorem vectorOperandForms : Obligations.VectorOperandForms := by
  intro c s w b isF seen lat ben data u trap
  refine ⟨fun v i e he zeroed => ?_, fun v i q he => ?_, fun k => ⟨readV_entry c s w b isF seen, writeV_entry c s w seen lat ben data u,
    fun reads fresh => ⟨readV_exhausted c s w b isF seen reads fresh, fun e es => readV_head c s w b isF seen reads fresh⟩,
    fun reads x => readV_seen c s w b isF seen reads, fun reads x => writeV_head c s w seen lat ben data u reads,
    readV_writeStream c s w b isF seen, writeV_unread c s w seen lat ben data u, writeV_full c s w seen lat ben data u,
    writeV_push c s w seen lat ben data u⟩, readV_bs c s w b isF seen, readV_bv c s w b isF seen, fun sound => ?_, rfl, rfl, rfl, rfl⟩
  · have there := getElem_ok he zeroed
    exact ⟨fun tile => ⟨readV_tile c s w b isF seen there tile, writeV_tile c s w seen lat ben data u there tile⟩, fun vector =>
      ⟨readV_view c s w b isF seen there vector, writeV_view c s w seen lat ben data u there vector⟩⟩
  · exact ⟨readV_unresolved c s w b isF seen (getElem_error he), writeV_unresolved c s w seen lat ben data u (getElem_error he)⟩
  · simp [readV, sound]

end Sys2Proof.Machine
end

section
/-! The control registers: what CSRR reads and CSRW writes (O39). -/

namespace Sys2Proof.Machine
open Sys2Proof

/-! ### Reads -/

section
variable (s : State)

/-- A number from `lo` on stands in no range that ends by then. -/
theorem not_within {a lo hi n : Nat} (from_ : lo ≤ n) (ends : hi ≤ lo) : ¬ (a ≤ n ∧ n < hi) :=
  fun h => Nat.not_lt.mpr (Nat.le_trans ends from_) h.2

theorem csrRead_mirtab (i : Fin 8) : s.csrRead s.cur s.here.run (0x10 + i.val) = s.fr.sys.mirtab.get i :=
  i.cases rfl fun i => i.cases rfl fun i => i.cases rfl fun i => i.cases rfl fun i => i.cases rfl fun i => i.cases rfl fun i => i.cases rfl fun i =>
    i.cases rfl fun i => i.elim0

theorem csrRead_own (i : Fin 8) : s.csrRead s.cur s.here.run (0x110 + i.val) = s.fr.sys.own.get i :=
  i.cases rfl fun i => i.cases rfl fun i => i.cases rfl fun i => i.cases rfl fun i => i.cases rfl fun i => i.cases rfl fun i => i.cases rfl fun i =>
    i.cases rfl fun i => i.elim0

/-- The registers of a level that every core has. -/
noncomputable def State.ReadsLevel (v : Fin 6) : Prop :=
  let rd (k : Nat) : Word := s.csrRead s.cur s.here.run (k + 16 * v.val)
  let x := s.fr.ctl.lv.get v
  rd 0x300 = BitVec.ofNat 64 x.lcnt ∧ rd 0x301 = BitVec.ofNat 64 x.lidx ∧ rd 0x302 = low57 x.lstart ∧ rd 0x303 = low57 x.lstop

theorem readsLevel (v : Fin 6) : s.ReadsLevel v :=
  v.cases ⟨rfl, rfl, rfl, rfl⟩ fun v => v.cases ⟨rfl, rfl, rfl, rfl⟩ fun v => v.cases ⟨rfl, rfl, rfl, rfl⟩ fun v => v.cases ⟨rfl, rfl, rfl, rfl⟩ fun v =>
    v.cases ⟨rfl, rfl, rfl, rfl⟩ fun v => v.cases ⟨rfl, rfl, rfl, rfl⟩ fun v => v.elim0

theorem csrRead_beyond {k : Nat} (hk : 0x805 ≤ k) : s.csrRead s.cur s.here.run k = 0 :=
  (if_neg (Nat.not_lt.mpr (Nat.le_trans (by decide) hk))).trans ((dif_neg (not_within hk (by decide))).trans
    ((if_neg (Nat.ne_of_gt (Nat.lt_of_lt_of_le (by decide) hk))).trans ((dif_neg (not_within hk (by decide))).trans
      ((if_neg (not_within hk (by decide))).trans ((dif_neg (not_within hk (by decide))).trans
        ((if_neg (Nat.ne_of_gt (Nat.lt_of_lt_of_le (by decide) hk))).trans ((if_neg (not_within hk (by decide))).trans
          ((dif_neg (not_within hk (by decide))).trans ((dif_neg (not_within hk (by decide))).trans
            ((dif_neg (not_within hk (by decide))).trans ((if_neg (Nat.ne_of_gt (Nat.lt_of_lt_of_le (by decide) hk))).trans
              (if_neg (not_within hk (by decide))))))))))))))

end

/-! ### Images -/

/-- An image is good when only bits of the field are set. -/
theorem imageOk_iff (x : Word) (lo n : Nat) :
    imageOk x lo n = true ↔ ∀ b, b < 64 → ¬ (lo ≤ b ∧ b < lo + n) → x.getLsbD b = false := by
  have kept {i : Nat} (hi : i < 64) (inside : lo ≤ i ∧ i < lo + n) : (wd (bits x lo n * 2 ^ lo)).getLsbD i = x.getLsbD i := by
    rw [wd, BitVec.getLsbD_ofNat, bits, field, Nat.testBit_mul_two_pow, Nat.testBit_mod_two_pow, Nat.testBit_shiftRight,
      Nat.add_sub_cancel' inside.1, BitVec.testBit_toNat, decide_eq_true hi, decide_eq_true inside.1,
      decide_eq_true (Nat.sub_lt_left_of_lt_add inside.1 inside.2)]
    rfl
  have cleared {i : Nat} (out : ¬ (lo ≤ i ∧ i < lo + n)) : (wd (bits x lo n * 2 ^ lo)).getLsbD i = false := by
    rw [wd, BitVec.getLsbD_ofNat, bits, field, Nat.testBit_mul_two_pow, Nat.testBit_mod_two_pow]
    by_cases from_ : lo ≤ i
    · rw [decide_eq_false fun less => out ⟨from_, (Nat.sub_lt_iff_lt_add' from_).mp less⟩, Bool.false_and, Bool.and_false, Bool.and_false]
    · rw [decide_eq_false from_, Bool.false_and, Bool.and_false]
  refine beq_iff_eq.trans ⟨fun e b _ out => e ▸ cleared out, fun zero => BitVec.eq_of_getLsbD_eq fun i hi => ?_⟩
  by_cases inside : lo ≤ i ∧ i < lo + n
  · exact kept hi inside
  · exact (cleared inside).trans (zero i hi inside).symm

/-! ### Writes -/

theorem classedTouch_settled (s : State) (c : CoreId) (l : List Nat) : s.settled.classedTouch c l = s.classedTouch c l := by
  have same : (s.settled.core c).atomics = (s.core c).atomics :=
    congrArg (allSlots.flatMap ·) (funext fun k => frameAt_updFrameAt_part (·.atoms) (s := s) rfl c k)
  unfold State.classedTouch
  rw [same]
  rfl

section
variable {s : State} {p : BitVec 3} {h a l : BitVec 6} (ha : Readable s a)
include ha

theorem opCsrw_plain (plain : csrBits (h.toNat * 64 + l.toNat) = none) (c : SlotCtx) (w : State) : (opCsrw h a l).sem c s w = .ok w := by
  refine (getS_bind ha _).trans ?_
  rw [plain]

theorem opCsrw_sem {lo n : Nat} (takes : csrBits (h.toNat * 64 + l.toNat) = some (lo, n)) (other : h.toNat * 64 + l.toNat ≠ 0x100) (c : SlotCtx)
    (w : State) : (opCsrw h a l).sem c s w = (do
      let _ ← require (imageOk (s.rdS a) lo n) Cause.illegalInstruction
      .ok (w.updCtl fun y => { y with csrw := some (h.toNat * 64 + l.toNat, s.rdS a) })) := by
  refine (getS_bind ha _).trans ?_
  rw [takes, if_neg other]

/-- The frame that writes a control register as its bundle turns. -/
noncomputable def Frame.csrAsked (f : Frame) (n : Nat) (x : Word) : Frame := { f with ctl := { f.ctl with csrw := some (n, x) } }

/-- The frame with its trap state and its system registers changed. -/
noncomputable def Frame.trapsAndSystem (f : Frame) (tr : TrapState → TrapState) (sys : SysRegs → SysRegs) : Frame :=
  { f with tr := tr f.tr, sys := sys f.sys }

omit ha in
theorem csrw_goes {n : Nat} {x : Word} {tr : TrapState → TrapState} {sys : SysRegs → SysRegs}
    (sem : (opCsrw h a l).sem s.ctx s s.settled = .ok (s.settled.updCtl fun y => { y with csrw := some (n, x) }))
    (put : ∀ f : Frame, f.csrPut n x = f.trapsAndSystem tr sys) (ready : SlotReady (.csrw p h a l) s) :
    ∃ t, exec (.csrw p h a l) s = .next t ∧ t.mem = s.mem ∧ t.fr.r.s = s.fr.r.s ∧ t.fr.sys = sys s.fr.sys ∧ t.fr.tr = tr s.fr.tr := by
  have fr : (s.settled.updCtl fun y => { y with csrw := some (n, x) }).fr = s.fr.settled.csrAsked n x :=
    (fr_updCtl ..).trans (congrArg (Frame.csrAsked · n x) (fr_settled s))
  have taken := congrArg Frame.csrDone (put (s.fr.settled.csrAsked n x).stepped)
  have committed (q : Vector Stream 16) := congrArg (fun f : Frame => ((f.streamed q).uncounted.relatched.trapped)) taken
  refine exec_leads (p := p) rfl ready sem rfl (mirrorHold_same (congrArg (·.infl) fr)) ((congrArg Frame.turned fr).trans (turned_steps rfl))
    (congrArg (·.ctl.rebind) taken) (fun q => congrArg (·.ctl.yieldReq) (committed q)) (fun q => congrArg (·.ctl.retReq) (committed q))
    fun leads => ?_
  have leads := leads.cast (committed _)
  exact ⟨leads.mem, leads.part (·.r.s), leads.part (·.sys), leads.part (·.tr)⟩

/-- A register that takes its images whole within its field is written as the bundle turns. -/
theorem csrw_sets {k lo n : Nat} (hk : h.toNat * 64 + l.toNat = k) (takes : csrBits k = some (lo, n)) (other : k ≠ 0x100)
    (tr : TrapState → TrapState) (sys : SysRegs → SysRegs)
    (put : ∀ f : Frame, f.csrPut k (s.rdS a) = f.trapsAndSystem tr sys) :
    let image : Prop := ∀ b, b < 64 → ¬ (lo ≤ b ∧ b < lo + n) → (s.rdS a).getLsbD b = false
    (image → CompletesAs s (.csrw p h a l) (s.settled.updCtl fun y => { y with csrw := some (h.toNat * 64 + l.toNat, s.rdS a) })
      ∧ (SlotReady (.csrw p h a l) s → ∃ t, exec (.csrw p h a l) s = .next t ∧ t.mem = s.mem ∧ t.fr.r.s = s.fr.r.s
        ∧ t.fr.sys = sys s.fr.sys ∧ t.fr.tr = tr s.fr.tr))
    ∧ (¬ image → TrapsWith s (.csrw p h a l) { cause := Cause.illegalInstruction }) := by
  subst hk
  intro image
  have sem := opCsrw_sem ha takes other s.ctx s.settled
  refine ⟨fun good => ?_, fun bad => trapsWith_of_trapOf rfl (sem.trans (require_refuses (Bool.eq_false_iff.mpr (mt (imageOk_iff ..).mp bad)) ..))⟩
  have puts := sem.trans (require_passes ((imageOk_iff ..).mpr good) ..)
  exact ⟨completesAs_of_ok rfl (fun _ => puts) rfl, csrw_goes puts put⟩

end

/-! ### BANKROLE -/

/-- Whether an image of BANKROLE names the role that no bank has. -/
noncomputable def noRole (x : Word) : Bool := (List.range 32).any fun b => bits x (2 * b) 2 == 3

/-- Whether an image of BANKROLE takes the bank of a bound stream from the engines. -/
noncomputable def Frame.unbinds (f : Frame) (x : Word) : Bool := f.r.streams.toList.any fun q => q.mode != 0 && bits x (2 * q.bank) 2 != 1

theorem noRole_iff (x : Word) : noRole x = true ↔ ∃ b, b < 32 ∧ bits x (2 * b) 2 = 3 := by simp [noRole]

theorem unbinds_iff (f : Frame) (x : Word) : f.unbinds x = true ↔ ∃ q ∈ f.r.streams.toList, q.mode ≠ 0 ∧ bits x (2 * q.bank) 2 ≠ 1 := by
  simp only [Frame.unbinds, List.any_eq_true, Bool.and_eq_true, bne_iff_ne]

/-- BANKROLE's write once no bound stream loses its bank: it waits for the tiles that change, and then sets the roles (R315). -/
noncomputable def State.waitRoles (s w : State) (c : SlotCtx) (x : Word) : Except Stop State := do
  let _ ← holdWhile (s.enginesTouch s.cur (s.fr.sys.lostTiles x) || s.classedTouch s.cur (s.fr.sys.gainedTiles x))
  .ok (if w.classedTouch w.cur (s.fr.sys.gainedTiles x) then w.sendOrder c (.roles x) []
    else w.updFr fun f => { f with sys := { f.sys with bankrole := x } })

/-- BANKROLE's checks and its write (R260, R315). -/
noncomputable def State.putRoles (s w : State) (c : SlotCtx) (x : Word) : Except Stop State := do
  let _ ← require (!noRole x) Cause.illegalInstruction
  let _ ← require (!s.fr.unbinds x) Cause.streamUse
  s.waitRoles w c x

section
variable {s : State} {p : BitVec 3} {h a l : BitVec 6} (ha : Readable s a) (hk : h.toNat * 64 + l.toNat = 0x100)
include ha hk

/-- A write of BANKROLE in terms of its checks (R260, R315). -/
theorem opCsrw_bankrole (c : SlotCtx) (w : State) : (opCsrw h a l).sem c s w = s.putRoles w c (s.rdS a) := by
  have whole : imageOk (s.rdS a) 0 64 = true :=
    (imageOk_iff ..).mpr fun b hb out => absurd ⟨Nat.zero_le b, (Nat.zero_add 64).symm ▸ hb⟩ out
  refine (getS_bind ha _).trans ?_
  rw [hk]
  exact require_passes whole ..

theorem bankrole_bad (bad : noRole (s.rdS a) = true) :
    TrapsWith s (.csrw p h a l) { cause := Cause.illegalInstruction } :=
  trapsWith_of_trapOf rfl ((opCsrw_bankrole ha hk ..).trans (require_refuses (congrArg not bad) ..))

variable (good : noRole (s.rdS a) = false)
include good

theorem bankrole_bound (held : s.fr.unbinds (s.rdS a) = true) :
    TrapsWith s (.csrw p h a l) { cause := Cause.streamUse } :=
  trapsWith_of_trapOf rfl ((opCsrw_bankrole ha hk ..).trans ((require_passes (congrArg not good) ..).trans (require_refuses (congrArg not held) ..)))

variable (free : s.fr.unbinds (s.rdS a) = false)
include free

theorem opCsrw_unbound (c : SlotCtx) (w : State) : (opCsrw h a l).sem c s w = s.waitRoles w c (s.rdS a) :=
  (opCsrw_bankrole ha hk ..).trans ((require_passes (congrArg not good) ..).trans (require_passes (congrArg not free) ..))

theorem bankrole_holds (busy : s.enginesTouch s.cur (s.fr.sys.lostTiles (s.rdS a)) = true
    ∨ s.classedTouch s.cur (s.fr.sys.gainedTiles (s.rdS a)) = true) (ready : SlotReady (.csrw p h a l) s) :
    exec (.csrw p h a l) s = .next s.held := by
  have holds : s.waitRoles s.settled s.ctx (s.rdS a) = .error (.hold id) := by unfold State.waitRoles; rw [Bool.or_eq_true_iff.mpr busy]; rfl
  exact exec_of_hold rfl ((opCsrw_unbound ha hk good free ..).trans holds) ready

/-- The frame with other bank roles. -/
noncomputable def Frame.rolesSet (f : Frame) (x : Word) : Frame := { f with sys := { f.sys with bankrole := x } }

theorem bankrole_goes (lost : s.enginesTouch s.cur (s.fr.sys.lostTiles (s.rdS a)) = false)
    (gained : s.classedTouch s.cur (s.fr.sys.gainedTiles (s.rdS a)) = false) (ready : SlotReady (.csrw p h a l) s) :
    ∃ t, exec (.csrw p h a l) s = .next t ∧ t.mem = s.mem ∧ t.fr.r.s = s.fr.r.s ∧ t.fr.sys = { s.fr.sys with bankrole := s.rdS a } := by
  have idle : s.settled.classedTouch s.settled.cur (s.fr.sys.gainedTiles (s.rdS a)) = false := (classedTouch_settled ..).trans gained
  have sets : s.waitRoles s.settled s.ctx (s.rdS a) = .ok (s.settled.updFr (·.rolesSet (s.rdS a))) := by
    unfold State.waitRoles; rw [lost, gained, idle]; rfl
  have fr : (s.settled.updFr (·.rolesSet (s.rdS a))).fr = s.fr.settled.rolesSet (s.rdS a) :=
    (fr_updFr ..).trans (congrArg (Frame.rolesSet · (s.rdS a)) (fr_settled s))
  exact exec_leads (p := p) rfl ready ((opCsrw_unbound ha hk good free ..).trans sets) rfl (mirrorHold_same (congrArg (·.infl) fr))
    ((congrArg Frame.turned fr).trans (turned_steps rfl)) rfl (fun _ => rfl) (fun _ => rfl) fun leads => ⟨leads.mem, leads.part (·.r.s), leads.part (·.sys)⟩

end

set_option smartUnfolding false in
/-- The number's tests in turn: smart unfolding would stop at their match, which is stuck. -/
theorem csrBits_none {k : Nat} (ro : k ∉ [0x100, 0x400, 0x402, 0x406, 0x800, 0x801, 0x802, 0x803, 0x804]) : csrBits k = none := by
  have other {n : Nat} (rw_ : n ∈ [0x100, 0x400, 0x402, 0x406, 0x800, 0x801, 0x802, 0x803, 0x804]) : ¬ k = n := fun e => ro (e ▸ rw_)
  refine (dif_neg (other (n := 0x100) (by decide))).trans ?_
  refine (dif_neg (other (n := 0x400) (by decide))).trans ?_
  refine (dif_neg (other (n := 0x402) (by decide))).trans ?_
  refine (dif_neg (other (n := 0x406) (by decide))).trans ?_
  refine (dif_neg (other (n := 0x800) (by decide))).trans ?_
  refine (dif_neg (other (n := 0x801) (by decide))).trans ?_
  refine (dif_neg (other (n := 0x802) (by decide))).trans ?_
  refine (dif_neg (other (n := 0x803) (by decide))).trans ?_
  exact dif_neg (other (n := 0x804) (by decide))

/-- Settles O39: CSRR reads by the register's number, CSRW writes by its cases, after the privilege check. -/
theorem controlRegisters : Obligations.ControlRegisters := by
  intro s p n d a h l num f rd
  refine ⟨completesAs_of_ok rfl (fun _ => rfl) (by simp), ⟨rfl, rfl, rfl, rfl, rfl, rfl, rfl, csrRead_own s, csrRead_mirtab s,
    readsLevel s, rfl, rfl, rfl, fun k => csrRead_beyond s⟩, fun ha => ?_, fun sys user legal => ?_⟩
  · intro x k i image sets
    refine ⟨fun ro => completesAs_of_ok rfl (fun _ => opCsrw_plain ha (csrBits_none ro) ..) rfl,
      fun hk => csrw_sets ha hk rfl (by decide) (fun t => { t with estatus := s.rdS a }) id fun _ => rfl,
      fun hk => csrw_sets ha hk rfl (by decide) (fun t => { t with epc := s.rdS a }) id fun _ => rfl,
      fun hk => csrw_sets ha hk rfl (by decide) (fun t => { t with handler := s.rdS a }) id fun _ => rfl,
      fun hk => csrw_sets ha hk rfl (by decide) id (fun y => { y with ptroot := s.rdS a }) fun _ => rfl,
      fun hk => csrw_sets ha hk rfl (by decide) id (fun y => { y with asid := (s.rdS a).setWidth 16 }) fun _ => rfl,
      fun hk => csrw_sets ha hk rfl (by decide) id (fun y => { y with ctxsave := s.rdS a }) fun _ => rfl,
      fun hk => csrw_sets ha hk rfl (by decide) id (fun y => { y with evspill := s.rdS a }) fun _ => rfl,
      fun hk => csrw_sets ha hk rfl (by decide) id (fun y => { y with evquota := (s.rdS a).setWidth 32 }) fun _ => rfl,
      fun hk => ?_, fun sys user legal => (exec_eq_issueOne rfl s).trans (issueOne_privilege legal (decide_eq_true sys) user)⟩
    intro bad held
    have good (h : ¬ bad) : noRole (s.rdS a) = false := Bool.eq_false_iff.mpr (mt (noRole_iff _).mp h)
    have free (h : ¬ held) : s.fr.unbinds (s.rdS a) = false := Bool.eq_false_iff.mpr (mt (unbinds_iff ..).mp h)
    exact ⟨fun h => bankrole_bad ha hk ((noRole_iff _).mpr h), fun h h' => bankrole_bound ha hk (good h) ((unbinds_iff ..).mpr h'),
      fun h h' => bankrole_holds ha hk (good h) (free h'), fun h h' => bankrole_goes ha hk (good h) (free h')⟩
  · exact (exec_eq_issueOne rfl s).trans (issueOne_privilege legal (decide_eq_true sys) user)

end Sys2Proof.Machine
end

section
/-! Event records: EVPOP of a record that was spilled to a quiesced stack (O37). -/

namespace Sys2Proof.Machine
open Sys2Proof

/-- After reset, with the oldest record of the running task spilled to a ring at 0x10_0000, an address that base die 0's engines have
translated, in the stack of that die, and the stack quiesced (R326, R378). -/
noncomputable def quiescedRing : State :=
  { State.reset.updFr fun f => { f with msg := { f.msg with spill := [{ ring := 0x100000#64 }] } } with
    bases := State.reset.bases.set 0 { State.reset.base 0 with
      hbm := { (State.reset.base 0).hbm with hctl := 1 }
      tlb := [{ va := 0x100000, pa := 0x100000, flags := 0x3F#8 }] } }

/-- EVPOP is ready there: its own bundle reads nothing. -/
theorem evpop_ready : SlotReady (.evpop 0 10) quiescedRing :=
  show Ready quiescedRing 0 3 (opEvpop 10) from {
    legal := by decide
    mode := fun h => absurd h (by decide)
    pred := rfl
    free := by decide +kernel
    banks := by decide +kernel
    slow := by decide +kernel
    perm := by decide +kernel
    window := by decide +kernel
    isOpen := rfl }

/-- Whether an access is one piece of 16 bytes that stands in no window. -/
noncomputable def onePiece : Except Trap (List (Seg × Walked)) → Bool
  | .ok [(g, _)] => g.off == 0 && g.len == 16 && physClass g.pa != .window
  | _ => false

theorem onePiece_some {x : Except Trap (List (Seg × Walked))} (h : onePiece x = true) :
    ∃ g walk, x = .ok [(g, walk)] ∧ g.off = 0 ∧ g.len = 16 ∧ physClass g.pa ≠ .window := by
  unfold onePiece at h
  split at h
  next g walk =>
    simp only [Bool.and_eq_true, beq_iff_eq, bne_iff_ne] at h
    exact ⟨g, walk, rfl, h.1.1, h.1.2, h.2⟩
  next => cases h

/-- The record can be translated and stands in one piece in HBM. -/
theorem quiescedRing_translates :
    onePiece (baseSegs quiescedRing 0 { quiescedRing.fr.space with asid := 0, root := 0 } false .read (va57 0x100000#64 + 16 * 0) 16) = true := by
  decide +kernel

/-- Whether an outcome has left the running task no load under way. -/
noncomputable def noLoads : Host.Outcome State Fault Refusal → Bool
  | .next t => t.fr.loads.isEmpty
  | _ => false

/-- The read of the ring meets the quiesced stack, so EVPOP waits there and makes no register pending (R378). -/
theorem evpop_meets_quiesced : noLoads (exec (.evpop 0 10) quiescedRing) = true := by decide +kernel

/-- Refutes O37: EVPOP of a record spilled to a quiesced stack takes its place in the order of arrival there, and no load of its registers is
under way; the statement does not ask that the stack which holds the record be open. -/
theorem not_eventsAndBarriers : ¬ Obligations.EventsAndBarriers := by
  rintro ⟨slots, -⟩
  obtain ⟨-, spilled, -⟩ := slots quiescedRing 0 10 0 0 0
  obtain ⟨g, walk, back, off, len, memory⟩ := onePiece_some quiescedRing_translates
  obtain ⟨t, next, ⟨-, ⟨load, pending, -⟩, -⟩, -⟩ :=
    (spilled { ring := 0x100000#64 } evpop_ready rfl (by decide)).1 g walk back off len memory
  have none := evpop_meets_quiesced
  rw [next] at none
  rw [List.isEmpty_iff.mp none] at pending
  cases pending

end Sys2Proof.Machine
end

section
/-! The bytes of numbers and of memory, under enables and in rows. -/

namespace Sys2Proof.Machine
open Sys2Proof

/-! ### Bytes of numbers -/

theorem getByte_eq (v i : Nat) : getByte v i = v / 2 ^ (8 * i) % 256 := by rw [getByte, Nat.shiftRight_eq_div_pow]

theorem getByte_lt (v i : Nat) : getByte v i < 256 := Nat.mod_lt _ (by decide)

/-- A number by a byte of it, what stands above it and what below. -/
theorem byte_split (v i : Nat) : v = v % 2 ^ (8 * i) + 2 ^ (8 * i) * (256 * (v / 2 ^ (8 * i) / 256) + getByte v i) := by
  rw [getByte_eq, Nat.div_add_mod, Nat.mod_add_div]

theorem setByte_split (v i b : Nat) :
    setByte v i b = v % 2 ^ (8 * i) + 2 ^ (8 * i) * (256 * (v / 2 ^ (8 * i) / 256) + b) := by
  have whole := byte_split v i
  rw [setByte, Nat.shiftLeft_eq, Nat.shiftLeft_eq]
  generalize 2 ^ (8 * i) = q at *
  rw [Nat.mul_add, ← Nat.add_assoc, Nat.mul_comm q (getByte v i)] at whole
  rw [Nat.mul_add, ← Nat.add_assoc, Nat.mul_comm q b]
  exact congrArg (· + b * q) ((congrArg (· - getByte v i * q) whole).trans (Nat.add_sub_cancel ..))

/-- The powers of two at two bytes of a number. -/
theorem two_pow_byte (i k : Nat) : 2 ^ (8 * (i + k + 1)) = 2 ^ (8 * i) * (256 * 2 ^ (8 * k)) := by
  rw [Nat.add_assoc, Nat.mul_add, Nat.mul_succ, Nat.pow_add, Nat.pow_add, Nat.mul_comm (2 ^ (8 * k))]

theorem getByte_below (lo x j k : Nat) : getByte (lo + 2 ^ (8 * (j + k + 1)) * x) j = getByte lo j := by
  rw [getByte_eq, getByte_eq, two_pow_byte, Nat.mul_assoc, Nat.add_mul_div_left _ _ (Nat.two_pow_pos _), Nat.mul_assoc, Nat.add_mul_mod_self_left]

theorem getByte_here {lo i : Nat} (low : lo < 2 ^ (8 * i)) (hi : Nat) {b : Nat} (small : b < 256) :
    getByte (lo + 2 ^ (8 * i) * (256 * hi + b)) i = b := by
  rw [getByte_eq, Nat.add_mul_div_left _ _ (Nat.two_pow_pos _), Nat.div_eq_of_lt low, Nat.zero_add, Nat.mul_add_mod, Nat.mod_eq_of_lt small]

theorem getByte_above {lo i : Nat} (low : lo < 2 ^ (8 * i)) (hi : Nat) {b : Nat} (small : b < 256) (k : Nat) :
    getByte (lo + 2 ^ (8 * i) * (256 * hi + b)) (i + k + 1) = getByte hi k := by
  rw [getByte_eq, getByte_eq, two_pow_byte, ← Nat.div_div_eq_div_mul, Nat.add_mul_div_left _ _ (Nat.two_pow_pos _), Nat.div_eq_of_lt low,
    Nat.zero_add, ← Nat.div_div_eq_div_mul, Nat.mul_add_div (by decide), Nat.div_eq_of_lt small, Nat.add_zero]

/-- Byte `j` after byte `i` has been set. -/
theorem getByte_setByte (v i j : Nat) {b : Nat} (small : b < 256) : getByte (setByte v i b) j = if j = i then b else getByte v j := by
  have low : v % 2 ^ (8 * i) < 2 ^ (8 * i) := Nat.mod_lt _ (Nat.two_pow_pos _)
  have old := congrArg (getByte · j) (byte_split v i)
  rw [setByte_split]
  rcases Nat.lt_trichotomy j i with below | rfl | above
  · obtain ⟨k, rfl⟩ := Nat.exists_eq_add_of_lt below
    rw [if_neg (Nat.ne_of_lt below), getByte_below]
    exact (old.trans (getByte_below ..)).symm
  · rw [if_pos rfl, getByte_here low _ small]
  · obtain ⟨k, rfl⟩ := Nat.exists_eq_add_of_lt above
    rw [if_neg (Nat.ne_of_gt above), getByte_above low _ small]
    exact (old.trans (getByte_above low _ (getByte_lt ..) k)).symm

/-- A byte of a number merged under enables. -/
theorem getByte_mergeNat (old new ben : Nat) {n i : Nat} (h : i < n) :
    getByte (mergeNat old new ben n) i = if ben.testBit i then getByte new i else getByte old i := by
  rw [mergeNat, getByte_eq]
  refine (buildNat_lane 8 _ h).trans (Nat.mod_eq_of_lt ?_)
  split <;> exact getByte_lt ..

/-! ### Bytes of memory -/

/-- A byte of a number with listed bytes laid over it. -/
theorem getByte_overlay (m : List Host.Cell) (a v : Nat) {n i : Nat} (h : i < n) :
    getByte (overlay m a n v) i = match m.find? (fun c => c.1 == a + i) with
      | some c => c.2.toNat
      | none => getByte v i := by
  induction m with
  | nil => rfl
  | cons c m ih =>
    have step : overlay (c :: m) a n v = if a ≤ c.1 ∧ c.1 < a + n then setByte (overlay m a n v) (c.1 - a) c.2.toNat else overlay m a n v := rfl
    rw [step, List.find?_cons]
    by_cases here : c.1 = a + i
    · rw [if_pos ⟨here ▸ Nat.le_add_right .., here ▸ Nat.add_lt_add_left h a⟩, getByte_setByte _ _ _ c.2.isLt,
        if_pos (here ▸ (Nat.add_sub_cancel_left ..).symm), beq_iff_eq.mpr here]
    · rw [beq_eq_false_iff_ne.mpr here]
      split
      next inside => rw [getByte_setByte _ _ _ c.2.isLt, if_neg fun e => here (by rw [e, Nat.add_sub_cancel' inside.1]), ih]
      next => exact ih

/-- A byte of what memory reads. -/
theorem getByte_read (m : List Host.Cell) (a : Nat) {n i : Nat} (h : i < n) : getByte (Memory.read m a n) i = (Memory.byte m (a + i)).toNat := by
  rw [Memory.read, getByte_overlay _ _ _ h, Memory.byte]
  cases m.find? (fun c => c.1 == a + i) with
  | some c => rfl
  | none => exact congrArg (· % 256) (Nat.zero_shiftRight _)

theorem ofNat_byte (y i : Nat) : BitVec.ofNat 8 (y >>> (8 * i)) = BitVec.ofNat 8 (getByte y i) :=
  BitVec.eq_of_toNat_eq (Nat.mod_mod _ 256).symm

/-- Reading a byte after a write under enables. -/
theorem byte_writeEn (m : List Host.Cell) (a n v ben x : Nat) :
    Memory.byte (Memory.writeEn m a n v ben) x
      = if a ≤ x ∧ x < a + n ∧ ben.testBit (x - a) = true then BitVec.ofNat 8 (v >>> (8 * (x - a))) else Memory.byte m x := by
  rw [Memory.writeEn, byte_write, ofNat_byte, ofNat_byte]
  by_cases inside : a ≤ x ∧ x < a + n
  · have at_ : x - a < n := Nat.sub_lt_left_of_lt_add inside.1 inside.2
    rw [if_pos inside, getByte_mergeNat _ _ _ at_, getByte_read _ _ at_, Nat.add_sub_cancel' inside.1]
    by_cases on : ben.testBit (x - a) = true
    · rw [if_pos on, if_pos ⟨inside.1, inside.2, on⟩]
    · rw [if_neg on, if_neg fun h => on h.2.2, BitVec.ofNat_toNat, BitVec.setWidth_eq]
  · rw [if_neg inside, if_neg fun h => inside ⟨h.1, h.2.1⟩]

/-- Reading a byte after an on-chip write. -/
theorem byte_chipWrite (s : State) (x : Stamp) (pa n v ben b : Nat) : Memory.byte (s.chipWrite x pa n v ben).mem b
    = if pa ≤ b ∧ b < pa + n ∧ ben.testBit (b - pa) = true then BitVec.ofNat 8 (v >>> (8 * (b - pa))) else Memory.byte s.mem b := by
  have mem : (s.chipWrite x pa n v ben).mem = if ben % 2 ^ n = ones n then Memory.write s.mem pa n v else Memory.writeEn s.mem pa n v ben := rfl
  rw [mem]
  split
  next whole =>
    have on (h : pa ≤ b ∧ b < pa + n) : ben.testBit (b - pa) = true := by
      have at_ := congrArg (Nat.testBit · (b - pa)) whole
      rw [ones, Nat.testBit_two_pow_sub_one, Nat.testBit_mod_two_pow, decide_eq_true (Nat.sub_lt_left_of_lt_add h.1 h.2)] at at_
      exact at_
    rw [byte_write]
    exact if_congr ⟨fun h => ⟨h.1, h.2, on h⟩, fun h => ⟨h.1, h.2.1⟩⟩ rfl rfl
  next => exact byte_writeEn ..

theorem frameAt_updCore (s : State) (c : CoreId) {f : Core → Core} (frames : ∀ x : Core, (f x).frames = x.frames) (d : CoreId) (j : Fin 4) :
    (s.updCore c f).frameAt d j = s.frameAt d j := congrArg (·.get j) (core_updCore_part (·.frames) frames s c d)

end Sys2Proof.Machine
end

section
/-! The matrix unit at work (O31): an operation starts, loses cycles to ports, and writes its destination row by row. -/

namespace Sys2Proof.Machine
open Sys2Proof

/-! ### Rows written -/

theorem setByte_zero_lt {x b : Nat} (low : x < 256) (small : b < 256) : setByte x 0 b < 256 := by
  have same := setByte_split x 0 b
  rw [Nat.mul_zero, Nat.pow_zero, Nat.mod_one, Nat.div_one, Nat.div_eq_of_lt low, Nat.mul_zero, Nat.zero_add, Nat.zero_add, Nat.one_mul] at same
  exact same.trans_lt small

theorem overlay_one_lt (m : List Host.Cell) (a : Nat) : overlay m a 1 0 < 256 := by
  induction m with
  | nil => exact Nat.zero_lt_succ 255
  | cons c m ih =>
    exact dite_ind (· < 256) (c := a ≤ c.1 ∧ c.1 < a + 1) (fun here => by
      rw [Nat.sub_eq_zero_of_le (Nat.le_of_lt_succ here.2)]; exact setByte_zero_lt ih c.2.isLt) fun _ => ih

/-- A byte read alone is the byte that memory lists. -/
theorem read_one (m : List Host.Cell) (a : Nat) : Memory.read m a 1 = (Memory.byte m a).toNat := by
  have byte := getByte_read m a (n := 1) (i := 0) (by decide)
  rw [getByte_eq, Nat.mul_zero, Nat.pow_zero, Nat.div_one] at byte
  exact (Nat.mod_eq_of_lt (overlay_one_lt m a)).symm.trans byte

/-- The bytes of row `m` from `pa` on are those that lie `m` rows of `n` bytes above it. -/
theorem within_row {pa n b m : Nat} : (pa + n * m ≤ b ∧ b < pa + n * m + n) ↔ (pa ≤ b ∧ 0 < n) ∧ (b - pa) / n = m := by
  constructor
  · rintro ⟨low, high⟩
    have pos : 0 < n := Nat.pos_of_lt_add_right (Nat.lt_of_le_of_lt low high)
    have above : pa ≤ b := Nat.le_trans (Nat.le_add_right ..) low
    refine ⟨⟨above, pos⟩, Nat.div_eq_of_lt_le ?_ ?_⟩
    · rw [Nat.mul_comm]; exact Nat.le_sub_of_add_le' low
    · rw [Nat.mul_comm, Nat.mul_succ]; exact Nat.sub_lt_left_of_lt_add above (Nat.add_assoc .. ▸ high)
  · rintro ⟨⟨above, pos⟩, rfl⟩
    have whole : pa + n * ((b - pa) / n) + (b - pa) % n = b := by rw [Nat.add_assoc, Nat.div_add_mod, Nat.add_sub_cancel' above]
    exact ⟨Nat.le_trans (Nat.le_add_right ..) (Nat.le_of_eq whole), Nat.lt_of_le_of_lt (Nat.le_of_eq whole.symm) (Nat.add_lt_add_left (Nat.mod_lt _ pos) _)⟩

/-- A row written changes its own bytes. -/
theorem byte_putRow (w : State) (x : Stamp) (pa n v m b : Nat) : Memory.byte (w.putRow x (pa + n * m) n v).mem b =
    if (pa ≤ b ∧ 0 < n) ∧ (b - pa) / n = m then BitVec.ofNat 8 (v >>> (8 * ((b - pa) % n))) else Memory.byte w.mem b := by
  refine (byte_chipWrite ..).trans ?_
  by_cases here : (pa ≤ b ∧ 0 < n) ∧ (b - pa) / n = m
  · have inside := within_row.mpr here
    have off : b - (pa + n * m) = (b - pa) % n := by rw [Nat.mod_eq_sub, here.2, Nat.sub_sub]
    have on : (ones n).testBit ((b - pa) % n) = true := by
      rw [ones, Nat.testBit_two_pow_sub_one]; exact decide_eq_true (Nat.mod_lt _ here.1.2)
    exact (if_pos ⟨inside.1, inside.2, off ▸ on⟩).trans ((congrArg (fun i => BitVec.ofNat 8 (v >>> (8 * i))) off).trans (if_pos here).symm)
  · exact (if_neg fun h => here (within_row.mp ⟨h.1, h.2.1⟩)).trans (if_neg here).symm

/-- Rows of `n` bytes written from `pa` on, those of a list. -/
theorem byte_putRows (x : Stamp) (pa n : Nat) (row : Nat → Nat) (l : List Nat) (w : State) (b : Nat) :
    Memory.byte (l.foldl (fun w m => w.putRow x (pa + n * m) n (row m)) w).mem b =
      if (pa ≤ b ∧ 0 < n) ∧ (b - pa) / n ∈ l then BitVec.ofNat 8 (row ((b - pa) / n) >>> (8 * ((b - pa) % n))) else Memory.byte w.mem b := by
  induction l generalizing w with
  | nil => exact (if_neg fun h => List.not_mem_nil h.2).symm
  | cons m l ih =>
    refine (ih _).trans ?_
    by_cases last : (pa ≤ b ∧ 0 < n) ∧ (b - pa) / n ∈ l
    · exact (if_pos last).trans (if_pos ⟨last.1, List.mem_cons_of_mem _ last.2⟩).symm
    · refine (if_neg last).trans ((byte_putRow ..).trans ?_)
      by_cases here : (pa ≤ b ∧ 0 < n) ∧ (b - pa) / n = m
      · exact (if_pos here).trans ((congrArg (fun k => BitVec.ofNat 8 (row k >>> (8 * ((b - pa) % n)))) here.2.symm).trans
          (if_pos ⟨here.1, here.2 ▸ List.mem_cons_self⟩).symm)
      · exact (if_neg here).trans (if_neg fun h => (List.mem_cons.mp h.2).elim (fun e => here ⟨h.1, e⟩) fun e => last ⟨h.1, e⟩).symm

/-- The bytes of memory once the live ones of 128 rows have been written. -/
noncomputable def State.RowsPut (s t : State) (pa n : Nat) (live : Nat → Bool) (row : Nat → Nat) : Prop :=
  ∀ b, Memory.read t.mem b 1 = if pa ≤ b ∧ b < pa + 128 * n ∧ live ((b - pa) / n) = true then getByte (row ((b - pa) / n)) ((b - pa) % n)
    else Memory.read s.mem b 1

theorem rowsPut (s : State) (x : Stamp) (pa n : Nat) (live : Nat → Bool) (row : Nat → Nat) :
    s.RowsPut (((List.range 128).filter live).foldl (fun w m => w.putRow x (pa + n * m) n (row m)) s) pa n live row := by
  intro b
  have same : (pa ≤ b ∧ 0 < n) ∧ (b - pa) / n ∈ (List.range 128).filter live ↔ pa ≤ b ∧ b < pa + 128 * n ∧ live ((b - pa) / n) = true := by
    rw [List.mem_filter, List.mem_range]
    constructor
    · rintro ⟨⟨above, pos⟩, row, on⟩
      exact ⟨above, (Nat.sub_lt_iff_lt_add' above).mp ((Nat.div_lt_iff_lt_mul pos).mp row), on⟩
    · rintro ⟨above, below, on⟩
      have row := (Nat.sub_lt_iff_lt_add' above).mpr below
      have pos : 0 < n := Nat.pos_of_ne_zero fun zero => Nat.not_lt_zero _ (Nat.mul_zero 128 ▸ zero ▸ row)
      exact ⟨⟨above, pos⟩, (Nat.div_lt_iff_lt_mul pos).mpr row, on⟩
  refine (read_one ..).trans ((congrArg BitVec.toNat ((byte_putRows ..).trans (if_congr same rfl rfl))).trans ?_)
  by_cases here : pa ≤ b ∧ b < pa + 128 * n ∧ live ((b - pa) / n) = true
  · rw [if_pos here, if_pos here, ofNat_byte]; exact Nat.mod_eq_of_lt (getByte_lt ..)
  · exact (congrArg BitVec.toNat (if_neg here)).trans ((read_one ..).symm.trans (if_neg here).symm)

theorem rowsPut_all (s : State) (x : Stamp) (pa n : Nat) (row : Nat → Nat) :
    s.RowsPut ((List.range 128).foldl (fun w m => w.putRow x (pa + n * m) n (row m)) s) pa n (fun _ => true) row := by
  have all := rowsPut s x pa n (fun _ => true) row
  rwa [List.filter_true] at all

theorem State.RowsPut.congr {s t : State} {pa n : Nat} {live : Nat → Bool} {row row' : Nat → Nat} (h : s.RowsPut t pa n live row)
    (same : row = row') : s.RowsPut t pa n live row' := same ▸ h

theorem foldl_putRow_cores (x : Stamp) (n : Nat) (pa row : Nat → Nat) (l : List Nat) (w : State) :
    (l.foldl (fun w m => w.putRow x (pa m) n (row m)) w).cores = w.cores := by
  induction l generalizing w with
  | nil => rfl
  | cons m l ih => exact (ih _).trans rfl

/-! ### What an operation writes -/

/-- An element of a row of f32 elements. -/
noncomputable def f32At (x i : Nat) : FVal := f32.decode (field x (32 * i) 32)

theorem buildNat_congr {w : Nat} {f g : Nat → Nat} {n : Nat} (h : ∀ i, i < n → f i = g i) : buildNat w f n = buildNat w g n := by
  induction n with
  | zero => rfl
  | succ n ih =>
    have same := congrArg₂ (fun x y => x + y % 2 ^ w * 2 ^ (w * n)) (ih fun i hi => h i (Nat.lt_succ_of_lt hi)) (h n (Nat.lt_succ_self n))
    exact (buildNat_succ w f n).trans (same.trans (buildNat_succ w g n).symm)

/-- From `s` to `t` the result of an operation of a kind is written, from the bytes as they stand in `s` (R208, R210-R213). -/
noncomputable def MOp.PutsAs (o : MOp) (kind : MKind) (s t : State) : Prop :=
  let old (m : Nat) : Nat := Memory.read s.mem (o.dst.pa + 512 * m) 512
  let src (n m : Nat) : Nat := Memory.read s.mem (o.a.pa + n * m) n
  match kind with
  | .mma mode f =>
    if (mmaKinds f).1 = 4 then s.RowsPut t o.dst.pa 512 o.rowLive fun m =>
      mmaRowInt mode (old m) (s.rowInts o.a.pa m) ((List.range 128).map (s.rowInts o.b.pa))
    else s.RowsPut t o.dst.pa 512 o.rowLive fun m =>
      mmaRow mode o.lambda.toNat (old m) (s.rowVals o.a.pa (mmaKinds f).1 m) ((List.range 128).map fun n => blocks32 (s.rowVals o.b.pa (mmaKinds f).2 n))
  | .mzero => s.RowsPut t o.dst.pa 512 (fun _ => true) fun _ => 0
  | .mscale => s.RowsPut t o.dst.pa 512 o.rowLive fun m => buildNat 32 (fun n =>
      f32.rne (((f32At (old m) n).mul (f32At (if o.a.len = 0 then o.rvec.toNat else Memory.read s.mem o.a.pa 512) m)).mul
        (f32At (if o.b.len = 0 then o.cvec.toNat else Memory.read s.mem o.b.pa 512) n))) 128
  | .mcvt ty rtz => s.RowsPut t o.dst.pa (kindRow ty) (fun _ => true) fun m => buildNat ([e4m3, e5m2, bf16, f16].getD ty f32).width
      (fun k => ([e4m3, e5m2, bf16, f16].getD ty f32).round rtz (f32At (src 512 m) k)) 128
  | .mtrn shape => s.RowsPut t o.dst.pa (rowSize shape) (fun _ => true) fun k =>
      buildNat (8 * (rowSize shape / 128)) (fun r => field (src (rowSize shape) r) (8 * (rowSize shape / 128) * k) (8 * (rowSize shape / 128))) 128

/-- From `s` to `t` an operation's result is written. -/
noncomputable def MOp.Puts (o : MOp) (s t : State) : Prop := o.PutsAs o.kind s t

section
variable (s : State) (x : Stamp) (o : MOp)

/-- Where the condition holds `P` is had of what it makes, and `Q` otherwise. -/
theorem ite_both {α : Type} {P Q : α → Prop} {c : Prop} [Decidable c] {x y : α} (pos : P x) (neg : Q y) :
    if c then P (if c then x else y) else Q (if c then x else y) := by
  by_cases h : c
  · rw [if_pos h, if_pos h]; exact pos
  · rw [if_neg h, if_neg h]; exact neg

theorem runMma_puts (mode f : Nat) : o.PutsAs (.mma mode f) s (s.runMma x o mode f) :=
  ite_both (P := (s.RowsPut · o.dst.pa 512 o.rowLive _)) (Q := (s.RowsPut · o.dst.pa 512 o.rowLive _)) (rowsPut _ _ _ _ _ _) (rowsPut _ _ _ _ _ _)

theorem runScale_puts : o.PutsAs .mscale s (s.runScale x o) := by
  unfold MOp.PutsAs State.runScale
  dsimp only
  exact rowsPut s x _ 512 o.rowLive _

theorem runCvt_puts (ty : Nat) (rtz : Bool) : o.PutsAs (.mcvt ty rtz) s (s.runCvt x o ty rtz) := by
  unfold MOp.PutsAs State.runCvt
  dsimp only
  exact rowsPut_all s x _ (kindRow ty) _

theorem runTrn_puts (shape : Nat) : o.PutsAs (.mtrn shape) s (s.runTrn x o shape) := by
  have rows (r : Nat) (h : r < 128) : ((List.range 128).map fun r => s.homeRead (o.a.pa + rowSize shape * r) (rowSize shape)).getD r 0
      = Memory.read s.mem (o.a.pa + rowSize shape * r) (rowSize shape) := by
    rw [List.getD_eq_getElem _ _ (by rwa [List.length_map, List.length_range]), List.getElem_map, List.getElem_range]
    rfl
  have same := funext fun k => buildNat_congr (w := 8 * (rowSize shape / 128)) fun r hr =>
    congrArg (field · (8 * (rowSize shape / 128) * k) (8 * (rowSize shape / 128))) (rows r hr)
  unfold MOp.PutsAs State.runTrn
  dsimp only
  exact (rowsPut_all s x o.dst.pa (rowSize shape) _).congr same

theorem runMatrix_puts : o.Puts s (s.runMatrix x o) := by
  unfold State.runMatrix MOp.Puts
  cases o.kind with
  | mma mode f => exact runMma_puts s x o mode f
  | mzero =>
    unfold MOp.PutsAs
    dsimp only
    exact rowsPut_all s x _ 512 fun _ => 0
  | mscale => exact runScale_puts s x o
  | mcvt ty rtz => exact runCvt_puts s x o ty rtz
  | mtrn shape => exact runTrn_puts s x o shape

theorem runMatrix_cores : (s.runMatrix x o).cores = s.cores := by
  unfold State.runMatrix
  split
  · exact ite_ind (fun t : State => t.cores = s.cores) (foldl_putRow_cores ..) (foldl_putRow_cores ..)
  all_goals exact foldl_putRow_cores ..

/-- What is put depends on memory alone. -/
theorem puts_congr {o : MOp} {s u t : State} (mem : u.mem = s.mem) (h : o.Puts u t) : o.Puts s t := by
  have same : { s with mem := u.mem } = s := by rw [mem]
  exact same ▸ (show o.Puts { s with mem := u.mem } t from h)

end

/-! ### The unit's cycles -/

/-- A use of a port in a cycle. -/
noncomputable def TakenAt (ports : List (Nat × Nat × Port)) (cycle : Nat) (w : Bool) (b : Nat) : Prop :=
  ∃ p ∈ ports, p.1 = cycle ∧ p.2.1 = b ∧ p.2.2.writes = w

section
variable (o : MOp) (mirrors : List (Nat × Nat)) (ports : List (Nat × Nat × Port))

/-- Whether a granule that the operation reads in its cycle finds every read port taken. -/
noncomputable def MOp.readLost : Bool :=
  o.nowReads.any fun g => (granuleBanks mirrors g).all fun b =>
    (ports.filter fun p => p.1 == o.upTo).any fun p => p.2.1 == b && p.2.2.writes == false

/-- Whether a granule that it writes finds a write port taken. -/
noncomputable def MOp.writeLost : Bool :=
  o.nowWrites.any fun g => (granuleBanks mirrors g).any fun b =>
    (ports.filter fun p => p.1 == o.upTo).any fun p => p.2.1 == b && p.2.2.writes == true

variable {o mirrors ports}

theorem any_takenAt {cycle : Nat} {w : Bool} {b : Nat} :
    ((ports.filter fun p => p.1 == cycle).any fun p => p.2.1 == b && p.2.2.writes == w) = true ↔ TakenAt ports cycle w b := by
  simp only [List.any_filter, List.any_eq_true, Bool.and_eq_true, beq_iff_eq, TakenAt]

theorem readLost_iff : o.readLost mirrors ports = true ↔ ∃ g ∈ o.nowReads, ∀ b ∈ granuleBanks mirrors g, TakenAt ports o.upTo false b := by
  simp only [MOp.readLost, List.any_eq_true (l := o.nowReads), List.all_eq_true, any_takenAt]

theorem writeLost_iff : o.writeLost mirrors ports = true ↔ ∃ g ∈ o.nowWrites, ∃ b ∈ granuleBanks mirrors g, TakenAt ports o.upTo true b := by
  simp only [MOp.writeLost, List.any_eq_true (l := o.nowWrites), List.any_eq_true (l := granuleBanks mirrors _), any_takenAt]

/-- A cycle is lost to a port that is taken, and passes otherwise. -/
theorem run_one (left : o.pos < o.occ) :
    (o.run mirrors ports 1).pos = if (ports.filter fun p => p.1 == o.upTo).isEmpty then o.pos + 1
      else if o.readLost mirrors ports then o.pos else if o.writeLost mirrors ports then o.pos else o.pos + 1 := by
  have step : o.run mirrors ports 1 = _ := if_neg (Nat.not_le.mpr left)
  rw [step]
  exact (apply_ite MOp.pos ..).trans (ite_congr rfl (fun _ => rfl) fun _ => (apply_ite MOp.pos ..).trans (ite_congr rfl (fun _ => rfl) fun _ =>
    apply_ite MOp.pos ..))

theorem run_passes (left : o.pos < o.occ) (reads : ∀ g ∈ o.nowReads, ∃ b ∈ granuleBanks mirrors g, ¬ TakenAt ports o.upTo false b)
    (writes : ∀ g ∈ o.nowWrites, ∀ b ∈ granuleBanks mirrors g, ¬ TakenAt ports o.upTo true b) :
    (o.run mirrors ports 1).pos = o.pos + 1 := by
  have free : ¬ o.readLost mirrors ports = true := fun h => by
    obtain ⟨g, now, all⟩ := readLost_iff.mp h
    obtain ⟨b, bank, free⟩ := reads g now
    exact free (all b bank)
  have free' : ¬ o.writeLost mirrors ports = true := fun h => by
    obtain ⟨g, now, b, bank, taken⟩ := writeLost_iff.mp h
    exact writes g now b bank taken
  rw [run_one left, if_neg free, if_neg free', ite_self]

theorem run_loses (left : o.pos < o.occ) (used : ∃ w b, TakenAt ports o.upTo w b)
    (lost : o.readLost mirrors ports = true ∨ o.writeLost mirrors ports = true) : (o.run mirrors ports 1).pos = o.pos := by
  obtain ⟨w, b, p, mem, at_, -⟩ := used
  have busy : ¬ (ports.filter fun p : Nat × Nat × Port => p.1 == o.upTo).isEmpty = true := fun none =>
    List.not_mem_nil (List.isEmpty_iff.mp none ▸ (show p ∈ ports.filter fun p : Nat × Nat × Port => p.1 == o.upTo from List.mem_filter.mpr ⟨mem, beq_iff_eq.mpr at_⟩))
  rw [run_one left, if_neg busy]
  rcases lost with lost | lost
  · rw [if_pos lost]
  · rw [if_pos lost, ite_self]

theorem run_loses_reads (left : o.pos < o.occ) (lost : ∃ g ∈ o.nowReads, ∀ b ∈ granuleBanks mirrors g, TakenAt ports o.upTo false b) :
    (o.run mirrors ports 1).pos = o.pos := by
  have ⟨g, _, taken⟩ := lost
  exact run_loses left ⟨_, _, taken (g % 16) List.mem_cons_self⟩ (.inl (readLost_iff.mpr lost))

theorem run_loses_writes (left : o.pos < o.occ) (lost : ∃ g ∈ o.nowWrites, ∃ b ∈ granuleBanks mirrors g, TakenAt ports o.upTo true b) :
    (o.run mirrors ports 1).pos = o.pos := by
  have ⟨_, _, b, _, taken⟩ := lost
  exact run_loses left ⟨_, _, taken⟩ (.inr (writeLost_iff.mpr lost))

end

/-! ### The exact sum (R93) -/

theorem field_zero (x n : Nat) : field x 0 n = x % 2 ^ n := by unfold field; rw [Nat.shiftRight_zero]

theorem natLanes_cons (x : Nat) (xs : List Nat) : mmaRow.natLanes (x :: xs) = x + 2 ^ 32 * mmaRow.natLanes xs := by
  have step : mmaRow.natLanes (x :: xs) = x + mmaRow.natLanes xs <<< 32 := rfl
  rw [step, Nat.shiftLeft_eq, Nat.mul_comm]

theorem field_cons_zero {x : Nat} (low : x < 2 ^ 32) (y : Nat) : field (x + 2 ^ 32 * y) 0 32 = x := by
  rw [field_zero, Nat.add_mul_mod_self_left, Nat.mod_eq_of_lt low]

theorem field_cons_succ {x : Nat} (low : x < 2 ^ 32) (y n : Nat) : field (x + 2 ^ 32 * y) (32 * (n + 1)) 32 = field y (32 * n) 32 := by
  rw [Nat.mul_succ, Nat.add_comm (32 * n)]
  unfold field
  rw [Nat.shiftRight_add, Nat.shiftRight_eq_div_pow _ 32, Nat.add_mul_div_left _ _ (Nat.two_pow_pos 32), Nat.div_eq_of_lt low, Nat.zero_add]

/-- A lane of a list of words. -/
theorem field_natLanes (l : List Nat) (small : ∀ x ∈ l, x < 2 ^ 32) (n : Nat) : field (mmaRow.natLanes l) (32 * n) 32 = l.getD n 0 := by
  induction l generalizing n with
  | nil =>
    have none : mmaRow.natLanes [] = 0 := rfl
    rw [none, field, Nat.zero_shiftRight, Nat.zero_mod, List.getD_nil]
  | cons x xs ih =>
    have low := small x List.mem_cons_self
    rw [natLanes_cons]
    cases n with
    | zero => rw [Nat.mul_zero, field_cons_zero low, List.getD_cons_zero]
    | succ n => rw [field_cons_succ low, List.getD_cons_succ, ih fun y hy => small y (List.mem_cons_of_mem _ hy)]

theorem foldl_add_sum (l : List Int) (c : Int) : l.foldl (· + ·) c = c + l.sum := by
  induction l generalizing c with
  | nil => simp
  | cons x l ih => rw [List.foldl_cons, ih, List.sum_cons, Int.add_assoc]

theorem ofInt_lt (w : Nat) (x : Int) : ofInt w x < 2 ^ w := by
  have pos : (0 : Int) < 2 ^ w := Int.pow_pos (by decide)
  exact (Int.toNat_lt (Int.emod_nonneg x pos.ne')).mpr ((Int.emod_lt_of_pos x pos).trans_eq (Nat.cast_pow 2 w).symm)

/-- An element of an integer row: its lane of the old row, or zero, and the sum (R93). -/
noncomputable def intOut (mode old : Nat) (a : List Int) (n : Nat) (b : List Int) : Nat :=
  ofInt 32 ((List.zipWith (· * ·) a b).foldl (· + ·) (if mode = 1 then 0 else (field old (32 * n) 32 : Nat)))

/-- An element of a list built over a range. -/
theorem getD_zipWith_range {α : Type} (f : Nat → α → Nat) (l : List α) (d : α) {m n : Nat} (here : n < l.length) (rows : l.length ≤ m) :
    (List.zipWith f (List.range m) l).getD n 0 = f n (l.getD n d) := by
  have inside : n < (List.zipWith f (List.range m) l).length := by rwa [List.length_zipWith, List.length_range, Nat.min_eq_right rows]
  rw [List.getD_eq_getElem _ _ inside, List.getElem_zipWith, List.getElem_range, List.getD_eq_getElem _ _ here]

theorem mem_zipWith_lt {f : Nat → List Int → Nat} {m : Nat} (small : ∀ n b, f n b < m) (l : List Nat) (bs : List (List Int)) :
    ∀ x ∈ List.zipWith f l bs, x < m := by
  intro x hx
  obtain ⟨i, hi, rfl⟩ := List.mem_iff_getElem.mp hx
  exact List.getElem_zipWith ▸ small _ _

/-- An output element is the exact sum modulo 2^32. -/
theorem field_mmaRowInt (mode old : Nat) (a : List Int) (bs : List (List Int)) (n : Nat) (here : n < bs.length) (rows : bs.length ≤ 128) :
    field (mmaRowInt mode old a bs) (32 * n) 32 =
      ofInt 32 ((if mode = 1 then 0 else (field old (32 * n) 32 : Int)) + (List.zipWith (· * ·) a (bs.getD n [])).sum) := by
  have lane := field_natLanes (List.zipWith (intOut mode old a) (List.range 128) bs) (mem_zipWith_lt (fun _ _ => ofInt_lt 32 _) _ _) n
  exact lane.trans ((getD_zipWith_range _ bs [] here rows).trans (congrArg (ofInt 32) (foldl_add_sum ..)))

/-! ### The events of the unit -/

/-- What a change of the queues and of the nest's end keeps: the running operations, the registers and the traps due. -/
structure SameUnits (s t : State) : Prop where
  mrun : ∀ d, (t.core d).mrun = (s.core d).mrun
  r : ∀ d k, (t.frameAt d k).r = (s.frameAt d k).r
  tr : ∀ d k, (t.frameAt d k).tr = (s.frameAt d k).tr

theorem SameUnits.rfl {s : State} : SameUnits s s := ⟨fun _ => .refl _, fun _ _ => .refl _, fun _ _ => .refl _⟩

theorem SameUnits.trans {s t u : State} (h : SameUnits s t) (h' : SameUnits t u) : SameUnits s u where
  mrun d := (h'.mrun d).trans (h.mrun d)
  r d k := (h'.r d k).trans (h.r d k)
  tr d k := (h'.tr d k).trans (h.tr d k)

theorem mrun_updCore {s : State} {c : CoreId} {f : Core → Core} (keep : ∀ x, (f x).mrun = x.mrun) (d : CoreId) :
    ((s.updCore c f).core d).mrun = (s.core d).mrun := core_updCore_part (·.mrun) keep s c d

theorem sameUnits_updCore {s : State} {c : CoreId} {f : Core → Core} (frames : ∀ x, (f x).frames = x.frames) (keep : ∀ x, (f x).mrun = x.mrun) :
    SameUnits s (s.updCore c f) where
  mrun := mrun_updCore keep
  r d k := congrArg (·.r) (frameAt_updCore s c frames d k)
  tr d k := congrArg (·.tr) (frameAt_updCore s c frames d k)

theorem sameUnits_updFrameAt {s : State} {c : CoreId} {k : Fin 4} {f : Frame → Frame} (r : ∀ x, (f x).r = x.r) (tr : ∀ x, (f x).tr = x.tr) :
    SameUnits s (s.updFrameAt c k f) where
  mrun := mrun_updCore fun _ => .refl _
  r := frameAt_updFrameAt_part (·.r) (r _)
  tr := frameAt_updFrameAt_part (·.tr) (tr _)

theorem sameUnits_postCore {s : State} {c : CoreId} {n : Nat} {row : Instr} {a : Arg} : SameUnits s (s.postCore c n row a) :=
  sameUnits_updCore (fun _ => .refl _) fun _ => .refl _

theorem sameUnits_nextMatrix {s : State} {c : CoreId} {n : Nat} : SameUnits s (s.nextMatrix c n) := by
  unfold State.nextMatrix
  split
  · exact sameUnits_postCore
  · exact .rfl

theorem sameUnits_updTaskFrame {s : State} {c : CoreId} {k : Fin 4} {tid : BitVec 32} {g : Frame → Frame} (r : ∀ x, (g x).r = x.r)
    (tr : ∀ x, (g x).tr = x.tr) : SameUnits s (s.updTaskFrame c k tid g) := by
  refine ite_ind (SameUnits s) (sameUnits_updFrameAt r tr) ?_
  cases s.task tid with
  | none => exact .rfl
  | some t =>
    dsimp only
    cases t.place with
    | some _ => exact sameUnits_updFrameAt r tr
    | none => cases t.saved with
      | some _ => exact ⟨fun _ => .refl _, fun _ _ => .refl _, fun _ _ => .refl _⟩
      | none => exact .rfl

theorem sameUnits_abandonNest {s : State} {c : CoreId} {k : Fin 4} {tid : BitVec 32} {gen : Nat} : SameUnits s (s.abandonNest c k tid gen) := by
  have ended := sameUnits_updTaskFrame (s := s) (c := c) (k := k) (tid := tid)
    (g := fun f => { f with mat := { f.mat with nest := { f.mat.nest with ended := true } } }) (fun _ => .refl _) fun _ => .refl _
  unfold State.abandonNest
  dsimp only
  split
  · exact .rfl
  · split
    · exact ended.trans sameUnits_postCore
    · exact ended

theorem core_postCore (s : State) (c : CoreId) (n : Nat) (row : Instr) (a : Arg) :
    (s.postCore c n row a).core c = { s.core c with events := (s.core c).events ++ [{ at_ := n, row := row, arg := { a with c := c } }] } :=
  core_updCore_self ..

theorem nextMatrix_mdone {s : State} {c : CoreId} {n : Nat} : ((s.nextMatrix c n).core c).mdone = (s.core c).mdone := by
  unfold State.nextMatrix
  split
  · rw [core_postCore]
  · rfl

theorem frameAt_nextMatrix {s : State} {c d : CoreId} {n : Nat} {k : Fin 4} : (s.nextMatrix c n).frameAt d k = s.frameAt d k := by
  unfold State.nextMatrix
  split
  · exact frameAt_updCore _ _ (fun _ => by rfl) d k
  · rfl

theorem nextMatrix_puts {o : MOp} {s t : State} {c : CoreId} {n : Nat} (h : o.Puts s t) : o.Puts s (t.nextMatrix c n) := by
  have same : { t with mem := (t.nextMatrix c n).mem } = t := by rw [nextMatrix_mem]
  exact show o.Puts s { t with mem := (t.nextMatrix c n).mem } from same.symm ▸ h

section
variable {s : State} {c : CoreId}

theorem runUnit_poison : (s.runUnit c).poison = s.poison := by
  unfold State.runUnit
  split
  · rfl
  · split <;> rfl

theorem frameAt_runUnit (d : CoreId) (k : Fin 4) : (s.runUnit c).frameAt d k = s.frameAt d k := by
  unfold State.runUnit
  split
  · rfl
  · split
    · rfl
    · exact frameAt_updCore _ _ (fun _ => by rfl) d k

end

/-- The unit has given up its operation at its end. -/
noncomputable def State.unitFreed (s : State) (c : CoreId) : State := (s.runUnit c).updCore c fun x => { x with mrun := none }

section
variable {s : State} {c : CoreId}

theorem unitFreed_mem : (s.unitFreed c).mem = s.mem := runUnit_mem s c

theorem poisonOf_unitFreed (pa n : Nat) : (s.unitFreed c).poisonOf pa n = s.poisonOf pa n := by
  unfold State.poisonOf
  rw [State.unitFreed, updCore_poison, runUnit_poison]

theorem poisoned_unitFreed (pa n : Nat) : (s.unitFreed c).poisoned pa n = s.poisoned pa n := congrArg Option.isSome (poisonOf_unitFreed pa n)

theorem frameAt_unitFreed (d : CoreId) (k : Fin 4) : (s.unitFreed c).frameAt d k = s.frameAt d k :=
  (frameAt_updCore _ _ (fun _ => by rfl) d k).trans (frameAt_runUnit d k)

theorem mrun_unitFreed : ((s.unitFreed c).core c).mrun = none := by rw [State.unitFreed, core_updCore_self]

end

/-- The operation's result written at its end: the span is readable after its time. -/
noncomputable def State.finishMatrix (s : State) (c : CoreId) (o : MOp) : State :=
  let u := s.observe (coreWriter c) (o.readBytes.flatMap fun p => s.marksAt p.1 p.2)
  let w := u.runMatrix (u.stamp (coreWriter c)) o
  w.updCore c fun x => { x with mdone := (x.mdone.filter fun d => w.cyc c < d.2) ++ [(o.dst, o.ends + o.readable)] }

/-- A poisoned source ends the operation: the waiting one that needs its destination is cancelled, and the trap is due (R420). -/
noncomputable def State.abortMatrix (s : State) (c : CoreId) (o : MOp) (t : Trap) : State :=
  let u := (s.cancelWaiting c o.dst).raiseAsync c o.slot { t with eeng := nestEeng 3 (o.nestIx.getD 0) o.opSlot t.cause.toNat }
  if o.nestIx.isSome then u.abandonNest c o.slot (u.frameAt c o.slot).id.task o.nestGen else u

/-- MATRIX_OP_COMPLETE for the running operation, `v` being the state whose unit has given it up. -/
noncomputable def State.endMatrix (u v : State) (c : CoreId) (o : MOp) : Out :=
  if o.pos < o.occ then
    .next ((u.updCore c fun x => { x with mrun := some { o with ends := o.ends + (o.occ - o.pos) } }).postCore c (o.ends + (o.occ - o.pos))
      .matrixOpComplete {})
  else match o.readBytes.find? fun p => v.poisoned p.1 p.2 with
    | some p => .next ((v.abortMatrix c o (v.poisonTrap p.1 p.2)).nextMatrix c o.ends)
    | none => .next ((v.finishMatrix c o).nextMatrix c o.ends)

section
variable {s : State} {o : MOp} (now : ((s.runUnit s.arg.c).core s.arg.c).mrun = some o)
include now

theorem exec_matrixOpComplete : exec .matrixOpComplete s = (s.runUnit s.arg.c).endMatrix (s.unitFreed s.arg.c) s.arg.c o := by
  change execMatrixOpComplete s = _
  unfold execMatrixOpComplete
  dsimp only
  rw [now]
  rfl

variable (done : o.occ ≤ o.pos)
include done

theorem exec_matrixOpComplete_writes (clean : ∀ p ∈ o.readBytes, s.poisoned p.1 p.2 = false) :
    exec .matrixOpComplete s = .next (((s.unitFreed s.arg.c).finishMatrix s.arg.c o).nextMatrix s.arg.c o.ends) := by
  have found : (o.readBytes.find? fun p => (s.unitFreed s.arg.c).poisoned p.1 p.2) = none :=
    List.find?_eq_none.mpr fun p hp => Bool.eq_false_iff.mp ((poisoned_unitFreed ..).trans (clean p hp))
  rw [exec_matrixOpComplete now, State.endMatrix, if_neg (Nat.not_lt.mpr done), found]

theorem exec_matrixOpComplete_traps {p : Nat × Nat} (found : (o.readBytes.find? fun p => s.poisoned p.1 p.2) = some p) :
    exec .matrixOpComplete s = .next (((s.unitFreed s.arg.c).abortMatrix s.arg.c o (s.poisonTrap p.1 p.2)).nextMatrix s.arg.c o.ends) := by
  have poison : (fun p : Nat × Nat => (s.unitFreed s.arg.c).poisoned p.1 p.2) = fun p => s.poisoned p.1 p.2 :=
    funext fun p => poisoned_unitFreed p.1 p.2
  have trap : (s.unitFreed s.arg.c).poisonTrap p.1 p.2 = s.poisonTrap p.1 p.2 :=
    congrArg (fun x => (x.map trapOfPoison).getD {}) (poisonOf_unitFreed ..)
  rw [exec_matrixOpComplete now, State.endMatrix, if_neg (Nat.not_lt.mpr done), poison, found, ← trap]

end

theorem observe_kept (s : State) (w : Nat) (l : List Marks) : (s.observe w l).cores = s.cores ∧ (s.observe w l).mem = s.mem :=
  ite_ind (fun t : State => t.cores = s.cores ∧ t.mem = s.mem) ⟨rfl, rfl⟩ ⟨rfl, rfl⟩

section
variable (s : State) (c : CoreId) (o : MOp)

theorem finishMatrix_puts {u : State} (mem : u.mem = s.mem) : o.Puts s (u.finishMatrix c o) :=
  puts_congr ((observe_kept u ..).2.trans mem) (runMatrix_puts (u.observe ..) _ o)

theorem core_mdone {w : State} {x : Core} (same : w.core c = x) (z : Span × Nat) :
    ∃ l, (w.updCore c fun y => { y with mdone := (y.mdone.filter fun d => w.cyc c < d.2) ++ [z] }).core c = { x with mdone := l ++ [z] } := by
  subst same
  exact ⟨_, core_updCore_self ..⟩

theorem finishMatrix_core : ∃ l, (s.finishMatrix c o).core c = { s.core c with mdone := l ++ [(o.dst, o.ends + o.readable)] } := by
  have cores (u : State) (x : Stamp) (same : u.cores = s.cores) : (u.runMatrix x o).core c = s.core c :=
    congrArg (·.get c) ((runMatrix_cores u x o).trans same)
  exact core_mdone c (cores _ _ (observe_kept s ..).1) _

end

/-- An operation as it starts in cycle `n` at MXDIV's division (R451). -/
noncomputable def MOp.started (o : MOp) (div n : Nat) : MOp :=
  { o with occ := o.occ * div, upTo := n, ends := n + o.occ * div - 1, readable := 12 * div + 1 }

/-- MATRIX_OP_START: an idle unit takes the waiting operation. -/
theorem matrixOpStart_takes (s : State) (o : MOp) (idle : (s.core s.arg.c).mrun = none) (waits : (s.core s.arg.c).mwait = some o) :
    exec .matrixOpStart s =
      .next ((s.updCore s.arg.c fun x => { x with mrun := some (o.started ((s.core s.arg.c).divAt s.arg.n) s.arg.n), mwait := none }).postCore
        s.arg.c (o.started ((s.core s.arg.c).divAt s.arg.n) s.arg.n).ends .matrixOpComplete {}) := by
  change execMatrixOpStart s = _
  unfold execMatrixOpStart
  dsimp only
  rw [idle, waits]
  rfl

/-- The result stands in the rows, and no register has changed. -/
theorem matrixOpComplete_writes {s : State} {o : MOp} (now : ((s.runUnit s.arg.c).core s.arg.c).mrun = some o) (done : o.occ ≤ o.pos)
    (clean : ∀ p ∈ o.readBytes, s.poisoned p.1 p.2 = false) :
    ∃ t, exec .matrixOpComplete s = .next t ∧ (t.core s.arg.c).mrun = none ∧ (∀ k, t.frameAt s.arg.c k = s.frameAt s.arg.c k)
      ∧ (o.dst, o.ends + o.readable) ∈ (t.core s.arg.c).mdone ∧ o.Puts s t := by
  obtain ⟨l, core⟩ := finishMatrix_core (s.unitFreed s.arg.c) s.arg.c o
  have puts := finishMatrix_puts s s.arg.c o (unitFreed_mem (s := s) (c := s.arg.c))
  refine ⟨_, exec_matrixOpComplete_writes now done clean, ?_, fun k => ?_, ?_, nextMatrix_puts puts⟩
  · rw [sameUnits_nextMatrix.mrun, core]
    exact mrun_unitFreed
  · rw [frameAt_nextMatrix]
    exact (congrArg (·.frames.get k) core).trans (frameAt_unitFreed s.arg.c k)
  · rw [nextMatrix_mdone, core]
    exact List.mem_append_right _ List.mem_cons_self

theorem poisonTrap_cause {s : State} {l : List (Nat × Nat)} {p : Nat × Nat} (found : (l.find? fun p => s.poisoned p.1 p.2) = some p) :
    (s.poisonTrap p.1 p.2).cause = Cause.dataPoison := by
  have met : s.poisoned p.1 p.2 = true := List.find?_some (p := fun p : Nat × Nat => s.poisoned p.1 p.2) found
  obtain ⟨x, unit⟩ := Option.isSome_iff_exists.mp met
  unfold State.poisonTrap
  rw [unit]
  rfl

/-- A trap as it is due asynchronously. -/
noncomputable def Trap.posted (t : Trap) : Trap := { t with async := true, slot := 0 }

/-- The frame at which an asynchronous trap is due. -/
noncomputable def Frame.raised (f : Frame) (t : Trap) : Frame := { f with tr := { f.tr with due := f.tr.due ++ [t.posted] } }

/-- `u` is `s` in its memory, its running operations and the registers of a frame, at which the trap is due. -/
structure Raises (s : State) (c : CoreId) (k : Fin 4) (t : Trap) (u : State) : Prop where
  mem : u.mem = s.mem
  mrun : (u.core c).mrun = (s.core c).mrun
  regs : (u.frameAt c k).r = (s.frameAt c k).r
  due : t.posted ∈ (u.frameAt c k).tr.due

/-- What the abort leaves: memory and the registers as they were, and the trap due. -/
theorem abortMatrix_raises {s : State} {c : CoreId} {o : MOp} {t : Trap} (runs : (s.frameAt c o.slot).ctl.halted = false) :
    Raises s c o.slot { t with eeng := nestEeng 3 (o.nestIx.getD 0) o.opSlot t.cause.toNat } (s.abortMatrix c o t) := by
  have slot : (s.cancelWaiting c o.dst).frameAt c o.slot = s.frameAt c o.slot := frameAt_updCore _ _ (fun _ => by rfl) _ _
  have mrun : ((s.cancelWaiting c o.dst).core c).mrun = (s.core c).mrun := mrun_updCore (fun _ => by rfl) c
  unfold State.abortMatrix
  generalize ({ t with eeng := nestEeng 3 (o.nestIx.getD 0) o.opSlot t.cause.toNat } : Trap) = t
  have raised : (s.cancelWaiting c o.dst).raiseAsync c o.slot t = (s.cancelWaiting c o.dst).updFrameAt c o.slot (·.raised t) :=
    if_neg (by rw [slot, runs]; exact Bool.false_ne_true)
  have frame := (frameAt_updFrameAt_self (s.cancelWaiting c o.dst) c o.slot (·.raised t)).trans (congrArg (Frame.raised · t) slot)
  have due := (congrArg (fun f : Frame => t.posted ∈ f.tr.due) frame).mpr (List.mem_append_right _ List.mem_cons_self)
  have kept := (mrun_updCore (s := s.cancelWaiting c o.dst) (c := c) (f := (·.updFrame o.slot (·.raised t))) (fun _ => rfl) c).trans mrun
  rw [raised]
  have plain : Raises s c o.slot t ((s.cancelWaiting c o.dst).updFrameAt c o.slot (·.raised t)) := ⟨rfl, kept, congrArg (·.r) frame, due⟩
  exact ite_ind (Raises s c o.slot t) ⟨(abandonNest_mem ..).trans plain.mem, (sameUnits_abandonNest.mrun c).trans plain.mrun,
    (sameUnits_abandonNest.r c o.slot).trans plain.regs, (congrArg (fun x : TrapState => t.posted ∈ x.due) (sameUnits_abandonNest.tr c o.slot)).mpr plain.due⟩ plain

/-- A poisoned source writes nothing, and its trap is due. -/
theorem matrixOpComplete_traps {s : State} {o : MOp} (now : ((s.runUnit s.arg.c).core s.arg.c).mrun = some o) (done : o.occ ≤ o.pos)
    {p : Nat × Nat} (found : (o.readBytes.find? fun p => s.poisoned p.1 p.2) = some p) (runs : (s.frameAt s.arg.c o.slot).ctl.halted = false) :
    ∃ t, exec .matrixOpComplete s = .next t ∧ t.mem = s.mem ∧ (t.core s.arg.c).mrun = none
      ∧ (t.frameAt s.arg.c o.slot).r = (s.frameAt s.arg.c o.slot).r
      ∧ ∃ q ∈ (t.frameAt s.arg.c o.slot).tr.due, q.cause = Cause.dataPoison ∧ q.async = true ∧ q.src = (s.poisonTrap p.1 p.2).src := by
  have raises := abortMatrix_raises (s := s.unitFreed s.arg.c) (c := s.arg.c) (o := o) (t := s.poisonTrap p.1 p.2)
    ((congrArg (·.ctl.halted) (frameAt_unitFreed s.arg.c o.slot)).trans runs)
  have frame := frameAt_nextMatrix (s := (s.unitFreed s.arg.c).abortMatrix s.arg.c o (s.poisonTrap p.1 p.2)) (c := s.arg.c) (d := s.arg.c)
    (n := o.ends) (k := o.slot)
  have due := (congrArg (fun f : Frame => Trap.posted _ ∈ f.tr.due) frame).mpr raises.due
  exact ⟨_, exec_matrixOpComplete_traps now done found, (nextMatrix_mem ..).trans (raises.mem.trans unitFreed_mem),
    (sameUnits_nextMatrix.mrun _).trans (raises.mrun.trans mrun_unitFreed),
    (congrArg (·.r) frame).trans (raises.regs.trans (congrArg (·.r) (frameAt_unitFreed ..))), _, due, poisonTrap_cause found, rfl, rfl⟩

/-- A core with an event of its own to come. -/
noncomputable def Core.awaiting (x : Core) (c : CoreId) (n : Nat) (row : Instr) : Core :=
  { x with events := x.events ++ [{ at_ := n, row := row, arg := { c := c } }] }

theorem core_posted (s : State) (c : CoreId) (f : Core → Core) (n : Nat) (row : Instr) :
    ((s.updCore c f).postCore c n row {}).core c = (f (s.core c)).awaiting c n row :=
  (core_postCore ..).trans (congrArg (Core.awaiting · c n row) (core_updCore_self ..))

theorem mem_awaiting (x : Core) (c : CoreId) (n : Nat) (row : Instr) : { at_ := n, row := row, arg := { c := c } } ∈ (x.awaiting c n row).events :=
  List.mem_append_right _ List.mem_cons_self

section
variable {s : State} {o : MOp}

/-- What the started operation is, and when it ends. -/
theorem matrixOpStart_starts (idle : (s.core s.arg.c).mrun = none) (waits : (s.core s.arg.c).mwait = some o) :
    ∃ t m, exec .matrixOpStart s = .next t ∧ (t.core s.arg.c).mwait = none ∧ (t.core s.arg.c).mrun = some m ∧ t.mem = s.mem
      ∧ m.kind = o.kind ∧ m.dst = o.dst ∧ m.a = o.a ∧ m.b = o.b ∧ m.readable = 12 * (s.core s.arg.c).divAt s.arg.n + 1
      ∧ m.occ = o.occ * (s.core s.arg.c).divAt s.arg.n ∧ m.upTo = s.arg.n ∧ m.ends = s.arg.n + m.occ - 1
      ∧ ∃ e ∈ (t.core s.arg.c).events, e.row = .matrixOpComplete ∧ e.at_ = m.ends := by
  let m := o.started ((s.core s.arg.c).divAt s.arg.n) s.arg.n
  have core := core_posted s s.arg.c (fun x => { x with mrun := some m, mwait := none }) m.ends .matrixOpComplete
  exact ⟨_, m, matrixOpStart_takes s o idle waits, congrArg (·.mwait) core, congrArg (·.mrun) core, rfl, rfl, rfl, rfl, rfl, rfl, rfl, rfl, rfl, _,
    by rw [core]; exact mem_awaiting .., rfl, rfl⟩

/-- An operation that has cycles left ends that many later. -/
theorem matrixOpComplete_lengthens (now : ((s.runUnit s.arg.c).core s.arg.c).mrun = some o) (left : o.pos < o.occ) :
    ∃ t, exec .matrixOpComplete s = .next t ∧ t.mem = s.mem ∧ (t.core s.arg.c).mrun = some { o with ends := o.ends + (o.occ - o.pos) }
      ∧ ∃ e ∈ (t.core s.arg.c).events, e.row = .matrixOpComplete ∧ e.at_ = o.ends + (o.occ - o.pos) := by
  have core := core_posted (s.runUnit s.arg.c) s.arg.c (fun x => { x with mrun := some { o with ends := o.ends + (o.occ - o.pos) } })
    (o.ends + (o.occ - o.pos)) .matrixOpComplete
  exact ⟨_, (exec_matrixOpComplete now).trans (if_pos left), runUnit_mem s _, congrArg (·.mrun) core, _,
    by rw [core]; exact mem_awaiting .., rfl, rfl⟩

end

/-- Settles O31: the operation starts and ends by the outcomes of its events, its cycles pass by `run_one`, and its rows are those that
`runMatrix_puts` puts. -/
theorem matrixUnitAtWork : Obligations.MatrixUnitAtWork := by
  exact ⟨fun s o => ⟨matrixOpStart_starts, matrixOpComplete_lengthens, matrixOpComplete_writes, fun now done p => matrixOpComplete_traps now done⟩,
    fun o mirrors ports left => ⟨run_passes left, run_loses_writes left, run_loses_reads left⟩,
    field_mmaRowInt⟩

end Sys2Proof.Machine
end

section
/-! Results and loads that complete, and the fetches that fill buffers (O46). -/

namespace Sys2Proof.Machine
open Sys2Proof

/-! ### The first result -/

/-- The order of completion: by cycle, then by order of issue (R22, R65). -/
def Result.rank (r : Result) : ℕ ×ₗ ℕ := toLex (r.due, r.seq)

theorem before_iff (a b : Result) : a.before b = true ↔ a.rank < b.rank := by
  rw [Result.before, Result.rank, Result.rank, Prod.Lex.toLex_lt_toLex, Bool.or_eq_true, Bool.and_eq_true, beq_iff_eq, decide_eq_true_eq,
    decide_eq_true_eq]

theorem before_eq_false {a b : Result} : a.before b = false ↔ b.rank ≤ a.rank := by rw [← Bool.not_eq_true, before_iff, not_lt]

/-- The result, or one that comes before it. -/
noncomputable def Result.orSooner (x : Result) : Option Result → Result
  | none => x
  | some q => if q.before x then q else x

theorem firstResult_cons (x : Result) (xs : List Result) : firstResult (x :: xs) = some (x.orSooner (firstResult xs)) := by
  have cons (o : Option Result) : (match o with
      | none => some x
      | some q => if q.before x then some q else some x) = some (x.orSooner o) := by
    cases o with
    | none => rfl
    | some q => exact (apply_ite some ..).symm
  exact cons (firstResult xs)

theorem firstResult_none {l : List Result} (h : firstResult l = none) : l = [] := by
  cases l with
  | nil => rfl
  | cons x xs => exact absurd ((firstResult_cons x xs).symm.trans h) (Option.some_ne_none _)

theorem orSooner_ind {P : Result → Prop} {x q : Result} (sooner : q.before x = true → P q) (later : q.before x = false → P x) :
    P (x.orSooner (some q)) :=
  dite_ind P (c := q.before x = true) sooner fun h => later (Bool.not_eq_true _ ▸ h)

/-- The first result is one of those in flight, and none comes before it. -/
theorem firstResult_some {l : List Result} {r : Result} (h : firstResult l = some r) : r ∈ l ∧ ∀ q ∈ l, q.before r = false := by
  induction l generalizing r with
  | nil => cases h
  | cons x xs ih =>
    obtain rfl := Option.some.inj ((firstResult_cons x xs).symm.trans h)
    have least (x : Result) : x.before x = false := before_eq_false.mpr le_rfl
    cases e : firstResult xs with
    | none => exact firstResult_none e ▸ ⟨List.mem_cons_self, List.forall_mem_singleton.mpr (least x)⟩
    | some q =>
      obtain ⟨mem, first⟩ := ih e
      refine orSooner_ind (P := fun r => r ∈ x :: xs ∧ ∀ y ∈ x :: xs, y.before r = false) (fun sooner => ?_) fun later => ?_
      · exact ⟨List.mem_cons_of_mem _ mem, List.forall_mem_cons.mpr ⟨before_eq_false.mpr ((before_iff ..).mp sooner).le, first⟩⟩
      · exact ⟨List.mem_cons_self, List.forall_mem_cons.mpr ⟨least x, fun y hy =>
          before_eq_false.mpr ((before_eq_false.mp later).trans (before_eq_false.mp (first y hy)))⟩⟩

/-! ### Completion -/

section
variable (x : Regs) (data : Vec)

/-- The registers with a predicate set. -/
noncomputable def Regs.putPred (p : Nat) : Regs := { x with p := if data.getLsbD 0 then x.p ||| (1#8 <<< p) else x.p &&& ~~~(1#8 <<< p) }

/-- The registers with the enabled bits of a mask set. -/
noncomputable def Regs.putMask (ben : Mask) (m : Nat) (h : m < 8) : Regs :=
  { x with mks := x.mks.set m ((x.mks.get ⟨m, h⟩ &&& ~~~ben) ||| (data.setWidth 512 &&& ben)) h }

/-- The registers with an element of a stream that waits for its value. -/
noncomputable def Regs.putHead (ben : Mask) (tag n : Nat) (h : n < 16) : Regs :=
  { x with streams := x.streams.set n ((x.streams.get ⟨n, h⟩).land tag data ben) h }

/-- The registers once a destination has been written. -/
noncomputable def Regs.delivered (dest : Dest) (ben : Mask) : Regs :=
  match dest with
  | .s r => if ben = 0 then x else x.setS r (data.setWidth 64)
  | .pred p => if ben = 0 then x else x.putPred data p
  | .mask m => if h : m < 8 then x.putMask data ben m h else x
  | .ofe n => x.setOf n data ben
  | .ofHead n tag => if h : n < 16 then x.putHead data ben tag n h else x
  | .bp => { x with bp := mergeBytes x.bp data ben, bpPoison := if ben = allBytes then none else x.bpPoison }
  | .rs _ | .lent _ | .none => x

/-- The registers with a value in a unit's latch. -/
noncomputable def Regs.recorded (u : Fin 3) : Regs := { x with lat := x.lat.record u data }

end

/-- The registers with a result's value in its unit's latch. -/
noncomputable def Regs.latched (x : Regs) (r : Result) : Regs :=
  { x with lat := match r.lat with
      | some u => x.lat.record u r.data
      | none => x.lat }

/-- Whether a destination stands in memory. -/
def Dest.inMemory : Dest → Bool
  | .rs _ | .lent _ => true
  | _ => false

/-- The frame with other registers. -/
noncomputable def Frame.withRegs (f : Frame) (x : Regs) : Frame := { f with r := x }

theorem setS_lat (x : Regs) (i : Nat) (v : Word) : (x.setS i v).lat = x.lat := dite_ind (fun y : Regs => y.lat = x.lat) (fun _ => rfl) fun _ => rfl

theorem setOf_lat (x : Regs) (i : Nat) (v : Vec) (ben : Mask) : (x.setOf i v ben).lat = x.lat :=
  dite_ind (fun y : Regs => y.lat = x.lat) (fun _ => rfl) fun _ => rfl

theorem delivered_lat (x : Regs) (dest : Dest) (ben : Mask) (data : Vec) : (x.delivered data dest ben).lat = x.lat :=
  match dest with
  | .s _ => ite_ind (fun y : Regs => y.lat = x.lat) rfl (setS_lat ..)
  | .pred _ => ite_ind (fun y : Regs => y.lat = x.lat) rfl rfl
  | .mask _ => dite_ind (fun y : Regs => y.lat = x.lat) (fun _ => rfl) fun _ => rfl
  | .ofe _ => setOf_lat ..
  | .ofHead _ _ => dite_ind (fun y : Regs => y.lat = x.lat) (fun _ => rfl) fun _ => rfl
  | .bp | .rs _ | .lent _ | .none => rfl

section
variable (s : State) (c : CoreId) (k : Fin 4)

theorem frameAt_usePorts (l : List (Nat × Nat × Port)) (d : CoreId) (j : Fin 4) : (s.usePorts c l).frameAt d j = s.frameAt d j :=
  ite_ind (fun t : State => t.frameAt d j = s.frameAt d j) rfl (frameAt_updCore s c (by intro; rfl) d j)

theorem frameAt_portWrite (r : Result) (d : CoreId) (j : Fin 4) : (s.portWrite c k r).frameAt d j = s.frameAt d j := by
  unfold State.portWrite
  split
  · exact ite_ind (fun t : State => t.frameAt d j = s.frameAt d j) rfl (frameAt_usePorts ..)
  · rfl

/-! A change of a frame's registers, under a condition. -/

theorem frameAt_ite {p : Prop} [Decidable p] (g : Regs → Regs) :
    (if p then s else s.updFrameAt c k fun f => { f with r := g f.r }).frameAt c k
      = (s.frameAt c k).withRegs (if p then (s.frameAt c k).r else g (s.frameAt c k).r) := by
  split
  · rfl
  · exact frameAt_updFrameAt_self ..

theorem frameAt_dite {p : Prop} [Decidable p] (g : p → Regs → Regs) {t : p → State}
    (lands : ∀ h, (t h).frameAt c k = (s.frameAt c k).withRegs (g h (s.frameAt c k).r)) :
    (if h : p then t h else s).frameAt c k = (s.frameAt c k).withRegs (if h : p then g h (s.frameAt c k).r else (s.frameAt c k).r) := by
  split
  · exact lands _
  · rfl

theorem frameAt_deliver (dest : Dest) (ben : Mask) (data : Vec) :
    (s.deliver c k dest ben data).frameAt c k = (s.frameAt c k).withRegs ((s.frameAt c k).r.delivered data dest ben) :=
  match dest with
  | .s d => frameAt_ite s c k fun x => x.setS d (data.setWidth 64)
  | .pred p => frameAt_ite s c k fun x => x.putPred data p
  | .mask m => frameAt_dite s c k (fun h x => x.putMask data ben m h) fun _ => frameAt_updFrameAt_self ..
  | .ofe _ => frameAt_updFrameAt_self ..
  | .ofHead n tag => frameAt_dite s c k (fun h x => x.putHead data ben tag n h) fun _ =>
      (frameAt_updCore _ c (by intro; rfl) c k).trans (frameAt_updFrameAt_self ..)
  | .bp => frameAt_updFrameAt_self ..
  | .rs _ | .lent _ | .none => rfl

/-- A result completes in its frame's registers alone. -/
theorem frameAt_complete (r : Result) : (s.complete c k r).frameAt c k
    = (s.frameAt c k).withRegs (((s.frameAt c k).r.delivered r.data r.dest r.ben).latched r) := by
  have delivered := (frameAt_deliver (s.portWrite c k r) c k r.dest r.ben r.data).trans
    (congrArg (fun f : Frame => f.withRegs (f.r.delivered r.data r.dest r.ben)) (frameAt_portWrite s c k r c k))
  unfold State.complete Regs.latched
  generalize (s.portWrite c k r).deliver c k r.dest r.ben r.data = t at *
  generalize (s.frameAt c k).r.delivered r.data r.dest r.ben = x at *
  generalize r.lat = latch
  cases latch with
  | some u => exact (frameAt_updFrameAt_self ..).trans (congrArg (fun f : Frame => f.withRegs (f.r.recorded r.data u)) delivered)
  | none => exact delivered

theorem complete_mem_eq (r : Result) : (s.complete c k r).mem = ((s.portWrite c k r).deliver c k r.dest r.ben r.data).mem := by
  unfold State.complete; dsimp only; split <;> rfl

/-- Only a result that goes to register space, own or lent, writes memory. -/
theorem complete_mem {r : Result} (elsewhere : r.dest.inMemory = false) : (s.complete c k r).mem = s.mem := by
  rw [complete_mem_eq, ← portWrite_mem s c k r]
  generalize s.portWrite c k r = t
  generalize r.dest = dest at elsewhere
  exact match dest, elsewhere with
    | .s _, _ => ite_ind (fun u : State => u.mem = t.mem) rfl rfl
    | .pred _, _ => ite_ind (fun u : State => u.mem = t.mem) rfl rfl
    | .mask _, _ => dite_ind (fun u : State => u.mem = t.mem) (fun _ => rfl) fun _ => rfl
    | .ofHead _ _, _ => dite_ind (fun u : State => u.mem = t.mem) (fun _ => rfl) fun _ => rfl
    | .ofe _, _ | .bp, _ | .none, _ => rfl

/-- A result to register space writes its enabled bytes. -/
theorem byte_complete (r : Result) {off : Nat} (rs : r.dest = .rs off) (a : Nat) : Memory.byte (s.complete c k r).mem a =
    if s.rsPa c k off ≤ a ∧ a < s.rsPa c k off + 512 ∧ r.ben.getLsbD (a - s.rsPa c k off) = true then
      BitVec.ofNat 8 (r.data.toNat >>> (8 * (a - s.rsPa c k off))) else Memory.byte s.mem a := by
  have pa : (s.portWrite c k r).rsPa c k off = s.rsPa c k off := congrArg (fun f : Frame => winBase c + f.id.base * 512 + off) (frameAt_portWrite s c k r c k)
  rw [complete_mem_eq, rs]
  refine (byte_chipWrite ..).trans ?_
  rw [pa, portWrite_mem, BitVec.testBit_toNat]

end

/-! ### What a register file holds after a result -/

theorem delivered_s {x : Regs} {dest : Dest} {d : Nat} (h : dest = .s d) {ben : Mask} (on : ben ≠ 0) (data : Vec) :
    x.delivered data dest ben = x.setS d (data.setWidth 64) := by subst h; exact if_neg on

theorem setS_get (x : Regs) {d : Nat} (v : Word) (pos : 0 < d) (small : d < 48) (j : Fin 48) :
    (x.setS d v).s.get j = if j.val = d then v else x.s.get j := by
  rw [Regs.setS, dif_pos ⟨pos, small⟩]
  refine (vector_get_set x.s ⟨d, small⟩ j _).trans (if_congr ?_ rfl rfl)
  rw [eq_comm, Fin.ext_iff]

theorem setS_sPoison (x : Regs) {d : Nat} (v : Word) (pos : 0 < d) (small : d < 48) :
    (x.setS d v).sPoison = x.sPoison.filter (·.1 != d) := by
  rw [Regs.setS, dif_pos ⟨pos, small⟩]

theorem delivered_zero {x : Regs} {dest : Dest} (h : dest = .s 0) (ben : Mask) (data : Vec) : x.delivered data dest ben = x := by
  subst h
  exact ite_ind (fun y : Regs => y = x) rfl (dif_neg fun h => Nat.lt_irrefl 0 h.1)

theorem bit_shifted {p : Nat} (small : p < 8) {j : Nat} : (1#8 <<< p).getLsbD j = decide (j = p) := by
  rw [← BitVec.twoPow_eq, BitVec.getLsbD_twoPow, decide_eq_true small, Bool.true_and]
  exact decide_eq_decide.mpr eq_comm

theorem bit_setPred (x : BitVec 8) (v : Bool) {p j : Nat} (small : p < 8) (hj : j < 8) :
    (if v then x ||| (1#8 <<< p) else x &&& ~~~(1#8 <<< p)).getLsbD j = if j = p then v else x.getLsbD j := by
  cases v
  · rw [if_neg Bool.false_ne_true, BitVec.getLsbD_and, BitVec.getLsbD_not, bit_shifted small, decide_eq_true hj]
    by_cases e : j = p
    · rw [if_pos e, decide_eq_true e]; exact Bool.and_false _
    · rw [if_neg e, decide_eq_false e]; exact Bool.and_true _
  · rw [if_pos rfl, BitVec.getLsbD_or, bit_shifted small]
    by_cases e : j = p
    · rw [if_pos e, decide_eq_true e]; exact Bool.or_true _
    · rw [if_neg e, decide_eq_false e]; exact Bool.or_false _

theorem delivered_pred (x : Regs) {dest : Dest} {p : Nat} (h : dest = .pred p) {ben : Mask} (data : Vec) (small : p < 8) (on : ben ≠ 0) {j : Nat}
    (hj : j < 8) : (x.delivered data dest ben).p.getLsbD j = if j = p then data.getLsbD 0 else x.p.getLsbD j := by
  subst h
  exact (congrArg (fun y : Regs => y.p.getLsbD j) (if_neg on)).trans (bit_setPred x.p _ small hj)

theorem bit_setMask (x ben : Mask) (data : Vec) {j : Nat} (hj : j < 512) :
    ((x &&& ~~~ben) ||| (data.setWidth 512 &&& ben)).getLsbD j = if ben.getLsbD j then data.getLsbD j else x.getLsbD j := by
  rw [BitVec.getLsbD_or, BitVec.getLsbD_and, BitVec.getLsbD_not, BitVec.getLsbD_and, BitVec.getLsbD_setWidth, decide_eq_true hj]
  generalize x.getLsbD j = old, data.getLsbD j = new, ben.getLsbD j = on
  revert old new on
  decide

theorem delivered_mask (x : Regs) {dest : Dest} {m : Fin 8} (h : dest = .mask m.val) (ben : Mask) (data : Vec) {j : Nat} (hj : j < 512) :
    ((x.delivered data dest ben).mks.get m).getLsbD j = if ben.getLsbD j then data.getLsbD j else (x.mks.get m).getLsbD j := by
  subst h
  exact (congrArg (fun y : Regs => (y.mks.get m).getLsbD j) (dif_pos m.isLt)).trans
    ((congrArg (·.getLsbD j) ((vector_get_set x.mks m m _).trans (if_pos rfl))).trans (bit_setMask _ ben data hj))

/-! Registers `y` that a result has left where `x` stood. -/

section
variable {x y : Regs} {r : Result} (regs : y = (x.delivered r.data r.dest r.ben).latched r)
include regs

theorem completed_lat : y.lat = match r.lat with
    | some u => x.lat.record u r.data
    | none => x.lat := by
  subst regs
  exact congrArg (fun l : Latches => match r.lat with
    | some u => l.record u r.data
    | none => l) (delivered_lat ..)

theorem completed_zero (h : r.dest = .s 0) : y.s = x.s := regs ▸ congrArg (·.s) (delivered_zero h r.ben r.data)

theorem completed_s {d : Nat} (h : r.dest = .s d) (pos : 0 < d) (small : d < 48) (on : r.ben ≠ 0) (j : Fin 48) :
    y.s.get j = if j.val = d then r.data.setWidth 64 else x.s.get j :=
  regs ▸ (congrArg (·.s.get j) (delivered_s h on r.data)).trans (setS_get x _ pos small j)

theorem completed_pred {p : Nat} (h : r.dest = .pred p) (small : p < 8) (on : r.ben ≠ 0) {j : Nat} (hj : j < 8) :
    y.p.getLsbD j = if j = p then r.data.getLsbD 0 else x.p.getLsbD j := regs ▸ delivered_pred x h r.data small on hj

theorem completed_mask {m : Fin 8} (h : r.dest = .mask m.val) {j : Nat} (hj : j < 512) :
    (y.mks.get m).getLsbD j = if r.ben.getLsbD j then r.data.getLsbD j else (x.mks.get m).getLsbD j := regs ▸ delivered_mask x h r.ben r.data hj

theorem completed_rs {off : Nat} (h : r.dest = .rs off) : y.s = x.s := regs ▸ congrArg (fun d => (x.delivered r.data d r.ben).s) h

/-! What the statement asks of each destination, `M` being memory as it was. -/

variable {M : Prop} (mem : r.dest.inMemory = false → M)
include mem

theorem scalar_completed : ∀ d, r.dest = .s d → 0 < d → d < 48 → r.ben ≠ 0 →
    (∀ j : Fin 48, y.s.get j = if j.val = d then r.data.setWidth 64 else x.s.get j) ∧ M :=
  fun _ h pos small on => ⟨completed_s regs h pos small on, mem (congrArg Dest.inMemory h)⟩

theorem zero_completed (h : r.dest = .s 0) : y.s = x.s ∧ M := ⟨completed_zero regs h, mem (congrArg Dest.inMemory h)⟩

theorem pred_completed : ∀ p, r.dest = .pred p → p < 8 → r.ben ≠ 0 →
    M ∧ ∀ j, j < 8 → y.p.getLsbD j = if j = p then r.data.getLsbD 0 else x.p.getLsbD j :=
  fun _ h small on => ⟨mem (congrArg Dest.inMemory h), fun _ => completed_pred regs h small on⟩

theorem mask_completed : ∀ m : Fin 8, r.dest = .mask m.val →
    M ∧ ∀ j, j < 512 → (y.mks.get m).getLsbD j = if r.ben.getLsbD j then r.data.getLsbD j else (x.mks.get m).getLsbD j :=
  fun _ h => ⟨mem (congrArg Dest.inMemory h), fun _ => completed_mask regs h⟩

end

/-! ### The results' event -/

/-- The frame without its first result. -/
noncomputable def Frame.landed (f : Frame) (r : Result) : Frame := { f with infl := dropFirst (· == r) f.infl }

/-- What a result to register space leaves in memory. -/
noncomputable def State.SpaceWritten (s t : State) (r : Result) (off : Nat) : Prop :=
  ∀ a, Memory.byte t.mem a =
    if s.rsPa s.arg.c s.arg.k off ≤ a ∧ a < s.rsPa s.arg.c s.arg.k off + 512 ∧ r.ben.getLsbD (a - s.rsPa s.arg.c s.arg.k off) = true then
      BitVec.ofNat 8 (r.data.toNat >>> (8 * (a - s.rsPa s.arg.c s.arg.k off))) else Memory.byte s.mem a

theorem space_completed {s t : State} {x y : Regs} {r : Result} (regs : y = (x.delivered r.data r.dest r.ben).latched r)
    (bytes : ∀ off, r.dest = .rs off → s.SpaceWritten t r off) : ∀ off, r.dest = .rs off → y.s = x.s ∧ s.SpaceWritten t r off :=
  fun off h => ⟨completed_rs regs h, bytes off h⟩

section
variable {s : State} {r : Result} (first : firstResult (s.frameAt s.arg.c s.arg.k).infl = some r)
include first

theorem exec_resultComplete : exec .resultComplete s =
    .next ((s.updFrameAt s.arg.c s.arg.k (·.landed r)).complete s.arg.c s.arg.k r) := by
  change execResultComplete s = _
  unfold execResultComplete
  dsimp only
  rw [first]
  rfl

/-- RESULT_COMPLETE takes the first result from flight and puts it in the registers. -/
theorem resultComplete_leads {P : State → Prop} (holds : ∀ {t : State},
      t.frameAt s.arg.c s.arg.k = ((s.frameAt s.arg.c s.arg.k).landed r).withRegs
        (((s.frameAt s.arg.c s.arg.k).r.delivered r.data r.dest r.ben).latched r) →
      (r.dest.inMemory = false → t.mem = s.mem) → (∀ off, r.dest = .rs off → s.SpaceWritten t r off) → P t) :
    ∃ t, exec .resultComplete s = .next t ∧ P t := by
  have frame := frameAt_updFrameAt_self s s.arg.c s.arg.k (·.landed r)
  refine ⟨_, exec_resultComplete first, holds ((frameAt_complete ..).trans (congrArg (fun f : Frame =>
    f.withRegs ((f.r.delivered r.data r.dest r.ben).latched r)) frame)) (fun h => complete_mem _ _ _ h) fun off rs a => ?_⟩
  have pa : (s.updFrameAt s.arg.c s.arg.k (·.landed r)).rsPa s.arg.c s.arg.k off = s.rsPa s.arg.c s.arg.k off :=
    (congrArg (fun f : Frame => winBase s.arg.c + f.id.base * 512 + off) frame).trans rfl
  rw [byte_complete _ _ _ _ rs a, pa]
  rfl

/-- What a completed result leaves in its frame and in memory, by its destination. -/
theorem resultComplete_completes :
    let f := s.frameAt s.arg.c s.arg.k
    ∃ t, exec .resultComplete s = .next t
      ∧ ((t.frameAt s.arg.c s.arg.k).id = f.id ∧ (t.frameAt s.arg.c s.arg.k).tr = f.tr ∧ (t.frameAt s.arg.c s.arg.k).msg = f.msg)
      ∧ (t.frameAt s.arg.c s.arg.k).infl = dropFirst (· == r) f.infl ∧ (t.frameAt s.arg.c s.arg.k).ctl = f.ctl
      ∧ (t.frameAt s.arg.c s.arg.k).loads = f.loads
      ∧ (t.frameAt s.arg.c s.arg.k).r.lat = (match r.lat with
          | some u => f.r.lat.record u r.data
          | none => f.r.lat)
      ∧ (∀ d, r.dest = .s d → 0 < d → d < 48 → r.ben ≠ 0 →
          (∀ j : Fin 48, (t.frameAt s.arg.c s.arg.k).r.s.get j = if j.val = d then r.data.setWidth 64 else f.r.s.get j) ∧ t.mem = s.mem)
      ∧ (r.dest = .s 0 → (t.frameAt s.arg.c s.arg.k).r.s = f.r.s ∧ t.mem = s.mem)
      ∧ (∀ p, r.dest = .pred p → p < 8 → r.ben ≠ 0 → t.mem = s.mem ∧ ∀ j, j < 8 →
          (t.frameAt s.arg.c s.arg.k).r.p.getLsbD j = if j = p then r.data.getLsbD 0 else f.r.p.getLsbD j)
      ∧ (∀ m : Fin 8, r.dest = .mask m.val → t.mem = s.mem ∧ ∀ j, j < 512 →
          ((t.frameAt s.arg.c s.arg.k).r.mks.get m).getLsbD j = if r.ben.getLsbD j then r.data.getLsbD j else (f.r.mks.get m).getLsbD j)
      ∧ (∀ off, r.dest = .rs off → (t.frameAt s.arg.c s.arg.k).r.s = f.r.s ∧ s.SpaceWritten t r off) := by
  refine resultComplete_leads first fun frame mem bytes => ?_
  have part {α : Type} (p : Frame → α) := congrArg p frame
  have regs := part (·.r)
  exact ⟨⟨part (·.id), part (·.tr), part (·.msg)⟩, part (·.infl), part (·.ctl), part (·.loads), completed_lat regs, scalar_completed regs mem,
    zero_completed regs mem, pred_completed regs mem, mask_completed regs mem, space_completed regs bytes⟩

end

/-! ### The loads' event -/

/-- The frame without a load that was under way. -/
noncomputable def Frame.unloaded (f : Frame) (p : Pending) : Frame := { f with loads := dropFirst (· == p) f.loads }

/-- A load taken from those under way. -/
noncomputable def State.unloaded (s : State) (p : Pending) : State := s.updFrameAt s.arg.c s.arg.k (·.unloaded p)

/-- What a landed load brings, as a result. -/
noncomputable def State.landed (s : State) (p : Pending) : Result :=
  { due := s.cyc s.arg.c - 1, dest := p.dest, ben := p.ben, data := p.value, lat := p.lat }

/-- The state of a landed load before its poison is noted. -/
noncomputable def State.loaded (s : State) (p : Pending) : State := (s.unloaded p).complete s.arg.c s.arg.k ((s.unloaded p).landed p)

/-- The registers with the poison of a scalar register noted. -/
noncomputable def Regs.marked (x : Regs) (d : Nat) (src : Nat) : Regs := { x with sPoison := x.sPoison ++ [(d, src)] }

/-- The frame with the poison of a scalar register noted. -/
noncomputable def Frame.marked (f : Frame) (d : Nat) (src : Nat) : Frame := f.withRegs (f.r.marked d src)

/-- The registers `y` are `x` with a load's value in register `d`, and its poison. -/
structure Regs.Loads (x y : Regs) (p : Pending) (d : Nat) : Prop where
  value : ∀ j : Fin 48, y.s.get j = if j.val = d then p.value.setWidth 64 else x.s.get j
  poison : y.sPoison = x.sPoison.filter (·.1 != d) ++ (p.poison.map (d, ·)).toList

/-- The poison of a load noted at its destination. -/
noncomputable def State.noted (w : State) (c : CoreId) (k : Fin 4) (p : Pending) (dest : Dest) : State :=
  match p.poison with
  | some src => if p.ben = 0 then w else w.poisonDest c k dest src
  | none => w

/-- What the landing makes of a load's state, by its destination (R141, R229). -/
noncomputable def State.landedAt (w : State) (c : CoreId) (k : Fin 4) (p : Pending) (dest : Dest) : State :=
  let w := match dest with
    | .ofHead _ _ => w.noted c k p dest
    | _ => w
  let w := w.complete c k { due := w.cyc c - 1, dest := p.dest, ben := p.ben, data := p.value, lat := p.lat }
  match dest with
  | .ofHead _ _ => w
  | _ => w.noted c k p dest

section
variable {s : State} {p : Pending} (found : ((s.frameAt s.arg.c s.arg.k).loads.find? fun l => l.id == s.arg.id && l.parts == 0) = some p)
include found

theorem landLoad_eq : s.landLoad s.arg.c s.arg.k s.arg.id = (s.unloaded p).landedAt s.arg.c s.arg.k p p.dest := by
  unfold State.landLoad
  rw [found]
  rfl

variable {d : Nat} (scalar : p.dest = .s d)
include scalar

theorem landLoad_scalar : s.landLoad s.arg.c s.arg.k s.arg.id = (s.loaded p).noted s.arg.c s.arg.k p (.s d) :=
  (landLoad_eq found).trans (congrArg ((s.unloaded p).landedAt s.arg.c s.arg.k p) scalar)

variable (pos : 0 < d) (on : p.ben ≠ 0) (small : d < 48)
include pos on small

/-- A scalar load that lands puts its value in its register. -/
theorem landLoad_leads {P : State → Prop} (holds : ∀ {t : State} {y : Regs}, t.mem = s.mem →
      t.frameAt s.arg.c s.arg.k = ((s.frameAt s.arg.c s.arg.k).unloaded p).withRegs y → (s.frameAt s.arg.c s.arg.k).r.Loads y p d → P t) :
    ∃ t, exec .loadComplete s = .next t ∧ exec .vectorLoadLand s = .next t ∧ P t := by
  have frame := (frameAt_complete (s.unloaded p) s.arg.c s.arg.k ((s.unloaded p).landed p)).trans (congrArg (fun f : Frame =>
    f.withRegs ((f.r.delivered p.value p.dest p.ben).latched ((s.unloaded p).landed p))) (frameAt_updFrameAt_self s s.arg.c s.arg.k (·.unloaded p)))
  have mem : (s.loaded p).mem = s.mem := complete_mem _ _ _ (congrArg Dest.inMemory scalar)
  have regs := congrArg (Regs.latched · ((s.unloaded p).landed p)) (delivered_s (x := (s.frameAt s.arg.c s.arg.k).r) scalar on p.value)
  have value (j : Fin 48) := (congrArg (·.s.get j) regs).trans (setS_get (s.frameAt s.arg.c s.arg.k).r _ pos small j)
  have clean := (congrArg (·.sPoison) regs).trans (setS_sPoison (s.frameAt s.arg.c s.arg.k).r _ pos small)
  have lands {t : State} (h : (s.loaded p).noted s.arg.c s.arg.k p (.s d) = t) : exec .loadComplete s = .next t :=
    congrArg Host.Outcome.next ((landLoad_scalar found scalar).trans h)
  rcases poison : p.poison with _ | src
  · have next := lands (by unfold State.noted; rw [poison])
    exact ⟨_, next, next, holds mem frame ⟨value, by rw [poison]; exact clean.trans (List.append_nil _).symm⟩⟩
  · have next := lands (t := (s.loaded p).updFrameAt s.arg.c s.arg.k (·.marked d src)) (by
      unfold State.noted; rw [poison]; exact (if_neg on).trans (if_neg (Nat.ne_of_gt pos)))
    have marked := (frameAt_updFrameAt_self (s.loaded p) s.arg.c s.arg.k (·.marked d src)).trans (congrArg (Frame.marked · d src) frame)
    exact ⟨_, next, next, holds mem marked ⟨value, by rw [poison]; exact congrArg (· ++ [(d, src)]) clean⟩⟩

end

/-- The values that a scalar load delivers (R140). -/
theorem value_zeroExtended {p : Pending} (form : p.form = 0) : p.value.setWidth 64 = BitVec.ofNat 64 (p.data.toNat % 2 ^ (8 * p.n)) := by
  unfold Pending.value
  rw [form]
  exact BitVec.eq_of_toNat_eq (Nat.mod_mod_of_dvd _ (Nat.pow_dvd_pow 2 (by decide)))

theorem value_signExtended {p : Pending} (form : p.form = 1) : p.value.setWidth 64 = BitVec.ofInt 64 (toInt (8 * p.n) p.data.toNat) := by
  unfold Pending.value
  rw [form]
  exact BitVec.setWidth_setWidth_of_le _ (by decide)

/-! ### Fetches -/

@[simp] theorem frameAt_learnFetch (w : State) (c : CoreId) (x : Walked) (d : CoreId) (j : Fin 4) : (w.learnFetch c x).frameAt d j = w.frameAt d j := by
  have walked (l : List Nat) (w : State) : (l.foldl (fun (s : State) a => s.arrive a 8) w).frameAt d j = w.frameAt d j := by
    induction l generalizing w with
    | nil => rfl
    | cons a l ih => exact (ih _).trans rfl
  unfold State.learnFetch
  rw [frameAt_updCore _ _ (by intro; rfl)]
  exact walked _ w

@[simp] theorem fetchAll_frameAt (s : State) (x : Arg) (l : List Word) (d : CoreId) (j : Fin 4) :
    (fetchAll s x l).2.frameAt d j = s.frameAt d j := by
  induction l generalizing s with
  | nil => rfl
  | cons a l ih =>
    unfold fetchAll
    split
    · exact ih s
    · exact (ih _).trans (frameAt_learnFetch ..)

/-- What is fetched stands under addresses asked for. -/
theorem fetchAll_asked (s : State) (x : Arg) {l : List Word} {e : Nat × Bundle} (h : e ∈ (fetchAll s x l).1) : e.1 ∈ l.map (·.toNat) := by
  induction l generalizing s with
  | nil => exact absurd h List.not_mem_nil
  | cons a l ih =>
    unfold fetchAll at h
    split at h
    · exact List.mem_cons_of_mem _ (ih s h)
    · rcases List.mem_cons.mp h with rfl | h
      · exact List.mem_cons_self
      · exact List.mem_cons_of_mem _ (ih _ h)

/-- The first address is fetched under what the asking operation gave. -/
theorem fetchAll_first {s : State} {x : Arg} {a : Word} {b : Bundle} {w : Walked} (l : List Word)
    (h : fetchUnder s x.c x.k x.w1 x.h a = .ok (b, w)) : (a.toNat, b) ∈ (fetchAll s x (a :: l)).1 := by
  unfold fetchAll
  rw [h]
  exact List.mem_cons_self

/-- The frame with entry `u` filled (R147). -/
noncomputable def Frame.targetFilled (f : Frame) (u : Nat) (h : u < 8) (x : Target) (code : List (Nat × Bundle)) : Frame :=
  { f with ctl := { f.ctl with tg := f.ctl.tg.set u { x with filled := true, code := code } h } }

/-- The frame with the buffer of level `u` filled (R159). -/
noncomputable def Frame.bufferFilled (f : Frame) (u : Nat) (h : u < 6) (x : Level) (code : List (Nat × Bundle)) : Frame :=
  { f with ctl := { f.ctl with lv := f.ctl.lv.set u { x with filled := true, buf := code } h } }

/-- The addresses that a level's buffer holds (R159). -/
def Level.buffered (x : Level) : List Word := [x.lstart, x.lstart + 16, x.lstop + 16, x.lstop + 32]

/-- The state whose entry of the target buffer is `x` with what is fetched for it. -/
noncomputable def State.targetFilled (s : State) (h : s.arg.u < 8) (x : Target) : State :=
  let r := fetchAll s s.arg [s.arg.w0, s.arg.w0 + 16]
  r.2.updFrameAt s.arg.c s.arg.k (·.targetFilled s.arg.u h x r.1)

/-- The state whose level is `x` with what is fetched for its buffer. -/
noncomputable def State.bufferFilled (s : State) (h : s.arg.u < 6) (x : Level) : State :=
  let r := fetchAll s s.arg x.buffered
  r.2.updFrameAt s.arg.c s.arg.k (·.bufferFilled s.arg.u h x r.1)

theorem frameAt_targetFilled (s : State) (h : s.arg.u < 8) (x : Target) : (s.targetFilled h x).frameAt s.arg.c s.arg.k =
    (s.frameAt s.arg.c s.arg.k).targetFilled s.arg.u h x (fetchAll s s.arg [s.arg.w0, s.arg.w0 + 16]).1 :=
  (frameAt_updFrameAt_self ..).trans (congrArg (Frame.targetFilled · s.arg.u h x _) (fetchAll_frameAt ..))

theorem frameAt_bufferFilled (s : State) (h : s.arg.u < 6) (x : Level) : (s.bufferFilled h x).frameAt s.arg.c s.arg.k =
    (s.frameAt s.arg.c s.arg.k).bufferFilled s.arg.u h x (fetchAll s s.arg x.buffered).1 :=
  (frameAt_updFrameAt_self ..).trans (congrArg (Frame.bufferFilled · s.arg.u h x _) (fetchAll_frameAt ..))

section
variable {s : State} {x : Target} (h : s.arg.u < 8) (entry : (s.frameAt s.arg.c s.arg.k).ctl.tg.get ⟨s.arg.u, h⟩ = x)
include h entry

theorem prepFetch_stale (stale : x.valid = false ∨ x.addr ≠ s.arg.w0) : exec .prepFetchComplete s = .next s := by
  subst entry
  refine (dif_pos h).trans (if_neg fun both => ?_)
  obtain ⟨valid, same⟩ := Bool.and_eq_true_iff.mp both
  exact stale.elim (fun e => Bool.eq_false_iff.mp e valid) fun e => e (beq_iff_eq.mp same)

theorem prepFetch_fills (valid : x.valid = true) (same : x.addr = s.arg.w0) : exec .prepFetchComplete s = .next (s.targetFilled h x) := by
  subst entry
  exact (dif_pos h).trans (if_pos (Bool.and_eq_true_iff.mpr ⟨valid, beq_iff_eq.mpr same⟩))

end

section
variable {s : State} {x : Level} (h : s.arg.u < 6) (level : (s.frameAt s.arg.c s.arg.k).ctl.lv.get ⟨s.arg.u, h⟩ = x)
include h level

theorem loopFill_stale (stale : x.lstart ≠ s.arg.w0 + 16) : exec .loopBufferFill s = .next s := by
  subst level
  exact (dif_pos h).trans (if_neg stale)

theorem loopFill_fills (same : x.lstart = s.arg.w0 + 16) : exec .loopBufferFill s = .next (s.bufferFilled h x) := by
  subst level
  exact (dif_pos h).trans (if_pos same)

end

section
variable {x y : Regs} {p : Pending} {d : Nat} (loads : x.Loads y p d)
include loads

theorem Regs.Loads.zeroExtended : p.form = 0 → p.n ≤ 8 →
    ∀ j : Fin 48, y.s.get j = if j.val = d then BitVec.ofNat 64 (p.data.toNat % 2 ^ (8 * p.n)) else x.s.get j :=
  fun form _ => value_zeroExtended form ▸ loads.value

theorem Regs.Loads.signExtended : p.form = 1 →
    ∀ j : Fin 48, y.s.get j = if j.val = d then BitVec.ofInt 64 (toInt (8 * p.n) p.data.toNat) else x.s.get j :=
  fun form => value_signExtended form ▸ loads.value

theorem Regs.Loads.poisoned : ∀ e ∈ y.sPoison, e.1 = d → p.poison = some e.2 := by
  intro e he hd
  rcases List.mem_append.mp (loads.poison ▸ he) with old | new
  · exact absurd (List.mem_filter.mp old).2 (Bool.eq_false_iff.mp (bne_eq_false_iff_eq.mpr hd))
  · obtain ⟨src, poisoned, rfl⟩ := Option.map_eq_some_iff.mp (Option.mem_toList.mp new)
    exact poisoned

theorem Regs.Loads.poisons : ∀ src, p.poison = some src → (d, src) ∈ y.sPoison := fun src h =>
  loads.poison ▸ List.mem_append_right _ (Option.mem_toList.mpr (Option.map_eq_some_iff.mpr ⟨src, h, rfl⟩))

end

/-- A scalar load that lands, by either of its events. -/
theorem load_completes {s : State} (p : Pending) (d : Nat)
    (found : ((s.frameAt s.arg.c s.arg.k).loads.find? fun l => l.id == s.arg.id && l.parts == 0) = some p) (scalar : p.dest = .s d) (pos : 0 < d)
    (small : d < 48) (on : p.ben ≠ 0) :
    let f := s.frameAt s.arg.c s.arg.k
    ∃ t, exec .loadComplete s = .next t ∧ exec .vectorLoadLand s = .next t
      ∧ ((t.frameAt s.arg.c s.arg.k).id = f.id ∧ (t.frameAt s.arg.c s.arg.k).tr = f.tr ∧ (t.frameAt s.arg.c s.arg.k).msg = f.msg) ∧ t.mem = s.mem
      ∧ (t.frameAt s.arg.c s.arg.k).loads = dropFirst (· == p) f.loads
      ∧ (p.form = 0 → p.n ≤ 8 → ∀ j : Fin 48, (t.frameAt s.arg.c s.arg.k).r.s.get j =
          if j.val = d then BitVec.ofNat 64 (p.data.toNat % 2 ^ (8 * p.n)) else f.r.s.get j)
      ∧ (p.form = 1 → ∀ j : Fin 48, (t.frameAt s.arg.c s.arg.k).r.s.get j =
          if j.val = d then BitVec.ofInt 64 (toInt (8 * p.n) p.data.toNat) else f.r.s.get j)
      ∧ (∀ e ∈ (t.frameAt s.arg.c s.arg.k).r.sPoison, e.1 = d → p.poison = some e.2)
      ∧ (∀ src, p.poison = some src → (d, src) ∈ (t.frameAt s.arg.c s.arg.k).r.sPoison) := by
  refine landLoad_leads found scalar pos on small fun mem frame loads => ?_
  have part {α : Type} (q : Frame → α) := congrArg q frame
  have loads := (part fun g => (s.frameAt s.arg.c s.arg.k).r.Loads g.r p d).mpr loads
  exact ⟨⟨part (·.id), part (·.tr), part (·.msg)⟩, mem, part (·.loads), loads.zeroExtended, loads.signExtended, loads.poisoned, loads.poisons⟩

theorem landLoad_none {s : State} {c : CoreId} {k : Fin 4} {id : Nat}
    (none : ((s.frameAt c k).loads.find? fun l => l.id == id && l.parts == 0) = none) : s.landLoad c k id = s := by
  unfold State.landLoad
  rw [none]

theorem resultComplete_none {s : State} (none : firstResult (s.frameAt s.arg.c s.arg.k).infl = none) : exec .resultComplete s = .next s := by
  change execResultComplete s = _
  unfold execResultComplete
  dsimp only
  rw [none]

section
variable (s : State) (a b : Word)

theorem fetchAll_pair : ∀ e ∈ (fetchAll s s.arg [a, b]).1, e.1 = a.toNat ∨ e.1 = b.toNat := fun _ he =>
  List.mem_pair.mp (fetchAll_asked s s.arg he)

/-- What the filled entry holds. -/
theorem target_filled {x y : Target} (valid : x.valid = true)
    (is : y = { x with filled := true, code := (fetchAll s s.arg [x.addr, x.addr + 16]).1 }) :
    y.filled = true ∧ y.valid = true ∧ y.addr = x.addr
      ∧ (∀ b w, fetchUnder s s.arg.c s.arg.k s.arg.w1 s.arg.h x.addr = .ok (b, w) → (x.addr.toNat, b) ∈ y.code)
      ∧ ∀ e ∈ y.code, e.1 = x.addr.toNat ∨ e.1 = (x.addr + 16).toNat := by
  subst is
  exact ⟨rfl, valid, rfl, fun _ _ asked => fetchAll_first _ asked, fetchAll_pair s _ _⟩

/-- What the filled level holds. -/
theorem level_filled {x y : Level} (is : y = { x with filled := true, buf := (fetchAll s s.arg x.buffered).1 }) :
    y.filled = true ∧ y.lcnt = x.lcnt ∧ y.lidx = x.lidx ∧ y.lstart = x.lstart ∧ y.lstop = x.lstop
      ∧ (∀ b w, fetchUnder s s.arg.c s.arg.k s.arg.w1 s.arg.h x.lstart = .ok (b, w) → (x.lstart.toNat, b) ∈ y.buf)
      ∧ ∀ e ∈ y.buf, e.1 ∈ [x.lstart.toNat, (x.lstart + 16).toNat, (x.lstop + 16).toNat, (x.lstop + 32).toNat] := by
  subst is
  exact ⟨rfl, rfl, rfl, rfl, rfl, fun _ _ asked => fetchAll_first _ asked, fun _ => fetchAll_asked s s.arg⟩

end

theorem prepFetch_completes {s : State} (u : Fin 8) (hu : s.arg.u = u.val) :
    let f := s.frameAt s.arg.c s.arg.k
    let x := f.ctl.tg.get u
    ((x.valid = false ∨ x.addr ≠ s.arg.w0) → exec .prepFetchComplete s = .next s)
    ∧ (x.valid = true → x.addr = s.arg.w0 → ∃ t, exec .prepFetchComplete s = .next t
      ∧ ((t.frameAt s.arg.c s.arg.k).id = f.id ∧ (t.frameAt s.arg.c s.arg.k).tr = f.tr ∧ (t.frameAt s.arg.c s.arg.k).msg = f.msg) ∧ t.mem = s.mem
      ∧ (t.frameAt s.arg.c s.arg.k).r = f.r ∧ (t.frameAt s.arg.c s.arg.k).ctl.pc = f.ctl.pc
      ∧ let y := (t.frameAt s.arg.c s.arg.k).ctl.tg.get u
        y.filled = true ∧ y.valid = true ∧ y.addr = x.addr
          ∧ (∀ b w, fetchUnder s s.arg.c s.arg.k s.arg.w1 s.arg.h x.addr = .ok (b, w) → (x.addr.toNat, b) ∈ y.code)
          ∧ ∀ e ∈ y.code, e.1 = x.addr.toNat ∨ e.1 = (x.addr + 16).toNat) := by
  have h : s.arg.u < 8 := hu ▸ u.isLt
  obtain rfl : u = ⟨s.arg.u, h⟩ := Fin.ext hu.symm
  intro f x
  refine ⟨prepFetch_stale h rfl, fun valid at_ => ⟨_, prepFetch_fills h rfl valid at_, ?_⟩⟩
  have part {α : Type} (p : Frame → α) := congrArg p (frameAt_targetFilled s h x)
  have is := (part (·.ctl.tg.get ⟨s.arg.u, h⟩)).trans ((vector_get_set _ ⟨s.arg.u, h⟩ _ _).trans (if_pos rfl))
  exact ⟨⟨part (·.id), part (·.tr), part (·.msg)⟩, fetchAll_mem .., part (·.r), part (·.ctl.pc), target_filled s valid (at_ ▸ is)⟩

theorem loopFill_completes {s : State} (u : Fin 6) (hu : s.arg.u = u.val) :
    let f := s.frameAt s.arg.c s.arg.k
    let x := f.ctl.lv.get u
    (x.lstart ≠ s.arg.w0 + 16 → exec .loopBufferFill s = .next s)
    ∧ (x.lstart = s.arg.w0 + 16 → ∃ t, exec .loopBufferFill s = .next t
      ∧ ((t.frameAt s.arg.c s.arg.k).id = f.id ∧ (t.frameAt s.arg.c s.arg.k).tr = f.tr ∧ (t.frameAt s.arg.c s.arg.k).msg = f.msg) ∧ t.mem = s.mem
      ∧ (t.frameAt s.arg.c s.arg.k).r = f.r ∧ (t.frameAt s.arg.c s.arg.k).ctl.pc = f.ctl.pc
      ∧ let y := (t.frameAt s.arg.c s.arg.k).ctl.lv.get u
        y.filled = true ∧ y.lcnt = x.lcnt ∧ y.lidx = x.lidx ∧ y.lstart = x.lstart ∧ y.lstop = x.lstop
          ∧ (∀ b w, fetchUnder s s.arg.c s.arg.k s.arg.w1 s.arg.h x.lstart = .ok (b, w) → (x.lstart.toNat, b) ∈ y.buf)
          ∧ ∀ e ∈ y.buf, e.1 ∈ [x.lstart.toNat, (x.lstart + 16).toNat, (x.lstop + 16).toNat, (x.lstop + 32).toNat]) := by
  have h : s.arg.u < 6 := hu ▸ u.isLt
  obtain rfl : u = ⟨s.arg.u, h⟩ := Fin.ext hu.symm
  intro f x
  refine ⟨loopFill_stale h rfl, fun at_ => ⟨_, loopFill_fills h rfl at_, ?_⟩⟩
  have part {α : Type} (p : Frame → α) := congrArg p (frameAt_bufferFilled s h x)
  have is := (part (·.ctl.lv.get ⟨s.arg.u, h⟩)).trans ((vector_get_set _ ⟨s.arg.u, h⟩ _ _).trans (if_pos rfl))
  exact ⟨⟨part (·.id), part (·.tr), part (·.msg)⟩, fetchAll_mem .., part (·.r), part (·.ctl.pc), level_filled s is⟩

/-- The frame whose refetch for the cycle `n` has come (R153). -/
noncomputable def Frame.fetchedAt (f : Frame) (n : Nat) : Frame :=
  if f.ctl.notBefore = n then { f with ctl := { f.ctl with refetch := false } } else f

theorem fetchedAt_kept {α : Type} (part : Frame → α) (kept : ∀ f : Frame, part { f with ctl := { f.ctl with refetch := false } } = part f) (f : Frame)
    (n : Nat) : part (f.fetchedAt n) = part f := ite_ind (fun g : Frame => part g = part f) (kept f) rfl

theorem fetchedAt_refetch (f : Frame) (n : Nat) : (f.fetchedAt n).ctl.refetch = (f.ctl.refetch && f.ctl.notBefore != n) := by
  unfold Frame.fetchedAt
  split
  next here => rw [here, bne_self_eq_false, Bool.and_false]
  next other => rw [bne_iff_ne.mpr other, Bool.and_true]

theorem bundleFetch_completes (s : State) :
    let f := s.frameAt s.arg.c s.arg.k
    ∃ t, exec .bundleFetch s = .next t
      ∧ ((t.frameAt s.arg.c s.arg.k).id = f.id ∧ (t.frameAt s.arg.c s.arg.k).tr = f.tr ∧ (t.frameAt s.arg.c s.arg.k).msg = f.msg) ∧ t.mem = s.mem
      ∧ (t.frameAt s.arg.c s.arg.k).r = f.r ∧ (t.frameAt s.arg.c s.arg.k).ctl.pc = f.ctl.pc
      ∧ (t.frameAt s.arg.c s.arg.k).ctl.refetch = (f.ctl.refetch && f.ctl.notBefore != s.arg.id) := by
  intro f
  have frame : (s.updFrameAt s.arg.c s.arg.k (·.fetchedAt s.arg.id)).frameAt s.arg.c s.arg.k = f.fetchedAt s.arg.id := frameAt_updFrameAt_self ..
  refine ⟨s.updFrameAt s.arg.c s.arg.k (·.fetchedAt s.arg.id), rfl, ?_⟩
  rw [frame]
  exact ⟨⟨fetchedAt_kept (·.id) (fun _ => rfl) f _, fetchedAt_kept (·.tr) (fun _ => rfl) f _, fetchedAt_kept (·.msg) (fun _ => rfl) f _⟩, rfl,
    fetchedAt_kept (·.r) (fun _ => rfl) f _, fetchedAt_kept (·.ctl.pc) (fun _ => rfl) f _, fetchedAt_refetch f _⟩

/-- Settles O46: results and loads by what they put in the registers, the fetches by what they find. -/
theorem resultsAndFetches : Obligations.ResultsAndFetches := fun s =>
  ⟨resultComplete_none, fun _ first => ⟨(firstResult_some first).1, (firstResult_some first).2, resultComplete_completes first⟩, load_completes,
    fun none => ⟨congrArg Host.Outcome.next (landLoad_none none), congrArg Host.Outcome.next (landLoad_none none)⟩, prepFetch_completes,
    loopFill_completes, bundleFetch_completes s⟩

end Sys2Proof.Machine
end
